-- ==== Sys2Proof/Word.lean ====
section
/-!
DEFINITION. The word types of the model: a byte, the 8-bit operation flag word and the 64-bit counter value.
Numbers the manual only counts or indexes with are `Nat`; logs and exact sums are `Int`.
-/
namespace Sys2Proof

/-- One byte of memory or of a packet. -/
abbrev Byte := BitVec 8

/-- The 8-bit operation flag word of Table 1.9 (R41). -/
abbrev FlagWord := BitVec 8

/-- A 64-bit counter (R69, R214): unsigned, wrapping at 2^64. -/
abbrev Count64 := BitVec 64

end Sys2Proof
end

