-- ==== Sys2Proof/Syntax.lean ====
section
/-!
DEFINITION. The commands of the block: one constructor per row of the command table. A command that the host sends
carries its packet (R339, R340); the opcode is the row's. An event of the device carries what the event names.
-/
namespace Sys2Proof

/-- The last command packet of a command as the device takes it (Table 11.4a): the port it came on (12: the mailbox), its
FLAGS byte, SOURCE, TAG, SEQ and its parameter bytes (PLEN is their number). -/
structure Packet where
  port : Nat
  flags : Nat
  source : Nat
  tag : Nat
  seq : Nat
  params : List Byte
  deriving DecidableEq, Repr

/-- A flit as it is handled beyond the link that carried it (Table 9.4): destination, links crossed, source, traffic class,
virtual channel, the low 16 bits of the crew version, collective or transfer ID, and PAYLOAD. `poison` lists the payload
bytes that come from a poisoned unit (R185 with Table 10.10; how a flit marks them is not given). -/
structure Flit where
  dest : Nat
  hops : Nat
  src : Nat
  tc : Nat
  vc : Nat
  crew : Nat
  cid : Nat
  payload : List Byte
  poison : List Nat
  deriving DecidableEq, Repr

/-- The commands, by the rows of the command table. -/
inductive Instr where
  /-- NOP (R379). Command that does nothing and returns OK. -/
  | nop (p : Packet)
  /-- GET_STATUS (R376). Exempt command returning uptime, queue, power, temperature, awake groups, crew version, local step and Ledger ID. -/
  | getStatus (p : Packet)
  /-- READ_ATTENTION (R353). Exempt command that copies the attention record and clears it and the ATTN bits in one indivisible step. -/
  | readAttention (p : Packet)
  /-- LOGIN_CHALLENGE (R377). Opens a login challenge for a role and key index and returns a fresh device nonce. -/
  | loginChallenge (p : Packet)
  /-- LOGIN_RESPONSE (R378). Verifies the ML-DSA-87 signature over the challenge and grants the role, claims an installer key, or counts a failure. -/
  | loginResponse (p : Packet)
  /-- LOGOUT (R379). Ends the source's role while its non-terminal commands continue. -/
  | logout (p : Packet)
  /-- SET_POWER_STATE (R380). Requests S0, S1, S2 for named groups or S3 for the module, after a one-time admission test. -/
  | setPowerState (p : Packet)
  /-- RESET_CORES (R381). RESET with KIND CORES reinitialises every core, Eight, Cox and Tinker, keeps memory, and aborts commands that use them. -/
  | resetCores (p : Packet)
  /-- RESET_MODULE (R381). RESET with KIND MODULE replies OK and then performs the cold start that RESET_N gives. -/
  | resetModule (p : Packet)
  /-- LEDGER_BEGIN (R411). Opens the single Ledger for the calling source and returns its LEDGER_ID. -/
  | ledgerBegin (p : Packet)
  /-- LEDGER_SET (R383). Stages one setting key value in the open Ledger after range, width and rights checks. -/
  | ledgerSet (p : Packet)
  /-- LEDGER_COMMIT (R413). Stops the idle timer, runs cross-key checks, and holds commands on resources that need a quiet point. -/
  | ledgerCommit (p : Packet)
  /-- LEDGER_ROLLBACK (R412). Discards the open Ledger with nothing applied and writes a rollback record. -/
  | ledgerRollback (p : Packet)
  /-- SETTING_GET (R384). Returns the committed values of up to 255 setting keys. -/
  | settingGet (p : Packet)
  /-- SETTING_SET (R417). Commits one setting key as a one-key Ledger commit. -/
  | settingSet (p : Packet)
  /-- TENSOR_WRITE (R385). Writes bulk data into a tensor, in storage form or as a converted region. -/
  | tensorWrite (p : Packet)
  /-- TENSOR_READ (R385). Checks the range for poison and returns a tensor's storage bytes or a converted region as bulk data. -/
  | tensorRead (p : Packet)
  /-- TENSOR_COPY (R387). Copies planes, a ring slot or a RAW footprint from one tensor to another, propagating poison. -/
  | tensorCopy (p : Packet)
  /-- TENSOR_FILL (R388). Fills tensor planes with one LNS24 value converted to the tensor's format, or with fresh TAL elements. -/
  | tensorFill (p : Packet)
  /-- TENSOR_DEFINE (R191). TENSOR_DEFINE with ACTION 0 creates a handle or replaces its descriptor, zeroing its Assay record and tile tag. -/
  | tensorDefine (p : Packet)
  /-- TENSOR_RELEASE (R191). TENSOR_DEFINE with ACTION 1 removes a live handle from the tensor table. -/
  | tensorRelease (p : Packet)
  /-- ASSAY_READ (R389). Returns a tensor's Assay record and optionally clears it in the same step. -/
  | assayRead (p : Packet)
  /-- NETWORK_LOAD (R147). Validates and stores a network descriptor received as bulk data. -/
  | networkLoad (p : Packet)
  /-- NETWORK_ACTIVATE (R150). Fences each core of the network's core set and then switches its active network. -/
  | networkActivate (p : Packet)
  /-- NETWORK_UNLOAD (R148). Removes a loaded network that is neither active nor named by an accepted command. -/
  | networkUnload (p : Packet)
  /-- OP_RUN (R160). Checks one operator against the predicted state of its cores and queues it. -/
  | opRun (p : Packet)
  /-- GRAPH_RUN (R160). Binds tensor handles to slots, checks every record of a stored graph, and queues the graph. -/
  | graphRun (p : Packet)
  /-- ABORT (R172). Tests a target tag against the tag table indivisibly and aborts it if it is queued or running. -/
  | abort (p : Packet)
  /-- FENCE (R169). Holds later operators on a core set until every earlier operator there is terminal. -/
  | fence (p : Packet)
  /-- STACK_CONFIGURE (R223). STACK_CONFIG with ACTION 0 sets the SRAM areas and spill regions of the selected groups' stacks. -/
  | stackConfigure (p : Packet)
  /-- STACK_CLEAR (R222). STACK_CONFIG with ACTION 1 discards every entry of the selected stacks and keeps their regions. -/
  | stackClear (p : Packet)
  /-- STACK_QUERY (R222). STACK_CONFIG with ACTION 2 returns one record per group describing its stack. -/
  | stackQuery (p : Packet)
  /-- UPDATE_PROGRAM_LOAD (R240). Loads an update program into the program stores of all four Tinkers. -/
  | updateProgramLoad (p : Packet)
  /-- UPDATE_PROGRAM_UNLOAD (R240). UPDATE_PROGRAM_LOAD with NSTEPS 0 unloads the named program. -/
  | updateProgramUnload (p : Packet)
  /-- UPDATE_RUN (R246). Validates an update run's header and entries and queues its two passes on the Tinkers. -/
  | updateRun (p : Packet)
  /-- FREEZE_SET (R258). Reads a mask tensor and stages a freeze entry for a weight tensor in the open Ledger. -/
  | freezeSet (p : Packet)
  /-- PARAM_WRITE (R262). Accepts master-weight values as bulk data for writing through the Tinker of W's quarter. -/
  | paramWrite (p : Packet)
  /-- PAIR_SET_BIND (R314). PAIR_SET BIND on the ward sends PAIR_REQ to the named holder and awaits its answer. -/
  | pairSetBind (p : Packet)
  /-- PAIR_SET_UNBIND (R316). PAIR_SET UNBIND leaves the current holder, which keeps the copy as RETAINED. -/
  | pairSetUnbind (p : Packet)
  /-- PAIR_SET_RELEASE (R316). PAIR_SET RELEASE discards the copy held for a ward in state LOST or RETAINED. -/
  | pairSetRelease (p : Packet)
  /-- PAIR_SET_QUERY (R325). PAIR_SET QUERY returns the pair status record. -/
  | pairSetQuery (p : Packet)
  /-- SECURE (R318). Validates a list of tensors to copy to the holder and returns a SECURE_ID. -/
  | secure (p : Packet)
  /-- RESTORE_SERVE (R329). On the holder, serves elements of a COMPLETE slot tensor to a target tensor in class 7. -/
  | restoreServe (p : Packet)
  /-- LINK_STATUS (R292). Returns one status record per selected link. -/
  | linkStatus (p : Packet)
  /-- ROUTE_LOAD (R290). Replaces entries of the intra-domain or inter-domain route table between two routing decisions. -/
  | routeLoad (p : Packet)
  /-- CREW_LIST_SET (R304). Stores a pending crew list with its effective step, or makes it current at once. -/
  | crewListSet (p : Packet)
  /-- COLLECTIVE_RUN (R293). Moves the local step, checks the crew version and queues a reduce, gather, broadcast or point-to-point collective. -/
  | collectiveRun (p : Packet)
  /-- STREAM_MAP (R356). STREAM_MAP with ACTION 0 maps a (port, VC, data type) to a receive ring. -/
  | streamMap (p : Packet)
  /-- STREAM_UNMAP (R356). STREAM_MAP with ACTION 1 removes a stream that is not running. -/
  | streamUnmap (p : Packet)
  /-- STREAM_QUERY (R356). STREAM_MAP with ACTION 2 returns a stream's status record. -/
  | streamQuery (p : Packet)
  /-- STREAM_START (R361). Starts the selected input streams, resetting their ring headers. -/
  | streamStart (p : Packet)
  /-- STREAM_STOP (R361). Stops the selected streams, abandoning open input frames and letting output frames end. -/
  | streamStop (p : Packet)
  /-- STREAM_OUT (R362). Starts an output stream that sends tensor planes or newly completed ring slots as CSI-2 frames. -/
  | streamOut (p : Packet)
  /-- COUNTERS_READ (R391). Returns the requested counters and readings for a logical core or the device. -/
  | countersRead (p : Packet)
  /-- SPARE_STATUS (R392). Returns the logical-to-physical map, spare states and wear proposals. -/
  | spareStatus (p : Packet)
  /-- REPAIR (R393). Requests the switch of a logical core to its spare, or the retirement of a Tinker into failover. -/
  | repair (p : Packet)
  /-- SELF_TEST (R394). Runs self-tests on named cores and Tinkers and retires any that fail. -/
  | selfTest (p : Packet)
  /-- IDENTITY_GET (R395). Returns part, serial, firmware versions, anti-rollback counter and attestation public key. -/
  | identityGet (p : Packet)
  /-- ATTEST (R428). Returns a signed attestation report over the caller's nonce and the device state. -/
  | attest (p : Packet)
  /-- FW_STAGE (R423). Writes a signed firmware stage image into the inactive slot and verifies it. -/
  | fwStage (p : Packet)
  /-- FW_ACTIVATE (R397). Checks every stage of a slot, makes it preferred on trial and resets the module. -/
  | fwActivate (p : Packet)
  /-- AUDIT_READ (R421). Exports audit records with their anchor and a signature as bulk data. -/
  | auditRead (p : Packet)
  /-- KEY_ENROL (R404). KEY_ENROL with ACTION 0 enrols a public key at an empty operator or installer index. -/
  | keyEnrol (p : Packet)
  /-- KEY_REVOKE (R399). KEY_ENROL with ACTION 1 revokes a key and ends every login made with it. -/
  | keyRevoke (p : Packet)
  /-- COMMAND_CONTINUATION (R343). A command packet with CONTINUATION set is appended to the open parameter block. -/
  | commandContinuation (opcode : Nat) (p : Packet)
  /-- PACKET_DROPPED (R337). A packet with an uncorrectable header, a failed CRC or a bad word count or HDR_VER is dropped and counted. -/
  | packetDropped (port : Nat)
  /-- PACKET_IGNORED (R338). A packet of an unsupported data type, VC or generic short type is ignored and counted. -/
  | packetIgnored (port : Nat)
  /-- BULK_PACKET (R344). A bulk data packet is matched to its open command by source, tag and offset and its data taken. -/
  | bulkPacket (port : Nat) (source : Nat) (tag : Nat) (offset : Nat) (data : List Byte)
  /-- BULK_GAP_TIMEOUT (R345). No bulk packet for BULK_GAP_MS fails the command's bulk data. -/
  | bulkGapTimeout (source : Nat) (tag : Nat)
  /-- SOURCE_EXPIRY (R346). A source with no login and no non-terminal command for 10 s stops being live and is unbound. -/
  | sourceExpiry (source : Nat)
  /-- CHALLENGE_EXPIRY (R377). An open login challenge closes when VALID_MS has passed. -/
  | challengeExpiry (source : Nat)
  /-- LOCKOUT_EXPIRY (R408). A locked key is unlocked after LOCKOUT_S and its failure count restarts at 0. -/
  | lockoutExpiry (role : Nat) (index : Nat)
  /-- LEDGER_IDLE_TIMEOUT (R412). An open Ledger idle for 10 s is rolled back with a rollback record. -/
  | ledgerIdleTimeout
  /-- LEDGER_APPLY (R413). Once every quiet point holds, the Boathouse applies all staged keys and masks, writes audit records and releases held commands. -/
  | ledgerApply
  /-- LEDGER_COMMIT_TIMEOUT (R415). Quiet points not reached within 50 ms roll the commit back and release held commands. -/
  | ledgerCommitTimeout
  /-- PORT_SETTINGS_APPLY (R335). Committed port settings act 1 ms after the reply of the committing command. -/
  | portSettingsApply
  /-- MBX_SUBMIT (R367). An MBX_CTRL write with RELEASE 0 submits the packet in MBX_IN as a command or bulk packet. -/
  | mbxSubmit (bulk : Bool) (len : Nat)
  /-- MBX_RELEASE (R367). An MBX_CTRL write with RELEASE 1 frees MBX_OUT so the next waiting packet is placed. -/
  | mbxRelease
  /-- MBX_OUT_DROP_CLEAR (R366). Writing 1 to OUT_DROP of MBX_STATUS clears it. -/
  | mbxOutDropClear
  /-- I3C_PRIVATE_WRITE (R366). A private or HDR-DDR write sets the window address and writes data to registers with no behaviour of their own. -/
  | i3cPrivateWrite (addr : Nat) (data : List Byte)
  /-- ENTDAA (R364). CCC assigning the target a dynamic address. -/
  | entdaa (addr : Nat)
  /-- SETDASA (R364). CCC setting the dynamic address from the static address. -/
  | setdasa (addr : Nat)
  /-- RSTDAA (R364). CCC resetting the dynamic address. -/
  | rstdaa
  /-- GETPID (R365). CCC returning the 48-bit provisional ID. -/
  | getpid
  /-- GETBCR (R365). CCC returning bus characteristics 0x20. -/
  | getbcr
  /-- GETDCR (R365). CCC returning device characteristics 0x00. -/
  | getdcr
  /-- GETSTATUS (R365). CCC returning the ATTN field in bits [15:8]. -/
  | getstatus
  /-- GETMWL (R364). CCC returning the maximum write length. -/
  | getmwl
  /-- GETMRL (R365). CCC returning the maximum read length. -/
  | getmrl
  /-- SETMWL (R364). CCC setting the maximum write length. -/
  | setmwl (len : Nat)
  /-- SETMRL (R364). CCC setting the maximum read length. -/
  | setmrl (len : Nat)
  /-- ENEC (R364). CCC accepted with no effect. -/
  | enec (events : Nat)
  /-- DISEC (R364). CCC accepted with no effect. -/
  | disec (events : Nat)
  /-- RSTACT_NONE (R365). RSTACT with defining byte 0x00 performs no reset. -/
  | rstactNone
  /-- RSTACT_I3C_RESET (R449). RSTACT with defining byte 0x01 resets the I3C target and mailbox and unbinds mailbox sources. -/
  | rstactI3cReset
  /-- RSTACT_MODULE_RESET (R365). RSTACT with defining byte 0x02 performs the whole-module reset that RESET_N gives. -/
  | rstactModuleReset
  /-- UNSUPPORTED_CCC (R364). Any other CCC or RSTACT defining byte is NACKed. -/
  | unsupportedCcc (code : Nat)
  /-- FRAME_START (R359). A Frame Start on a running input stream opens a frame, abandoning an open one or dropping the frame if the next slot is pinned. -/
  | frameStart (port : Nat) (vc : Nat)
  /-- SENSOR_LINE (R359). A long packet of a mapped data type is converted and written to the frame's slot row or audio rows. -/
  | sensorLine (port : Nat) (vc : Nat) (dt : Nat) (data : List Byte) (crcOk : Bool) (fits : Bool)
  /-- FRAME_END (R359). A Frame End completes the slot, fills unwritten rows with +0 and updates the ring header. -/
  | frameEnd (port : Nat) (vc : Nat)
  /-- OUTPUT_FRAME_SEND (R362). An output stream starts a frame for the next plane or newly completed LAST slot, sending Frame Start and the embedded line. -/
  | outputFrameSend (stream : Nat)
  /-- OUTPUT_FRAME_DONE (R362). The last line and Frame End of an output frame are sent, ending the stream in MODE 0 or after STREAM_STOP. -/
  | outputFrameDone (stream : Nat)
  /-- COMMAND_START (R168). A command held by FENCE_BEFORE or a fence starts once every earlier command is terminal. -/
  | commandStart (source : Nat) (tag : Nat)
  /-- OPERATOR_START (R167). An operator or graph record starts on a core in acceptance order, consuming SLOT sources, resolving rings and checking its start conditions. -/
  | operatorStart (source : Nat) (tag : Nat) (rec : Nat) (core : Nat)
  /-- NETWORK_SWITCH (R150). A core that has finished every earlier operator changes its active network. -/
  | networkSwitch (source : Nat) (tag : Nat) (core : Nat)
  /-- FENCE_COMPLETE (R169). A FENCE completes once every earlier operator on its core set is terminal. -/
  | fenceComplete (source : Nat) (tag : Nat)
  /-- CHUNK_START (R62). A cluster starts a chunk once its lanes finished the previous one and the core's clusters are within two chunks. -/
  | chunkStart (core : Nat) (cluster : Nat)
  /-- CHUNK_COMPLETE (R71). A cluster completes a chunk and its chunk sums are promoted into the tally bank elements. -/
  | chunkComplete (core : Nat) (cluster : Nat)
  /-- TILE_CLOSE (R129). A tile whose clusters finished their last chunk is closed by ROUND, PAIR, EXPORT, PARK or ROUND_EXPORT. -/
  | tileClose (core : Nat)
  /-- FINISH_ENQUEUE (R130). A closed tile held in the Tally buffer enters the Finish queue once it has room. -/
  | finishEnqueue (core : Nat)
  /-- PASS_START (R102). The Eight starts a pass or Finish entry, latching NROWS, VLEN and scalar registers. -/
  | passStart (core : Nat)
  /-- PASS_END (R128). A pass completes, its reductions close and any summary record is written. -/
  | passEnd (core : Nat)
  /-- OPERATOR_COMMIT (R164). After all outputs, exports, slots, Assay counts and flags are written the commit point is recorded and the completion sent. -/
  | operatorCommit (source : Nat) (tag : Nat) (rec : Nat)
  /-- OPERATOR_STOP (R173). An aborted or faulted operator stops at its next chunk or element-group boundary and its ABORTED completion is sent. -/
  | operatorStop (source : Nat) (tag : Nat)
  /-- STACK_PUSH (R229). A SAVE push starts once its size is free in the SRAM area, evicting BOTH entries outside the window. -/
  | stackPush (source : Nat) (tag : Nat) (rec : Nat)
  /-- SPILL_START (R228). The deepest RESIDENT entry outside the window starts spilling to LPDDR5X. -/
  | spillStart (group : Nat)
  /-- SPILL_COMPLETE (R227). A spill copy is fully written and the entry becomes BOTH. -/
  | spillComplete (group : Nat) (stamp : Nat)
  /-- FILL_START (R229). A SPILLED entry that entered the window starts filling into SRAM once room is made. -/
  | fillStart (group : Nat)
  /-- FILL_COMPLETE (R227). A fill finishes and the entry becomes BOTH, releasing any pop waiting on it. -/
  | fillComplete (group : Nat) (stamp : Nat)
  /-- STACK_POP (R232). A STACK_POP starts after earlier stack records, checks top stamp, groups and shape, and writes or discards the entry. -/
  | stackPop (source : Nat) (tag : Nat) (rec : Nat)
  /-- UPDATE_PASS1_START (R247). A Tinker starts pass 1, reading gradients into exact global and layer norm tallies. -/
  | updatePass1Start (source : Nat) (tag : Nat) (tinker : Nat)
  /-- UPDATE_PASS1_END (R247). A Tinker finishes pass 1 and its tallies and counts are ready. -/
  | updatePass1End (source : Nat) (tag : Nat) (tinker : Nat)
  /-- UPDATE_NORMS (R249). After pass 1 and any norm all-reduce the device forms GNORM, layer norms and TRUST, writes NORM_OUT and applies the skip test. -/
  | updateNorms (source : Nat) (tag : Nat)
  /-- UPDATE_ENTRY (R250). A Tinker runs pass 2 of one entry through its program and layer stage and writes W, M, V and WC. -/
  | updateEntry (source : Nat) (tag : Nat) (tinker : Nat)
  /-- UPDATE_RUN_COMMIT (R264). Every Tinker has ended its pass and WC writes are done; the update run's completion is sent. -/
  | updateRunCommit (source : Nat) (tag : Nat)
  /-- PARAM_WRITE_START (R262). PARAM_WRITE starts on its Tinker, checks the freeze state and writes W and WC. -/
  | paramWriteStart (source : Nat) (tag : Nat)
  /-- COPY_BEFORE_WRITE (R320). A Tinker write to an unsent piece reads the piece into the secure buffer first and waits. -/
  | copyBeforeWrite (tensor : Nat) (piece : Nat)
  /-- TINKER_HARD_FAULT (R268). A Tinker is retired at once and its neighbour serves the orphaned quarter. -/
  | tinkerHardFault (tinker : Nat)
  /-- SECURE_CUT (R319). A SECURE starts once earlier Tinker commands are terminal, marks all pieces unsent and sends SLOT_BEGIN. -/
  | secureCut (source : Nat) (tag : Nat)
  /-- SECURE_PIECE_SEND (R319). The ward reads and sends the next unsent piece, then SLOT_END after the last. -/
  | securePieceSend (source : Nat) (tag : Nat)
  /-- PAIR_REQ (R314). The holder decides a BIND request and answers with PAIR_ACK. -/
  | pairReq (f : Flit)
  /-- PAIR_ACK (R314). The ward receives the holder's answer and completes BIND. -/
  | pairAck (f : Flit)
  /-- BIND_TIMEOUT (R314). No PAIR_ACK within 16 × PEER_KA_US completes BIND with PEER_LOST. -/
  | bindTimeout (source : Nat) (tag : Nat)
  /-- UNBIND (R316). The holder receives UNBIND and makes its ward state RETAINED. -/
  | unbind (f : Flit)
  /-- FEED_UPDATE (R315). A member receives its partner's feed settings and re-evaluates its same-feed flags. -/
  | feedUpdate (f : Flit)
  /-- SLOT_BEGIN (R321). The holder starts filling its non-COMPLETE slot with the header received. -/
  | slotBegin (f : Flit)
  /-- PIECE (R321). The holder writes a received piece into the FILLING slot. -/
  | piece (f : Flit)
  /-- SLOT_END (R321). Once all counted pieces are written the holder marks the slot COMPLETE, frees the other and sends SECURED. -/
  | slotEnd (f : Flit)
  /-- SECURED (R321). The ward receives SECURED and the SECURE reaches its commit point. -/
  | secured (f : Flit)
  /-- SECURE_CANCEL (R323). The copy in progress is abandoned; the holder returns the FILLING slot to FREE or the ward's SECURE aborts. -/
  | secureCancel (f : Flit)
  /-- RESTORE_DATA (R330). The target checks the first piece of a serve and writes restore data into its tensor. -/
  | restoreData (f : Flit)
  /-- RESTORE_END (R330). The target answers the end of a serve with RESTORE_ACK OK or its refusal. -/
  | restoreEnd (f : Flit)
  /-- RESTORE_ACK (R330). The holder receives the target's result and completes RESTORE_SERVE. -/
  | restoreAck (f : Flit)
  /-- PEER_KEEPALIVE_SEND (R326). Every PEER_KA_US the device sends a PEER_KEEPALIVE to each watched peer. -/
  | peerKeepaliveSend
  /-- PEER_KEEPALIVE (R328). A routed PEER_KEEPALIVE arrives; STATE 1 suspends the loss timer and STATE 2 declares the sender lost. -/
  | peerKeepalive (f : Flit)
  /-- PEER_LOSS_TIMEOUT (R327). No flit from a watched peer for PEER_KA_US × PEER_MISS declares it lost and ends its collectives and SECUREs. -/
  | peerLossTimeout (peer : Nat)
  /-- LINK_TRAINING_DONE (R273). Link training ends with the link UP, DOWN or in CONFLICT and credits initialised. -/
  | linkTrainingDone (link : Nat) (ok : Bool)
  /-- LINK_RETRY_TIMER (R273). An enabled link in DOWN retries training every 1 s. -/
  | linkRetryTimer (link : Nat)
  /-- DATA_FLIT (R278). A DATA flit is accepted in LSEQ order and delivered or forwarded by the route tables. -/
  | dataFlit (link : Nat) (lseq : Nat) (f : Flit)
  /-- BAD_FLIT (R277). A flit with bad codewords, a bad FCRC or a reserved kind is dropped and counted. -/
  | badFlit (link : Nat) (codeword : Bool) (data : Bool)
  /-- ACK_FLIT (R278). An ACK frees replay buffer entries up to the LSEQ it names. -/
  | ackFlit (link : Nat) (lseq : Nat)
  /-- NAK_FLIT (R279). A NAK makes the sender replay from the named LSEQ, or retrain after RETRY_LIMIT NAKs. -/
  | nakFlit (link : Nat) (lseq : Nat)
  /-- CREDIT_FLIT (R280). A CREDIT flit returns credits per traffic class and virtual channel. -/
  | creditFlit (link : Nat) (payload : List Byte)
  /-- KEEPALIVE_FLIT (R276). A KEEPALIVE carries the peer's address, link number, crew version and state. -/
  | keepaliveFlit (link : Nat) (addr : Option Nat) (peerLink : Nat) (crew : Nat) (state : Nat)
  /-- IDLE_FLIT (R272). An IDLE flit is discarded for rate matching. -/
  | idleFlit (link : Nat)
  /-- LANE_CTRL (R274). A LANE_CTRL flit moves a lane to the spare or changes the link width. -/
  | laneCtrl (link : Nat) (lane : Nat)
  /-- FLIT_SEND (R283). The sender sends the next flit by priority of unsequenced, replay and budgeted DATA flits when a credit is held. -/
  | flitSend (link : Nat)
  /-- ACK_TIMER (R278). An ACK is sent after 1 µs if 64 DATA flits have not already triggered one. -/
  | ackTimer (link : Nat)
  /-- KEEPALIVE_SEND (R281). A link that has sent no flit for KEEPALIVE_US sends a KEEPALIVE. -/
  | keepaliveSend (link : Nat)
  /-- LINK_SILENCE_TIMEOUT (R281). A link receiving no acceptable flit for 16 × KEEPALIVE_US goes DOWN and its replays are rerouted. -/
  | linkSilenceTimeout (link : Nat)
  /-- SER_WINDOW (R274). At the end of each 1 ms window a lane over its symbol error threshold is spared. -/
  | serWindow (link : Nat) (errors : List Nat) (total : Nat)
  /-- LANE_LOSS_OF_LOCK (R274). A lane losing lock is spared, or the link narrows to half width or goes DOWN. -/
  | laneLossOfLock (link : Nat) (lane : Nat)
  /-- COLLECTIVE_START (R295). A collective starts its ring steps and takes any held flits from the match buffer. -/
  | collectiveStart (source : Nat) (tag : Nat)
  /-- COLLECTIVE_FLIT (R296). A collective flit is decoded and its packed elements combined, discarding duplicates, held, or stale-dropped by crew version. -/
  | collectiveFlit (f : Flit)
  /-- CANCEL (R299). A class 1 CANCEL ends a matching collective not yet committed as ABORTED. -/
  | cancel (f : Flit)
  /-- STALE_NOTICE (R308). A STALE notice aborts the running collective of that version and CID with CAUSE 0x26. -/
  | staleNotice (f : Flit)
  /-- COLLECTIVE_COMMIT (R299). A member whose outputs are written and sent flits acknowledged completes the collective. -/
  | collectiveCommit (source : Nat) (tag : Nat)
  /-- COLLECTIVE_STALL_TIMEOUT (R300). A member waiting COLL_STALL_MS for a flit completes ABORTED with CAUSE 0x40. -/
  | collectiveStallTimeout (source : Nat) (tag : Nat)
  /-- LINK_ENGINE_FAULT (R300). A hard fault of the link engine ends its running collectives with CAUSE 0x41. -/
  | linkEngineFault (engine : Nat)
  /-- REFCLK_LOSS (R475). Loss of REFCLK takes every link DOWN and raises LINK/PEER. -/
  | refclkLoss
  /-- REFCLK_RETURN (R475). REFCLK returns and links retrain at their next retry. -/
  | refclkReturn
  /-- STINT_BOUNDARY (R211). A new stint starts, renewing budgets and applying committed stint settings. -/
  | stintBoundary
  /-- SCRUB_PASS (R180). The scrubber reads every SRAM word once per scrub period, correcting and replacing rows. -/
  | scrubPass (fixed : List Nat) (bad : List Nat) (banks : List Nat)
  /-- PATROL_SCRUB (R182). Patrol scrub reads every LPDDR5X block once per period, correcting and marking rows. -/
  | patrolScrub (fixed : List Nat) (bad : List Nat)
  /-- LPDDR_RETRAIN (R183). A package's drift-tracking loop pauses its traffic for up to 2 µs to retrain. -/
  | lpddrRetrain (package : Nat)
  /-- LPDDR_CONTROLLER_FAULT (R463). A package controller failing while running fails its quarter and the device enters DEGRADED. -/
  | lpddrControllerFault (package : Nat)
  /-- CORE_HARD_FAULT (R457). A core's hard fault retires it, aborts its operators and maps its logical core to the spare or loses it. -/
  | coreHardFault (core : Nat)
  /-- SPARE_TAKEOVER (R457). The spare wakes and passes self-test, then takes the next operator of the logical core. -/
  | spareTakeover (core : Nat) (passed : Bool)
  /-- REPAIR_SWITCH (R459). At the core's next command boundary the spare is tested, slots and Till copied, and the map updated. -/
  | repairSwitch (core : Nat) (passed : Bool)
  /-- SPARE_SELF_TEST (R458). An idle spare runs its 24 h self-test and is retired if it fails. -/
  | spareSelfTest (group : Nat) (passed : Bool)
  /-- WEAR_EVALUATION (R454). Every 60 s each monitored unit's WEAR is re-evaluated and proposals listed or removed. -/
  | wearEvaluation (wear : List (Nat × Nat))
  /-- FEED_LOSS (R431). A feed out of range for more than 100 µs is lost and POWER/THERMAL is raised. -/
  | feedLoss (feed : Nat)
  /-- FEED_RESTORE (R431). A lost feed back in range for 10 ms is restored. -/
  | feedRestore (feed : Nat)
  /-- BOTH_FEEDS_LOST (R472). Both feeds out of range stop every clock domain except the Boathouse and drive POWER_OK low. -/
  | bothFeedsLost
  /-- POWER_UP (R476). The first feed enters range and the input capacitance begins charging. -/
  | powerUp (feed : Nat)
  /-- RAILS_IN_REGULATION (R476). Module rails reach regulation and POWER_OK is released high. -/
  | railsInRegulation
  /-- RESET_N_ASSERT (R473). A RESET_N low pulse of at least 10 µs starts a cold start. -/
  | resetNAssert
  /-- RESET_N_RELEASE (R447). RESET_N release starts the cold-start boot, link training and strap sampling. -/
  | resetNRelease
  /-- READY (R447). The cold start completes, writing the boot record, raising the anti-rollback counter and placing groups in READY_STATE. -/
  | ready
  /-- CORES_RESET_DONE (R449). A CORES reset completes and commands accepted meanwhile may start. -/
  | coresResetDone
  /-- POWER_SAMPLE (R433). Every 10 µs input power is sampled and the cap loop throttles or releases to hold the 1 ms average. -/
  | powerSample (watts : Nat)
  /-- TEMP_SAMPLE (R435). Every 100 µs core temperatures are sampled and thermal ceilings lowered or raised. -/
  | tempSample (temps : List Int)
  /-- THERMAL_TRIP_RECOVERY (R478). After RESET_N, every sensor below 100 °C for 1 s releases THERM_TRIP_N and starts the cold start. -/
  | thermalTripRecovery
  /-- VF_LOOP_STEP (R443). Every 10 µs each core's loop moves voltage and frequency toward its lowest ceiling. -/
  | vfLoopStep (core : Nat)
  /-- THERMAL_PLACEMENT (R444). Every 100 ms each group's THERMAL_ADVICE rating is published. -/
  | thermalPlacement (advice : List Nat)
  /-- INLET_EXCURSION (R480). INLET_C above its limit for the committed CAP_W raises POWER/THERMAL once per excursion. -/
  | inletExcursion (inlet : Int)
  /-- AUTO_LIGHT_TIMEOUT (R439). A group idle for AUTO_LIGHT_US in S0 is requested into S1. -/
  | autoLightTimeout (group : Nat)
  /-- AUTO_DEEP_TIMEOUT (R439). A group idle for AUTO_DEEP_MS in S0 or S1 is requested into S2. -/
  | autoDeepTimeout (group : Nat)
  /-- GROUP_STATE_ENTRY (R439). A group enters S1 or S2 at its next command boundary after the request. -/
  | groupStateEntry (group : Nat)
  /-- S3_ENTRY (R439). Once every earlier command is terminal the module enters Housed, losing SRAM, stacks and Tinker stores. -/
  | s3Entry
  /-- WAKE_ON_DEMAND (R440). A command due to start on a sleeping group wakes it once admission passes. -/
  | wakeOnDemand (source : Nat) (tag : Nat)
  /-- WAKE_COMPLETE (R438). A waking group or module reaches its target state and held commands start. -/
  | wakeComplete (group : Nat)
  /-- MODULE_WAKE (R441). A waking command arriving in S3 brings groups to S2 and needed groups to S0. -/
  | moduleWake
  /-- LINK_S2_IDLE_TIMEOUT (R446). After 10 ms without DATA flits the links and shared units return to S2 behaviour. -/
  | linkS2IdleTimeout
  /-- TENSOR_COMMAND_DONE (R387). A TENSOR_WRITE, TENSOR_READ, TENSOR_COPY or TENSOR_FILL finishes its memory traffic and completes with the generic block or its result. -/
  | tensorCommandDone (source : Nat) (tag : Nat)
  /-- RESTORE_DATA_SEND (R329). The holder reads the next range of the COMPLETE slot tensor and sends it as RESTORE_DATA, then RESTORE_END after the last. -/
  | restoreDataSend (source : Nat) (tag : Nat)
  /-- RESTORE_TARGET_SILENT (R330). A serve whose target stays silent for COLL_STALL_MS completes ABORTED with CAUSE 0x40. -/
  | restoreTargetSilent (source : Nat) (tag : Nat)
  /-- RESET_HOLD_RELEASE (R476). When RESET_N was already high before the rails reached regulation, the module ends its self-held reset 1 ms after that point and starts the cold start. -/
  | resetHoldRelease
  deriving DecidableEq, Repr

end Sys2Proof
end

