-- ==== Sys2Proof/Decode.lean ====
section
/-!
DEFINITION. The command a word spells by the bits of the command table. No row of the table gives bits: a command reaches
the block as a packet, a transfer or an event, whose layout its own constructor and chapter give.
-/
namespace Sys2Proof

/-- The command of a word of `nbits` bits. No row of the command table has bit fields, so no word spells a command.
(DESIGN CHOICE, log entry 4.) -/
def decodeTableWord (_nbits _w : Nat) : Option Instr := none

end Sys2Proof
end

