-- ==== Sys2Proof/Machine/Flags.lean ====
section
/-!
DEFINITION. The operation flag word of Table 1.9 (R41): one bit per condition, combined by OR and never cleared within
an operator.
-/
namespace Sys2Proof.Machine

/-- No flag. -/
def flagNone : FlagWord := 0x00
/-- A NaN arose from non-NaN operands, or an invalid BLNS8 block was decoded. -/
def flagInvalid : FlagWord := 0x01
/-- A value became Inf, or a Tally element saturated. -/
def flagOverflow : FlagWord := 0x02
/-- A finite nonzero value became zero under R26, R35 or R30. -/
def flagUnderflow : FlagWord := 0x04
/-- A Tally closed far below the largest chunk sum it saw (R86). -/
def flagCancel : FlagWord := 0x08
/-- A reduction had an empty or fully masked input. -/
def flagEmpty : FlagWord := 0x10
/-- A BLNS8 encoding flushed a finite nonzero value to zero. -/
def flagBlockFlush : FlagWord := 0x20
/-- An operand was NaN, or an FP input was NaN. -/
def flagNanIn : FlagWord := 0x40
/-- A conversion into LIN or PW, or a STOCH threshold, saturated. -/
def flagSatLin : FlagWord := 0x80

/-- The OR of a list of flag words (R41). -/
def flagsOr (fs : List FlagWord) : FlagWord := fs.foldl (· ||| ·) 0

/-- A flag raised when a condition holds. -/
def flagIf (c : Bool) (f : FlagWord) : FlagWord := if c then f else 0

end Sys2Proof.Machine
end

