-- ==== Sys2Proof/Machine/Num.lean ====
section
/-!
DEFINITION. Exact numbers, round-to-nearest-even, ANTILOG24 (R24) and the LOG conversion (R25): the arithmetic every
other chapter rests on. Logs are integers in units of 2^-16, the grid of R24 and R25; linear values are exact dyadic
rationals `m * 2^e`.
-/
namespace Sys2Proof.Machine

/-- `round_ne` of the manual: `n / d` rounded to the nearest integer, ties to even (`d > 0`). -/
def roundNE (n : Int) (d : Nat) : Int :=
  let q := n / (d : Int)
  let r := n % (d : Int)
  if 2 * r < (d : Int) then q
  else if (d : Int) < 2 * r then q + 1
  else if q % 2 = 0 then q else q + 1

/-- `round_ne (n * 2^e)` for an integer exponent of either sign. -/
def roundShift (n : Int) (e : Int) : Int :=
  if 0 ≤ e then n * 2 ^ e.toNat else roundNE n (2 ^ (-e).toNat)

/-- An exact dyadic rational, `m * 2^e`. -/
structure Dy where
  m : Int
  e : Int
  deriving DecidableEq, Repr

/-- The numerator of a dyadic rational over `2^u`, for a `u` at most its exponent. -/
def Dy.over (x : Dy) (u : Int) : Int := x.m * 2 ^ (x.e - u).toNat

/-- The exact sum. -/
def Dy.add (x y : Dy) : Dy :=
  let u := min x.e y.e
  ⟨x.over u + y.over u, u⟩

/-- The exact negation. -/
def Dy.neg (x : Dy) : Dy := ⟨-x.m, x.e⟩

/-- The exact difference. -/
def Dy.sub (x y : Dy) : Dy := x.add y.neg

/-- The exact product with `2^n`. -/
def Dy.scale (x : Dy) (n : Int) : Dy := ⟨x.m, x.e + n⟩

/-- `x < y`, exactly. -/
def Dy.lt (x y : Dy) : Bool := (x.sub y).m < 0

/-- `|x|`. -/
def Dy.abs (x : Dy) : Dy := ⟨x.m.natAbs, x.e⟩

/-- `x` squared `k` times: `x ^ (2 ^ k)`. -/
def sqn : Nat → Nat → Nat
  | 0, x => x
  | k + 1, x => sqn k (x * x)

/-- The floor of the `2^16`-th root of `t`, found bit by bit from `b` bits downwards. -/
def rootSearch (t : Nat) : Nat → Nat → Nat
  | 0, acc => acc
  | b + 1, acc =>
    let c := acc + 2 ^ b
    rootSearch t b (if sqn 16 c ≤ t then c else acc)

/-- R24 by its own words: `round_ne (2^(j/65536) * 2^24)`. The integer root `⌊2^(25 + j/65536)⌋` is exact, and no tie
occurs (`2^f` is irrational for `0 < f < 1`), so half of it rounded up is the nearest integer. -/
def antilogExact (j : Nat) : Nat := (rootSearch (2 ^ (25 * 65536 + j)) 26 0 + 1) / 2

/-- `⌊2^(2^-i) * 2^80⌋` for `i` from 1 to 16: the factors of `2^f`. -/
def rootTwo : List Nat :=
  [1709679290002018430137083,
   1437663186196213140458842,
   1318342954508437536241608,
   1262449538323130218023826,
   1235397847998530554068052,
   1222090158679699302578122,
   1215490167267850712533606,
   1212203550026895909267883,
   1210563575470544329506585,
   1209744420392730641853729,
   1209335050739664291965116,
   1209130417864073012721891,
   1209028114411448882261164,
   1208976965931109249568920,
   1208951392502392488940613,
   1208938605990892366202392]

/-- A lower bound of `2^(j/65536) * 2^80`: the product of the factors whose bit of `j` is set, each rounded down. -/
def antilogLow (j : Nat) : List Nat → Nat → Nat → Nat
  | [], _, acc => acc
  | c :: cs, b, acc => antilogLow j cs (b - 1) (if j.testBit b then acc * c / 2 ^ 80 else acc)

/-- ANTILOG24 (R24) for `j` in 0..65535, as the 25-bit integer mantissa `2^24 ≤ M < 2^25`. The factored product is
within `2^6` units of `2^-80` of the exact value; where that bound does not decide the rounding, `antilogExact` does. -/
def antilog24 (j : Nat) : Nat :=
  let lo := antilogLow j rootTwo 15 (2 ^ 80)
  let a := (lo + 2 ^ 55) / 2 ^ 56
  let b := (lo + 128 + 2 ^ 55) / 2 ^ 56
  if a = b then a else antilogExact j

/-- `⌊L⌋` of a log in units of 2^-16. -/
def logFloor (l : Int) : Int := l / 65536

/-- The fraction index `j = (L - ⌊L⌋) * 2^16` of a log in units of 2^-16. -/
def logFrac (l : Int) : Nat := (l % 65536).toNat

/-- `V(L) = ANTILOG24(L - ⌊L⌋) * 2^⌊L⌋` (R24), with a sign. -/
def linearV (neg : Bool) (l : Int) : Dy :=
  let m : Int := antilog24 (logFrac l)
  ⟨if neg then -m else m, logFloor l - 24⟩

/-- `⌊2^17 * log2 (M / 2^24)⌋` by its own words, for `2^24 ≤ M < 2^25`. -/
def log17Exact (M : Nat) : Nat := Nat.log2 (sqn 17 M) - 24 * 131072

/-- The leading `n` binary digits of `log2 (x / 2^96)` for `x` in `[2^96, 2^97)`, each squaring rounded down
(`up = 0`) or up (`up = 2^96 - 1`). -/
def logDigits (up : Nat) : Nat → Nat → Nat → Nat
  | 0, _, acc => acc
  | n + 1, x, acc =>
    let y := (x * x + up) / 2 ^ 96
    if 2 ^ 97 ≤ y then logDigits up n ((y + (if up = 0 then 0 else 1)) / 2) (2 * acc + 1)
    else logDigits up n y (2 * acc)

/-- Step 3 of R25: `round_ne (log2 m24 * 2^16)` for `m24 = M / 2^24`. No tie occurs unless `m24 = 1`. Digits that the
two roundings agree on are exact; otherwise the exact power decides. -/
def logMantissa (M : Nat) : Nat :=
  let x := M * 2 ^ 72
  let a := logDigits 0 17 x 0
  let b := logDigits (2 ^ 96 - 1) 17 x 0
  ((if a = b then a else log17Exact M) + 1) / 2

/-- Step 1 of R25 for a positive rational: the exponent `e` with `2^e ≤ num/den < 2^(e+1)`. -/
def ratExp (num den : Nat) : Int :=
  let e0 : Int := (Nat.log2 num : Int) - Nat.log2 den
  if den * 2 ^ e0.toNat ≤ num * 2 ^ (-e0).toNat then e0 else e0 - 1

/-- Steps 1 to 4 of R25 for the positive rational `num/den`: the intermediate log in units of 2^-16. The mantissa is
truncated to 24 fraction bits. -/
def logOfRat (num den : Nat) : Int :=
  let e := ratExp num den
  let s := 24 - e
  let M := num * 2 ^ s.toNat / (den * 2 ^ (-s).toNat)
  e * 65536 + logMantissa M

/-- Steps 1 to 4 of R25 for a nonzero dyadic magnitude. -/
def logOfDy (x : Dy) : Int := logOfRat x.m.natAbs 1 + x.e * 65536

/-- Step 5 of R25: a log in units of 2^-16 rounded to the grid of `f` fraction bits. -/
def logRound (l : Int) (f : Nat) : Int := roundNE l (2 ^ (16 - f))

end Sys2Proof.Machine
end

