-- ==== Sys2Proof/Machine/Lns.lean ====
section
/-!
DEFINITION. Chapter 1: the number formats, their encodings, ordering and every conversion between them (R14 to R40,
R483). A value is held as its sign and its log in units of 2^-16; each format's grid is a divisor of that unit.
-/
namespace Sys2Proof.Machine

/-- The formats of Table 1.1. -/
inductive Fmt where
  | lns8 | lns12 | lns16 | lns24 | blns8 | pw4 | pw8 | lin8 | lin16 | tal | fp32 | fp16 | bf16
  deriving DecidableEq, Repr

/-- R14: the format named by a code; none for an unlisted code. -/
def Fmt.ofCode (c : Nat) : Option Fmt :=
  match c with
  | 0x01 => some .lns8 | 0x02 => some .lns12 | 0x03 => some .lns16 | 0x04 => some .lns24
  | 0x05 => some .blns8 | 0x08 => some .pw4 | 0x09 => some .pw8
  | 0x0C => some .lin8 | 0x0D => some .lin16 | 0x10 => some .tal
  | 0x20 => some .fp32 | 0x21 => some .fp16 | 0x22 => some .bf16
  | _ => none

/-- The code of a format (Table 1.1). -/
def Fmt.code : Fmt → Nat
  | .lns8 => 0x01 | .lns12 => 0x02 | .lns16 => 0x03 | .lns24 => 0x04 | .blns8 => 0x05
  | .pw4 => 0x08 | .pw8 => 0x09 | .lin8 => 0x0C | .lin16 => 0x0D | .tal => 0x10
  | .fp32 => 0x20 | .fp16 => 0x21 | .bf16 => 0x22

/-- R15: the interchange formats exist only on the wire. -/
def Fmt.isWire : Fmt → Bool
  | .fp32 | .fp16 | .bf16 => true
  | _ => false

/-- LNS8, LNS12, LNS16 or LNS24. -/
def Fmt.isLns : Fmt → Bool
  | .lns8 | .lns12 | .lns16 | .lns24 => true
  | _ => false

/-- LIN8 or LIN16. -/
def Fmt.isLin : Fmt → Bool
  | .lin8 | .lin16 => true
  | _ => false

/-- Bits of one element as it is packed (R16); a BLNS8 element is its 8-bit code, its scale apart. -/
def Fmt.bits : Fmt → Nat
  | .lns8 => 8 | .lns12 => 12 | .lns16 => 16 | .lns24 => 24 | .blns8 => 8 | .pw4 => 4 | .pw8 => 8
  | .lin8 => 8 | .lin16 => 16 | .tal => 384 | .fp32 => 32 | .fp16 => 16 | .bf16 => 16

/-- A value of the log number system: its sign and its log in units of 2^-16 (R17, R18). -/
inductive LVal where
  | zero (neg : Bool)
  | inf (neg : Bool)
  | nan
  | fin (neg : Bool) (log : Int)
  deriving DecidableEq, Repr

/-- +1. -/
def LVal.one : LVal := .fin false 0
/-- +0. -/
def LVal.pzero : LVal := .zero false

/-- The value with its sign reversed where `c` holds; a NaN has none. -/
def LVal.negIf (c : Bool) : LVal → LVal
  | .zero n => .zero (n != c)
  | .inf n => .inf (n != c)
  | .nan => .nan
  | .fin n l => .fin (n != c) l

/-- The value is a NaN. -/
def LVal.isNan : LVal → Bool
  | .nan => true
  | _ => false

/-- The value is finite and nonzero. -/
def LVal.isFin : LVal → Bool
  | .fin _ _ => true
  | _ => false

/-- NAN_IN for a NaN operand (R42). -/
def nanIn (v : LVal) : FlagWord := flagIf v.isNan flagNanIn

/-- The linear value V(L) of a finite value, 0 for a zero; Inf and NaN have none and give 0. -/
def LVal.linear : LVal → Dy
  | .fin n l => linearV n l
  | _ => ⟨0, 0⟩

/-- The shape of an LNS format: bits of the log field and its fraction bits (Table 1.2). -/
structure LnsShape where
  w : Nat
  f : Nat
  deriving DecidableEq, Repr

/-- Q4.3. -/
def shape8 : LnsShape := ⟨7, 3⟩
/-- Q6.5. -/
def shape12 : LnsShape := ⟨11, 5⟩
/-- Q7.8. -/
def shape16 : LnsShape := ⟨15, 8⟩
/-- Q8.15. -/
def shape24 : LnsShape := ⟨23, 15⟩

/-- The shape of an LNS format; BLNS8 elements have that of LNS8. -/
def Fmt.shape : Fmt → LnsShape
  | .lns8 | .blns8 => shape8
  | .lns12 => shape12
  | .lns16 => shape16
  | _ => shape24

/-- The largest finite log in units of the format's grid (R19). -/
def LnsShape.maxLog (sh : LnsShape) : Int := 2 ^ (sh.w - 1) - 3
/-- The smallest nonzero log in units of the format's grid (R19). -/
def LnsShape.minLog (sh : LnsShape) : Int := 1 - 2 ^ (sh.w - 1)

/-- The element code of a sign and a log field. -/
def lnsField (sh : LnsShape) (neg : Bool) (lg : Int) : Nat :=
  (lg % 2 ^ sh.w).toNat + (if neg then 2 ^ sh.w else 0)

/-- R17, R18: the value of an LNS code. -/
def lnsDecode (sh : LnsShape) (c : Nat) : LVal :=
  let neg := c.testBit sh.w
  let u := c % 2 ^ sh.w
  let half := 2 ^ (sh.w - 1)
  if u = half then .zero neg
  else if u = half - 1 then .inf neg
  else if u = half - 2 then .nan
  else .fin neg ((if u < half then (u : Int) else (u : Int) - 2 ^ sh.w) * 2 ^ (16 - sh.f))

/-- What writing one element gives: its code, the flags raised, and whether a finite nonzero value was flushed to zero
(the flushed bin of R132). -/
structure Enc where
  code : Nat
  flags : FlagWord
  flushed : Bool
  deriving DecidableEq, Repr

/-- R26: a log on the format's grid written with a sign. -/
def lnsRange (sh : LnsShape) (neg : Bool) (lg : Int) : Enc :=
  if sh.maxLog < lg then ⟨lnsField sh neg (2 ^ (sh.w - 1) - 1), flagOverflow, false⟩
  else if lg < sh.minLog then ⟨lnsField sh neg (-(2 ^ (sh.w - 1))), flagUnderflow, true⟩
  else ⟨lnsField sh neg lg, 0, false⟩

/-- R25 step 5 and R26, R29: a value written in an LNS format. A NaN is written with sign 0 and raises nothing here. -/
def lnsEncode (sh : LnsShape) : LVal → Enc
  | .zero n => ⟨lnsField sh n (-(2 ^ (sh.w - 1))), 0, false⟩
  | .inf n => ⟨lnsField sh n (2 ^ (sh.w - 1) - 1), 0, false⟩
  | .nan => ⟨lnsField sh false (2 ^ (sh.w - 1) - 2), 0, false⟩
  | .fin n l => lnsRange sh n (logRound l sh.f)

/-- A value after it has been written in an LNS format and read back, with the flags of the write. -/
def lnsThrough (sh : LnsShape) (v : LVal) : LVal × FlagWord :=
  let e := lnsEncode sh v
  (lnsDecode sh e.code, e.flags)

/-- A result written as an LNS24 seat value (R104, R110). -/
def seat (v : LVal) : LVal × FlagWord := lnsThrough shape24 v

/-! ## Order (R20, R21) -/

/-- A key of the total order of R21 for a value that is not a NaN. -/
def LVal.key : LVal → Int × Int
  | .zero n => (if n then -1 else 1, 0)
  | .inf n => (if n then -3 else 3, 0)
  | .nan => (0, 0)
  | .fin n l => if n then (-2, -l) else (2, l)

/-- Strictly below in the total order of R21. -/
def LVal.below (a b : LVal) : Bool :=
  a.key.1 < b.key.1 || (a.key.1 == b.key.1 && decide (a.key.2 < b.key.2))

/-- R20 compares by real value: both zeros count as one. -/
def LVal.cmpForm : LVal → LVal
  | .zero _ => .zero false
  | v => v

/-- The six comparisons of R20, by their codes 0x18 to 0x1D of Table 4.4. -/
inductive Cmp where
  | lt | le | eq | ne | gt | ge
  deriving DecidableEq, Repr

/-- The comparison of a code of Table 4.4. -/
def Cmp.ofCode (c : Nat) : Option Cmp :=
  match c with
  | 0x18 => some .lt | 0x19 => some .le | 0x1A => some .eq
  | 0x1B => some .ne | 0x1C => some .gt | 0x1D => some .ge
  | _ => none

/-- R20: a comparison. A NaN operand is unordered: only NE holds. -/
def Cmp.holds (c : Cmp) (a b : LVal) : Bool :=
  if a.isNan || b.isNan then c == .ne
  else
    let x := a.cmpForm
    let y := b.cmpForm
    match c with
    | .lt => x.below y
    | .le => !(y.below x)
    | .eq => x == y
    | .ne => x != y
    | .gt => y.below x
    | .ge => !(x.below y)

/-- R20 on unsigned integers (COUNT and flag words of SKIP_IF, R159). -/
def Cmp.holdsNat (c : Cmp) (a b : Nat) : Bool :=
  match c with
  | .lt => a < b
  | .le => a ≤ b
  | .eq => a = b
  | .ne => a ≠ b
  | .gt => b < a
  | .ge => b ≤ a

/-- MAX of R21, with NAN_IN for a NaN operand. -/
def lvMax (a b : LVal) : LVal × FlagWord :=
  if a.isNan || b.isNan then (.nan, flagNanIn) else (if a.below b then b else a, 0)

/-- MIN of R21. -/
def lvMin (a b : LVal) : LVal × FlagWord :=
  if a.isNan || b.isNan then (.nan, flagNanIn) else (if b.below a then b else a, 0)

/-! ## Products (R22, R23) -/

/-- Table 1.4: the log-domain product, exact in log. -/
def lvMul (a b : LVal) : LVal × FlagWord :=
  match a, b with
  | .nan, _ => (.nan, flagNanIn)
  | _, .nan => (.nan, flagNanIn)
  | .zero _, .inf _ => (.nan, flagInvalid)
  | .inf _, .zero _ => (.nan, flagInvalid)
  | .zero m, .zero n => (.zero (m != n), 0)
  | .zero m, .fin n _ => (.zero (m != n), 0)
  | .fin m _, .zero n => (.zero (m != n), 0)
  | .inf m, .inf n => (.inf (m != n), 0)
  | .inf m, .fin n _ => (.inf (m != n), 0)
  | .fin m _, .inf n => (.inf (m != n), 0)
  | .fin m k, .fin n l => (.fin (m != n) (k + l), 0)

/-! ## Values to convert -/

/-- A value on its way into a format: one with a log (an LNS or BLNS8 element, or a close's L* of R84), or one with an
exact linear value (an FP input, R25). -/
inductive XVal where
  | log (v : LVal)
  | lin (x : Dy)
  deriving DecidableEq, Repr

/-- The value in the log number system: step 4 of R25 for a linear value. The linear value 0 is +0. -/
def XVal.toLog : XVal → LVal
  | .log v => v
  | .lin x => if x.m = 0 then .zero false else .fin (x.m < 0) (logOfDy x)

/-- The exact linear value of a finite value: V(L) for a log (R35). -/
def XVal.toLin : XVal → Dy
  | .log v => v.linear
  | .lin x => x

/-! ## PW4 and PW8 (R34, R35) -/

/-- The value of one PW term in units of 2^-6: `s` its sign bit, `e` its exponent field. -/
def pwTerm (s : Bool) (e : Nat) : Int :=
  if e = 7 then 0 else if s then -(2 ^ (6 - e)) else 2 ^ (6 - e)

/-- R34: the value of a PW4 code in units of 2^-6. -/
def pw4Value (c : Nat) : Int := pwTerm (c.testBit 3) (c % 8)

/-- R34: the value of a PW8 code in units of 2^-6. -/
def pw8Value (c : Nat) : Int := pwTerm (c.testBit 7) (c / 16 % 8) + pwTerm (c.testBit 3) (c % 8)

/-- Present terms of a PW4 code. -/
def pw4Terms (c : Nat) : Nat := if c % 8 = 7 then 0 else 1
/-- Present terms of a PW8 code. -/
def pw8Terms (c : Nat) : Nat := (if c / 16 % 8 = 7 then 0 else 1) + (if c % 8 = 7 then 0 else 1)

/-- The distance of `x` from a code value `v / 64`. -/
def pwDist (x : Dy) (v : Int) : Dy := (x.sub ⟨v, -6⟩).abs

/-- The nearer of two codes to `x`; then the one with fewer present terms, then the smaller (R35). -/
def pwBetter (val : Nat → Int) (terms : Nat → Nat) (x : Dy) (a b : Nat) : Nat :=
  let da := pwDist x (val a)
  let db := pwDist x (val b)
  if da.lt db then a
  else if db.lt da then b
  else if terms a < terms b then a
  else if terms b < terms a then b
  else min a b

/-- The code of the list `c :: cs` that R35 writes for `x`. -/
def pwNearest (val : Nat → Int) (terms : Nat → Nat) (x : Dy) (n : Nat) : Nat :=
  (List.range n).foldl (pwBetter val terms x) 0

/-- R35: conversion into PW4 (`wide = false`) or PW8. -/
def pwEncode (wide : Bool) (v : XVal) : Enc :=
  let val := if wide then pw8Value else pw4Value
  let terms := if wide then pw8Terms else pw4Terms
  let n := if wide then 256 else 16
  let top : Int := if wide then 128 else 64
  let zc := if wide then 0x77 else 0x7
  match v.toLog with
  | .nan => ⟨zc, flagInvalid, false⟩
  | .zero _ => ⟨zc, 0, false⟩
  | .inf s => ⟨pwNearest val terms ⟨if s then -top else top, -6⟩ n, flagSatLin, false⟩
  | .fin s _ =>
    let x := v.toLin
    if (Dy.mk top (-6)).lt x.abs then
      ⟨pwNearest val terms ⟨if s then -top else top, -6⟩ n, flagSatLin, false⟩
    else
      let c := pwNearest val terms x n
      let z := val c = 0
      ⟨if z then zc else c, flagIf z flagUnderflow, z⟩

/-! ## LIN8 and LIN16 (R36 to R38) -/

/-- The two's-complement code of an integer. -/
def twos (bits : Nat) (q : Int) : Nat := (q % 2 ^ bits).toNat
/-- The integer of a two's-complement code. -/
def untwos (bits : Nat) (c : Nat) : Int := if c.testBit (bits - 1) then (c : Int) - 2 ^ bits else c

/-- Step 3 of R37 and the threshold of R55: `round_ne(ANTILOG24(Q - ⌊Q⌋) * 2^(⌊Q⌋ + s))`. -/
def antilogRound (q : Int) (s : Int) : Int := roundShift (antilog24 (logFrac q)) (logFloor q + s - 24)

/-- R37: conversion into LIN8 or LIN16 with the tensor scale's log `ls`. -/
def linEncode (bits : Nat) (ls : Int) (v : XVal) : Enc :=
  let hi : Int := 2 ^ (bits - 1) - 1
  let lo : Int := -(2 ^ (bits - 1))
  match v.toLog with
  | .nan => ⟨0, flagInvalid, false⟩
  | .zero _ => ⟨0, 0, false⟩
  | .inf s => ⟨twos bits (if s then lo else hi), flagSatLin, false⟩
  | .fin s l =>
    -- a log far above the format saturates before the shift is formed
    let a : Int := if 64 * 65536 < l - ls then 2 ^ 40 else antilogRound (l - ls) 0
    let q := if s then -a else a
    if hi < q then ⟨twos bits hi, flagSatLin, false⟩
    else if q < lo then ⟨twos bits lo, flagSatLin, false⟩
    else ⟨twos bits q, 0, q = 0⟩

/-- R38 steps before the rounding: the log of a LIN element, on the 2^-16 grid. -/
def linLog (ls : Int) (q : Int) : LVal :=
  if q = 0 then .zero false else .fin (q < 0) (logOfRat q.natAbs 1 + ls)

/-! ## BLNS8 (R31 to R33) -/

/-- R31: an element of a BLNS8 block with the scale byte `sc`. INVALID where the scale is 0x80 and the element finite. -/
def blnsDecode (sc : Nat) (c : Nat) : LVal × FlagWord :=
  match lnsDecode shape8 c with
  | .fin n l => if sc = 0x80 then (.nan, flagInvalid) else (.fin n (l + untwos 8 sc * 65536), 0)
  | v => (v, 0)

/-- R32: a value as the block encoder takes it: beyond the LNS24 range it becomes Inf (OVERFLOW), below it a zero that raises
no flag. `true`: a finite nonzero value became that zero, which the Assay counts as flushed (R132). -/
def blnsClamp (v : XVal) : LVal × FlagWord × Bool :=
  match v.toLog with
  | .fin n l =>
    if shape24.maxLog * 2 < l then (.inf n, flagOverflow, false)
    else if l < shape24.minLog * 2 then (.zero n, 0, true)
    else (.fin n l, 0, false)
  | w => (w, 0, false)

/-- The largest log among the finite nonzero values of a block. -/
def blnsMax : List LVal → Option Int
  | [] => none
  | .fin _ l :: vs => some (match blnsMax vs with | some m => max l m | none => l)
  | _ :: vs => blnsMax vs

/-- The scale σ of R32 for the largest log: the smallest integer that brings it within 7.625, at least -127. -/
def blnsScale (lmax : Int) : Int := max (-127) (-((-(lmax - 499712)) / 65536))

/-- Steps 3 to 5 of R32 for one value under the scale σ. -/
def blnsElem (σ : Int) : LVal → Enc
  | .fin n l =>
    let r := logRound (l - σ * 65536) 3
    if r < shape8.minLog then ⟨lnsField shape8 n (-64), flagBlockFlush, true⟩ else ⟨lnsField shape8 n r, 0, false⟩
  | v => lnsEncode shape8 v

/-- R32: a block of values encoded: the element results, each with all the flags it raises, and the scale byte. -/
def blnsEncode (vs : List XVal) : List Enc × Nat × FlagWord :=
  let cs := vs.map blnsClamp
  let put (elem : LVal → Enc) : List Enc :=
    cs.map (fun c => let e := elem c.1; ⟨e.code, c.2.1 ||| e.flags, c.2.2 || e.flushed⟩)
  let r : List Enc × Nat :=
    match blnsMax (cs.map (fun c => c.1)) with
    | none => (put (lnsEncode shape8), 0x80)
    | some m => (put (blnsElem (blnsScale m)), twos 8 (blnsScale m))
  (r.1, r.2, flagsOr (r.1.map (fun e => e.flags)))

/-! ## Interchange formats (R15, R25, R30, R483) -/

/-- An IEEE 754 format: exponent bits and fraction bits. -/
structure FpShape where
  eb : Nat
  fb : Nat
  deriving DecidableEq, Repr

/-- The shape of an interchange format. -/
def Fmt.fp : Fmt → FpShape
  | .fp16 => ⟨5, 10⟩
  | .bf16 => ⟨8, 7⟩
  | _ => ⟨8, 23⟩

/-- The exponent bias. -/
def FpShape.bias (s : FpShape) : Int := 2 ^ (s.eb - 1) - 1

/-- R25: an interchange code as a value to convert; a NaN raises NAN_IN. A zero keeps its sign. -/
def fpDecode (s : FpShape) (c : Nat) : XVal × FlagWord :=
  let neg := c.testBit (s.eb + s.fb)
  let e := c / 2 ^ s.fb % 2 ^ s.eb
  let m := c % 2 ^ s.fb
  if e = 2 ^ s.eb - 1 then
    if m = 0 then (.log (.inf neg), 0) else (.log .nan, flagNanIn)
  else if e = 0 ∧ m = 0 then (.log (.zero neg), 0)
  else
    let sig : Int := if e = 0 then m else m + 2 ^ s.fb
    let ex : Int := (if e = 0 then 1 else (e : Int)) - s.bias - s.fb
    (.lin ⟨if neg then -sig else sig, ex⟩, 0)

/-- An exact nonzero value rounded once to nearest even in an interchange format, with the range rules of R30. -/
def fpRound (s : FpShape) (x : Dy) : Enc :=
  let neg := x.m < 0
  let sgn := if neg then 2 ^ (s.eb + s.fb) else 0
  let e := (Nat.log2 x.m.natAbs : Int) + x.e
  let emin : Int := 1 - s.bias
  let q := (max e emin) - s.fb
  let r := (roundShift x.m.natAbs (x.e - q)).toNat
  -- r counts units of the last place; reaching 2^(fb+1) carries into the next exponent
  let code := if e < emin then r else r + ((e + s.bias - 1).toNat) * 2 ^ s.fb
  if (2 ^ s.eb - 1) * 2 ^ s.fb ≤ code then ⟨sgn + (2 ^ s.eb - 1) * 2 ^ s.fb, flagOverflow, false⟩
  else if code = 0 then ⟨sgn, flagUnderflow, true⟩
  else ⟨sgn + code, 0, false⟩

/-- R30 and Table 1.6: a value of the log number system written in an interchange format. -/
def fpEncode (s : FpShape) : LVal → Enc
  | .zero n => ⟨if n then 2 ^ (s.eb + s.fb) else 0, 0, false⟩
  | .inf n => ⟨(if n then 2 ^ (s.eb + s.fb) else 0) + (2 ^ s.eb - 1) * 2 ^ s.fb, 0, false⟩
  | .nan => ⟨(2 ^ s.eb - 1) * 2 ^ s.fb + 2 ^ (s.fb - 1), 0, false⟩
  | .fin n l => fpRound s (linearV n l)

/-- R483: a LIN or PW element's exact value in an interchange format; its zero is +0. -/
def fpEncodeExact (s : FpShape) (x : Dy) : Enc := if x.m = 0 then ⟨0, 0, false⟩ else fpRound s x

/-! ## Elements of a format -/

/-- The log of an LNS16 tensor or stream scale (R36, R52, R55). -/
def scaleLog (c : Nat) : Int :=
  match lnsDecode shape16 c with
  | .fin _ l => l
  | _ => 0

/-- R36, R55: an LNS16 scale that is positive, finite and nonzero. -/
def scaleOk (c : Nat) : Bool :=
  match lnsDecode shape16 c with
  | .fin n _ => !n
  | _ => false

/-- R104, Table 4.1: an element read as a seat value, before R26: `ls` is the log of a LIN tensor's scale, `sc` the
scale byte of a BLNS8 element. -/
def elemToLog (f : Fmt) (ls : Int) (sc : Nat) (c : Nat) : LVal × FlagWord :=
  match f with
  | .lns8 => (lnsDecode shape8 c, 0)
  | .lns12 => (lnsDecode shape12 c, 0)
  | .lns16 => (lnsDecode shape16 c, 0)
  | .lns24 => (lnsDecode shape24 c, 0)
  | .blns8 => blnsDecode sc c
  | .lin8 => (linLog ls (untwos 8 c), 0)
  | .lin16 => (linLog ls (untwos 16 c), 0)
  | .pw4 => (XVal.toLog (.lin ⟨pw4Value c, -6⟩), 0)
  | .pw8 => (XVal.toLog (.lin ⟨pw8Value c, -6⟩), 0)
  | _ => (.nan, 0)

/-- R104: an element read as an LNS24 seat value. -/
def elemToSeat (f : Fmt) (ls : Int) (sc : Nat) (c : Nat) : LVal × FlagWord :=
  let a := elemToLog f ls sc c
  let b := seat a.1
  (b.1, a.2 ||| b.2)

/-- A value written in a resident format other than BLNS8 and TAL: R25 and R29, R35 or R37. -/
def encodeElem (f : Fmt) (ls : Int) (v : XVal) : Enc :=
  match f with
  | .pw4 => pwEncode false v
  | .pw8 => pwEncode true v
  | .lin8 => linEncode 8 ls v
  | .lin16 => linEncode 16 ls v
  | _ => lnsEncode f.shape v.toLog

/-- The code of +0 in a format (R195). -/
def zeroCode (f : Fmt) : Nat :=
  match f with
  | .pw4 => 0x7
  | .pw8 => 0x77
  | .lin8 | .lin16 | .fp32 | .fp16 | .bf16 | .tal => 0
  | _ => lnsField f.shape false (-(2 ^ (f.shape.w - 1)))

/-- A resident element read in an interchange format: R30 from a log, R483 from an exact value. A NaN that is read raises no NAN_IN.
(DESIGN CHOICE, log entry 129.) -/
def elemToWire (w : Fmt) (f : Fmt) (ls : Int) (sc : Nat) (c : Nat) : Enc :=
  match f with
  | .lin8 => fpEncodeExact w.fp (let v := linearV false ls; ⟨untwos 8 c * v.m, v.e⟩)
  | .lin16 => fpEncodeExact w.fp (let v := linearV false ls; ⟨untwos 16 c * v.m, v.e⟩)
  | .pw4 => fpEncodeExact w.fp ⟨pw4Value c, -6⟩
  | .pw8 => fpEncodeExact w.fp ⟨pw8Value c, -6⟩
  | _ =>
    let a := elemToLog f ls sc c
    let e := fpEncode w.fp a.1
    ⟨e.code, e.flags ||| a.2, e.flushed⟩

/-! ## The integer-log bin of an element (R132) -/

/-- `e` of R132 for a code written in a format: `⌊L⌋` of the written log, or `⌊log2 |v|⌋` of the written linear value;
none for a zero, an Inf or a NaN. -/
def elemExp (f : Fmt) (ls : Int) (sc : Nat) (c : Nat) : Option Int :=
  let lin (x : Dy) : Option Int := if x.m = 0 then none else some ((Nat.log2 x.m.natAbs : Int) + x.e)
  match f with
  | .lin8 => lin (let v := linearV false ls; ⟨untwos 8 c * v.m, v.e⟩)
  | .lin16 => lin (let v := linearV false ls; ⟨untwos 16 c * v.m, v.e⟩)
  | .pw4 => lin ⟨pw4Value c, -6⟩
  | .pw8 => lin ⟨pw8Value c, -6⟩
  | _ => match (elemToLog f ls sc c).1 with
    | .fin _ l => some (logFloor l)
    | _ => none

end Sys2Proof.Machine
end

