-- ==== Sys2Proof/Machine/Tal.lean ====
section
/-!
DEFINITION. Chapter 3: the TAL element, promotion of chunk values, combination, and the closes (R70 to R87, R98, R100),
with the packed element form of R301 and R302. A finite element's value is an integer in units of 2^-160.
-/
namespace Sys2Proof.Machine

/-- The mode tag of Table 3.2. -/
inductive Tag where
  | log | shift | stoch | mixed
  deriving DecidableEq, Repr

/-- The code of a tag. -/
def Tag.code : Tag → Nat
  | .log => 0 | .shift => 1 | .stoch => 2 | .mixed => 3
/-- The tag of a two-bit code. -/
def Tag.ofCode (c : Nat) : Tag :=
  match c % 4 with
  | 0 => .log | 1 => .shift | 2 => .stoch | _ => .mixed

/-- A TAL element (Tables 3.1 and 3.2). `peak` is the signed PEAK byte, -128 standing for 0x80. -/
structure Tal where
  nan : Bool
  pinf : Bool
  ninf : Bool
  ovf : Bool
  nz : Bool
  terms : Bool
  tag : Tag
  value : Int
  peak : Int
  deriving DecidableEq, Repr

/-- A fresh element: one that has received nothing (R78). -/
def Tal.fresh : Tal := ⟨false, false, false, false, false, false, .log, 0, -128⟩

/-- The element is in a special state (R79). -/
def Tal.special (t : Tal) : Bool := t.nan || t.pinf || t.ninf

/-- The status byte of Table 3.2; the tag is written as 0 while TERMS is 0. -/
def Tal.status (t : Tal) : Nat :=
  (if t.nan then 128 else 0) + (if t.pinf then 64 else 0) + (if t.ninf then 32 else 0) + (if t.ovf then 16 else 0)
    + (if t.nz then 8 else 0) + (if t.terms then 4 + t.tag.code else 0)

/-- The 48 bytes of an element as one little-endian number (R78). -/
def Tal.encode (t : Tal) : Nat := twos 320 t.value + t.status * 2 ^ 320 + twos 8 t.peak * 2 ^ 328

/-- An element read from its 48 bytes; the reserved bytes are ignored (R78, R80). -/
def Tal.decode (c : Nat) : Tal :=
  let st := c / 2 ^ 320 % 256
  { nan := st.testBit 7, pinf := st.testBit 6, ninf := st.testBit 5, ovf := st.testBit 4, nz := st.testBit 3,
    terms := st.testBit 2, tag := Tag.ofCode st, value := untwos 320 (c % 2 ^ 320), peak := untwos 8 (c / 2 ^ 328 % 256) }

/-- The element with VALUE 0 where its state is special (R75, R79). -/
def Tal.settle (t : Tal) : Tal := if t.special then { t with value := 0 } else t

/-- The exact result of an addition written under R75: outside the value field it saturates. -/
def Tal.setSum (t : Tal) (v : Int) : Tal × FlagWord :=
  if t.special then ({ t with value := 0 }, 0)
  else if (2 : Int) ^ 319 ≤ v then ({ t with ovf := true, pinf := true, value := 0 }, flagOverflow)
  else if v < -(2 ^ 319) then ({ t with ovf := true, ninf := true, value := 0 }, flagOverflow)
  else ({ t with value := v }, 0)

/-- R76: `⌊log2 |V|⌋` clamped to -127..127, for a nonzero value in units of 2^-160. -/
def peakOf (v : Int) : Int := max (-127) (min 127 ((Nat.log2 v.natAbs : Int) - 160))

/-- The larger PEAK. -/
def peakMax (a b : Int) : Int := max a b

/-- R81: the tag of a combination. -/
def tagJoin (aTerms : Bool) (a : Tag) (bTerms : Bool) (b : Tag) : Tag :=
  if !aTerms then b else if !bTerms then a else if a = b then a else .mixed

/-- INVALID of R82: the step brought the element to hold both Infs. -/
def bothInf (t : Tal) : Bool := t.pinf && t.ninf

/-- What one chunk, or one single term, brings to an element: its marks (R73) and its exact value in units of 2^-160. -/
structure Chunk where
  nan : Bool
  pinf : Bool
  ninf : Bool
  nz : Bool
  terms : Bool
  value : Int
  deriving DecidableEq, Repr

/-- A chunk that has received no product. -/
def Chunk.empty : Chunk := ⟨false, false, false, false, false, 0⟩

/-- R73 to R76, R82, R98: a chunk promoted into an element of an operator whose network has tag `tag`. -/
def Tal.promote (t : Tal) (tag : Tag) (c : Chunk) : Tal × FlagWord :=
  let big := (2 : Int) ^ 293 ≤ (c.value.natAbs : Int)
  let t1 : Tal :=
    { t with
      nan := t.nan || c.nan
      pinf := t.pinf || c.pinf || (big && decide (0 < c.value))
      ninf := t.ninf || c.ninf || (big && decide (c.value < 0))
      ovf := t.ovf || big
      nz := t.nz || c.nz
      terms := t.terms || c.terms
      tag := tagJoin t.terms t.tag c.terms tag
      peak := if c.value = 0 then t.peak else peakMax t.peak (if big then 127 else peakOf c.value) }
  let r := t1.setSum (t.value + (if big then 0 else c.value))
  (r.1, flagIf big flagOverflow ||| r.2 ||| flagIf (bothInf r.1 && !bothInf t) flagInvalid)

/-- R81, R82: the combination of two elements. One that is NaN already raises no NAN_IN.
(DESIGN CHOICE, log entry 130.) -/
def Tal.combine (a b : Tal) : Tal × FlagWord :=
  let t : Tal :=
    { nan := a.nan || b.nan, pinf := a.pinf || b.pinf, ninf := a.ninf || b.ninf, ovf := a.ovf || b.ovf,
      nz := a.nz || b.nz, terms := a.terms || b.terms, tag := tagJoin a.terms a.tag b.terms b.tag,
      value := 0, peak := peakMax a.peak b.peak }
  let r := t.setSum (a.settle.value + b.settle.value)
  (r.1, r.2 ||| flagIf (bothInf r.1 && !bothInf a && !bothInf b) flagInvalid)

/-- The tile tag of R99 over a list of elements: none where no element holds TERMS. -/
def tagOf : List Tal → Option Tag
  | [] => none
  | t :: ts =>
    if t.terms then
      match tagOf ts with
      | none => some t.tag
      | some g => some (if g = t.tag then g else .mixed)
    else tagOf ts

/-! ## Closing (R84 to R87) -/

/-- How a column closes: its offset in log units of 2^-16, whether a negative column scale reverses its sign, and
whether its scale is zero, Inf or NaN (R52, R53). -/
structure CloseCol where
  offset : Int
  neg : Bool
  bad : Bool
  deriving DecidableEq, Repr

/-- A column with offset 0. -/
def CloseCol.plain : CloseCol := ⟨0, false, false⟩

/-- R86: the CANCEL test of an element at a rounding close. -/
def Tal.cancels (t : Tal) : Bool :=
  !t.special && decide (t.peak ≠ -128) &&
    decide ((t.value.natAbs : Int) * 2 ^ (if t.peak + 140 < 0 then (-(t.peak + 140)).toNat else 0)
      < 2 ^ (t.peak + 140).toNat)

/-- The element closes through the TERMS = 0 row of Table 3.4. -/
def Tal.closesEmpty (t : Tal) : Bool := !t.special && decide (t.value = 0) && !t.terms

/-- R84, R85: the closed value L* with its sign, on the 2^-16 grid, and the flags of the close itself. -/
def Tal.close (t : Tal) (c : CloseCol) : LVal × FlagWord :=
  let raw : LVal × FlagWord :=
    if t.nan || (t.pinf && t.ninf) then (.nan, 0)
    else if t.pinf then (.inf false, 0)
    else if t.ninf then (.inf true, 0)
    else if t.value = 0 then
      if !t.terms then (.zero false, flagEmpty) else if !t.nz then (.zero true, 0) else (.zero false, 0)
    else (.fin (t.value < 0) (logOfDy ⟨t.value, -160⟩ + c.offset), 0)
  let fl := raw.2 ||| flagIf t.cancels flagCancel
  if c.bad then (.nan, fl ||| flagInvalid) else (raw.1.negIf c.neg, fl)

/-- A close to an LNS24 seat value (R129, R127, R249). -/
def Tal.closeSeat (t : Tal) (c : CloseCol) : LVal × FlagWord :=
  let a := t.close c
  let b := seat a.1
  (b.1, a.2 ||| b.2)

/-- R39, R40, R87: the compensated pair of an element: head code, tail code, flags, and the head's flush. The column's
offset is an integer number of octaves. -/
def Tal.closePair (t : Tal) (c : CloseCol) : Enc × Nat × FlagWord :=
  let a := t.close c
  let h := lnsEncode shape16 a.1
  let hv := lnsDecode shape16 h.code
  let tail : Nat :=
    match a.1 with
    | .zero _ => h.code
    | .fin n _ =>
      match hv with
      | .inf _ => zeroCode .lns16
      | _ =>
        let x : Dy := ⟨if n then -(t.value.natAbs : Int) else t.value.natAbs, -160 + c.offset / 65536⟩
        let d := x.sub hv.linear
        if d.m = 0 then zeroCode .lns16 else (lnsEncode shape16 (XVal.toLog (.lin d))).code
    | _ => zeroCode .lns16
  (h, tail, a.2 ||| h.flags)

/-- R123, R137: T/n, closed by R25 with F = 15 from the exact rational; for MEAN and the row operators' quotients. The
CANCEL test is that of the tally. -/
def Tal.closeMean (t : Tal) (n : Nat) : LVal × FlagWord :=
  if t.special || t.value = 0 then
    let a := t.close .plain
    (a.1, a.2)
  else
    let l := logOfRat t.value.natAbs (n * 2 ^ 160)
    let b := seat (.fin (t.value < 0) l)
    (b.1, b.2 ||| flagIf t.cancels flagCancel)

/-! ## Terms (R123, R236, R296) -/

/-- A dyadic value as an integer in units of 2^-160, aligned with round_ne where it lies below (R123). -/
def tallyUnits (x : Dy) : Int := roundShift x.m (x.e + 160)

/-- A single linear term V(L) with its sign, as a chunk of one (R73). -/
def termOf (v : LVal) : Chunk :=
  match v with
  | .zero n => ⟨false, false, false, !n, true, 0⟩
  | .inf n => ⟨false, !n, n, true, true, 0⟩
  | .nan => ⟨true, false, false, true, true, 0⟩
  | .fin n l => ⟨false, false, false, true, true, tallyUnits (linearV n l)⟩

/-- R76 for a single term: `⌊log2 |V(L)|⌋`, clamped; -128 (the code 0x80) where the term is not finite and nonzero. -/
def termPeak : LVal → Int
  | .fin _ l => max (-127) (min 127 (logFloor l))
  | _ => -128

/-- A single exact term added to an element (R123, R236, R296): as promotion, but a term has no chunk limit of its own;
one of magnitude 2^159 or more saturates under R75. -/
def Tal.addTerm (t : Tal) (tag : Tag) (v : LVal) : Tal × FlagWord :=
  let c := termOf v
  let big := (2 : Int) ^ 319 ≤ (c.value.natAbs : Int)
  let t1 : Tal :=
    { t with
      nan := t.nan || c.nan
      pinf := t.pinf || c.pinf || (big && decide (0 < c.value))
      ninf := t.ninf || c.ninf || (big && decide (c.value < 0))
      ovf := t.ovf || big
      nz := t.nz || c.nz
      terms := true
      tag := tagJoin t.terms t.tag true tag
      peak := peakMax t.peak (termPeak v) }
  let r := t1.setSum (t.value + (if big then 0 else c.value))
  (r.1, flagIf big flagOverflow ||| r.2 ||| flagIf (bothInf r.1 && !bothInf t) flagInvalid)

/-- The R48 product of a value with another, added as a term, with the flags of Table 1.4 (SUMSQ of R123, R137,
R247). -/
def Tal.addProduct (t : Tal) (tag : Tag) (a b : LVal) : Tal × FlagWord :=
  let p := lvMul a b
  let r := t.addTerm tag p.1
  (r.1, p.2 ||| r.2)

/-- What the Tally counters see of elements (R101): saturations, closes with CANCEL, and closes through the TERMS = 0 row of
Table 3.4. -/
structure TalSeen where
  sats : Nat
  cancels : Nat
  empties : Nat
  deriving DecidableEq, Repr

/-- Nothing seen. -/
def TalSeen.zero : TalSeen := ⟨0, 0, 0⟩
/-- Two counts together. -/
def TalSeen.plus (a b : TalSeen) : TalSeen := ⟨a.sats + b.sats, a.cancels + b.cancels, a.empties + b.empties⟩
/-- An element closed. -/
def Tal.closeSeen (t : Tal) : TalSeen := ⟨0, if t.cancels then 1 else 0, if t.closesEmpty then 1 else 0⟩
/-- Elements closed. -/
def closesSeen (ts : List Tal) : TalSeen := ts.foldl (fun a t => a.plus t.closeSeen) .zero
/-- A step of an element that raised these flags saturated it (R74, R75).
(DESIGN CHOICE, log entry 104.) -/
def satSeen (f : FlagWord) : Nat := if f &&& flagOverflow = 0 then 0 else 1

/-! ## The packed element (R301, R302) -/

/-- Limb `i` of a value field. -/
def talLimb (v : Int) (i : Nat) : Nat := twos 320 v / 2 ^ (64 * i) % 2 ^ 64

/-- The lowest nonzero limb at or above `i`, of `n` candidates. -/
def lowLimb (v : Int) : Nat → Nat → Nat
  | 0, i => i
  | n + 1, i => if talLimb v i ≠ 0 then i else lowLimb v n (i + 1)

/-- Every limb above `t` copies bit 63 of limb `t`. -/
def limbsCopy (v : Int) (t : Nat) : Bool :=
  let lim := if (talLimb v t).testBit 63 then 2 ^ 64 - 1 else 0
  (List.range 5).all (fun i => i ≤ t || talLimb v i = lim)

/-- The lowest limb `t` at or above `i` above which every limb copies its bit 63. -/
def highLimb (v : Int) : Nat → Nat → Nat
  | 0, i => i
  | n + 1, i => if limbsCopy v i then i else highLimb v n (i + 1)

/-- The `n` little-endian bytes of a number. -/
def leBytes : Nat → Nat → List Byte
  | 0, _ => []
  | n + 1, x => BitVec.ofNat 8 x :: leBytes n (x / 256)

/-- The number of a little-endian byte list. -/
def leNat : List Byte → Nat
  | [] => 0
  | b :: bs => b.toNat + 256 * leNat bs

/-- R302: the only packed form that fits an element. -/
def Tal.pack (t : Tal) : List Byte :=
  let tagb := if t.terms then t.tag.code * 64 else 0
  let pk := leBytes 1 (twos 8 t.peak)
  let plain := !t.nan && !t.pinf && !t.ninf && !t.ovf
  if plain && t.value = 0 && !t.terms && !t.nz then leBytes 1 tagb ++ pk
  else if plain && t.value = 0 && t.terms && !t.nz then leBytes 1 (tagb + 1) ++ pk
  else if plain && t.value = 0 && t.terms && t.nz then leBytes 1 (tagb + 2) ++ pk
  else if plain && t.terms && t.nz then
    let s := lowLimb t.value 4 0
    let e := highLimb t.value (4 - s) s
    leBytes 1 (tagb + (e - s + 1) * 8 + s) ++ pk
      ++ leBytes (8 * (e - s + 1)) (twos 320 t.value / 2 ^ (64 * s) % 2 ^ (64 * (e - s + 1)))
  else leBytes 1 (tagb + 56) ++ pk ++ leBytes 1 t.status ++ leBytes 40 (twos 320 t.value)

/-- Bytes of the packed form whose first byte is `b0`. -/
def packLen (b0 : Nat) : Nat :=
  let c := b0 / 8 % 8
  if c = 7 then 43 else if 1 ≤ c ∧ c ≤ 5 then 2 + 8 * c else 2

/-- An element read from its packed form, with INVALID and a NaN element for a form no sender writes (R302). -/
def Tal.unpack (bs : List Byte) : Tal × FlagWord :=
  let b0 := leNat (bs.take 1)
  let pk := untwos 8 (leNat ((bs.drop 1).take 1))
  let tag := Tag.ofCode (b0 / 64)
  let c := b0 / 8 % 8
  let st := b0 % 8
  let base : Tal := { Tal.fresh with peak := pk }
  if c = 7 then
    let x := Tal.decode (leNat ((bs.drop 3).take 40) + leNat ((bs.drop 2).take 1) * 2 ^ 320)
    ({ x with peak := pk }, 0)
  else if c = 0 ∧ st = 0 then (base, 0)
  else if c = 0 ∧ st = 1 then ({ base with terms := true, tag := tag }, 0)
  else if c = 0 ∧ st = 2 then ({ base with terms := true, nz := true, tag := tag }, 0)
  else if 1 ≤ c ∧ c ≤ 5 ∧ st + c ≤ 5 then
    let raw := leNat ((bs.drop 2).take (8 * c))
    ({ base with terms := true, nz := true, tag := tag, value := untwos (64 * c) raw * 2 ^ (64 * st) }, 0)
  else ({ base with nan := true, terms := true, nz := true, tag := tag }, flagInvalid)

/-! ## Parts closed before they are summed (R91) -/

/-- V(R_i): the value of a part that is closed to an LNS format (R84, R25). -/
def Tal.rounded (t : Tal) (f : LnsShape) : Dy := (lnsDecode f (lnsEncode f (t.close .plain).1).code).linear

/-- The exact sum of such parts, before the last rounding (R91). -/
def roundedSum (f : LnsShape) (ps : List Tal) : Dy := ps.foldl (fun a p => a.add (p.rounded f)) ⟨0, 0⟩

/-- R91: that sum lies within δ of the unsplit tally, relative to the sum of the parts' magnitudes. δ is `d` times 10^-8: 136,100 for
LNS16 and 1,601 for LNS24. -/
def splitWithin (f : LnsShape) (d : Nat) (ps : List Tal) : Bool :=
  let unsplit : Dy := ⟨(ps.map (fun p => p.value)).foldl (· + ·) 0, -160⟩
  let bound : Dy := ⟨d * ((ps.map (fun p => (p.value.natAbs : Int))).foldl (· + ·) 0), -160⟩
  let err := ((roundedSum f ps).sub unsplit).abs
  !bound.lt ⟨100000000 * err.m, err.e⟩

end Sys2Proof.Machine
end

