-- ==== Sys2Proof/Machine/Sha3.lean ====
section
/-!
DEFINITION. SHA3-512, which chapters 12 and 13 name for digests, the audit chain and the measurements. The manual does not
define it; this is FIPS 202 (PRESUMED; log entry 6). The sponge's 1600 bits are kept as five rows of five 64-bit lanes:
row `y` holds the lanes (0, y) to (4, y). Rotation amounts and round constants are formed by their rules, not tabled.
-/
namespace Sys2Proof.Machine

/-- A row of the sponge. -/
abbrev SpongeRow := List (BitVec 64)

/-- Two rows, lane by lane. -/
def rowXor (u v : SpongeRow) : SpongeRow := List.zipWith (· ^^^ ·) u v

/-- 25 lanes in reading order as five rows. -/
def spongeRows (lanes : List (BitVec 64)) : List SpongeRow :=
  (List.range 5).map (fun y => (lanes.drop (5 * y)).take 5)

/-- The walk that visits every lane but (0, 0), from (1, 0): step `t` turns the lane it stands on by the `t`-th triangular
number. Answers the amount for the lane looked for, within `fuel` steps. -/
def turnFrom (want : Nat × Nat) : Nat → Nat → Nat × Nat → Nat
  | 0, _, _ => 0
  | fuel + 1, t, at' =>
    if at' = want then (t * (t + 1) / 2) % 64
    else turnFrom want fuel (t + 1) (at'.2, (2 * at'.1 + 3 * at'.2) % 5)

/-- The mixing of the columns: every lane takes in the parity of its left column and the turned parity of its right one. -/
def spongeColumns (rows : List SpongeRow) : List SpongeRow :=
  let parity := rows.foldl rowXor (List.replicate 5 0)
  let mix := rowXor (parity.rotateRight 1) ((parity.rotateLeft 1).map (·.rotateLeft 1))
  rows.map (rowXor mix)

/-- The lanes turned and moved: place (x, y) takes the lane (x + 3 y, x). -/
def spongeMove (rows : List SpongeRow) : List SpongeRow :=
  (List.range 5).map (fun y => (List.range 5).map (fun x =>
    let x' := (x + 3 * y) % 5
    ((rows.getD x []).getD x' 0).rotateLeft (turnFrom (x', x) 24 1 (1, 0))))

/-- The one step that is not linear, along a row. -/
def spongeMix (row : SpongeRow) : SpongeRow :=
  rowXor row (List.zipWith (fun u v => ~~~u &&& v) (row.rotateLeft 1) (row.rotateLeft 2))

/-- The bit register behind the round constants, one step: shift up, folded by the polynomial 0x171. -/
def rcStep (r : Nat) : Nat := if 128 ≤ r then (2 * r) ^^^ 0x171 else 2 * r

/-- The constant of seven successive register states: state `j` gives bit `2 ^ j - 1`. -/
def rcBits : Nat → Nat → Nat → BitVec 64
  | 0, _, _ => 0
  | n + 1, j, r => BitVec.ofNat 64 (r % 2 * 2 ^ (2 ^ j - 1)) ||| rcBits n (j + 1) (rcStep r)

/-- The rounds that are left, with the register as it stands. -/
def spongeRounds : Nat → Nat → List SpongeRow → List SpongeRow
  | 0, _, rows => rows
  | n + 1, r, rows =>
    let mixed := (spongeMove (spongeColumns rows)).map spongeMix
    let keyed := List.zipWith rowXor mixed ([rcBits 7 0 r, 0, 0, 0, 0] :: List.replicate 4 (List.replicate 5 0))
    spongeRounds n (rcStep (rcStep (rcStep (rcStep (rcStep (rcStep (rcStep r))))))) keyed

/-- The bytes of a message that the sponge takes in at a time: 1600 bits less twice the digest. -/
def spongeRate : Nat := 72

/-- Block `i` of a padded message taken in, and the 24 rounds after it. -/
def spongeTake (msg : List Byte) (rows : List SpongeRow) (i : Nat) : List SpongeRow :=
  let lanes := (List.range 25).map (fun j =>
    if 8 * j < spongeRate then BitVec.ofNat 64 (leNat ((msg.drop (spongeRate * i + 8 * j)).take 8)) else 0)
  spongeRounds 24 1 (List.zipWith rowXor rows (spongeRows lanes))

/-- The tail of a message of `n` bytes: the suffix 01 of SHA-3 and the first bit of the padding in its first byte, the last
bit of the padding in its last. -/
def spongeTail (n : Nat) : List Byte :=
  let free := spongeRate - n % spongeRate
  (List.range free).map (fun k => (if k = 0 then 0x06#8 else 0) ||| (if k + 1 = free then 0x80#8 else 0))

/-- SHA3-512 of a byte list, 64 bytes.
(PRESUMED, log entry 6.) -/
def sha3_512 (bs : List Byte) : List Byte :=
  let msg := bs ++ spongeTail bs.length
  let rows := (List.range (msg.length / spongeRate)).foldl (spongeTake msg) (spongeRows (List.replicate 25 0))
  (rows.flatten.take 8).flatMap (fun l => leBytes 8 l.toNat)

end Sys2Proof.Machine
end

