-- ==== Sys2Proof/Config.lean ====
section
/-!
DEFINITION. What one implementation fixes, and the free values: constants with no body, so that nothing can be proved of
what they hold. A free value the device makes anew each time is applied to the counter `State.free`.
-/
namespace Sys2Proof

/-- A free byte: what the manual leaves undefined (R143, R166, R173, R401). -/
opaque Config.freeByte : Nat → Byte
/-- A free number: a timing counter's advance or a reading the manual leaves to the part. -/
opaque Config.freeNat : Nat → Nat
/-- Byte `i` of the module serial number (Table 12.8).
(DESIGN CHOICE, log entry 7.) -/
opaque Config.serial : Nat → Byte
/-- Byte `i` of the attestation public key AK_PUB (R427).
(DESIGN CHOICE, log entry 7.) -/
opaque Config.akPub : Nat → Byte
/-- Byte `i` of the fused SHA3-512 digest at an index of the maker fuse array (R403).
(DESIGN CHOICE, log entry 7.) -/
opaque Config.fusedDigest : Nat → Nat → Byte
/-- Byte `i` of nonce number `n` of the security engine's random generator (R406).
(DESIGN CHOICE, log entry 7.) -/
opaque Config.nonceByte : Nat → Nat → Byte
/-- ML-DSA-87 verification: public key, context string, message, signature (R403, R406, R422).
(DESIGN CHOICE, log entry 7.) -/
opaque Config.verify : List Byte → List Byte → List Byte → List Byte → Bool
/-- Byte `i` of the attestation key's signature of a message under a context string (R421, R428).
(DESIGN CHOICE, log entry 7.) -/
opaque Config.attestSign : List Byte → List Byte → Nat → Byte
/-- VERSION of the factory image of a stage (R422).
(DESIGN CHOICE, log entry 7.) -/
opaque Config.fwVersion : Nat → BitVec 64
/-- Byte `i` of the measurement of the factory image of a stage (R426).
(DESIGN CHOICE, log entry 7.) -/
opaque Config.fwMeasure : Nat → Nat → Byte
/-- The levels of ID_STRAP[3:0] as the carrier wires them at first (R470).
(DESIGN CHOICE, log entry 7.) -/
opaque Config.straps : Nat
/-- The voltage of a core as a cold start sets it, in millivolts (R443).
(DESIGN CHOICE, log entry 139.) -/
opaque Config.startMv : Nat
/-- The highest voltage of a core, in millivolts (R443).
(DESIGN CHOICE, log entry 139.) -/
opaque Config.topMv : Nat

/-- A class 1 flit's payload is a CANCEL and not a STALE notice: the layout that tells them apart is not given (R299, R308).
(DESIGN CHOICE, log entry 16.) -/
opaque Config.isCancel : List Byte → Bool
/-- The collective ID that the payload of a class 1 flit names: the CID field of the class is 0 (Table 9.4).
(DESIGN CHOICE, log entry 16.) -/
opaque Config.crewCid : List Byte → Nat
/-- Byte `i` of the payload of a CANCEL (`true`) or a STALE notice of a collective ID that this device sends.
(DESIGN CHOICE, log entry 16.) -/
opaque Config.crewByte : Bool → Nat → Nat → Byte
/-- The format code of the slot descriptor of a serve by another device (holder, serve ID): the target is to compare it
(R330), and no message of Table 10.4 carries it.
(DESIGN CHOICE, log entry 43.) -/
opaque Config.slotFormat : Nat → Nat → Nat

/-- Whether the module flash takes no records from boot number `n` on: nothing says when a record cannot be written (R419).
(DESIGN CHOICE, log entry 122.) -/
opaque Config.flashFault : Nat → Bool
/-- Whether the flash read of the key of a role (its code) and index is poisoned from boot number `n` on (Table 13.11).
(DESIGN CHOICE, log entry 122.) -/
opaque Config.keyBad : Nat → Nat → Nat → Bool
/-- Whether the flash read of the audit record of a sequence number is poisoned since boot number `n` (Table 13.11).
(DESIGN CHOICE, log entry 122.) -/
opaque Config.recordBad : Nat → Nat → Bool

/-- The row that an SRAM word lies in (R179, R461: the interleave is not given).
(DESIGN CHOICE, log entry 89.) -/
opaque Config.sramRow : Nat → Nat
/-- The bank, within its group, of an SRAM row.
(DESIGN CHOICE, log entry 89.) -/
opaque Config.sramBank : Nat → Nat
/-- The LPDDR5X row that a block lies in (R462).
(DESIGN CHOICE, log entry 89.) -/
opaque Config.lpddrRow : Nat → Nat

end Sys2Proof
end

