-- ==== Sys2Proof/Machine/HostTypes.lean ====
section
/-!
DEFINITION. The host's side of the state: roles, result codes, opcodes, sources, packets sent, attention, the Ledger, the
audit log, keys and firmware (chapters 11 to 13).
-/
namespace Sys2Proof.Machine

/-- The roles (R402); `none` is a source that has not logged in. -/
inductive Role where
  | none | operator | installer | maker
  deriving DecidableEq, Repr

/-- The code of a role in the status word (Table 11.4c). -/
def Role.code : Role → Nat
  | .none => 0 | .operator => 1 | .installer => 2 | .maker => 3
/-- The role of a ROLE byte of a login (R377). -/
def Role.ofCode (c : Nat) : Option Role :=
  match c with
  | 1 => some .operator | 2 => some .installer | 3 => some .maker | _ => none

/-- The result codes of Table 12.9. -/
inductive Res where
  | ok | accepted | complete | completeFlags | aborted | alreadyDone | tagUnknown
  | badOpcode | badParam | noRight | noCredit | seqGap
  | frozen | precisionMismatch | stackOrder | stackFull | singular | sameFeed | crewChanged | memoryRange
  | ledgerConflict | ledgerRolledBack | ledgerNone
  | peerLost | fault | sparesExhausted | powerLimit
  | sigInvalid | rollbackRefused | locked
  deriving DecidableEq, Repr

/-- The code of a result (Table 12.9). -/
def Res.code : Res → Nat
  | .ok => 0x00 | .accepted => 0x01 | .complete => 0x02 | .completeFlags => 0x03 | .aborted => 0x04
  | .alreadyDone => 0x05 | .tagUnknown => 0x06
  | .badOpcode => 0x10 | .badParam => 0x11 | .noRight => 0x12 | .noCredit => 0x13 | .seqGap => 0x14
  | .frozen => 0x20 | .precisionMismatch => 0x21 | .stackOrder => 0x22 | .stackFull => 0x23 | .singular => 0x24
  | .sameFeed => 0x25 | .crewChanged => 0x26 | .memoryRange => 0x27
  | .ledgerConflict => 0x30 | .ledgerRolledBack => 0x31 | .ledgerNone => 0x32
  | .peerLost => 0x40 | .fault => 0x41 | .sparesExhausted => 0x42 | .powerLimit => 0x43
  | .sigInvalid => 0x50 | .rollbackRefused => 0x51 | .locked => 0x52

/-- The commands of Table 12.2. -/
inductive Op where
  | nop | getStatus | readAttention | loginChallenge | loginResponse | logout | setPowerState | reset
  | ledgerBegin | ledgerSet | ledgerCommit | ledgerRollback | settingGet | settingSet
  | tensorWrite | tensorRead | tensorCopy | tensorFill | tensorDefine | assayRead
  | networkLoad | networkActivate | opRun | graphRun | abort | fence | networkUnload
  | stackConfig | updateProgramLoad | updateRun | freezeSet | paramWrite | pairSet | secure | restoreServe
  | linkStatus | routeLoad | crewListSet | collectiveRun
  | streamMap | streamStart | streamStop | streamOut
  | countersRead | spareStatus | repair | selfTest
  | identityGet | attest | fwStage | fwActivate | auditRead | keyEnrol
  deriving DecidableEq, Repr

/-- The opcode of a command (Table 12.2). -/
def Op.code : Op → Nat
  | .nop => 0x0000 | .getStatus => 0x0001 | .readAttention => 0x0002 | .loginChallenge => 0x0003
  | .loginResponse => 0x0004 | .logout => 0x0005 | .setPowerState => 0x0006 | .reset => 0x0007
  | .ledgerBegin => 0x0100 | .ledgerSet => 0x0101 | .ledgerCommit => 0x0102 | .ledgerRollback => 0x0103
  | .settingGet => 0x0104 | .settingSet => 0x0105
  | .tensorWrite => 0x0200 | .tensorRead => 0x0201 | .tensorCopy => 0x0202 | .tensorFill => 0x0203
  | .tensorDefine => 0x0204 | .assayRead => 0x0205
  | .networkLoad => 0x0300 | .networkActivate => 0x0301 | .opRun => 0x0302 | .graphRun => 0x0303
  | .abort => 0x0304 | .fence => 0x0305 | .networkUnload => 0x0306
  | .stackConfig => 0x0400 | .updateProgramLoad => 0x0401 | .updateRun => 0x0402 | .freezeSet => 0x0403
  | .paramWrite => 0x0404 | .pairSet => 0x0405 | .secure => 0x0406 | .restoreServe => 0x0407
  | .linkStatus => 0x0500 | .routeLoad => 0x0501 | .crewListSet => 0x0502 | .collectiveRun => 0x0503
  | .streamMap => 0x0600 | .streamStart => 0x0601 | .streamStop => 0x0602 | .streamOut => 0x0603
  | .countersRead => 0x0700 | .spareStatus => 0x0701 | .repair => 0x0702 | .selfTest => 0x0703
  | .identityGet => 0x0800 | .attest => 0x0801 | .fwStage => 0x0802 | .fwActivate => 0x0803
  | .auditRead => 0x0804 | .keyEnrol => 0x0805

/-- Every command of Table 12.2. -/
def allOps : List Op :=
  [.nop, .getStatus, .readAttention, .loginChallenge, .loginResponse, .logout, .setPowerState, .reset,
   .ledgerBegin, .ledgerSet, .ledgerCommit, .ledgerRollback, .settingGet, .settingSet,
   .tensorWrite, .tensorRead, .tensorCopy, .tensorFill, .tensorDefine, .assayRead,
   .networkLoad, .networkActivate, .opRun, .graphRun, .abort, .fence, .networkUnload,
   .stackConfig, .updateProgramLoad, .updateRun, .freezeSet, .paramWrite, .pairSet, .secure, .restoreServe,
   .linkStatus, .routeLoad, .crewListSet, .collectiveRun,
   .streamMap, .streamStart, .streamStop, .streamOut,
   .countersRead, .spareStatus, .repair, .selfTest,
   .identityGet, .attest, .fwStage, .fwActivate, .auditRead, .keyEnrol]

/-- The command of an opcode; none for one Table 12.2 does not list. -/
def Op.ofCode (c : Nat) : Option Op := allOps.find? (fun o => o.code = c)

/-- R170, R347: the form-X commands: served on arrival, outside sequence and credit. -/
def Op.exempt : Op → Bool
  | .getStatus | .readAttention | .abort => true
  | _ => false

/-- A packet sent on a transmit port or placed for the mailbox: its port, virtual channel, data type and payload. A short
packet of an output frame has its 16-bit data field as two bytes. -/
structure OutPkt where
  port : Nat
  vc : Nat
  dt : Nat
  bytes : List Byte
  deriving DecidableEq, Repr

/-- An open login challenge (R377). -/
structure Challenge where
  id : Nat
  nonce : List Byte
  role : Role
  index : Nat
  closes : Nat
  deriving DecidableEq, Repr

/-- An open continuation: the parameter block gathered so far (R343). -/
structure Contin where
  opcode : Nat
  tag : Nat
  flags : Nat
  params : List Byte
  deriving DecidableEq, Repr

/-- An outcome in a tag table (R164, R175). -/
structure TagEntry where
  tag : Nat
  op : Op
  outcome : Res
  deriving DecidableEq, Repr

/-- A live source (R346, R347): its bound port, expected SEQ (none until its first packet that carries one), role and the key it
logged in with, the open challenge and continuation, its tag table (newest first, at most 1,024), whether it has sent LOGOUT
while holding commands, and since when it has held no login and no command. -/
structure Source where
  num : Nat
  port : Nat
  seq : Option Nat
  role : Role
  keyIndex : Nat
  challenge : Option Challenge
  cont : Option Contin
  tags : List TagEntry
  leaving : Bool
  idleSince : Nat
  deriving DecidableEq, Repr

/-- The attention record (Table 11.6): its ATTN byte and the first events and counts since the last capture. -/
structure Attention where
  attn : BitVec 8
  recordNo : Nat
  firstPoison : Option Nat
  firstFault : Option Nat
  firstLostPeer : Option Nat
  linksChanged : BitVec 64
  overruns : Nat
  seqGaps : Nat
  throttles : Nat
  tempMax : Int
  loginFails : Nat
  spareEvents : Nat
  service : BitVec 32
  deriving DecidableEq, Repr

/-- The ATTN bits of Table 11.4c as bits of the ATTN byte. -/
def attnFault : BitVec 8 := 0x01
/-- POWER/THERMAL. -/
def attnPower : BitVec 8 := 0x02
/-- MEMORY. -/
def attnMemory : BitVec 8 := 0x04
/-- LINK/PEER. -/
def attnLink : BitVec 8 := 0x08
/-- SPARE. -/
def attnSpare : BitVec 8 := 0x10
/-- SECURITY/AUDIT. -/
def attnSecurity : BitVec 8 := 0x20
/-- BUDGET. -/
def attnBudget : BitVec 8 := 0x40
/-- SERVICE. -/
def attnService : BitVec 8 := 0x80

/-- The mailbox and the I3C target (Tables 11.12 to 11.16): dynamic address (none until assigned), maximum lengths, window
address, the bytes of MBX_IN written so far, the packets waiting for MBX_OUT with the one placed first, OUT_DROP, the
source that last used the mailbox, and the answer to the last common command code (none where it was NACKed). -/
structure I3c where
  addr : Option Nat
  mwl : Nat
  mrl : Nat
  window : Nat
  mbxIn : List Byte
  mbxOut : List OutPkt
  outReady : Bool
  outDrop : Bool
  lastSource : Nat
  answer : Option (List Byte)
  deriving DecidableEq, Repr

/-! ## The Ledger and trust (chapter 13) -/

/-- A freeze mask staged in a Ledger (R258, R259): the weight tensor, granularity and the mask bytes read at staging. -/
structure StagedMask where
  w : Nat
  gran : Nat
  quarter : Nat
  mask : List Byte
  deriving DecidableEq, Repr

/-- The open Ledger (R411): its owner, its ID, the local time of its owner's last command, whether a LEDGER_COMMIT of it
has been accepted (R383), and what it stages. -/
structure Ledger where
  id : Nat
  owner : Nat
  lastAt : Nat
  committing : Bool
  keys : List (Nat × Nat)
  masks : List StagedMask
  deriving DecidableEq, Repr

/-- A commit in progress (R413, R417): the command that asked for it, its Ledger ID (0: a SETTING_SET), the actor, what it
applies, when its quiet points must hold, and the key whose check failed. -/
structure Commit where
  source : Nat
  tag : Nat
  ledger : Nat
  role : Role
  keyIndex : Nat
  keys : List (Nat × Nat)
  masks : List StagedMask
  limit : Nat
  bad : Option Nat
  deriving DecidableEq, Repr

/-- An enrolled key (R403). -/
structure KeySlot where
  role : Role
  index : Nat
  pub : List Byte
  deriving DecidableEq, Repr

/-- The failed logins of one key (R408): the count, and until when it is locked. -/
structure KeyFails where
  role : Role
  index : Nat
  count : Nat
  lockedUntil : Option Nat
  deriving DecidableEq, Repr

/-- An audit record: its 64-byte body and its chain hash (R418, R419). -/
structure AuditRec where
  seq : Nat
  body : List Byte
  hash : List Byte
  deriving DecidableEq, Repr

/-- The audit log (R418 to R420): the records held, oldest first; the sequence number of the next; the chain hash before
the oldest record (none: H_0); the export mark; and whether the present run of overwriting has been recorded. -/
structure AuditLog where
  records : List AuditRec
  next : Nat
  anchor : Option (List Byte)
  exported : Nat
  overwriting : Bool
  deriving DecidableEq, Repr

/-- One stage of a firmware slot: its version, security version, the digest of its image, and whether checks 1
and 2 of R423 pass; it is usable where its security version passes check 3 too. -/
structure FwStage where
  version : BitVec 64
  svn : Nat
  digest : List Byte
  usable : Bool
  deriving DecidableEq, Repr

/-- The firmware (R424 to R426): the four stages of slots A and B, the preferred slot, whether it is on trial, the boots
tried, the slot running, the measurements M1 to M4, BOOT_COUNT, the anti-rollback counter, whether the last boot fell back
(R424), and whether a stage is staged and not active (R423). -/
structure Firmware where
  slotA : List (Option FwStage)
  slotB : List (Option FwStage)
  preferB : Bool
  trial : Bool
  tries : Nat
  runningB : Bool
  measures : List (List Byte)
  bootCount : Nat
  rollback : Nat
  fellBack : Bool
  staged : Bool
  deriving DecidableEq, Repr

/-- The roles, keys and trust state (chapter 13). -/
structure Trust where
  keys : List KeySlot
  fails : List KeyFails
  audit : AuditLog
  firmware : Firmware
  nextChallenge : Nat
  nextNonce : Nat
  /-- The flash takes no records, as found at the last boot (R419). -/
  flashFault : Bool
  deriving DecidableEq, Repr

end Sys2Proof.Machine
end

