-- ==== Sys2Proof/Machine/Transc.lean ====
section
/-!
DEFINITION. The transcendental operations of R113: `round_ne(log2|f(X)| * 2^8)` for an operand `X = V(L)` with its sign.
Each `f(X)` is enclosed between two fixed-point numbers of 640 fraction bits; where both ends round alike, that is the
rounding of the exact value. EXP2 is exact. No tie of the 2^-8 grid occurs outside EXP2: a tie needs
`f(X) = 2^((2k+1)/512)` (DEDUCED; log entry 5).
-/
namespace Sys2Proof.Machine

/-- An enclosure `lo * 2^-640 ≤ y ≤ hi * 2^-640` of a nonnegative number. -/
structure Iv where
  lo : Nat
  hi : Nat
  deriving DecidableEq, Repr

/-- `⌊ln 2 * 2^640⌋`. -/
def ln2Fix : Nat :=
  3162442850577000144542819255265044123884198300717798677536341180773118696995660441338367561063358767323571958122307070903190084685977847936741854327993944726832264493303953239866611699627604094

/-- `⌊2^640 / sqrt(2π)⌋`. -/
def invSqrtTwoPiFix : Nat :=
  1820150464190319494203866785703631173704171563122796470233450066561087044295148304852838913590182402037645514259844778733203633839842233661371634110202062154246293456649953713834282166314480533

/-- One. -/
def fixOne : Nat := 2 ^ 640

/-- `⌈a / b⌉`. -/
def divUp (a b : Nat) : Nat := (a + b - 1) / b

/-- The enclosure of a product. -/
def Iv.mul (a b : Iv) : Iv := ⟨a.lo * b.lo / fixOne, divUp (a.hi * b.hi) fixOne⟩
/-- The enclosure of a sum. -/
def Iv.add (a b : Iv) : Iv := ⟨a.lo + b.lo, a.hi + b.hi⟩
/-- The enclosure of a difference that is not negative. -/
def Iv.sub (a b : Iv) : Iv := ⟨a.lo - b.hi, a.hi - b.lo⟩
/-- The enclosure of a quotient. -/
def Iv.div (a b : Iv) : Iv := ⟨a.lo * fixOne / b.hi, divUp (a.hi * fixOne) b.lo⟩
/-- The enclosure of a quotient by a positive integer. -/
def Iv.divNat (a : Iv) (n : Nat) : Iv := ⟨a.lo / n, divUp a.hi n⟩

/-- The enclosure of `ln 2`. -/
def ivLn2 : Iv := ⟨ln2Fix, ln2Fix + 1⟩
/-- The enclosure of 1. -/
def ivOne : Iv := ⟨fixOne, fixOne⟩

/-- The enclosure of a nonnegative dyadic number. -/
def Iv.ofDy (x : Dy) : Iv :=
  let s := x.e + 640
  if 0 ≤ s then ⟨x.m.natAbs * 2 ^ s.toNat, x.m.natAbs * 2 ^ s.toNat⟩
  else ⟨x.m.natAbs / 2 ^ (-s).toNat, divUp x.m.natAbs (2 ^ (-s).toNat)⟩

/-- The Taylor sum of `e^x` from the term `t = x^n / n!`, for `x ≤ 1/2`; the last term bounds the remainder. -/
def expTaylor (x : Iv) : Nat → Nat → Iv → Iv → Iv
  | 0, _, t, acc => ⟨acc.lo, acc.hi + t.hi + 1⟩
  | k + 1, n, t, acc =>
    let t' := (t.mul x).divNat n
    expTaylor x k (n + 1) t' (acc.add t')

/-- A number squared `k` times. -/
def Iv.sqn : Nat → Iv → Iv
  | 0, x => x
  | k + 1, x => Iv.sqn k (x.mul x)

/-- The enclosure of `e^a` for `0 ≤ a ≤ 128`. -/
def ivExp (a : Iv) : Iv := Iv.sqn 8 (expTaylor (a.divNat 256) 110 1 ivOne ivOne)

/-- The series of `artanh z` from the term `t = z^n`, for `z ≤ 1/3`. -/
def artanhSum (zz : Iv) : Nat → Nat → Iv → Iv → Iv
  | 0, _, t, acc => ⟨acc.lo, acc.hi + t.hi + 1⟩
  | k + 1, n, t, acc => artanhSum zz k (n + 2) (t.mul zz) (acc.add (t.divNat n))

/-- The enclosure of `ln (M / 2^24)` for `2^24 ≤ M < 2^25`. -/
def ivLnMant (M : Nat) : Iv :=
  let z : Iv := ⟨(M - 2 ^ 24) * fixOne / (M + 2 ^ 24), divUp ((M - 2 ^ 24) * fixOne) (M + 2 ^ 24)⟩
  let s := artanhSum (z.mul z) 205 1 z ⟨0, 0⟩
  s.add s

/-- The alternating series of `Φ(x) - 1/2` over `sqrt(2π)`: the sums of its positive and of its negative terms, from
`t = x^(2n+1) / (2^n n!)`. -/
def phiSum (xx : Iv) : Nat → Nat → Iv → Iv → Iv → Iv × Iv
  | 0, _, t, p, q => (⟨p.lo, p.hi + t.hi + 1⟩, q)
  | k + 1, n, t, p, q =>
    let u := t.divNat (2 * n + 1)
    phiSum xx k (n + 1) ((t.mul xx).divNat (2 * (n + 1))) (if n % 2 = 0 then p.add u else p)
      (if n % 2 = 0 then q else q.add u)

/-- The enclosure of `|Φ(x) - 1/2|` for `0 ≤ x ≤ 16`. -/
def ivPhiHalf (x : Iv) : Iv :=
  let s := phiSum (x.mul x) 760 0 x ⟨0, 0⟩ ⟨0, 0⟩
  (s.1.sub s.2).mul ⟨invSqrtTwoPiFix, invSqrtTwoPiFix + 1⟩

/-- A number cut to its leading 192 bits: the bits kept and the bits cut. -/
def leadBits (n : Nat) : Nat × Nat :=
  let c := Nat.log2 n - 191
  (n / 2 ^ c, c)

/-- `⌊512 * log2 n⌋` for a number of at most 193 bits. -/
def log512 (n : Nat) : Nat := Nat.log2 (sqn 9 n)

/-- `round_ne (256 * log2 y)` at one end of an enclosure, with ties upward: `up` adds one to a cut number.
(DEDUCED, log entry 5.) -/
def roundEnd (up : Bool) (n : Nat) : Int :=
  let b := leadBits n
  let k := b.1 + (if up && b.2 ≠ 0 then 1 else 0)
  ((log512 k : Int) + 512 * b.2 + 1) / 2

/-- R113's rounding of an enclosed positive value `y * 2^e`, in units of 2^-8. Were the two ends to disagree, the result
would be a free value.
(DEDUCED, log entry 5.) -/
def roundLog8 (y : Iv) (e : Int) : Int :=
  let a := roundEnd false y.lo
  let b := roundEnd true y.hi
  (if a = b then a else (Config.freeNat y.lo : Int)) + 256 * e - 256 * 640

/-- A finite result with sign `n` whose log is `r` units of 2^-8. -/
def result8 (n : Bool) (r : Int) : LVal := .fin n (r * 256)

/-- The transcendental operations of Table 4.4. -/
inductive Trans where
  | exp2 | log2 | exp | log | tanh | sigmoid | silu | gelu
  deriving DecidableEq, Repr

/-- The operation of a code. -/
def Trans.ofCode (c : Nat) : Option Trans :=
  match c with
  | 0x20 => some .exp2 | 0x21 => some .log2 | 0x22 => some .exp | 0x23 => some .log
  | 0x24 => some .tanh | 0x25 => some .sigmoid | 0x26 => some .silu | 0x27 => some .gelu
  | _ => none

/-- `round_ne (256 * X / ln 2)` for a dyadic `X` below 2^11 in magnitude: the log of `e^X`. -/
def expLog8 (x : Dy) : Int :=
  -- |X| < 2^11; the quotient is irrational for X ≠ 0, so the two ends decide
  let y := (Iv.ofDy x.abs).div ivLn2
  let r : Int := ((y.lo * 512 / fixOne + 1) / 2 : Nat)
  if x.m < 0 then -r else r

/-- `n + ln(M/2^24)/ln 2` or `n ln 2 + ln(M/2^24)` in magnitude, for `ln` scaled by the given unit. -/
def logMag (unit : Iv) (n : Int) (f : Iv) : Iv :=
  let w : Iv := ⟨unit.lo * n.natAbs, unit.hi * n.natAbs⟩
  if 0 ≤ n then w.add f else w.sub f

/-- The fraction of `1/(1 + e^-a)` and of `e^-a/(1 + e^-a)` for `0 ≤ a ≤ 128`. -/
def ivSigmoid (neg : Bool) (a : Iv) : Iv :=
  let e := ivExp a
  if neg then ivOne.div (ivOne.add e) else e.div (ivOne.add e)

/-- `x < y` for a dyadic number and an integer. -/
def Dy.ltInt (x : Dy) (y : Int) : Bool := x.lt ⟨y, 0⟩

/-- R113 for a finite nonzero operand with sign `neg` and log `l`: the value before R26 and the flags of the operation. -/
def transFin (t : Trans) (neg : Bool) (l : Int) : LVal × FlagWord :=
  let x := linearV neg l
  let a := x.abs
  match t with
  | .exp2 => (result8 false (roundShift x.m (x.e + 8)), 0)
  | .exp =>
    if !(a.ltInt 1024) then (result8 false (if neg then -(2 ^ 20) else 2 ^ 20), 0)
    else (result8 false (expLog8 x), 0)
  | .log2 =>
    if neg then (.nan, flagInvalid)
    else
      let M := antilog24 (logFrac l)
      let n := logFloor l
      if M = 2 ^ 24 then
        if n = 0 then (.pzero, 0) else (result8 (n < 0) (roundLog8 ⟨fixOne * n.natAbs, fixOne * n.natAbs⟩ 0), 0)
      else (result8 (n < 0) (roundLog8 (logMag ivOne n ((ivLnMant M).div ivLn2)) 0), 0)
  | .log =>
    if neg then (.nan, flagInvalid)
    else
      let M := antilog24 (logFrac l)
      let n := logFloor l
      if M = 2 ^ 24 ∧ n = 0 then (.pzero, 0)
      else (result8 (n < 0) (roundLog8 (logMag ivLn2 n (ivLnMant M)) 0), 0)
  | .tanh =>
    if !(a.ltInt 64) then (result8 neg 0, 0)
    else if a.lt ⟨1, -20⟩ then
      -- x - x^3/3 < tanh x < x - x^3/3 + 2x^5/15, over the common factor |X| / (15 * 2^(2k))
      let m := a.m.natAbs
      let k := (-2 * a.e).toNat
      let lo := m * (15 * 2 ^ (2 * k) - 5 * m * m * 2 ^ k)
      let hi := lo + m * (2 * m ^ 4)
      (result8 neg (roundLog8 ⟨lo * fixOne / 15, divUp (hi * fixOne) 15⟩ (a.e - 2 * k)), 0)
    else
      let e := ivExp (let y := Iv.ofDy a; y.add y)
      (result8 neg (roundLog8 ((e.sub ivOne).div (e.add ivOne)) 0), 0)
  | .sigmoid =>
    if !(a.ltInt 128) then (if neg then (result8 false (-(2 ^ 20)), 0) else (result8 false 0, 0))
    else (result8 false (roundLog8 (ivSigmoid neg (Iv.ofDy a)) 0), 0)
  | .silu =>
    if !(a.ltInt 128) then
      if neg then (result8 true (-(2 ^ 20)), 0)
      else (result8 false (roundLog8 ⟨a.m.natAbs * (fixOne - 2 ^ 460), a.m.natAbs * fixOne⟩ a.e), 0)
    else
      let s := ivSigmoid neg (Iv.ofDy a)
      (result8 neg (roundLog8 ⟨a.m.natAbs * s.lo, a.m.natAbs * s.hi⟩ a.e), 0)
  | .gelu =>
    if !(a.ltInt 16) then
      if neg then (result8 true (-(2 ^ 20)), 0)
      else (result8 false (roundLog8 ⟨a.m.natAbs * (fixOne - 2 ^ 460), a.m.natAbs * fixOne⟩ a.e), 0)
    else
      let h := ivPhiHalf (Iv.ofDy a)
      let half : Iv := ⟨fixOne / 2, fixOne / 2⟩
      let s := if neg then half.sub h else half.add h
      (result8 neg (roundLog8 ⟨a.m.natAbs * s.lo, a.m.natAbs * s.hi⟩ a.e), 0)

/-- R113 and Table 4.5b: the value before R26 and the flags of the operation. -/
def transOp (t : Trans) (a : LVal) : LVal × FlagWord :=
  match a with
  | .nan => (.nan, flagNanIn)
  | .fin n l => transFin t n l
  | .zero n =>
    match t with
    | .exp2 | .exp => (.one, 0)
    | .log2 | .log => (.inf true, 0)
    | .tanh | .silu | .gelu => (.zero n, 0)
    | .sigmoid => (.fin false (-65536), 0)
  | .inf n =>
    match t with
    | .exp2 | .exp => (if n then .pzero else .inf false, 0)
    | .log2 | .log => if n then (.nan, flagInvalid) else (.inf false, 0)
    | .tanh => (.fin n 0, 0)
    | .sigmoid => (if n then .pzero else .one, 0)
    | .silu | .gelu => (if n then .zero true else .inf false, 0)

end Sys2Proof.Machine
end

