-- ==== Sys2Proof/Machine/EightOps.lean ====
section
/-!
DEFINITION. Chapter 4: the operations of the Eight on seat values (Table 4.4, R107 to R113), the chain descriptor and its
evaluation for one element (R105 to R109), and the reduction unit's accumulators and results (R123 to R127).
-/
namespace Sys2Proof.Machine

/-- A seat value (R104): an LNS24 value or a predicate. -/
inductive Seat where
  | val (v : LVal)
  | pred (b : Bool)
  deriving DecidableEq, Repr

/-- R109: a seat value read as a value. -/
def Seat.value : Seat → LVal
  | .val v => v
  | .pred b => if b then .one else .pzero

/-- R109: a seat value read as a predicate. -/
def Seat.truth : Seat → Bool
  | .pred b => b
  | .val (.zero _) => false
  | .val .nan => false
  | .val _ => true

/-- The operation codes of Table 4.4 by shape. -/
inductive EOp where
  | pass | add | sub | mul | div | mulAdd | scale | powi | recip | sqrt | rsqrt | neg | abs | max | min | clamp | relu
  | select | cvt | lut
  | cmp (c : Cmp)
  | trans (t : Trans)
  deriving DecidableEq, Repr

/-- The operation of a code (Table 4.4); none for an unlisted code. -/
def EOp.ofCode (c : Nat) : Option EOp :=
  match c with
  | 0x00 => some .pass | 0x01 => some .add | 0x02 => some .sub | 0x03 => some .mul | 0x04 => some .div
  | 0x05 => some .mulAdd | 0x06 => some .scale | 0x07 => some .powi | 0x08 => some .recip | 0x09 => some .sqrt
  | 0x0A => some .rsqrt | 0x0B => some .neg | 0x0C => some .abs | 0x0D => some .max | 0x0E => some .min
  | 0x0F => some .clamp | 0x10 => some .relu | 0x1E => some .select | 0x30 => some .cvt | 0x31 => some .lut
  | _ =>
    match Cmp.ofCode c with
    | some k => some (.cmp k)
    | none => (Trans.ofCode c).map .trans

/-- Sources an operation uses beside A (Table 4.4). -/
def EOp.arity : EOp → Nat
  | .add | .sub | .mul | .div | .max | .min | .lut | .cmp _ => 2
  | .mulAdd | .clamp | .select => 3
  | _ => 1

/-- A quotient (Table 4.4, DIV). -/
def lvDiv (a b : LVal) : LVal × FlagWord :=
  match a, b with
  | .nan, _ => (.nan, flagNanIn)
  | _, .nan => (.nan, flagNanIn)
  | .zero _, .zero _ => (.nan, flagInvalid)
  | .inf _, .inf _ => (.nan, flagInvalid)
  | .zero m, .fin n _ => (.zero (m != n), 0)
  | .zero m, .inf n => (.zero (m != n), 0)
  | .fin m _, .zero n => (.inf (m != n), 0)
  | .fin m _, .inf n => (.zero (m != n), 0)
  | .inf m, .zero n => (.inf (m != n), 0)
  | .inf m, .fin n _ => (.inf (m != n), 0)
  | .fin m k, .fin n l => (.fin (m != n) (k - l), 0)

/-- The Inf signs among the terms of a sum. -/
def infSign (neg : Bool) : LVal → Bool
  | .inf n => n == neg
  | _ => false

/-- A term is −0. -/
def isNegZero : LVal → Bool
  | .zero n => n
  | _ => false

/-- R111: the exact linear sum of terms, one LOG conversion, and the rules of R22 and R23. -/
def lvSum (ts : List LVal) : LVal × FlagWord :=
  if ts.any LVal.isNan then (.nan, 0)
  else if ts.any (infSign false) && ts.any (infSign true) then (.nan, flagInvalid)
  else if ts.any (infSign false) then (.inf false, 0)
  else if ts.any (infSign true) then (.inf true, 0)
  else
    let x := ts.foldl (fun a t => a.add t.linear) (⟨0, 0⟩ : Dy)
    if x.m = 0 then (.zero (ts.all isNegZero), 0) else (XVal.toLog (.lin x), 0)

/-- A × 2^n (SCALE). -/
def lvScale (a : LVal) (n : Int) : LVal × FlagWord :=
  match a with
  | .fin s l => (.fin s (l + n * 65536), 0)
  | .nan => (.nan, flagNanIn)
  | v => (v, 0)

/-- A^n (POWI). -/
def lvPowi (a : LVal) (n : Int) : LVal × FlagWord :=
  match a with
  | .nan => (.nan, flagNanIn)
  | .zero s => if n = 0 then (.one, 0) else if 0 < n then (.zero (s && n % 2 != 0), 0) else (.inf (s && n % 2 != 0), 0)
  | .inf s => if n = 0 then (.one, 0) else if 0 < n then (.inf (s && n % 2 != 0), 0) else (.zero (s && n % 2 != 0), 0)
  | .fin s l => (.fin (s && n % 2 != 0) (n * l), 0)

/-- R112: √A, and 1/√A where `inv`. -/
def lvSqrt (inv : Bool) (a : LVal) : LVal × FlagWord :=
  match a with
  | .nan => (.nan, flagNanIn)
  | .zero n => (if inv then .inf n else .zero n, 0)
  | .inf n => if n then (.nan, flagInvalid) else (if inv then .pzero else .inf false, 0)
  | .fin n l => if n then (.nan, flagInvalid) else (.fin false (roundNE (if inv then -l else l) 4 * 2), 0)

/-- The formats CVT accepts. -/
def cvtFormat (f : Fmt) : Bool :=
  match f with
  | .lns8 | .lns12 | .lns16 | .fp32 | .fp16 | .bf16 => true
  | _ => false

/-- CVT: A converted to a format and back, with the flags of both steps. -/
def lvCvt (f : Fmt) (a : LVal) : LVal × FlagWord :=
  if f.isWire then
    let e := fpEncode f.fp a
    let d := fpDecode f.fp e.code
    (d.1.toLog, e.flags ||| d.2 ||| nanIn a)
  else
    let r := lnsThrough f.shape a
    (r.1, r.2 ||| nanIn a)

/-- NAN_IN for operands that are values. -/
def nanIns (vs : List LVal) : FlagWord := flagIf (vs.any LVal.isNan) flagNanIn

/-- R110: one operation on its sources. `n` is the exponent of SCALE and POWI, `f` the format of CVT; the LUT entry is
read by the chain (`chainSeat`). The result has passed R26 at the LNS24 limits. -/
def eightOp (op : EOp) (a b c : Seat) (n : Int) (f : Fmt) : Seat × FlagWord :=
  let va := a.value
  let vb := b.value
  let vc := c.value
  let fit (x : LVal × FlagWord) : Seat × FlagWord :=
    let r := seat x.1
    (.val r.1, x.2 ||| r.2)
  match op with
  | .pass => (a, nanIn (match a with | .val v => v | .pred _ => .pzero))
  | .add => let r := lvSum [va, vb]; fit (r.1, r.2 ||| nanIns [va, vb])
  | .sub => let r := lvSum [va, vb.negIf true]; fit (r.1, r.2 ||| nanIns [va, vb])
  | .mul => fit (lvMul va vb)
  | .div => fit (lvDiv va vb)
  | .mulAdd =>
    let p := lvMul va vb
    let r := lvSum [p.1, vc]
    fit (r.1, p.2 ||| r.2 ||| nanIns [va, vb, vc])
  | .scale => fit (lvScale va n)
  | .powi => fit (lvPowi va n)
  | .recip => fit (lvDiv .one va)
  | .sqrt => fit (lvSqrt false va)
  | .rsqrt => fit (lvSqrt true va)
  | .neg => (.val (va.negIf true), nanIn va)
  | .abs => (.val (match va with | .zero _ => .zero false | .inf _ => .inf false | .fin _ l => .fin false l | v => v), nanIn va)
  | .max => let r := lvMax va vb; (.val r.1, r.2)
  | .min => let r := lvMin va vb; (.val r.1, r.2)
  | .clamp =>
    let r := lvMax va vb
    let q := lvMin r.1 vc
    (.val q.1, r.2 ||| q.2)
  | .relu => let r := lvMax va .pzero; (.val r.1, r.2)
  | .select => (if a.truth then b else c, nanIns [vb, vc])
  | .cvt => fit (lvCvt f va)
  | .lut => (.val .nan, flagInvalid)
  | .cmp k => (.pred (k.holds va vb), nanIns [va, vb])
  | .trans t => fit (transOp t va)

/-! ## The chain descriptor (R106 to R108) -/

/-- A seat record (R107). -/
structure SeatRec where
  op : EOp
  a : Nat
  b : Nat
  c : Nat
  imm : Int
  deriving DecidableEq, Repr

/-- A chain descriptor (Table 4.2). -/
structure Chain where
  predOut : Nat
  redOp : Nat
  redSrc : Nat
  redAxis : Nat
  summary : Option Nat
  masked : Bool
  invert : Bool
  seats : List SeatRec
  deriving DecidableEq, Repr

/-- The chain with no seat, no reduction and no summary. -/
def Chain.plain : Chain := ⟨0, 0, 0, 0, none, false, false, []⟩

/-- A selector names a Till vector. -/
def selTill (s : Nat) : Bool := (0x20 ≤ s && s ≤ 0x23) || (0x28 ≤ s && s ≤ 0x2B)

/-- A selector names a scalar register s16 to s63. -/
def selScalar (s : Nat) : Bool := 0x50 ≤ s && s ≤ 0x7F

/-- R108: a selector that stands for a value at seat `k` (0-based), with `streams` and `tills` the bound ones. -/
def selOk (streams tills : List Nat) (k s : Nat) : Bool :=
  (1 ≤ s && s ≤ 4 && streams.contains (s - 1))
    || (0x11 ≤ s && s ≤ 0x18 && s - 0x11 < k)
    || (selTill s && tills.contains (s % 4))
    || selScalar s || s = 0x80 || s = 0x81

/-- R107: the record keeps the selector rules of its operation. -/
def SeatRec.ok (streams tills : List Nat) (k : Nat) (r : SeatRec) : Bool :=
  selOk streams tills k r.a &&
  (match r.op with
   | .scale | .powi => r.b = 0 || selScalar r.b
   | .lut => selTill r.b && tills.contains (r.b % 4)
   | op => if 2 ≤ op.arity then selOk streams tills k r.b else r.b = 0) &&
  (if 3 ≤ r.op.arity then selOk streams tills k r.c else r.c = 0) &&
  (match r.op with
   | .cvt => (match Fmt.ofCode (twos 16 r.imm) with | some f => cvtFormat f | none => false)
   | _ => true)

/-- The seats' results that are predicates, in seat order. Beside the comparisons, the model takes a PASS of a predicate, and a
SELECT between two predicates, for seats that produce a predicate: both hand their source on as it is (R106, R109).
(DESIGN CHOICE, log entry 105.) -/
def predSeats : List SeatRec → List Bool → List Bool
  | [], acc => acc
  | r :: rs, acc =>
    let is (s : Nat) : Bool := 0x11 ≤ s && acc.getD (s - 0x11) false
    let p := match r.op with
      | .cmp _ => true
      | .pass => is r.a
      | .select => is r.b && is r.c
      | _ => false
    predSeats rs (acc ++ [p])

/-- A seat record from its 8 bytes. -/
def seatOfBytes (bs : List Byte) : Option SeatRec :=
  match EOp.ofCode (leNat (bs.take 1)) with
  | none => none
  | some op =>
    some { op := op, a := leNat ((bs.drop 1).take 1), b := leNat ((bs.drop 2).take 1),
           c := leNat ((bs.drop 3).take 1), imm := untwos 16 (leNat ((bs.drop 4).take 2)) }

/-- `n` seat records from their bytes; none where a code is unlisted. -/
def seatsOfBytes : Nat → List Byte → Option (List SeatRec)
  | 0, _ => some []
  | n + 1, bs =>
    match seatOfBytes (bs.take 8), seatsOfBytes n (bs.drop 8) with
    | some r, some rs => some (r :: rs)
    | _, _ => none

/-- R106: a chain descriptor read from the front of a byte list, with the bytes it takes; none where a constraint of
Tables 4.2 and 4.3 or of R107 is broken. -/
def chainOfBytes (streams tills : List Nat) (bs : List Byte) : Option (Chain × Nat) :=
  let at1 (i : Nat) : Nat := leNat ((bs.drop i).take 1)
  let ns := at1 0
  if bs.length < 8 ∨ 8 < ns ∨ bs.length < 8 + 8 * ns then none
  else
    match seatsOfBytes ns (bs.drop 8) with
    | none => none
    | some seats =>
      let summ := at1 5
      let sumOn := summ.testBit 7
      let d := summ % 64
      let used := at1 2 ≠ 0 || sumOn
      let preds := predSeats seats []
      let okSeats := (List.range ns).all (fun k =>
        match seats[k]? with
        | some r => r.ok streams tills k
        | none => false)
      let okHead := at1 1 ≤ ns && (at1 1 = 0 || preds.getD (at1 1 - 1) false) && at1 2 ≤ 9 && at1 4 ≤ 2
        && (if used then selOk streams tills ns (at1 3) else at1 3 = 0) && (!sumOn || (16 ≤ d && d ≤ 60))
      if okSeats && okHead then
        some ({ predOut := at1 1, redOp := at1 2, redSrc := at1 3, redAxis := at1 4,
                summary := if sumOn then some d else none,
                masked := (at1 6).testBit 0, invert := (at1 6).testBit 1, seats := seats }, 8 + 8 * ns)
      else none

/-- The source selectors a chain reads; with no seat the output is stream 0. -/
def Chain.selectors (c : Chain) : List Nat :=
  c.redSrc :: (if c.seats = [] then [1] else c.seats.flatMap (fun r => [r.a, r.b, r.c]))

/-- The streams a chain reads. -/
def Chain.reads (c : Chain) : List Nat := (List.range 4).filter (fun i => c.selectors.contains (i + 1))

/-- The Till vectors a chain reads. -/
def Chain.tillReads (c : Chain) : List Nat :=
  (List.range 4).filter (fun i => c.selectors.contains (0x20 + i) || c.selectors.contains (0x28 + i))

/-! ## Evaluation of a chain for one element -/

/-- What one element of a pass reads: the streams' seat values with the flags of their entry conversion, the Till
vectors' entries for column and row broadcast, and the scalar registers latched at the start. -/
structure ElemIn where
  streams : List (LVal × FlagWord)
  tills : List (List LVal)
  col : Nat
  row : Nat
  regs : List (BitVec 64)
  deriving DecidableEq, Repr

/-- R116: a Till read; beyond the vector's length it gives NaN and raises INVALID. -/
def tillRead (v : List LVal) (i : Nat) : LVal × FlagWord :=
  match v[i]? with
  | some x => (x, 0)
  | none => (.nan, flagInvalid)

/-- R108, R115: a source's value. -/
def chainSrc (x : ElemIn) (res : List Seat) (s : Nat) : Seat × FlagWord :=
  if 1 ≤ s ∧ s ≤ 4 then
    let v := x.streams.getD (s - 1) (.nan, 0)
    (.val v.1, v.2)
  else if 0x11 ≤ s ∧ s ≤ 0x18 then (res.getD (s - 0x11) (.val .pzero), 0)
  else if 0x20 ≤ s ∧ s ≤ 0x23 then
    let v := tillRead (x.tills.getD (s - 0x20) []) x.col
    (.val v.1, v.2)
  else if 0x28 ≤ s ∧ s ≤ 0x2B then
    let v := tillRead (x.tills.getD (s - 0x28) []) x.row
    (.val v.1, v.2)
  else if 0x50 ≤ s ∧ s ≤ 0x7F then (.val (lnsDecode shape24 ((x.regs.getD (s - 0x40) 0).toNat % 2 ^ 24)), 0)
  else if s = 0x81 then (.val .one, 0)
  else (.val .pzero, 0)

/-- One seat of a chain (R105, R110), the LUT and the exponents of SCALE and POWI included. -/
def chainSeat (x : ElemIn) (res : List Seat) (r : SeatRec) : Seat × FlagWord :=
  let a := chainSrc x res r.a
  match r.op with
  | .lut =>
    let code := (lnsEncode shape8 a.1.value).code
    let t := tillRead (x.tills.getD (r.b % 4) []) code
    (.val t.1, a.2 ||| t.2)
  | .scale | .powi =>
    let n : Int := if r.b = 0 then r.imm else (x.regs.getD (r.b - 0x40) 0).toInt
    let y := eightOp r.op a.1 (.val .pzero) (.val .pzero) n .lns24
    (y.1, a.2 ||| y.2)
  | _ =>
    let b := chainSrc x res r.b
    let c := chainSrc x res r.c
    let y := eightOp r.op a.1 b.1 c.1 0 ((Fmt.ofCode (twos 16 r.imm)).getD .lns24)
    (y.1, a.2 ||| b.2 ||| c.2 ||| y.2)

/-- The results of the seats of a chain, in order. -/
def chainSeats (x : ElemIn) : List SeatRec → List Seat → FlagWord → List Seat × FlagWord
  | [], res, fl => (res, fl)
  | r :: rs, res, fl =>
    let y := chainSeat x res r
    chainSeats x rs (res ++ [y.1]) (fl ||| y.2)

/-- What a chain gives for one element: its output, its predicate, the value reduced, and the flags. -/
structure ElemOut where
  out : Seat
  pred : Bool
  red : LVal
  flags : FlagWord
  deriving DecidableEq, Repr

/-- R105: a chain run on one element. With no seat the output is stream 0, and the copy raises no flag of its own: a NaN
raises NAN_IN only where a PASS or another operation takes it.
(DESIGN CHOICE, log entry 106.) -/
def chainElem (c : Chain) (x : ElemIn) : ElemOut :=
  let s := chainSeats x c.seats [] 0
  let o : Seat × FlagWord :=
    match s.1.getLast? with
    | some y => (y, 0)
    | none => chainSrc x [] 1
  let r : Seat × FlagWord := if c.redSrc = 0 then (.val .pzero, 0) else chainSrc x s.1 c.redSrc
  { out := o.1, pred := (s.1.getD (c.predOut - 1) (.pred false)).truth, red := r.1.value,
    flags := s.2 ||| o.2 ||| r.2 }

/-! ## Reductions (R123 to R127) -/

/-- The reductions of Table 4.5. -/
inductive RedOp where
  | sum | sumsq | prod | max | min | argmax | argmin | count | mean
  deriving DecidableEq, Repr

/-- The reduction of a code (Table 4.5). -/
def RedOp.ofCode (c : Nat) : Option RedOp :=
  match c with
  | 0x01 => some .sum | 0x02 => some .sumsq | 0x03 => some .prod | 0x04 => some .max | 0x05 => some .min
  | 0x06 => some .argmax | 0x07 => some .argmin | 0x08 => some .count | 0x09 => some .mean
  | _ => none

/-- The accumulator of one result of a reduction; `sats` counts its additions that saturated (R75, R101). -/
structure RedAcc where
  count : Nat
  tal : Tal
  nan : Bool
  hasZero : Bool
  hasInf : Bool
  neg : Bool
  log : Int
  best : Option LVal
  idx : Nat
  nanIdx : Option Nat
  flags : FlagWord
  sats : Nat
  deriving DecidableEq, Repr

/-- An accumulator over no element. -/
def RedAcc.start : RedAcc := ⟨0, .fresh, false, false, false, false, 0, none, 0, none, 0, 0⟩

/-- The accumulator with what it raised and counted left out, as it stands before a pass adds to it. -/
def RedAcc.quiet (r : RedAcc) : RedAcc := { r with flags := 0, sats := 0 }

/-- R126: the better of a new element and the best so far; equal elements resolve to the lower index. -/
def redBest (up : Bool) (best : Option LVal) (idx : Nat) (v : LVal) (i : Nat) : Option LVal × Nat :=
  match best with
  | none => (some v, i)
  | some b =>
    let better := if up then b.below v else v.below b
    if better then (some v, i) else if v = b && decide (i < idx) then (some v, i) else (best, idx)

/-- One active element taken into a reduction (R123, R126); `i` is the index of R126. -/
def RedAcc.add (r : RedAcc) (op : RedOp) (tag : Tag) (v : LVal) (i : Nat) : RedAcc :=
  let r := { r with count := r.count + 1 }
  match op with
  | .sum | .mean =>
    let t := r.tal.addTerm tag v
    { r with tal := t.1, flags := r.flags ||| t.2 ||| nanIn v, sats := r.sats + satSeen t.2 }
  | .sumsq =>
    let t := r.tal.addProduct tag v v
    { r with tal := t.1, flags := r.flags ||| t.2 ||| nanIn v, sats := r.sats + satSeen t.2 }
  | .prod =>
    match v with
    | .nan => { r with nan := true }
    | .zero n => { r with hasZero := true, neg := r.neg != n }
    | .inf n => { r with hasInf := true, neg := r.neg != n }
    | .fin n l => { r with neg := r.neg != n, log := r.log + l }
  | .max | .argmax =>
    if v.isNan then
      { r with nan := true, nanIdx := some (match r.nanIdx with | some k => Nat.min k i | none => i),
               flags := r.flags ||| flagNanIn }
    else let b := redBest true r.best r.idx v i; { r with best := b.1, idx := b.2 }
  | .min | .argmin =>
    if v.isNan then
      { r with nan := true, nanIdx := some (match r.nanIdx with | some k => Nat.min k i | none => i),
               flags := r.flags ||| flagNanIn }
    else let b := redBest false r.best r.idx v i; { r with best := b.1, idx := b.2 }
  | .count => { r with flags := r.flags ||| nanIn v }

/-- What a reduction gives for one result: a value to be written by R105, the tally for SUM and SUMSQ, or an unsigned
32-bit integer. -/
inductive RedOut where
  | value (v : LVal)
  | tally (t : Tal)
  | index (n : Nat)
  deriving DecidableEq, Repr

/-- The close of a result's tally, as the Tally counters see it (R101): a SUM or SUMSQ that is not exported, and a MEAN over
at least one element. -/
def RedAcc.seen (r : RedAcc) (op : RedOp) (exported : Bool) : TalSeen :=
  match op with
  | .sum | .sumsq => if exported then .zero else r.tal.closeSeen
  | .mean => if r.count = 0 then .zero else r.tal.closeSeen
  | _ => .zero

/-- R123 to R127, Table 4.6: a result and its flags. SUM and SUMSQ leave as tallies: they close into the reduction's output
format, or are exported. The flags hold EMPTY where no element was active. Of an index or a count that 32 bits cannot hold the low 32
are kept.
(DESIGN CHOICE, log entry 131.) -/
def RedAcc.result (r : RedAcc) (op : RedOp) : RedOut × FlagWord :=
  if r.count = 0 then
    (match op with
     | .sum | .sumsq => .tally .fresh
     | .prod => .value .one
     | .max => .value (.inf true)
     | .min => .value (.inf false)
     | .argmax | .argmin => .index 0xFFFFFFFF
     | .count => .index 0
     | .mean => .value .nan, flagEmpty)
  else
    match op with
    | .sum | .sumsq => (.tally r.tal, r.flags)
    | .prod =>
      if r.nan then (.value .nan, r.flags ||| flagNanIn)
      else if r.hasZero && r.hasInf then (.value .nan, r.flags ||| flagInvalid)
      else if r.hasZero then (.value (.zero r.neg), r.flags)
      else if r.hasInf then (.value (.inf r.neg), r.flags)
      else let s := seat (.fin r.neg r.log); (.value s.1, r.flags ||| s.2)
    | .max | .min => (.value (if r.nan then .nan else r.best.getD .nan), r.flags)
    | .argmax | .argmin => (.index ((match r.nanIdx with | some k => k | none => r.idx) % 2 ^ 32), r.flags)
    | .count => (.index (r.count % 2 ^ 32), r.flags)
    | .mean => let m := r.tal.closeMean r.count; (.value m.1, r.flags ||| m.2)

end Sys2Proof.Machine
end

