-- ==== Sys2Proof/Machine/Loom.lean ====
section
/-!
DEFINITION. Chapter 2: the arithmetic modes, the products of each mode, the chunk sums of R71 and R72, the STOCH
generators and streams (R55 to R59), the close offsets (R53) and the cycle and skipped-work counts (R61, R63).
-/
namespace Sys2Proof.Machine

/-- The arithmetic modes of Table 2.1; a STOCH mode carries log2 of its stream length (6 to 10). -/
inductive Mode where
  | log8 | log12 | log16 | shift4 | shift8
  | stoch (lg : Nat)
  deriving DecidableEq, Repr

/-- R46: the mode of a code. -/
def Mode.ofCode (c : Nat) : Option Mode :=
  match c with
  | 0x01 => some .log8 | 0x02 => some .log12 | 0x03 => some .log16
  | 0x10 => some .shift4 | 0x11 => some .shift8
  | 0x20 => some (.stoch 6) | 0x21 => some (.stoch 7) | 0x22 => some (.stoch 8)
  | 0x23 => some (.stoch 9) | 0x24 => some (.stoch 10)
  | _ => none

/-- R98: the tag of a network's mode. -/
def Mode.tag : Mode → Tag
  | .log8 | .log12 | .log16 => .log
  | .shift4 | .shift8 => .shift
  | .stoch _ => .stoch

/-- A SHIFT mode. -/
def Mode.isShift : Mode → Bool
  | .shift4 | .shift8 => true
  | _ => false

/-- A STOCH mode. -/
def Mode.isStoch : Mode → Bool
  | .stoch _ => true
  | _ => false

/-- R47, Table 2.2: the mode accepts an A operand of this format. -/
def Mode.acceptsA : Mode → Fmt → Bool
  | .log8, f => f = .lns8 || f = .blns8
  | .log12, f => f = .lns8 || f = .blns8 || f = .lns12
  | .log16, f | .stoch _, f => f = .lns8 || f = .blns8 || f = .lns12 || f = .lns16
  | .shift4, f | .shift8, f => f.isLin

/-- R47, Table 2.2: the mode accepts a B operand of this format. -/
def Mode.acceptsB : Mode → Fmt → Bool
  | .shift4, f => f = .pw4
  | .shift8, f => f = .pw4 || f = .pw8
  | m, f => m.acceptsA f

/-! ## LOG and SHIFT chunks (R48, R50, R71, R72) -/

/-- R73: the marks a product of the log number system leaves. -/
def markLog (c : Chunk) (p : LVal) : Chunk :=
  match p with
  | .zero n => { c with terms := true, nz := c.nz || !n }
  | .inf n => { c with terms := true, nz := true, pinf := c.pinf || !n, ninf := c.ninf || n }
  | .nan => { c with terms := true, nz := true, nan := true }
  | .fin _ _ => { c with terms := true, nz := true }

/-- The largest exponent among the finite nonzero products of a chunk (R71). -/
def chunkKmax : List LVal → Option Int
  | [] => none
  | .fin _ l :: ps => some (match chunkKmax ps with | some k => max (logFloor l) k | none => logFloor l)
  | _ :: ps => chunkKmax ps

/-- R71: the aligned term of a finite product under the window exponent `w`, in units of 2^(w-32). -/
def chunkTerm (w : Int) : LVal → Int
  | .fin n l =>
    let t := roundShift (antilog24 (logFrac l)) (logFloor l - w + 8)
    if n then -t else t
  | _ => 0

/-- R71: the chunk sum S over its products. -/
def chunkSum (w : Int) (ps : List LVal) : Int := ps.foldl (fun a p => a + chunkTerm w p) 0

/-- R71, R73: a LOG-mode chunk of products, its value in units of 2^-160. -/
def chunkLog (ps : List LVal) : Chunk :=
  let c := ps.foldl markLog Chunk.empty
  match chunkKmax ps with
  | none => c
  | some k =>
    let w := max k (-128)
    { c with value := chunkSum w ps * 2 ^ (w + 128).toNat }

/-- R48, R71: the chunk of a lane whose K indices carry these operand pairs, with the flags of the product stage. -/
def laneLog (xs : List (LVal × LVal)) : Chunk × FlagWord :=
  let ps := xs.map (fun x => lvMul x.1 x.2)
  (chunkLog (ps.map (·.1)), flagsOr (ps.map (·.2)))

/-- R50, R72: the chunk of a SHIFT lane: integer codes `q` and PW values in units of 2^-6. Every product that is zero is
+0, so every product marks NZ. -/
def laneShift (xs : List (Int × Int)) : Chunk :=
  if xs.isEmpty then Chunk.empty
  else { Chunk.empty with
    terms := true, nz := true, value := xs.foldl (fun a x => a + x.1 * x.2) 0 * 2 ^ 154 }

/-! ## STOCH (R55 to R59) -/

/-- R55: the threshold of a finite nonzero log under a stream scale's log, and SAT_LIN. -/
def stochThreshold (l ls : Int) : Nat × FlagWord :=
  let t : Int := if 65536 < l - ls then 65537 else antilogRound (l - ls) 16
  if 65536 < t then (65536, flagSatLin) else (t.toNat, 0)

/-- R56: one step of a generator. -/
def lfsrStep (s : Nat) : Nat :=
  let fb := (s.testBit 31 ^^ s.testBit 21) ^^ (s.testBit 1 ^^ s.testBit 0)
  (2 * s + fb.toNat) % 2 ^ 32

/-- `n` steps of a generator. -/
def lfsrSteps : Nat → Nat → Nat
  | 0, s => s
  | n + 1, s => lfsrSteps n (lfsrStep s)

/-- The next `n` random values: each draw advances 16 steps and takes bits [15:0]. -/
def lfsrDraws : Nat → Nat → List Nat
  | 0, _ => []
  | n + 1, s =>
    let s' := lfsrSteps 16 s
    s' % 65536 :: lfsrDraws n s'

/-- Bit i moves to bit 31 - i. -/
def bitrev32 (x : Nat) : Nat := (List.range 32).foldl (fun a i => 2 * a + (x.testBit i).toNat) 0

/-- R57: the seeds of G_A and G_B for chunk `c` at a logical position, before the warm-up.
(DESIGN CHOICE, log entry 28.) -/
def stochSeeds (seed devaddr lcore cluster c : Nat) : Nat × Nat :=
  let pos := (devaddr * 2 ^ 12 + lcore * 2 ^ 4 + cluster) % 2 ^ 32
  let mix0 := (seed ^^^ pos) ^^^ (c * 0x9E3779B9 % 2 ^ 32)
  let mix := if mix0 = 0 then 1 else mix0
  let gb := bitrev32 mix
  (mix, if gb = mix then gb ^^^ 0xFFFF else gb)

/-- R57, R58: the random values of a chunk of `n` K indices, those of G_A and those of G_B. -/
def stochDraws (seed devaddr lcore cluster c n len : Nat) : List Nat × List Nat :=
  let g := stochSeeds seed devaddr lcore cluster c
  (lfsrDraws (n * len) (lfsrSteps 32 g.1), lfsrDraws (n * len) (lfsrSteps 32 g.2))

/-- One operand of a STOCH product: its value and, where it is finite and nonzero, its threshold. -/
structure StochOp where
  v : LVal
  t : Nat
  deriving DecidableEq, Repr

/-- R55: an operand under its stream scale. -/
def stochOp (ls : Int) (v : LVal) : StochOp × FlagWord :=
  match v with
  | .fin _ l => let t := stochThreshold l ls; (⟨v, t.1⟩, t.2)
  | _ => (⟨v, 0⟩, 0)

/-- The popcount of the AND of two streams over their random values (R58, R59). -/
def popAnd (ta tb : Nat) : List Nat → List Nat → Nat
  | x :: xs, y :: ys => (if x < ta && y < tb then 1 else 0) + popAnd ta tb xs ys
  | _, _ => 0

/-- R59: the product of two operands over the K index's random values: an exact integer with its marks. -/
def stochProd (a b : StochOp) (ra rb : List Nat) : Chunk × FlagWord :=
  match a.v, b.v with
  | .fin m _, .fin n _ =>
    let p := popAnd a.t b.t ra rb
    let neg := m != n
    ({ Chunk.empty with
        terms := true, nz := !(p = 0 && neg), value := (if neg then -(p : Int) else p) * 2 ^ 160 }, 0)
  | x, y =>
    let p := lvMul x y
    (markLog Chunk.empty p.1, p.2)

/-- Two sets of marks and values joined within one chunk. -/
def Chunk.join (a b : Chunk) : Chunk :=
  { nan := a.nan || b.nan, pinf := a.pinf || b.pinf, ninf := a.ninf || b.ninf, nz := a.nz || b.nz,
    terms := a.terms || b.terms, value := a.value + b.value }

/-- R59, R72: the chunk of a STOCH lane: the operands of its K indices, and each generator's values, `len` for each. -/
def laneStoch (len : Nat) : List (StochOp × StochOp) → List Nat → List Nat → Chunk × FlagWord
  | [], _, _ => (Chunk.empty, 0)
  | x :: xs, ra, rb =>
    let p := stochProd x.1 x.2 (ra.take len) (rb.take len)
    let r := laneStoch len xs (ra.drop len) (rb.drop len)
    (p.1.join r.1, p.2 ||| r.2)

/-- Table 2.4: 64-bit word positions of one K index where neither word is all zero; an operand without a stream has
only zero words. -/
def stochWords (ta tb : Nat) : Nat → List Nat → List Nat → Nat
  | 0, _, _ => 0
  | n + 1, ra, rb =>
    (if (ra.take 64).any (· < ta) && (rb.take 64).any (· < tb) then 1 else 0)
      + stochWords ta tb n (ra.drop 64) (rb.drop 64)

/-- W of Table 2.4 for a lane's chunk. -/
def laneWords (len : Nat) : List (StochOp × StochOp) → List Nat → List Nat → Nat
  | [], _, _ => 0
  | x :: xs, ra, rb =>
    stochWords x.1.t x.2.t (len / 64) ra rb + laneWords len xs (ra.drop len) (rb.drop len)

/-! ## Close offsets (R52, R53) -/

/-- Table 2.3 for a column: `sa` and `sb` are the LNS16 codes of the A scale (LIN tensor scale or S_A) and of S_B, `col`
the column scale's value in SHIFT mode. -/
def closeCol (m : Mode) (sa sb : Nat) (col : LVal) : CloseCol :=
  match m with
  | .shift4 | .shift8 =>
    match col with
    | .fin n l => ⟨scaleLog sa + l, n, false⟩
    | _ => ⟨0, false, true⟩
  | .stoch lg => ⟨scaleLog sa + scaleLog sb - lg * 65536, false, false⟩
  | _ => .plain

/-! ## Cycles and skipped work (R61, R63) -/

/-- `⌈a / b⌉`. -/
def ceilDiv (a b : Nat) : Nat := (a + b - 1) / b

/-- R61: cycles of a LOG chunk of `n` indices when the wider operand has `bits` bits. -/
def logCycles (bits n : Nat) : Nat := if bits ≤ 8 then ceilDiv n 4 else if bits ≤ 12 then ceilDiv n 2 else n

/-- R51, R61: cycles of a SHIFT column's chunk with `t` present terms. -/
def shiftCycles (wideA : Bool) (n t : Nat) : Nat :=
  let x := if wideA then 4 else 8
  max 1 (max (ceilDiv n x) (ceilDiv t x))

/-- R63: with the time each unit of lanes takes, beside the lanes it has, the cluster's cycles and the lane-cycles its faster
lanes wait. -/
def unitTimes (us : List (Nat × Nat)) : Nat × Nat :=
  let top := us.foldl (fun a u => max a u.1) 0
  (top, us.foldl (fun a u => a + (top - u.1) * u.2) 0)

/-- R63: term slots a weight leaves unused. -/
def absentTerms (f : Fmt) (c : Nat) : Nat :=
  match f with
  | .pw8 => 2 - pw8Terms c
  | _ => 1 - pw4Terms c

/-- Present terms of a weight. -/
def presentTerms (f : Fmt) (c : Nat) : Nat :=
  match f with
  | .pw8 => pw8Terms c
  | _ => pw4Terms c

end Sys2Proof.Machine
end

