-- ==== Sys2Proof/Machine/CoreTypes.lean ====
section
/-!
DEFINITION. The data of memory, tensors, cores and operators: tensor descriptors with their Assay records (chapters 4 and
6), a core's Tally buffer, Finish queue, Till and registers (chapters 3 and 4), and the operators' parameter blocks as the
device holds them once their tensor references are resolved (chapter 5).
-/
namespace Sys2Proof.Machine

/-! ## Tensors (R187, R188) -/

/-- The layouts of Table 6.3. -/
inductive Layout where
  | blocked | raw | ring
  deriving DecidableEq, Repr

/-- An Assay record (Table 4.9): the nonzero bins by index, in rising order, the other counts and the status bits. -/
structure Assay where
  bins : List (Nat × Nat)
  zeros : Nat
  infs : Nat
  nans : Nat
  flushed : Nat
  total : Nat
  low : Bool
  high : Bool
  saturated : Bool
  deriving DecidableEq, Repr

/-- The record of a tensor newly created (R134). -/
def Assay.empty : Assay := ⟨[], 0, 0, 0, 0, 0, false, false, false⟩

/-- A live handle of the tensor table (R187): its descriptor (Table 6.3; `fmt` none for RAW), its Assay record and its tile
tag. -/
structure Tensor where
  handle : Nat
  fmt : Option Fmt
  layout : Layout
  planes : Nat
  rows : Nat
  cols : Nat
  base : Nat
  pitch : Nat
  scale : Nat
  assay : Assay
  tag : Option Tag
  deriving DecidableEq, Repr

/-! ## Operators (Tables 5.5 to 5.8, 4.13, 4.14) -/

/-- A Loom operator's product: how its operands are stored, or the geometry of a convolution (chapter 7). -/
inductive LoomKind where
  | plain | transA | transB | batch
  | conv1 (g : List Nat)
  | conv2 (g : List Nat)
  deriving DecidableEq, Repr

/-- The parameter block of a Loom operator (Table 5.6) with its tensor references resolved to handles. -/
structure LoomP where
  kind : LoomKind
  m : Nat
  n : Nat
  k : Nat
  kbase : Nat
  a : Nat
  b : Nat
  c : Option Nat
  tal : Option Nat
  src : Nat
  srcSlot : Nat
  close : Nat
  closeSlot : Nat
  outFmt : Nat
  scaleA : Nat
  scaleB : Nat
  colScale : Option Nat
  tills : List (Option Nat)
  cores : List Nat
  batch : Nat
  red : Option Nat
  redFmt : Nat
  chain : Chain
  scalars : List (BitVec 64)
  deriving DecidableEq, Repr

/-- The parameter block of CHAIN (Table 5.7), resolved. -/
structure ChainP where
  nrows : Nat
  vlen : Nat
  ins : List (Option Nat)
  out : Option Nat
  pred : Option Nat
  mask : Option Nat
  pitch : Nat
  red : Option Nat
  outFmt : Nat
  redFmt : Nat
  tills : List (Option Nat)
  core : Nat
  sumOut : Option Nat
  chain : Chain
  scalars : List (BitVec 64)
  deriving DecidableEq, Repr

/-- The five row operators (R135). -/
inductive RowKind where
  | softmax | layernorm | rmsnorm | convert | gather
  deriving DecidableEq, Repr

/-- The parameter block of a row operator (Tables 4.13, 4.14), resolved. A field an operator does not have is none or 0. -/
structure RowP where
  kind : RowKind
  input : Nat
  out : Option Nat
  mask : Option Nat
  pitch : Nat
  offset : Option Nat
  den : Option Nat
  mode : Nat
  beta : Nat
  gain : Option Nat
  bias : Option Nat
  stats : Option Nat
  eps : Nat
  shift : Int
  index : Option Nat
  nidx : Nat
  cores : List Nat
  deriving DecidableEq, Repr

/-- An operator of the catalogue (Table 5.5) with its parameters. -/
inductive OpP where
  | loom (p : LoomP)
  | chain (p : ChainP)
  | rows (p : RowP)
  /-- TAL_COMBINE: COUNT, the inputs used, OUT, the core. -/
  | combine (count : Nat) (ins : List Nat) (out core : Nat)
  /-- TAL_CLOSE: ROWS, COLS, IN, OUT, CLOSE, OUT_FMT, SCALE_A, SCALE_B, COLSCALE, the core. -/
  | close (rows cols input out kind outFmt scaleA scaleB : Nat) (colScale : Option Nat) (core : Nat)
  /-- SCATTER_ADD_TAL: ROWS, IN, INDEX, OUT, the cores (R236). -/
  | scatter (rows input index out : Nat) (cores : List Nat)
  /-- SKIP_IF: REC, FIELD, TEST, THRESH, SKIP. -/
  | skipIf (rec field : Nat) (test : Cmp) (thresh skip : Nat)
  /-- STACK_POP: EXPECT, OUT, DISCARD, the cores (Table 7.9). -/
  | pop (expect : Nat) (out : Option Nat) (discard : Bool) (cores : List Nat)
  deriving DecidableEq, Repr

/-! ## A core (chapters 2 to 4) -/

/-- The states of a Tally buffer slot (R94). -/
inductive SlotState where
  | empty | opened | invalid
  deriving DecidableEq, Repr

/-- A parked slot: its state, tile tag and tile, row by row (R93 to R99). -/
structure TallySlot where
  state : SlotState
  tag : Option Tag
  rows : Nat
  cols : Nat
  tile : List Tal
  deriving DecidableEq, Repr

/-- A slot that holds nothing. -/
def TallySlot.none : TallySlot := ⟨.empty, Option.none, 0, 0, []⟩

/-- Which operator: the command's source and tag, and the record. -/
structure OpRef where
  source : Nat
  tag : Nat
  record : Nat
  deriving DecidableEq, Repr

/-- A chunk a cluster has started and not completed: its K indices, its lanes' chunk values by bank index, the product stage's
flags, the cycles it takes (Table 2.4), and the lane-cycles its faster lanes wait (R63). -/
structure InChunk where
  cluster : Nat
  len : Nat
  lanes : List (Nat × Chunk)
  flags : FlagWord
  cycles : Nat
  idle : Nat
  deriving DecidableEq, Repr

/-- Whole blocks as they were read: the address of each and its bytes (R201). -/
abbrev BlockCopy := List (Nat × List Byte)

/-- A panel buffer's contents (R201): the plane and the tile row (A) or tile column (B) they were read for, the first K index
of the band and its length, and the blocks. -/
structure Panel where
  plane : Nat
  line : Nat
  k0 : Nat
  kn : Nat
  blocks : BlockCopy
  deriving DecidableEq, Repr

/-- A feeder (R200, R201): its panel buffer, and the K bands of 32 indices its Turner holds, newest first, at most four: the
chunk each belongs to and its blocks. -/
structure Feeder where
  panel : Option Panel
  turner : List (Nat × BlockCopy)
  deriving DecidableEq, Repr

/-- A feeder that holds nothing. -/
def Feeder.empty : Feeder := ⟨none, []⟩

/-- The live tile (R93): its number, size, the tally bank row by row, the chunks each of the 16 clusters has completed, and
the chunks in progress; the clusters that R62 holds back; and, while some cluster works, the cycles each cluster has spent since
none did. -/
structure Live where
  tile : Nat
  rows : Nat
  cols : Nat
  bank : List Tal
  done : List Nat
  busy : List InChunk
  behind : List Nat
  spent : List Nat
  deriving DecidableEq, Repr

/-- What a closed tile holds on its way to the Eight (R129): the closed values L*, each with its compensated pair, head and
tail code, where the close is PAIR. -/
structure ClosedElem where
  v : LVal
  pair : Option (Enc × Nat)
  deriving DecidableEq, Repr

/-- A closed tile in the Tally buffer or the Finish queue (R130), with the flags the close unit raised for it (R119); `awaited`: the
Eight had nothing to do when it came. -/
structure FinishEntry where
  op : OpRef
  tile : Nat
  rows : Nat
  cols : Nat
  body : List ClosedElem
  flags : FlagWord
  awaited : Bool
  deriving DecidableEq, Repr

/-- The pass the Eight is running (R102): its operator, the Finish entry it takes or the unit of a standalone pass (a band
number, or 0), and what it latched. -/
structure Pass where
  op : OpRef
  entry : Option FinishEntry
  unit : Nat
  nrows : Nat
  vlen : Nat
  regs : List (BitVec 64)
  deriving DecidableEq, Repr

/-- A vector of the Till (R116): the source tensor it was loaded from, the number of the command it was loaded for, and its
entries. No two commands have one number, so a later GRAPH_RUN under the same tag finds no vector of an earlier one. -/
structure TillVec where
  handle : Nat
  no : Nat
  entries : List LVal
  deriving DecidableEq, Repr

/-- A tile parked by the running operator, which becomes its slot's at the commit point (R94). -/
structure Parking where
  slot : Nat
  rows : Nat
  cols : Nat
  tile : List Tal
  deriving DecidableEq, Repr

/-- A logical core: its active network, slots, the operator in progress with the tiles or bands it has yet to start, the
feeders of operands A and B, the live tile, closed tiles held, the Finish queue, the pass, the scalar registers s0 to s63, the
pass registers, the Till, and its counters that are not 0. -/
structure Core where
  net : Option Nat
  slots : List TallySlot
  cur : Option OpRef
  todo : List Nat
  feedA : Feeder
  feedB : Feeder
  live : Option Live
  parking : Option Parking
  held : List FinishEntry
  finish : List FinishEntry
  pass : Option Pass
  regs : List (BitVec 64)
  nrows : Nat
  vlen : Nat
  till : List (Option TillVec)
  ctrs : List (Nat × Count64)
  deriving DecidableEq, Repr

/-- A core after reset.
(DESIGN CHOICE, log entry 1.) -/
def Core.reset : Core :=
  { net := none, slots := List.replicate 3 .none, cur := none, todo := [], feedA := .empty, feedB := .empty,
    live := none, parking := none, held := [], finish := [], pass := none, regs := List.replicate 64 0,
    nrows := 0, vlen := 0, till := List.replicate 4 none, ctrs := [] }

/-! ## Networks (R146) -/

/-- An operator record of a stored graph (Table 5.3). -/
structure NetRec where
  op : Nat
  dep : Bool
  stack : Nat
  block : List Byte
  deriving DecidableEq, Repr

/-- A graph of a loaded network. -/
structure Graph where
  id : Nat
  recs : List NetRec
  deriving DecidableEq, Repr

/-- A loaded network (Table 5.1): its total is the descriptor's length. -/
structure Net where
  id : Nat
  mode : Mode
  seed : Nat
  cores : List Nat
  total : Nat
  graphs : List Graph
  deriving DecidableEq, Repr

/-! ## Running operators (R162 to R164) -/

/-- How far a record has come. -/
inductive RecPhase where
  | waiting | running | committed | skipped | stopped
  deriving DecidableEq, Repr

/-- The four numbers of a summary (Table 4.7). -/
structure Summary where
  maxCode : Nat
  sumCode : Nat
  count : Nat
  flags : FlagWord
  deriving DecidableEq, Repr

/-- A record of an OP_RUN or GRAPH_RUN: its operator; DEP, STACK and, where STACK is not 0, its stamp (R219); its phase, the
cores that have started and finished it; the flag word so far; the accumulators of its reductions (by result index); the
Assay counts it brings to each tensor; the summary it has written; and the ring slots it has pinned. -/
structure RecRun where
  op : OpP
  dep : Bool
  stack : Nat
  stamp : Nat
  phase : RecPhase
  started : List Nat
  finished : List Nat
  flags : FlagWord
  reds : List (Nat × RedAcc)
  assays : List (Nat × Assay)
  summary : Option Summary
  pins : List (Nat × Nat)
  /-- The groups on which its push has found no room (R229). -/
  waited : List Nat
  deriving DecidableEq, Repr

/-- The run of an OP_RUN or GRAPH_RUN: its network, whether it is a graph, ADOPT, its records, the handles the command names,
DEVADDR as it was when the command started (R57, R416), and, once it is to stop, the cause and the record at which it stops
(Table 5.10). -/
structure OpsRun where
  net : Nat
  graph : Bool
  adopt : Bool
  recs : List RecRun
  handles : List Nat
  devaddr : Nat
  stop : Option (Nat × Nat)
  deriving DecidableEq, Repr

end Sys2Proof.Machine
end

