-- ==== Sys2Proof/Machine/LinkTypes.lean ====
section
/-!
DEFINITION. The data of the Tinkers (chapter 8), of the links, routes, crew lists and collectives (chapter 9), and of
pairs, copies and serves (chapter 10).
-/
namespace Sys2Proof.Machine

/-! ## The Tinkers -/

/-- A step record of an update program (Table 8.4). -/
structure UStep where
  op : Nat
  dst : Nat
  a : Nat
  b : Nat
  c : Nat
  deriving DecidableEq, Repr

/-- An update program (Table 8.3); DAMP0, PIVOT, NS_A and NS_B are LNS24 codes. -/
structure UProgram where
  id : Nat
  split : Nat
  rule : Nat
  rparam : Nat
  every : Nat
  damp0 : Nat
  pivot : Nat
  nsA : Nat
  nsB : Nat
  steps : List UStep
  deriving DecidableEq, Repr

/-- An installed freeze entry (R258 to R263): the mask, and whether it is LOST. -/
structure Freeze where
  m : StagedMask
  lost : Bool
  deriving DecidableEq, Repr

/-- An update entry (Table 8.9), its tensor references resolved, with the quarter it lies in. -/
structure UEntry where
  layer : Nat
  prog : UProgram
  w : Nat
  m : Option Nat
  g : Nat
  v : Option Nat
  s1 : Option Nat
  s2 : Option Nat
  wc : Option Nat
  lrMul : Nat
  quarter : Nat
  deriving DecidableEq, Repr

/-- The stages of a pass on one quarter. -/
inductive UStage where
  | waiting | running | ended
  deriving DecidableEq, Repr

/-- A layer record of a completion (Table 8.16), with the number of its entry. -/
structure LRec where
  ix : Nat
  layer : Nat
  retries : Nat
  kept : Bool
  deriving DecidableEq, Repr

/-! ## Collectives (R293 to R300) -/

/-- A collective a member runs or is to run. `vec` holds the elements of a norm all-reduce (R248), which has no tensors;
`got` the ranges received as (step, first storage index), `counts` the elements received by step, and `acc` the reduced
elements of the own segment that are still to be closed. -/
structure CollRun where
  kind : Nat
  combine : Nat
  close : Nat
  tag : Nat
  crew : Nat
  cid : Nat
  peer : Nat
  tc : Nat
  input : Option Nat
  output : Option Nat
  vec : List Tal
  members : List Nat
  rank : Nat
  started : Bool
  got : List (Nat × Nat)
  counts : List (Nat × Nat)
  acc : List (Nat × Tal)
  flags : FlagWord
  lastRx : Nat
  deriving DecidableEq, Repr

/-- An UPDATE_RUN (Tables 8.8, 8.9, 8.16): its header, its entries, the stage of pass 1 on each quarter, the tallies (the
global one first, then the layers) and counts, what R249 formed, how many entries of each quarter pass 2 has ended, and
its outcome so far. -/
structure UpdRun where
  nlayers : Nat
  mode : Nat
  coll : Bool
  skip : Nat
  crew : Nat
  normOut : Option Nat
  skipNorm : Nat
  clip : Nat
  ks : List Nat
  entries : List UEntry
  pass1 : List UStage
  tallies : List Tal
  nans : Nat
  infs : Nat
  frozenHits : Nat
  /-- By quarter: pass 1 retained the gradients of its entries (R251). -/
  kept : List Bool
  norm : Option CollRun
  normed : Bool
  gnorm : Nat
  trust : Nat
  lnorms : List Nat
  skipped : Bool
  done : List Nat
  busy : List Bool
  flags : FlagWord
  lrecs : List LRec
  singular : Nat
  damped : Nat
  failed : Nat
  stop : Option Nat
  deriving DecidableEq, Repr

/-! ## Links (R271 to R292) -/

/-- The states of a link (Table 9.2). -/
inductive LState where
  | disabled | down | training | up | conflict
  deriving DecidableEq, Repr

/-- The code of a link state (Table 9.9). -/
def LState.code : LState → Nat
  | .disabled => 0 | .down => 1 | .training => 2 | .up => 3 | .conflict => 4

/-- What a link carries in one direction: a DATA flit with its LSEQ, a routed PEER_KEEPALIVE, or a flit that crosses one
link, with what its PAYLOAD says. -/
inductive LinkFlit where
  | data (lseq : Nat) (f : Flit)
  | peerKeepalive (f : Flit)
  | ack (lseq : Nat)
  | nak (lseq : Nat)
  | credit (amounts : List Nat)
  /-- KEEPALIVE: the sender's address, link number, current crew version and STATE. -/
  | keepalive (addr : Option Nat) (link crew state : Nat)
  | idle
  | laneCtrl (lane : Nat)
  deriving DecidableEq, Repr

/-- A link: its state; the lanes that failed and whether the spare is in use; what it learned of its peer; its error counts;
the time of the last acceptable flit and of the last flit sent, and how many flits went out since the last IDLE; the transmit and
receive sequence; the replay buffer (oldest first) and how many of its newest flits are still to be sent again; NAK state;
credits held and credits to return, by 2 × (TC − 1) + VC; and the flits waiting, unsequenced and DATA. -/
structure Link where
  state : LState
  failed : List Nat
  active : List Nat
  spareUsed : Bool
  half : Bool
  peerLink : Option Nat
  peerAddr : Option Nat
  peerCrew : Nat
  symErr : Nat
  fecUncorr : Nat
  replays : Nat
  lastRx : Nat
  lastTx : Nat
  sinceIdle : Nat
  txSeq : Nat
  rxSeq : Nat
  replay : List (Nat × Flit)
  resend : Nat
  nakSent : Bool
  naks : Nat
  unacked : Nat
  credits : List Nat
  owed : List Nat
  ctrl : List LinkFlit
  queue : List Flit
  lastClass : Nat
  downAt : Nat
  deriving DecidableEq, Repr

/-- A link at reset: lanes 0 to 3 active, training (R273). -/
def Link.reset : Link :=
  { state := .training, failed := [], active := [0, 1, 2, 3], spareUsed := false, half := false, peerLink := none,
    peerAddr := none, peerCrew := 0, symErr := 0, fecUncorr := 0, replays := 0, lastRx := 0, lastTx := 0, sinceIdle := 0, txSeq := 0,
    rxSeq := 0, replay := [], resend := 0, nakSent := false, naks := 0, unacked := 0, credits := List.replicate 14 0,
    owed := List.replicate 14 0, ctrl := [], queue := [], lastClass := 0, downAt := 0 }

/-- A crew list (R304). -/
structure Crew where
  version : Nat
  members : List Nat
  deriving DecidableEq, Repr

/-- A pending crew list with its EFFECTIVE_STEP. -/
structure PendingCrew where
  crew : Crew
  step : Nat
  deriving DecidableEq, Repr

/-- Links, routes, crew lists and the match buffer. `wire` holds the flits sent, by link, oldest first; `waiting` the flits
for which no allowed link holds a credit (R286); `held` the match buffer, with the link whose receive buffer each flit
holds; `stuck` the flits that wait in their receive buffers while the match buffer is full (R308); `committed` the (CREW, CID)
of collectives committed; `notified` the stale (CREW, CID) already answered. -/
structure Net9 where
  links : List Link
  intra : List (Nat × Nat)
  inter : List (Nat × Nat)
  crew : Crew
  pendingCrew : Option PendingCrew
  oldCrews : List Crew
  localStep : Nat
  waiting : List Flit
  held : List (Option Nat × Bool × Flit)
  stuck : List (Option Nat × Bool × Flit)
  committed : List (Nat × Nat)
  notified : List (Nat × Nat)
  loopback : List Flit
  wire : List (Nat × LinkFlit)
  /-- Flits accepted that wait at a ceiling of their class, with the link each came by (R208). -/
  gated : List (Option Nat × Flit)
  deriving DecidableEq, Repr

/-- Links and collectives at reset. -/
def Net9.reset : Net9 :=
  { links := List.replicate 64 .reset, intra := [], inter := [], crew := ⟨0, []⟩, pendingCrew := none, oldCrews := [],
    localStep := 0, waiting := [], held := [], stuck := [], committed := [], notified := [], loopback := [], wire := [], gated := [] }

/-! ## Pairs (R313 to R332) -/

/-- HOLDER_STATE (Table 10.5). -/
inductive HolderState where
  | none | binding | bound | lost
  deriving DecidableEq, Repr

/-- The code of a holder state. -/
def HolderState.code : HolderState → Nat
  | .none => 0 | .binding => 1 | .bound => 2 | .lost => 3

/-- WARD_STATE (Table 10.5). -/
inductive WardState where
  | none | bound | lost | retained
  deriving DecidableEq, Repr

/-- The code of a ward state. -/
def WardState.code : WardState → Nat
  | .none => 0 | .bound => 1 | .lost => 2 | .retained => 3

/-- The states of a partner slot (R321). -/
inductive CopyState where
  | free | filling | complete
  deriving DecidableEq, Repr

/-- The code of a slot state. -/
def CopyState.code : CopyState → Nat
  | .free => 0 | .filling => 1 | .complete => 2

/-- A partner slot: its state; the transfer filling it; the header bytes and tensor ranges received (tensor 64 stands for
the header); and the pieces SLOT_END counted. The STEP and descriptors are read from the header in memory. -/
structure PartnerSlot where
  state : CopyState
  xfer : Nat
  got : List (Nat × Nat × Nat)
  endArg : Option Nat
  /-- PIECE flits that came before the header that says where they go. -/
  early : List Flit
  deriving DecidableEq, Repr

/-- A watched or once watched peer (R326, R327): when a flit from it was last accepted, whether a PEER_KEEPALIVE with STATE 1
suspends its timer, whether it has been declared lost, and since when its loss timer runs. -/
structure Peer where
  addr : Nat
  last : Nat
  suspended : Bool
  lost : Bool
  since : Nat
  deriving DecidableEq, Repr

/-- A serve arriving on this device (R330): the holder, the serve ID, the target handle, the refusal if its first data was
refused, the ranges that came, what RESTORE_END counted, and when a flit of it last came. -/
structure TargetServe where
  holder : Nat
  id : Nat
  handle : Nat
  refusal : Option Res
  got : List (Nat × Nat)
  endArg : Option Nat
  /-- It has been answered. -/
  answered : Bool
  last : Nat
  deriving DecidableEq, Repr

/-- The pair state (Table 10.5), the peers, and the serves arriving. -/
structure Pair where
  holderState : HolderState
  wardState : WardState
  holder : Option Nat
  ward : Option Nat
  slots : List PartnerSlot
  holderFeeds : Nat × Nat
  holderSlot : Nat
  wardFeeds : Nat × Nat
  sameHolder : Bool
  sameWard : Bool
  returned : Bool
  wardReturned : Bool
  doneCopy : Option Nat
  lastStep : Option Nat
  lastD : Nat
  nextSecure : Nat
  peers : List Peer
  serves : List TargetServe
  /-- When the peer keepalives were last sent (R326). -/
  kaAt : Nat
  deriving DecidableEq, Repr

/-- An empty partner slot. -/
def PartnerSlot.empty : PartnerSlot := ⟨.free, 0, [], none, []⟩

/-- Pairs at reset: every pair NONE.
(DEDUCED, log entry 41.) -/
def Pair.reset : Pair :=
  { holderState := .none, wardState := .none, holder := none, ward := none, slots := [.empty, .empty],
    holderFeeds := (0, 0), holderSlot := 0, wardFeeds := (0, 0), sameHolder := false, sameWard := false, returned := false,
    wardReturned := false, doneCopy := none,
    lastStep := none, lastD := 0, nextSecure := 0, peers := [], serves := [], kaAt := 0 }

/-- A piece in the secure buffer (R320): tensor index, piece, its bytes and the poisoned ones. -/
structure CowPiece where
  tidx : Nat
  piece : Nat
  bytes : List Byte
  poison : List Nat
  deriving DecidableEq, Repr

/-- A SECURE (R318 to R322): its ID, STEP, tensors, whether its cut is made and at what time, the unsent pieces in order,
the secure buffer, the counts of pieces sent, and whether SLOT_END has gone. -/
structure SecureRun where
  id : Nat
  step : Nat
  tensors : List Nat
  cut : Bool
  cutAt : Nat
  unsent : List (Nat × Nat)
  buffer : List CowPiece
  sent : Nat
  cow : Nat
  ended : Bool
  deriving DecidableEq, Repr

/-- A RESTORE_SERVE on the holder (R329): the slot and tensor, the target and the target's handle, the footprint byte of
the range in the slot tensor and in the target, the range's bytes, how many are sent, since when it waits, and this device's address
as the serve found it at its start (R416). -/
structure ServeRun where
  slot : Nat
  tidx : Nat
  target : Nat
  handle : Nat
  from_ : Nat
  to_ : Nat
  bytes : Nat
  sent : Nat
  ended : Bool
  since : Nat
  src : Option Nat
  deriving DecidableEq, Repr

end Sys2Proof.Machine
end

