-- ==== Sys2Proof/Machine/UnitTypes.lean ====
section
/-!
DEFINITION. The data of the units beside the cores: the activation stacks (chapter 7), the sensor and output streams
(chapter 11), power, clocks and pins (chapters 14 and 16), and spares, wear and health (chapter 15).
-/
namespace Sys2Proof.Machine

/-! ## The activation stacks (R218 to R234) -/

/-- The states of an entry (Table 7.8). -/
inductive EntryState where
  | pushing | resident | spilling | both | spilled | filling
  deriving DecidableEq, Repr

/-- A tile of an operator's value output: its tile or band number, plane, and region of the output tensor. -/
structure OutTile where
  tile : Nat
  plane : Nat
  r0 : Nat
  nr : Nat
  c0 : Nat
  nc : Nat
  deriving DecidableEq, Repr

/-- An entry or marker of a group's stack (R220, R221): its stamp, the groups of the record, the output's format, rows and
columns, the tiles, the bytes of its blocks, and its state. `place` are the pieces of the SRAM area that hold its SRAM copy (address and
length), in the order of its bytes; none where it has no copy. The spill copy lies in memory at the entry's spill offset. -/
structure StackEntry where
  stamp : Nat
  groups : List Nat
  marker : Bool
  fmt : Fmt
  rows : Nat
  cols : Nat
  tiles : List OutTile
  size : Nat
  state : EntryState
  place : List (Nat × Nat)
  spillOff : Nat
  source : Nat
  tag : Nat
  deriving DecidableEq, Repr

/-- One group's stack (R222, R223): whether it is configured, its regions, the window settings acting, and its entries from
the bottom upwards. -/
structure Stack where
  configured : Bool
  sramOffset : Nat
  sramSize : Nat
  spillBase : Nat
  spillSize : Nat
  winEntries : Nat
  winMib : Nat
  entries : List StackEntry
  deriving DecidableEq, Repr

/-- A stack after reset (R234), with the window settings' defaults. -/
def Stack.reset : Stack := ⟨false, 0, 0, 0, 0, 4, 512, []⟩

/-! ## Streams (R356 to R363) -/

/-- The states of a stream (Table 11.8). -/
inductive StreamState where
  | mapped | running | stoppedPower
  deriving DecidableEq, Repr

/-- The open frame of an input stream: the elements written so far by row (codes), the lines taken, the count of samples per
channel or rows in an audio frame, and the counter of the first and the last line of layout 0x37. -/
structure OpenFrame where
  cells : List (Nat × Nat × Nat)
  lines : Nat
  fill : List Nat
  firstCounter : Option Nat
  nextCounter : Nat
  dropped : Bool
  deriving DecidableEq, Repr

/-- A stream (Tables 11.7, 11.8, 11.10). An output stream's `dt` is unused, its `mode` is that of STREAM_OUT, and its
command is named by source and tag. -/
structure Stream where
  id : Nat
  output : Bool
  port : Nat
  vc : Nat
  dt : Nat
  channels : Nat
  shift : Nat
  black : Nat
  scale : Nat
  ring : Nat
  mode : Nat
  state : StreamState
  source : Nat
  tag : Nat
  /-- Frames completed or sent since start. -/
  frames : Nat
  crcLines : Nat
  shortLines : Nat
  longLines : Nat
  abandoned : Nat
  saturated : Nat
  audioGaps : Nat
  frame : Option OpenFrame
  /-- Output: the frame number, the plane or slot being sent, the next line, and whether it ends after this frame. -/
  frameNo : Nat
  slot : Nat
  sending : Bool
  lastSent : Option Nat
  stopping : Bool
  /-- Input: the slot the next frame fills. -/
  nextSlot : Nat
  /-- Input: frames whose Frame End has come and that wait in the port's buffer while INGEST is at its ceiling (R369). -/
  ended : List OpenFrame
  deriving DecidableEq, Repr

/-! ## Power (chapters 14 and 16) -/

/-- The power states of a group (R438). -/
inductive GState where
  | s0 | s1 | s2
  deriving DecidableEq, Repr

/-- A group's power: its state, the state it is to enter at its next command boundary, whether it is waking and to what,
since when it has been idle, with AUTO_LIGHT_US and AUTO_DEEP_MS as they were then (Table 14.1), its thermal ceiling with
whether it is being lowered, and its THERMAL_ADVICE. -/
structure GroupPower where
  state : GState
  request : Option GState
  waking : Option GState
  idleSince : Nat
  light : Nat
  deep : Nat
  thermal : Nat
  lowering : Bool
  advice : Nat
  deriving DecidableEq, Repr

/-- Where the module stands between power-on and READY (Tables 14.4 and 16.7): without power; rails rising; held in reset
(by RESET_N, by itself, or by a hot module); booting; ready. -/
inductive Phase where
  | off | rising | held | boot | ready
  deriving DecidableEq, Repr

/-- The module's own sleep (R439, R441). -/
inductive Sleep where
  | awake | entering | housed | waking
  deriving DecidableEq, Repr

/-- A bulk packet that waits in the buffer of its port (R349, R369). -/
structure PortBulk where
  port : Nat
  source : Nat
  tag : Nat
  offset : Nat
  data : List Byte
  deriving DecidableEq, Repr

/-- Power, clocks and pins. -/
structure Power where
  phase : Phase
  stage : Nat
  failed : Bool
  recovery : Bool
  coresReset : Bool
  sleep : Sleep
  groups : List GroupPower
  feedA : Bool
  feedB : Bool
  powerOk : Bool
  tripLow : Bool
  resetLow : Bool
  selfHold : Bool
  hotHold : Bool
  refclk : Bool
  straps : Nat
  /-- Power samples of the last 1 ms, newest first (R433). -/
  samples : List Nat
  /-- The sum and the number of the samples of the stint that runs, and the average over the last one (POWER_W of R376). -/
  stintDrawn : Nat × Nat
  stintWatts : Nat
  capCeiling : Nat
  holdClusters : Bool
  withhold : Bool
  /-- How long after its start a stint holds the clusters, while they are held (R433). -/
  holdUs : Nat
  /-- A throttle has raised the attention bit since the last READ_ATTENTION. -/
  throttled : Bool
  /-- The 105 °C limit of R435 holds. -/
  hot : Bool
  /-- The frequency and the voltage, in millivolts, of each core (R443). -/
  coreMhz : List Nat
  coreMv : List Nat
  /-- INLET_C is above its limit (R480). -/
  inletHigh : Bool
  /-- The shared units are in S2 behaviour (R438), the link engines and the die fabric are (R446), and when the last DATA flit
  passed. -/
  sharedS2 : Bool
  linksS2 : Bool
  lastData : Nat
  /-- The groups whose cores reinitialise at their next wake (R451). -/
  reinit : List Nat
  /-- R434: CAP_W and the number of links UP as last looked at. -/
  capSeen : Nat × Nat
  /-- Input energy since the last cold start, in microjoules (ENERGY_MJ). -/
  energy : Nat
  /-- Bytes that wait for grants, by resource instance and class (R207), the classes that have waited at a ceiling in this stint
  (R208), and the bytes that each package's retraining pause took in it (R183). -/
  owed : List (Nat × Nat)
  atCeiling : List Nat
  retrained : List (Nat × Nat)
  /-- Bulk packets that wait in the port buffers while INGEST is at a ceiling, oldest first (R369). -/
  buffered : List PortBulk
  deriving DecidableEq, Repr

/-! ## Health (chapter 15) -/

/-- GROUP of Table 12.7: the spare is free, or in use or retired; a lost core in the group shows as 2. -/
structure Health where
  /-- The physical core of each logical core within its group; none where it is lost (R465). -/
  map : List (Option Nat)
  /-- The group's spare can still be taken. -/
  spareFree : List Bool
  /-- A logical core whose switch to the spare under R457 is not yet done. -/
  takeover : List Nat
  /-- When a group's spare was last called on by a hard fault (R460). -/
  calledAt : List (Nat × Nat)
  retiredCores : List (Nat × Nat)
  tinkerRetired : List Bool
  /-- WEAR by unit (R454), and the units listed as proposals. -/
  wear : List (Nat × Nat)
  proposals : List Nat
  failedPackages : List Nat
  /-- A group SRAM row is in service without a spare (R461). -/
  rowUnspared : Bool
  /-- Spare rows used by bank, and spare banks used by group (R461). -/
  sramSpares : List (Nat × Nat)
  sramBanks : List (Nat × Nat)
  /-- LPDDR5X rows marked for repair (R462), and those of them that have no repair row left. -/
  lpddrMarks : List Nat
  unrepairable : List Nat
  coreTemps : List Int
  tinkerTemps : List Int
  packageTemps : List Int
  inlet : Int
  outlet : Int
  /-- When the last scrub and patrol passes ended (R180, R182). -/
  scrubbed : Nat
  patrolled : Nat
  /-- When WEAR was last re-evaluated (R454), and when each group's spare last ran its self-test (R458). -/
  rated : Nat
  tested : List (Nat × Nat)
  deriving DecidableEq, Repr

end Sys2Proof.Machine
end

