-- ==== Sys2Proof/Machine/State.lean ====
section
/-!
DEFINITION. The state of the block, its reset, and the reasons a step can stop.
-/
namespace Sys2Proof.Machine

/-- Bulk data a command is still to receive or has received (R344): its length, the bytes so far and when the last packet
arrived. -/
structure BulkIn where
  total : Nat
  data : List Byte
  lastAt : Nat
  deriving DecidableEq, Repr

/-- What a command that has not reached its terminal state is doing, beyond its parameters. -/
inductive Body where
  | plain
  /-- A form-I command that waits: the port it came on, and the role and key its rights were checked under (R402). -/
  | held (port : Nat) (role : Role) (key : Nat)
  /-- OP_RUN and GRAPH_RUN. -/
  | ops (r : OpsRun)
  /-- NETWORK_ACTIVATE: the network and the cores yet to switch (R150). -/
  | activate (net : Nat) (todo : List Nat)
  /-- FENCE: its core set; empty for the whole device (R169). -/
  | fence (cores : List Nat)
  /-- SET_POWER_STATE: STATE and the groups named (R380). -/
  | power (target : Nat) (groups : List Nat)
  /-- REPAIR: the unit (R393). -/
  | repair (unit : Nat)
  /-- SELF_TEST: the cores yet to run, those that failed, the Tinkers yet to run, those that failed (R394). -/
  | selfTest (cores failed tinkers failedTinkers : List Nat)
  /-- TENSOR_READ of a receive ring that has started: the ring and the slot pinned (R199). -/
  | read (ring slot : Nat)
  /-- STREAM_OUT: the stream (R362). -/
  | streamOut (id : Nat)
  /-- UPDATE_RUN (R245). -/
  | update (r : UpdRun)
  /-- PAIR_SET BIND: the holder, the time PAIR_REQ was sent, and PEER_KA_US as it was then (R314, R416). -/
  | bind (holder since ka : Nat)
  /-- SECURE (R318). -/
  | secure (r : SecureRun)
  /-- RESTORE_SERVE (R329). -/
  | serve (r : ServeRun)
  /-- COLLECTIVE_RUN (R293). -/
  | coll (r : CollRun)
  deriving DecidableEq, Repr

/-- A command with a slot of the shared queue (R348): accepted and not terminal, or a form-I command waiting for its bulk
data. `no` numbers commands in the order the device accepted them. -/
structure Cmd where
  no : Nat
  source : Nat
  tag : Nat
  op : Op
  flags : Nat
  seq : Nat
  params : List Byte
  acked : Bool
  running : Bool
  startedAt : Nat
  /-- The POWER/THERMAL bit has been raised for its wait (R440). -/
  waited : Bool
  bulk : Option BulkIn
  body : Body
  deriving DecidableEq, Repr

/-- Why the machine stops with a fault. -/
inductive Fault where
  /-- Raised, once both feeds are lost and until the power-up, by the packets and I3C transfers of the host and by the
  samples of power and temperature: "Nothing else in the module's behaviour is defined after that point" (R431, R472). Safe:
  the model stops where the manual defines nothing. -/
  | noPower
  deriving DecidableEq, Repr

/-- Why the machine refuses a command. -/
inductive Refusal where
  /-- A command without a meaning. Raised by the dispatch alone. Safe: the model stops. -/
  | notModelled (mnemonic : String)
  deriving DecidableEq, Repr

/-- The block: everything the manual gives it, and the queue of commands waiting. -/
structure State where
  /-- The commands waiting, first in, first out. -/
  pending : List Instr
  /-- The local timer in microseconds (R437). -/
  now : Nat
  /-- The bytes of memory that are not zero, by rising address (R177, R186). -/
  mem : List Host.Cell
  /-- The first address of each poisoned unit (R184), rising. -/
  poison : List Nat
  /-- The ranges that requesters other than the Tinkers have written since the cut of the SECURE that runs (R320). -/
  written : List (Nat × Nat)
  /-- The tensor table (R187), by rising handle. -/
  tensors : List Tensor
  /-- The loaded networks (R147). -/
  nets : List Net
  /-- The 144 logical cores. -/
  cores : List Core
  /-- The 16 activation stacks (R218). -/
  actStacks : List Stack
  /-- The stamp counter (R219). -/
  stampCounter : Nat
  /-- The live sources (R346). -/
  sources : List Source
  /-- The commands holding a slot, in acceptance order (R348). -/
  cmds : List Cmd
  /-- The number of the next command accepted. -/
  nextNo : Nat
  /-- The packets sent on the transmit ports, oldest first. -/
  out : List OutPkt
  /-- The attention record (R354). -/
  attention : Attention
  /-- The I3C target and mailbox (R364 to R367). -/
  i3c : I3c
  /-- The streams (R356). -/
  streams : List Stream
  /-- The committed settings that differ from their defaults, by rising key. -/
  settings : List (Nat × Nat)
  /-- The settings of 0x5xxx acting, where they differ from their defaults, and the committed ones that are still to act,
  with the time of each set (R335). -/
  portSettings : List (Nat × Nat)
  portQueue : List (Nat × List (Nat × Nat))
  /-- The stint settings acting (R211) and when the present stint began. -/
  stintSettings : List (Nat × Nat)
  stintStart : Nat
  /-- The open Ledger, the ID of the next, and the commits not yet applied, in acceptance order (R411 to R417). -/
  ledger : Option Ledger
  nextLedger : Nat
  commits : List Commit
  /-- Keys, logins, audit log and firmware (chapter 13). -/
  trust : Trust
  /-- The update programs loaded, but for the built-in one (R240, R243), and the freeze entries (R258 to R263). -/
  programs : List UProgram
  freezes : List Freeze
  /-- Links, routes, crew lists and collectives (chapter 9). -/
  net9 : Net9
  /-- Pairs, copies and serves (chapter 10). -/
  pair : Pair
  /-- Power, clocks and pins (chapters 14, 16). -/
  power : Power
  /-- Spares, wear and sensors (chapter 15). -/
  health : Health
  /-- The device-wide counters that are not 0, by ID. -/
  ctrs : List (Nat × Count64)
  /-- The model's own: the number of the next free value. -/
  free : Nat
  deriving DecidableEq, Repr

/-- The attention record after a capture or reset, with its next RECORD_NO and the highest reading the cores' sensors hold
then, from which TEMP_MAX goes on.
(DESIGN CHOICE, log entry 9; DEDUCED, log entry 10.) -/
def Attention.clear (n : Nat) (hot : Int) : Attention :=
  { attn := 0, recordNo := n, firstPoison := none, firstFault := none, firstLostPeer := none, linksChanged := 0,
    overruns := 0, seqGaps := 0, throttles := 0, tempMax := hot, loginFails := 0, spareEvents := 0, service := 0 }

/-- The I3C target after reset (Tables 11.12 to 11.16). -/
def I3c.reset : I3c :=
  { addr := none, mwl := 256, mrl := 256, window := 0, mbxIn := [], mbxOut := [], outReady := false, outDrop := false,
    lastSource := 0, answer := none }

/-- The factory image of a stage (DESIGN CHOICE: slot A holds one at reset).
(DESIGN CHOICE, log entry 8.) -/
def FwStage.factory (stage : Nat) : FwStage :=
  { version := Config.fwVersion stage, svn := 0, digest := (List.range 64).map (Config.fwMeasure stage), usable := true }

/-- The firmware as provisioned: slot A with the factory images, slot B empty.
(DESIGN CHOICE, log entry 8.) -/
def Firmware.reset : Firmware :=
  { slotA := [some (.factory 1), some (.factory 2), some (.factory 3), some (.factory 4)]
    slotB := [none, none, none, none], preferB := false, trial := false, tries := 0, runningB := false,
    measures := [1, 2, 3, 4].map (fun st => (List.range 64).map (Config.fwMeasure st)), bootCount := 0, rollback := 0,
    fellBack := false, staged := false }

/-- Trust as provisioned: no key enrolled, an empty audit log whose next record is 1 (R418).
(DESIGN CHOICE, log entry 8.) -/
def Trust.reset : Trust :=
  { keys := [], fails := [], audit := ⟨[], 1, none, 0, false⟩, firmware := .reset, nextChallenge := 1, nextNonce := 0, flashFault := false }

/-- A group held in S2 until READY places it (R447). -/
def GroupPower.reset : GroupPower := ⟨.s2, none, none, 0, 0, 0, 1300, false, 0⟩

/-- Power in the cold start that RESET_N release begins (R447), both feeds in range.
(DESIGN CHOICE, log entry 4; DESIGN CHOICE, log entry 9.) -/
def Power.reset : Power :=
  { phase := .boot, stage := 2, failed := false, recovery := false, coresReset := false, sleep := .awake,
    groups := List.replicate 16 .reset, feedA := true, feedB := true, powerOk := true, tripLow := false,
    resetLow := false, selfHold := false, hotHold := false, refclk := true, straps := Config.straps % 16, samples := [],
    stintDrawn := (0, 0), stintWatts := 0, capCeiling := 1300, holdClusters := false,
    withhold := false, holdUs := 0, throttled := false, hot := false, coreMhz := List.replicate 144 400,
    coreMv := List.replicate 144 Config.startMv, inletHigh := false, sharedS2 := true, linksS2 := true, lastData := 0, reinit := [],
    capSeen := (1500, 0), energy := 0, owed := [], atCeiling := [], retrained := [], buffered := [] }

/-- Health as provisioned: logical core c of a group on physical core c, the spare free (R453).
(DESIGN CHOICE, log entry 8; DESIGN CHOICE, log entry 9.) -/
def Health.reset : Health :=
  { map := (List.range 144).map (fun c => some (c % 9)), spareFree := List.replicate 16 true, takeover := [], calledAt := [],
    retiredCores := [], tinkerRetired := List.replicate 4 false, wear := [], proposals := [],
    failedPackages := [], rowUnspared := false, sramSpares := [], sramBanks := [],
    lpddrMarks := [], unrepairable := [], coreTemps := List.replicate 144 0, tinkerTemps := List.replicate 4 0,
    packageTemps := List.replicate 8 0, inlet := 0, outlet := 0, scrubbed := 0, patrolled := 0,
    rated := 0, tested := [] }

/-- The machine right after reset: in the cold start, at the step where the ports answer under R374.
(DESIGN CHOICE, log entry 4; DEDUCED, log entry 95.) -/
def State.reset : State :=
  { pending := [], now := 0, mem := [], poison := [], written := [], tensors := [], nets := [], cores := List.replicate 144 .reset,
    actStacks := List.replicate 16 .reset, stampCounter := 0, sources := [], cmds := [], nextNo := 0, out := [],
    attention := .clear 0 0, i3c := .reset, streams := [], settings := [], portSettings := [], portQueue := [],
    stintSettings := [], stintStart := 0, ledger := none, nextLedger := 1, commits := [], trust := .reset,
    programs := [], freezes := [], net9 := .reset, pair := .reset, power := .reset, health := .reset, ctrs := [], free := 0 }

end Sys2Proof.Machine
end

