-- ==== Sys2Proof/Machine/Mem.lean ====
section
/-!
DEFINITION. Memory as a list of cells in one canonical form (addresses strictly rising, no cell that holds 0, which is what
an unlisted address reads as, R186), the address map (R177), and poison (R184, R185).
-/
namespace Sys2Proof.Machine

/-! ## Cells -/

/-- The canonical form of a list of cells whose addresses are all at least `lo`. -/
def memWfFrom (lo : Nat) : List Host.Cell → Bool
  | [] => true
  | c :: cs => decide (lo ≤ c.1) && decide (c.2 ≠ 0) && memWfFrom (c.1 + 1) cs

/-- The canonical form of memory.
(DEDUCED, log entry 95.) -/
def memWf (m : List Host.Cell) : Bool := memWfFrom 0 m

/-- The byte at an address; an unlisted address reads as 0 (R186).
(DEDUCED, log entry 95.) -/
def memGet : List Host.Cell → Nat → Byte
  | [], _ => 0
  | c :: cs, a => if c.1 = a then c.2 else memGet cs a

/-- The cells at or above an address. -/
def memFrom : List Host.Cell → Nat → List Host.Cell
  | [], _ => []
  | c :: cs, a => if c.1 < a then memFrom cs a else c :: cs

/-- `n` bytes from address `a` of cells none of which lies below it. -/
def memTake : List Host.Cell → Nat → Nat → List Byte
  | _, _, 0 => []
  | [], _, n + 1 => List.replicate (n + 1) 0
  | c :: cs, a, n + 1 => if c.1 = a then c.2 :: memTake cs (a + 1) n else 0 :: memTake (c :: cs) (a + 1) n

/-- The `n` bytes at an address. -/
def memRead (m : List Host.Cell) (a n : Nat) : List Byte := memTake (memFrom m a) a n

/-- The cells of bytes laid at an address, in front of cells that lie above them. -/
def memPut : Nat → List Byte → List Host.Cell → List Host.Cell
  | _, [], rest => rest
  | a, b :: bs, rest => if b = 0 then memPut (a + 1) bs rest else (a, b) :: memPut (a + 1) bs rest

/-- Bytes written at an address; the canonical form is kept. -/
def memWrite : List Host.Cell → Nat → List Byte → List Host.Cell
  | [], a, bs => memPut a bs []
  | c :: cs, a, bs => if c.1 < a then c :: memWrite cs a bs else memPut a bs (memFrom (c :: cs) (a + bs.length))

/-! ## The address map (R177) -/

/-- The end of bonded SRAM. -/
def sramEnd : Nat := 0x00600000000
/-- The start of LPDDR5X. -/
def lpddrBase : Nat := 0x10000000000
/-- The end of LPDDR5X. -/
def lpddrEnd : Nat := 0x1BA00000000
/-- Bytes of one group's SRAM. -/
def groupBytes : Nat := 0x60000000
/-- Bytes of one quarter of LPDDR5X. -/
def quarterBytes : Nat := 0x2E80000000

/-- A byte range lies wholly in one region of Table 6.1. -/
def inOneRegion (a n : Nat) : Bool :=
  decide (a + n ≤ sramEnd) || (decide (lpddrBase ≤ a) && decide (a + n ≤ lpddrEnd))

/-- A byte range lies wholly in bonded SRAM. -/
def inSram (a n : Nat) : Bool := decide (a + n ≤ sramEnd)

/-- A byte range lies wholly in LPDDR5X. -/
def inLpddr (a n : Nat) : Bool := decide (lpddrBase ≤ a) && decide (a + n ≤ lpddrEnd)

/-- The quarter of an LPDDR5X address. -/
def quarterOf (a : Nat) : Nat := (a - lpddrBase) / quarterBytes

/-- A byte range touches quarter `q`. -/
def touchesQuarter (q a n : Nat) : Bool :=
  decide (a < lpddrBase + (q + 1) * quarterBytes) && decide (lpddrBase + q * quarterBytes < a + n)

/-- Two byte ranges have a byte in common. -/
def overlaps (a n b m : Nat) : Bool := decide (a < b + m) && decide (b < a + n) && decide (0 < n) && decide (0 < m)

/-! ## Poison (R184) -/

/-- Bytes of the poisonable unit at an address: an SRAM word or an LPDDR5X block. -/
def unitSize (a : Nat) : Nat := if a < lpddrBase then 8 else 64

/-- A poisoned unit overlaps a byte range. -/
def unitHit (a n u : Nat) : Bool := overlaps a n u (unitSize u)

/-- The poisoned units of a byte range. -/
def poisonedIn (p : List Nat) (a n : Nat) : List Nat := p.filter (unitHit a n)

/-- A write of a byte range clears the units it covers whole (R184). -/
def poisonClear (p : List Nat) (a n : Nat) : List Nat :=
  p.filter (fun u => !(decide (a ≤ u) && decide (u + unitSize u ≤ a + n)))

/-- A unit poisoned. -/
def poisonAdd (p : List Nat) (u : Nat) : List Nat :=
  match p with
  | [] => [u]
  | x :: xs => if u < x then u :: x :: xs else if u = x then x :: xs else x :: poisonAdd xs u

/-- The units a byte range touches, by their first addresses. -/
def unitsOf (a n : Nat) : List Nat :=
  if n = 0 then []
  else
    let k := unitSize a
    (List.range ((a + n - 1) / k - a / k + 1)).map (fun i => (a / k + i) * k)

/-- R463: a quarter has failed. -/
def State.quarterFailed (s : State) (q : Nat) : Bool :=
  s.health.failedPackages.contains (2 * q) || s.health.failedPackages.contains (2 * q + 1)

/-- A byte range touches a failed quarter. -/
def State.touchesFailed (s : State) (a n : Nat) : Bool :=
  (List.range 4).any (fun q => s.quarterFailed q && touchesQuarter q a n)

/-- An address lies in a failed quarter.
(DEDUCED, log entry 96.) -/
def State.addrFailed (s : State) (a : Nat) : Bool := s.touchesFailed a 1

/-- The bytes of a range of device memory. -/
def State.read (s : State) (a n : Nat) : List Byte := memRead s.mem a n

/-- R185, R463: a read of the range meets a poisoned unit or a failed quarter.
(DEDUCED, log entry 96.) -/
def State.poisoned (s : State) (a n : Nat) : Bool :=
  !(poisonedIn s.poison a n).isEmpty || s.touchesFailed a n

/-- The bytes of a write that do not lie in a failed quarter, one by one (R463). -/
def writeEach (s : State) : List Host.Cell → Nat → List Byte → List Host.Cell
  | m, _, [] => m
  | m, a, b :: bs => writeEach s (if s.addrFailed a then m else memWrite m a [b]) (a + 1) bs

/-- A SECURE has made its cut and is not terminal (R319). -/
def State.copying (s : State) : Bool := s.cmds.any (fun c => match c.body with | .secure r => r.cut | _ => false)

/-- What has been written since the cut of a SECURE, with these ranges more (R320). -/
def State.wrote (s : State) (rs : List (Nat × Nat)) : List (Nat × Nat) := if s.copying then rs ++ s.written else s.written

/-- Bytes written to device memory: poison covered whole is cleared (R184); a failed quarter discards them (R463).
(DEDUCED, log entry 96.) -/
def State.write (s : State) (a : Nat) (bs : List Byte) : State :=
  { s with
    mem := if s.touchesFailed a bs.length then writeEach s s.mem a bs else memWrite s.mem a bs
    poison := poisonClear s.poison a bs.length
    written := s.wrote [(a, bs.length)] }

/-- Units poisoned. -/
def State.poisonUnits (s : State) (us : List Nat) : State := { s with poison := us.foldl poisonAdd s.poison }

/-- An address in a copied range, moved to the copy. -/
def movedUnit (src dst u : Nat) : Nat := if src ≤ u then dst + (u - src) else dst

/-- R185: a copy inside the device: the bytes move, and each poisoned unit of the source poisons the destination units its
bytes land in. -/
def State.copy (s : State) (src dst n : Nat) : State :=
  let bad := poisonedIn s.poison src n
  let s1 := s.write dst (s.read src n)
  if s.touchesFailed src n then s1.poisonUnits (unitsOf dst n)
  else s1.poisonUnits (bad.flatMap (fun u =>
    let lo := max u src
    let hi := min (u + unitSize u) (src + n)
    unitsOf (dst + (lo - src)) (hi - lo)))

end Sys2Proof.Machine
end

