-- ==== Sys2Proof/Machine/Ops.lean ====
section
/-!
DEFINITION. The named operations over the state that every family uses: free values, counters, settings (R409, R410),
attention (R353), and reading fields of parameter blocks.
-/
namespace Sys2Proof.Machine

/-! ## Parameter fields (R9) -/

/-- The little-endian number in `n` bytes from byte `i`. -/
def fld (bs : List Byte) (i n : Nat) : Nat := leNat ((bs.drop i).take n)

/-- The signed number in `n` bytes from byte `i`. -/
def fldS (bs : List Byte) (i n : Nat) : Int := untwos (8 * n) (fld bs i n)

/-- The logical cores of an 18-byte core set field, ascending (R144). -/
def coreSet (bs : List Byte) (i : Nat) : List Nat :=
  let x := fld bs i 18
  (List.range 144).filter (fun c => x.testBit c)

/-- The 18 bytes of a core set. -/
def coreSetBytes (cs : List Nat) : List Byte := leBytes 18 (cs.foldl (fun a c => a ||| 2 ^ c) 0)

/-- A tensor reference field: none for 0xFFFF_FFFF (Table 5.4). -/
def tref (x : Nat) : Option Nat := if x = 0xFFFFFFFF then none else some x

/-! ## Association lists by rising key -/

/-- The value at a key. -/
def assocGet {α : Type} (d : α) : List (Nat × α) → Nat → α
  | [], _ => d
  | x :: xs, k => if x.1 = k then x.2 else assocGet d xs k

/-- A value put at a key of a list sorted by key. -/
def assocPut {α : Type} (xs : List (Nat × α)) (k : Nat) (v : α) : List (Nat × α) :=
  match xs with
  | [] => [(k, v)]
  | x :: r => if x.1 < k then x :: assocPut r k v else if x.1 = k then (k, v) :: r else (k, v) :: x :: r

/-- A key removed. -/
def assocDel {α : Type} (xs : List (Nat × α)) (k : Nat) : List (Nat × α) := xs.filter (fun x => x.1 ≠ k)

/-! ## Free values -/

/-- The number of the next free value, which is then used up.
(DESIGN CHOICE, log entry 11.) -/
def State.fresh (s : State) : Nat × State := (s.free, { s with free := s.free + 1 })

/-- `n` free bytes.
(DESIGN CHOICE, log entry 11.) -/
def State.freeBytes (s : State) (n : Nat) : List Byte × State :=
  ((List.range n).map (fun i => Config.freeByte (s.free + i)), { s with free := s.free + n })

/-- A free number.
(DESIGN CHOICE, log entry 11.) -/
def State.freeNat (s : State) : Nat × State := (Config.freeNat s.free, { s with free := s.free + 1 })

/-! ## Counters (R69, R214) -/

/-- A device-wide counter's value. -/
def State.ctr (s : State) (id : Nat) : Count64 := assocGet 0 s.ctrs id

/-- A device-wide counter advanced. -/
def State.count (s : State) (id : Nat) (n : Nat) : State :=
  if n = 0 then s else { s with ctrs := assocPut s.ctrs id (s.ctr id + BitVec.ofNat 64 n) }

/-- A logical core. -/
def State.core (s : State) (c : Nat) : Core := s.cores.getD c Core.reset

/-- A logical core replaced. -/
def State.setCore (s : State) (c : Nat) (k : Core) : State := { s with cores := s.cores.set c k }

/-- A logical core changed. -/
def State.mapCore (s : State) (c : Nat) (f : Core → Core) : State := s.setCore c (f (s.core c))

/-- A per-core counter's value. -/
def Core.ctr (k : Core) (id : Nat) : Count64 := assocGet 0 k.ctrs id

/-- A per-core counter advanced. -/
def Core.count (k : Core) (id : Nat) (n : Nat) : Core :=
  if n = 0 then k else { k with ctrs := assocPut k.ctrs id (k.ctr id + BitVec.ofNat 64 n) }

/-- A per-core counter advanced. -/
def State.countCore (s : State) (c id n : Nat) : State := s.setCore c ((s.core c).count id n)

/-! ## Attention (R353, R354) -/

/-- A count that saturates at all ones of `w` bits. -/
def satAdd (w a n : Nat) : Nat := min (2 ^ w - 1) (a + n)

/-- Attention bits set. -/
def State.raiseAttn (s : State) (bits : BitVec 8) : State :=
  { s with attention := { s.attention with attn := s.attention.attn ||| bits } }

/-- The first of a kind of event since the last capture. -/
def firstOf (a : Option Nat) (x : Nat) : Option Nat :=
  match a with
  | some y => some y
  | none => some x

/-- R457, R448: a hard fault of a unit: FIRST_FAULT and the FAULT bit. `unit` is in the encoding of Table 11.6. -/
def State.raiseFault (s : State) (unit : Nat) : State :=
  { s with attention :=
      { s.attention with attn := s.attention.attn ||| attnFault, firstFault := firstOf s.attention.firstFault unit } }

/-- SPARE_EVENTS and the SPARE bit.
(DEDUCED, log entry 88.) -/
def State.spareEvent (s : State) : State :=
  { s with attention :=
      { s.attention with attn := s.attention.attn ||| attnSpare,
                         spareEvents := satAdd 32 s.attention.spareEvents 1 } }

/-- An event counted in OVERRUNS (Table 11.6). -/
def State.countOverrun (s : State) (n : Nat) : State :=
  { s with attention := { s.attention with overruns := satAdd 32 s.attention.overruns n } }

/-- An event counted in OVERRUNS, with the BUDGET bit (Table 11.4c). -/
def State.overrun (s : State) (n : Nat) : State :=
  { s with attention :=
      { s.attention with attn := s.attention.attn ||| attnBudget, overruns := satAdd 32 s.attention.overruns n } }

/-- A bit of SERVICE set, with the SERVICE bit. -/
def State.raiseService (s : State) (bit : Nat) : State :=
  { s with attention :=
      { s.attention with attn := s.attention.attn ||| attnService,
                         service := s.attention.service ||| BitVec.ofNat 32 (2 ^ bit) } }

/-- R184: reads of this many poisoned units, the first at an address: the MEMORY bit, POISON_READS and FIRST_POISON.
(DEDUCED, log entry 90.) -/
def State.poisonSeen (s : State) (first k : Nat) : State :=
  let s1 := { s with attention :=
    { s.attention with attn := s.attention.attn ||| attnMemory,
                       firstPoison := firstOf s.attention.firstPoison first } }
  s1.count 0x0304 k

/-- R184: a read of a range that met poison.
(DEDUCED, log entry 90.) -/
def State.notePoison (s : State) (a n : Nat) : State :=
  let us := poisonedIn s.poison a n
  s.poisonSeen (us.headD a) (max 1 us.length)

/-- R184: the read of a copy inside the device, or of a piece sent: poison on its way is noted. -/
def State.noteRead (s : State) (a n : Nat) : State := if s.poisoned a n then s.notePoison a n else s

/-- The current crew-list version (R305). -/
def State.crewVersion (s : State) : Nat := s.net9.crew.version
/-- The local step (R306). -/
def State.localStep (s : State) : Nat := s.net9.localStep

/-! ## Settings (R205, R225, R291, R311, R335, R410, R432, R180, R182) -/

/-- What the manual assigns to a setting key: its width in bytes, its range, its default, and the roles that may write it
(operator, installer, maker). -/
structure KeyInfo where
  width : Nat
  lo : Nat
  hi : Nat
  default : Nat
  op : Bool
  inst : Bool
  maker : Bool
  deriving DecidableEq, Repr

/-- The common case: installer and maker may write. -/
def keyIM (width lo hi d : Nat) : Option KeyInfo := some ⟨width, lo, hi, d, false, true, true⟩
/-- Every role may write. -/
def keyAll (width lo hi d : Nat) : Option KeyInfo := some ⟨width, lo, hi, d, true, true, true⟩
/-- No role may write: the keys of 0xFxxx. -/
def keyRO (width : Nat) : Option KeyInfo := some ⟨width, 0, 2 ^ (8 * width) - 1, 0, false, false, false⟩

/-- The floor and ceiling defaults of Table 6.10, by class and kind. -/
def stintDefaults : List (List (Nat × Nat)) :=
  [[(32, 256), (32, 256), (128, 256), (128, 256)],
   [(48, 256), (0, 0), (16, 64), (16, 64)],
   [(24, 192), (32, 128), (0, 32), (0, 16)],
   [(64, 256), (0, 0), (0, 32), (0, 32)],
   [(16, 128), (128, 256), (32, 128), (32, 128)],
   [(16, 64), (0, 0), (8, 32), (16, 64)],
   [(8, 32), (8, 32), (4, 16), (4, 16)]]

/-- Keys 0x22cc (Table 6.9). -/
def stintKey (k : Nat) : Option KeyInfo :=
  let cls := k / 16 % 16
  let kind := k % 16 / 2
  if 6 < cls ∨ 7 < k % 16 then none
  else
    let d := (stintDefaults.getD cls []).getD kind (0, 0)
    keyIM 2 0 256 (if k % 2 = 0 then d.1 else d.2)

/-- Keys 0x50xx (Table 11.2): field `i` of port `p`, at the widest range of R335. -/
def portKey (p i : Nat) : Option KeyInfo :=
  if 11 < p then none
  else
    match i with
    | 0 => keyIM 2 0 (if p < 8 then 2 else 3) (if p = 0 ∨ p = 8 then 1 else 0)
    | 1 => keyIM 2 0 1 0
    | 2 => keyIM 2 1 4 4
    | 3 => keyIM 2 80 9000 2500
    | 4 => keyIM 2 8 11 8
    | 5 => keyIM 2 0 15 0
    | 6 => keyIM 2 0 1 0
    | 7 => keyIM 2 0 1 0
    | _ => none

/-- The keys outside 0x22cc and 0x50xx. -/
def plainKey (k : Nat) : Option KeyInfo :=
  match k with
  | 0x1000 => keyIM 2 150 1500 1500
  | 0x1001 => keyIM 2 400 1300 1300
  | 0x1002 => keyIM 2 70 100 95
  | 0x1003 => keyIM 2 0 2 1
  | 0x1004 => keyIM 4 0 10000000 0
  | 0x1005 => keyIM 4 0 3600000 0
  | 0x2100 => keyIM 2 10 10000 100
  | 0x2101 => keyIM 2 0 1 1
  | 0x3100 => keyIM 2 1 72 8
  | 0x3101 => keyIM 2 1 168 24
  | 0x3200 => keyAll 2 1 64 4
  | 0x3201 => keyAll 2 0 1024 512
  | 0x4000 => keyIM 4 0 (2 ^ 32 - 1) 0
  | 0x4001 => keyIM 8 0 (2 ^ 64 - 1) (2 ^ 64 - 1)
  | 0x4002 => keyIM 2 10 1000 100
  | 0x4003 => keyIM 2 4 255 16
  | 0x4004 => keyIM 2 8 24 13
  | 0x4005 => keyIM 2 1 10000 50
  | 0x5100 => keyIM 2 1 255 32
  | 0x5101 => keyIM 2 1 10000 100
  | 0x6000 => keyIM 4 0 (2 ^ 32 - 1) 0
  | 0x6001 => keyIM 4 0 (2 ^ 32 - 1) 0
  | 0x6002 => some ⟨2, 0, 1, 0, false, true, false⟩
  | 0x6010 => keyAll 8 0 (2 ^ 44 - 1) 0
  | 0x6011 => keyAll 8 0 (2 ^ 39) 0
  | 0x6020 => keyAll 2 100 10000 500
  | 0x6021 => keyAll 2 2 64 4
  | 0x7000 => keyIM 2 3 20 5
  | 0x7001 => keyIM 2 10 3600 60
  | 0x7002 => some ⟨2, 0, 1, 1, false, false, true⟩
  | 0xE000 => some ⟨2, 150, 1500, 1500, false, false, true⟩
  | 0xF000 => keyRO 4
  | 0xF001 => keyRO 8
  | 0xF002 => keyRO 8
  | 0xF003 => keyRO 2
  | 0xF004 => keyRO 4
  | 0xF005 => keyRO 8
  | _ => none

/-- R384, R410: what the manual assigns to a key; none outside every assigned range. -/
def keyInfo (k : Nat) : Option KeyInfo :=
  if k / 256 = 0x22 then stintKey k
  else if k / 256 = 0x50 then portKey (k / 16 % 16) (k % 16)
  else plainKey k

/-- R383: a value in the key's range, beyond what a plain interval says (Tables 10.1, 14.1, R312). -/
def keyValueOk (k v : Nat) : Bool :=
  match keyInfo k with
  | none => false
  | some i =>
    decide (i.lo ≤ v) && decide (v ≤ i.hi) &&
    (match k with
     | 0x1004 => decide (v = 0) || decide (10 ≤ v)
     | 0x4000 => decide (v / 2 ^ 20 % 2 ^ 11 = 0)
     | 0x6010 => decide (v % 4096 = 0)
     | 0x6011 => decide (v = 0) || (decide (2 ^ 24 ≤ v) && decide (v % 8192 = 0))
     | _ => true)

/-- R409: a role may read a key. -/
def keyReadable (r : Role) (k : Nat) : Bool := if k / 4096 = 0xE then decide (r = .maker) else decide (r ≠ .none)

/-- R409, R410: a role may write a key. -/
def keyWritable (r : Role) (k : Nat) : Bool :=
  match keyInfo k with
  | none => false
  | some i =>
    match r with
    | .none => false
    | .operator => i.op
    | .installer => i.inst
    | .maker => i.maker

/-- A WIDTH key of a port (Table 11.2): its default follows the port's PHY. -/
def widthKey (k : Nat) : Bool := decide (k / 256 = 0x50) && decide (k / 16 % 16 < 12) && decide (k % 16 = 2)

/-- The value of a key in a settings list: the listed one, or its default (WIDTH: 4 in a D-PHY, 3 in a C-PHY). -/
def settingIn (xs : List (Nat × Nat)) (k : Nat) : Nat :=
  match keyInfo k with
  | some i => assocGet (if widthKey k ∧ assocGet 0 xs (k - 1) = 1 then 3 else i.default) xs k
  | none => 0

/-- The committed value of a key that software can write. -/
def State.setting (s : State) (k : Nat) : Nat := settingIn s.settings k

/-- A setting of 0x5xxx as it acts now (R335). -/
def State.acting (s : State) (k : Nat) : Nat := settingIn s.portSettings k

/-- Field `i` of port `p` as it acts now. -/
def State.portSetting (s : State) (p i : Nat) : Nat := s.acting (0x5000 + 0x10 * p + i)

/-- A value put into a settings list; a default that is fixed is not listed. -/
def settingPut (xs : List (Nat × Nat)) (k v : Nat) : List (Nat × Nat) :=
  match keyInfo k with
  | some i => if v = i.default ∧ !widthKey k then assocDel xs k else assocPut xs k v
  | none => xs

/-- The module serial number (Table 12.8). -/
def serialBytes : List Byte := (List.range 16).map Config.serial

/-- VERSION of the running stage-1 image (Table 13.4). -/
def State.fwActive (s : State) : BitVec 64 :=
  let f := s.trust.firmware
  match (if f.runningB then f.slotB else f.slotA).head? with
  | some (some st) => st.version
  | _ => 0

/-- R384: the value SETTING_GET returns for a key. -/
def State.keyValue (s : State) (k : Nat) : Nat :=
  match k with
  | 0xF000 => 0x9613A000
  | 0xF001 => leNat (serialBytes.take 8)
  | 0xF002 => leNat (serialBytes.drop 8)
  | 0xF003 => s.trust.firmware.rollback
  | 0xF004 => s.trust.firmware.bootCount
  | 0xF005 => s.fwActive.toNat
  | _ => s.setting k

end Sys2Proof.Machine
end

