-- ==== Sys2Proof/Machine/Stint.lean ====
section
/-!
DEFINITION. The stint budgets (R181, R203 to R214): the activity classes, the resources and their capacities, the bytes that wait
for grants, and the grants of a stint.
-/
namespace Sys2Proof.Machine

/-- The activity classes (Table 6.7), in the order of their numbers. -/
inductive Activity where
  | compute | stack | secure | update | collective | ingest | maint
  deriving DecidableEq, Repr

/-- The number of a class. -/
def Activity.no : Activity → Nat
  | .compute => 0 | .stack => 1 | .secure => 2 | .update => 3 | .collective => 4 | .ingest => 5 | .maint => 6

/-! ## Settings and capacities (R204, R205) -/

/-- The key of the floor of a class and kind; that of its ceiling is one higher. -/
def floorKey (cls kind : Nat) : Nat := 0x2200 + 16 * cls + 2 * kind

/-- A stint setting as it acts (R211). -/
def State.stintActing (s : State) (k : Nat) : Nat :=
  match keyInfo k with
  | some i => assocGet i.default s.stintSettings k
  | none => 0

/-- Bytes per microsecond of an instance of a kind (Table 6.8). -/
def kindRate (kind : Nat) : Nat := [153600, 800000, 7200000, 3600000].getD kind 0

/-- Bytes of a grant of a kind (Table 6.8). -/
def kindGranule (kind : Nat) : Nat := [64, 256, 32, 32].getD kind 1

/-- C: the bytes an instance of a kind can move in a stint (R204). -/
def State.stintCapacity (s : State) (kind : Nat) : Nat := kindRate kind * s.stintActing 0x2100

/-- A part of C in granules, the last one whole: a class overruns its budget by at most one (R208). -/
def State.budgetGranules (s : State) (kind part : Nat) : Nat :=
  (part * s.stintCapacity kind + 256 * kindGranule kind - 1) / (256 * kindGranule kind)

/-- The floor of a class, in granules. -/
def State.floorOf (s : State) (kind cls : Nat) : Nat := s.budgetGranules kind (s.stintActing (floorKey cls kind))
/-- The ceiling of a class, in granules. -/
def State.ceilingOf (s : State) (kind cls : Nat) : Nat := s.budgetGranules kind (s.stintActing (floorKey cls kind + 1))

/-! ## The instances a transfer uses (R179, R181) -/

/-- The bytes below offset `x` of a quarter that lie in its package of parity `b` (R181). -/
def packageBytes (b x : Nat) : Nat := x / 512 * 256 + (if b = 0 then min 256 (x % 512) else x % 512 - 256)

/-- The package of an LPDDR5X address (R181). -/
def packageOf (a : Nat) : Nat := 2 * quarterOf a + (a - lpddrBase) % quarterBytes / 256 % 2

/-- The bytes of a range in package `p`. -/
def rangeInPackage (a n p : Nat) : Nat :=
  let q := lpddrBase + p / 2 * quarterBytes
  packageBytes (p % 2) (min (a + n) (q + quarterBytes) - q) - packageBytes (p % 2) (min a (q + quarterBytes) - q)

/-- The bytes of a range in the SRAM of group `g`. -/
def rangeInGroup (a n g : Nat) : Nat := min (a + n) ((g + 1) * groupBytes) - max a (g * groupBytes)

/-- The resources a transfer uses: kind, instance, bytes. -/
def sharesOf (write : Bool) (a n : Nat) : List (Nat × Nat × Nat) :=
  (if a < lpddrBase then (List.range 16).map (fun g => (if write then 3 else 2, g, rangeInGroup a n g))
   else (List.range 8).map (fun p => (0, p, rangeInPackage a n p))).filter (fun x => decide (0 < x.2.2))

/-! ## Requests (R207, R208) -/

/-- The key of a class on an instance in the list of waiting bytes. -/
def stintKeyOf (kind inst cls : Nat) : Nat := kind * 4096 + inst * 8 + cls

/-- Bytes of a class that wait for grants on an instance. -/
def State.owed (s : State) (kind inst cls : Nat) : Nat := assocGet 0 s.power.owed (stintKeyOf kind inst cls)

/-- Bytes of a class requested on an instance. -/
def State.requestOn (s : State) (cls : Activity) (kind inst n : Nat) : State :=
  if n = 0 then s
  else { s with power := { s.power with
    owed := assocPut s.power.owed (stintKeyOf kind inst cls.no) (s.owed kind inst cls.no + n) } }

/-- A class has not reached its ceiling on an instance in this stint (R208). -/
def State.belowCeiling (s : State) (cls : Activity) (kind inst : Nat) : Bool :=
  decide (s.owed kind inst cls.no < s.ceilingOf kind cls.no * kindGranule kind)

/-- A class waits at its ceiling on an instance. -/
def State.atCeiling (s : State) (cls : Activity) (kind inst : Nat) : State :=
  let k := stintKeyOf kind inst cls.no
  if s.power.atCeiling.contains k then s
  else { s with power := { s.power with atCeiling := s.power.atCeiling ++ [k] } }

/-- Transfers of a class: whether each writes, its first address and its bytes. -/
abbrev Moves := List (Bool × Nat × Nat)

/-- The resources of transfers. -/
def Moves.shares (ms : Moves) : List (Nat × Nat × Nat) := ms.flatMap (fun m => sharesOf m.1 m.2.1 m.2.2)

/-- The transfers may start: on no instance has the class reached its ceiling. -/
def State.mayMove (s : State) (cls : Activity) (ms : Moves) : Bool := ms.shares.all (fun x => s.belowCeiling cls x.1 x.2.1)

/-- The transfers requested. -/
def State.charge (s : State) (cls : Activity) (ms : Moves) : State :=
  ms.shares.foldl (fun a x => a.requestOn cls x.1 x.2.1 x.2.2) s

/-- Transfers wait at the ceilings that their class has reached. -/
def State.waitAt (s : State) (cls : Activity) (ms : Moves) : State :=
  (ms.shares.filter (fun x => !s.belowCeiling cls x.1 x.2.1)).foldl (fun a x => a.atCeiling cls x.1 x.2.1) s

/-- What moves data under a budget: it waits while its class is at a ceiling, and is charged otherwise. What one command moves at
once is granted in this stint and, beyond its budget, in those that follow (R208).
(DESIGN CHOICE, log entry 113.) -/
def State.moving (s : State) (cls : Activity) (ms : Moves) (act : State → State) : State :=
  if s.mayMove cls ms then act (s.charge cls ms) else s.waitAt cls ms

/-! ## The grants of a stint (R207 to R209) -/

/-- `b` granules handed out round-robin to classes that want so many, the lowest class first.
(DESIGN CHOICE, log entry 113.) -/
def shareOut : Nat → Nat → List Nat → List Nat
  | 0, _, ws => ws.map (fun _ => 0)
  | n + 1, b, ws =>
    let k := (ws.filter (fun w => decide (0 < w))).length
    if k = 0 ∨ b = 0 then ws.map (fun _ => 0)
    else if b < k then
      (ws.foldl (fun (a : List Nat × Nat) w => if 0 < w ∧ 0 < a.2 then (a.1 ++ [1], a.2 - 1) else (a.1 ++ [0], a.2)) ([], b)).1
    else
      let least := (ws.filter (fun w => decide (0 < w))).foldl min (b / k)
      let rest := shareOut n (b - least * k) (ws.map (fun w => w - least))
      (ws.zip rest).map (fun x => min x.1 least + x.2)

/-- The grants of one instance in one stint, by class and in granules: those at priority 1, those at priority 2, and those of the
latter that are borrowed. -/
structure Grants where
  first : List Nat
  second : List Nat
  borrowed : List Nat
  deriving DecidableEq, Repr

/-- R207: the grants of an instance of a kind with `cap` granules of capacity to classes that want so many. -/
def State.grants (s : State) (kind cap : Nat) (want : List Nat) : Grants :=
  let limited (lim : Nat → Nat) : List Nat := ((List.range 7).zip want).map (fun x => min x.2 (lim x.1))
  let g1 := shareOut 16 cap (limited (s.floorOf kind))
  let floors := ((List.range 7).map (fun c => s.stintActing (floorKey c kind))).foldl (· + ·) 0
  let free := (256 - floors) * s.stintCapacity kind / (256 * kindGranule kind)
  let left := cap - g1.foldl (· + ·) 0
  let want2 := ((limited (s.ceilingOf kind)).zip g1).map (fun x => x.1 - x.2)
  let unlent := shareOut 16 (min left free) want2
  if s.stintActing 0x2101 = 0 then ⟨g1, unlent, want.map (fun _ => 0)⟩
  else
    let g2 := shareOut 16 left want2
    ⟨g1, g2, (g2.zip unlent).map (fun x => x.1 - x.2)⟩

/-- A class's stint counter advanced (Table 6.12). -/
def State.countStint (s : State) (kind cls which n : Nat) : State := s.count (0x0400 + 16 * cls + 4 * kind + which) n

/-- The end of a stint for one class on one instance: what it was granted is no longer owed, and the counters of Table 6.12.
`lost` are the bytes that a retraining pause took.
(DESIGN CHOICE, log entry 113.) -/
def State.settleClass (s : State) (kind inst cls : Nat) (g : Grants) (lost : Nat) : State :=
  let gran := kindGranule kind
  let owed := s.owed kind inst cls
  let n := g.first.getD cls 0 + g.second.getD cls 0
  let bytes := min owed (n * gran)
  let left := owed - bytes
  let full := decide (s.ceilingOf kind cls ≤ n) && decide (0 < left)
  let wait := full || s.power.atCeiling.contains (stintKeyOf kind inst cls)
  let short := decide (0 < lost) && decide (n < s.floorOf kind cls) && decide (0 < left)
  let s1 : State := { s with power := { s.power with
    owed := if left = 0 then assocDel s.power.owed (stintKeyOf kind inst cls)
      else assocPut s.power.owed (stintKeyOf kind inst cls) left } }
  (((s1.countStint kind cls 0 (bytes + if cls = 6 then lost else 0)).countStint kind cls 1 (min bytes (g.borrowed.getD cls 0 * gran))).countStint
    kind cls 2 (if wait then 1 else 0)).countStint kind cls 3 (if short then 1 else 0)

/-- R433: the requests that a stint's grants may meet: a part of those of COMPUTE, SECURE, UPDATE and COLLECTIVE is withheld while
the cap loop says so.
(DEDUCED, log entry 82.) -/
def State.withheld (s : State) (want : List Nat) : List Nat × State :=
  if s.power.withhold then
    ((List.range 7).zip want).foldl (fun a x =>
      if x.1 = 0 ∨ x.1 = 2 ∨ x.1 = 3 ∨ x.1 = 4 then
        let w := a.2.freeNat
        (a.1 ++ [x.2 - w.1 % (x.2 + 1)], w.2)
      else (a.1 ++ [x.2], a.2)) ([], s)
  else (want, s)

/-- The end of a stint on one instance. -/
def State.settleInstance (s : State) (kind inst : Nat) : State :=
  let gran := kindGranule kind
  let lost := if kind = 0 then assocGet 0 s.power.retrained inst else 0
  let want := s.withheld ((List.range 7).map (fun c => (s.owed kind inst c + gran - 1) / gran))
  let g := s.grants kind ((s.stintCapacity kind - lost) / gran) want.1
  (List.range 7).foldl (fun a c => a.settleClass kind inst c g lost) want.2

/-- The instances a stint's requests, waits and pauses are on: kind and instance. -/
def State.stintInstances (s : State) : List (Nat × Nat) :=
  let used := s.power.owed.map (fun x => x.1) ++ s.power.atCeiling ++ s.power.retrained.map (fun x => stintKeyOf 0 x.1 0)
  ((List.range 4).flatMap (fun kind => (List.range 16).map (fun inst => (kind, inst)))).filter (fun x =>
    used.any (fun k => decide (k / 8 = x.1 * 512 + x.2)))

/-- The grants of the stint that ends, on every instance (R207 to R209). -/
def State.settleStint (s : State) : State :=
  let s1 := s.stintInstances.foldl (fun a x => a.settleInstance x.1 x.2) s
  { s1 with power := { s1.power with atCeiling := [], retrained := [] } }

end Sys2Proof.Machine
end

