-- ==== Sys2Proof/Machine/Session.lean ====
section
/-!
DEFINITION. The session layer: the device STATE and status word (R342, R442), the admission power of R434, replies, completions and bulk data sent
(R341, R351, R352, R371, R372), sources and tag tables (R175, R346), and the audit log (R418 to R420).
-/
namespace Sys2Proof.Machine

/-! ## The device STATE (R442, R465, R466) -/

/-- A logical core is lost (R465). -/
def State.lost (s : State) (c : Nat) : Bool := decide (s.health.map.getD c none = none)

/-- R466: the device is degraded. -/
def State.degraded (s : State) : Bool :=
  s.health.map.any (fun m => decide (m = none))
    || (s.health.tinkerRetired.getD 0 false && s.health.tinkerRetired.getD 1 false)
    || (s.health.tinkerRetired.getD 2 false && s.health.tinkerRetired.getD 3 false)
    || (List.range 4).any s.quarterFailed || s.health.rowUnspared

/-- R466: entry to DEGRADED raises the SPARE and SERVICE bits; `was` says whether the device was degraded before. -/
def State.degradeCheck (s : State) (was : Bool) : State :=
  if s.degraded && !was then s.raiseAttn (attnSpare ||| attnService) else s

/-- A group's power state. -/
def State.groupPower (s : State) (g : Nat) : GroupPower := s.power.groups.getD g GroupPower.reset

/-- Some group is in a power state. -/
def State.anyGroup (s : State) (x : GState) : Bool := s.power.groups.any (fun g => decide (g.state = x))

/-- R442: the STATE field. -/
def State.stateCode (s : State) : Nat :=
  if s.power.phase ≠ .ready then 0
  else if s.power.failed then 7
  else if s.power.recovery then 6
  else if s.power.sleep = .housed ∨ s.power.sleep = .entering then 1
  else if s.power.sleep = .waking ∨ s.power.coresReset then 8
  else if s.power.groups.any (fun g => decide (g.waking = some .s0)) && !s.anyGroup .s0 then 8
  else if s.degraded then 5
  else if s.anyGroup .s0 then 4
  else if s.anyGroup .s1 then 3
  else 2

/-! ## Admission power (R434) -/

/-- Twice the watts a group adds to P_adm. -/
def GState.watts2 : GState → Nat
  | .s0 => 28 | .s1 => 6 | .s2 => 2

/-- Twice P_adm of a number of links UP and a set of group states. -/
def padm2 (links : Nat) (gs : List GState) : Nat := 80 + 3 * links + (gs.map GState.watts2).foldl (· + ·) 0

/-- The links that are UP. -/
def State.linksUp (s : State) : Nat := (s.net9.links.filter (fun l => decide (l.state = .up))).length

/-- R434: a set of group states is admitted. -/
def State.admits (s : State) (gs : List GState) : Bool :=
  gs.all (fun g => decide (g = .s2)) || decide (padm2 s.linksUp gs ≤ 2 * s.setting 0x1000)

/-- The states of the groups, a group that wakes in the state it wakes to. -/
def State.groupStates (s : State) : List GState := s.power.groups.map (fun g => g.waking.getD g.state)

/-- INLET_C against its limit for CAP_W, which falls from 50 °C at 600 W to 40 °C at 1,500 W: the bit once per excursion (R480). -/
def State.lookAtInlet (s : State) : State :=
  let above := decide ((4500 : Int) - ((s.setting 0x1000 - 600 : Nat) : Int) < 90 * s.health.inlet)
  let s1 : State := { s with power := { s.power with inletHigh := above } }
  if above && !s.power.inletHigh then s1.raiseAttn attnPower else s1

/-! ## Sources and tags (R175, R346, R348) -/

/-- A live source. -/
def State.source (s : State) (n : Nat) : Option Source := s.sources.find? (fun x => x.num = n)

/-- A live source replaced. -/
def State.setSource (s : State) (x : Source) : State :=
  { s with sources := s.sources.map (fun y => if y.num = x.num then x else y) }

/-- The role of a source; none for one that is not live. -/
def State.roleOf (s : State) (n : Nat) : Role :=
  match s.source n with
  | some x => x.role
  | none => .none

/-- The slots a source holds. -/
def State.slotsHeld (s : State) (n : Nat) : Nat := (s.cmds.filter (fun c => c.source = n)).length

/-- R348: the CREDITS of a source. -/
def State.credits (s : State) (n : Nat) : Nat :=
  min 255 (min (s.acting 0x5100 - s.slotsHeld n) (1024 - s.cmds.length))

/-- The command a source's tag names while it is in use. -/
def State.cmd (s : State) (source tag : Nat) : Option Cmd :=
  s.cmds.find? (fun c => c.source = source && c.tag = tag)

/-- A command replaced. -/
def State.setCmd (s : State) (c : Cmd) : State :=
  { s with cmds := s.cmds.map (fun d => if d.no = c.no then c else d) }

/-- A command removed from the queue: its slot is released. -/
def State.dropCmd (s : State) (c : Cmd) : State := { s with cmds := s.cmds.filter (fun d => d.no ≠ c.no) }

/-- R175: an outcome entered in a source's tag table, replacing the tag's entry; the table keeps the 1,024 most recent. -/
def tagPut (ts : List TagEntry) (e : TagEntry) : List TagEntry :=
  (e :: ts.filter (fun t => t.tag ≠ e.tag)).take 1024

/-- R175: the outcome of a command whose entry the tag table still keeps. -/
def tagEnd (ts : List TagEntry) (e : TagEntry) : List TagEntry :=
  ts.map (fun t => if t.tag = e.tag then e else t)

/-- R164, R175: the outcome of an accepted command recorded. -/
def State.endTag (s : State) (source : Nat) (e : TagEntry) : State :=
  match s.source source with
  | some x => s.setSource { x with tags := tagEnd x.tags e }
  | none => s

/-- R175: a command that was not refused enters the tag table. -/
def State.recordTag (s : State) (source : Nat) (e : TagEntry) : State :=
  match s.source source with
  | some x => s.setSource { x with tags := tagPut x.tags e }
  | none => s

/-- R346: a source stops being live. -/
def State.unbind (s : State) (n : Nat) : State := { s with sources := s.sources.filter (fun x => x.num ≠ n) }

/-- R346: what the end of a command does to its source: one that logged out is unbound with its last command; another
starts its idle time. -/
def State.afterCmd (s : State) (n : Nat) : State :=
  match s.source n with
  | none => s
  | some x =>
    if s.slotsHeld n = 0 then
      if x.leaving then s.unbind n else s.setSource { x with idleSince := s.now }
    else s

/-! ## Ports that take packets (R334, R335) -/

/-- A port takes packets of the host: the mailbox, and the CSI-2 ports set to commands (R334, R335). In BOOT RX0 alone answers
beside the mailbox (Table 14.4); after a thermal trip and in recovery the CSI-2 ports are off (R368, R435). -/
def State.answers (s : State) (port : Nat) : Bool :=
  let up := decide (s.power.phase = .ready) || (decide (s.power.phase = .boot) && decide (2 ≤ s.power.stage))
  if port = 12 then up
  else up && decide (port < 8) && decide (s.portSetting port 0 = 1) && !s.power.failed && !s.power.recovery
    && (decide (s.power.phase = .ready) || decide (port = 0))

/-- A port listens: it takes the host's packets, or, out of S3, those of a sensor (Tables 11.2 and 11.17). -/
def State.listens (s : State) (port : Nat) : Bool :=
  s.answers port || (decide (port < 8) && decide (s.portSetting port 0 = 2) && decide (s.power.phase = .ready)
    && !s.power.failed && !s.power.recovery && decide (s.power.sleep ≠ .housed))

/-- The header of a packet on a D-PHY port that listens may have had a bit that ECC corrected (R337, PORT_HDR_CORRECTED).
(DESIGN CHOICE, log entry 19.) -/
def State.corrected (s : State) (port : Nat) : State :=
  if port < 8 ∧ s.portSetting port 1 = 0 ∧ s.listens port then let x := s.freeNat; x.2.count 0x0604 (x.1 % 2) else s

/-! ## Packets sent (R341, R342, R351) -/

/-- R342: the status word for a source. -/
def State.status (s : State) (source : Nat) (res : Nat) : Nat :=
  res + s.attention.attn.toNat * 2 ^ 8 + s.credits source * 2 ^ 16 + s.stateCode * 2 ^ 24
    + (s.roleOf source).code * 2 ^ 28 + (if s.ledger.isSome then 2 ^ 31 else 0)

/-- The transmit port for the packets of a source bound to a port (R335, R346); 12 is the mailbox. -/
def State.replyPort (s : State) (port : Nat) : Nat := if port = 12 then 12 else s.portSetting port 4

/-- The ROLE of a transmit port lets a packet out: 1 or 3 for a reply, 2 or 3 for a stream (Table 11.2). -/
def State.sends (s : State) (k : OutPkt) : Bool :=
  let role := s.portSetting k.port 0
  decide (role = 3) || decide (role = if k.dt = 0x30 ∨ k.dt = 0x31 then 1 else 2)

/-- A packet goes out: the mailbox has room for it, or its port is on and sends such packets. -/
def State.letsOut (s : State) (k : OutPkt) : Bool :=
  if k.port = 12 then decide (s.i3c.mbxOut.length < 65) else !s.power.failed && s.sends k

/-- A packet handed to a transmit port or to the mailbox (R367). Packets of a stopped CSI-2 port are not sent (R435). -/
def State.send (s : State) (k : OutPkt) : State :=
  if k.port = 12 then
    if 65 ≤ s.i3c.mbxOut.length then
      (({ s with i3c := { s.i3c with outDrop := true } }).overrun 1).count 0x060B 1
    else { s with i3c := { s.i3c with mbxOut := s.i3c.mbxOut ++ [k], outReady := true } }
  else if s.power.failed ∨ !s.sends k then s
  else { s with out := s.out ++ [k] }

/-- The KIND byte of a reply (R341). -/
inductive Kind where
  | ack | completion | data
  deriving DecidableEq, Repr

/-- The code of a KIND. -/
def Kind.code : Kind → Nat
  | .ack => 1 | .completion => 2 | .data => 3

/-- The bytes of a reply (Table 11.4b). -/
def replyBytes (opcode : Nat) (k : Kind) (source tag status : Nat) (params : List Byte) : List Byte :=
  leBytes 2 opcode ++ leBytes 1 k.code ++ leBytes 1 1 ++ leBytes 2 source ++ leBytes 2 tag ++ leBytes 4 status
    ++ leBytes 4 params.length ++ params

/-- A reply sent to a source on the port it is bound to. -/
def State.replyOn (s : State) (port opcode : Nat) (k : Kind) (source tag : Nat) (res : Nat) (params : List Byte) : State :=
  s.send ⟨s.replyPort port, 0, 0x30, replyBytes opcode k source tag (s.status source res) params⟩

/-- A reply to a live source; the replies of an unbound source are dropped (Table 14.5b). -/
def State.reply (s : State) (op : Op) (k : Kind) (source tag : Nat) (res : Res) (params : List Byte) : State :=
  match s.source source with
  | some x => s.replyOn x.port op.code k source tag res.code params
  | none => s

/-- The bulk packets of `bs` from byte `off`, in packets of at most `m` data bytes (R344).
(DESIGN CHOICE, log entry 30.) -/
def bulkPackets (port source tag m : Nat) : Nat → Nat → List Byte → List OutPkt
  | 0, _, _ => []
  | n + 1, off, bs =>
    if bs.isEmpty then []
    else
      ⟨port, 0, 0x31, leBytes 2 source ++ leBytes 2 tag ++ leBytes 4 0 ++ leBytes 8 off ++ bs.take m⟩
        :: bulkPackets port source tag m n (off + m) (bs.drop m)

/-- A bulk packet sent; the data bytes that go out are counted (PORT_BULK_OUT_BYTES, R370). -/
def State.sendBulk (s : State) (k : OutPkt) : State := (s.send k).count 0x0602 (if s.letsOut k then k.bytes.length - 16 else 0)

/-- R352: the DATA reply with the total, further parameter bytes, and the bulk packets.
(DESIGN CHOICE, log entry 30.) -/
def State.sendData (s : State) (c : Cmd) (extra : List Byte) (bs : List Byte) : State :=
  match s.source c.source with
  | none => s
  | some x =>
    let s1 := s.reply c.op .data c.source c.tag .ok (leBytes 8 bs.length ++ extra)
    let p := s.replyPort x.port
    let m := if p = 12 then 4080 else 16384
    (bulkPackets p c.source c.tag m (bs.length / m + 1) 0 bs).foldl State.sendBulk s1

/-! ## Completions (R371, R372) -/

/-- Local microseconds a command has run (RUN_US).
(DESIGN CHOICE, log entry 13.) -/
def State.runUs (s : State) (c : Cmd) : Nat := if c.running then s.now - c.startedAt else 0

/-- The 16-byte generic completion block (Table 12.3). -/
def genericBlock (flags : FlagWord) (cause detail run : Nat) : List Byte :=
  leBytes 1 flags.toNat ++ leBytes 1 cause ++ leBytes 2 0 ++ leBytes 4 detail ++ leBytes 4 run ++ leBytes 4 0

/-- A command reaches its terminal state: its slot is released, its outcome recorded and its completion sent (R164, R371). -/
def State.complete (s : State) (c : Cmd) (res : Res) (block : List Byte) : State :=
  let s1 := (s.dropCmd c).endTag c.source ⟨c.tag, c.op, res⟩
  (s1.reply c.op .completion c.source c.tag res block).afterCmd c.source

/-- A command completes with the generic block. -/
def State.completeGeneric (s : State) (c : Cmd) (res : Res) (flags : FlagWord) (cause detail : Nat) : State :=
  s.complete c res (genericBlock flags cause detail (s.runUs c))

/-- COMPLETE, or COMPLETE_FLAGS where the flag word is not 0. -/
def doneRes (flags : FlagWord) : Res := if flags = 0 then .complete else .completeFlags

/-- A command starts (RUN_US counts from here). -/
def State.startCmd (s : State) (c : Cmd) : State :=
  if c.running then s else s.setCmd { c with running := true, startedAt := s.now }

/-- The commands accepted before a command that have not reached a terminal state. -/
def State.earlier (s : State) (c : Cmd) : List Cmd := s.cmds.filter (fun d => d.acked && decide (d.no < c.no))

/-- The commands that run on cores (R144, R167). A later FENCE or SET_POWER_STATE counts as one: an empty FENCE does not hold it.
(DESIGN CHOICE, log entry 136.) -/
def Op.usesCores : Op → Bool
  | .opRun | .graphRun | .networkActivate | .fence | .selfTest | .setPowerState | .repair => true
  | _ => false

/-- A command runs on a core: a REPAIR of a Tinker and a SELF_TEST of Tinkers alone do not. -/
def Cmd.usesCores (c : Cmd) : Bool :=
  c.op.usesCores &&
    match c.body with
    | .repair unit => decide (unit < 144)
    | .selfTest _ _ _ _ => coreSet c.params 0 != []
    | _ => true

/-- R168, R169: no fence holds a command back: its own FENCE_BEFORE, or a FENCE over the whole device for a command that
uses no core. -/
def State.fenceOk (s : State) (c : Cmd) : Bool :=
  (!c.flags.testBit 0 || (s.earlier c).isEmpty)
    && (c.usesCores || !(s.earlier c).any (fun d => decide (d.body = .fence [])))

/-- R441, R451: the commands that the Boathouse serves in S3. `masks`: the command is a LEDGER_COMMIT with a freeze mask. RESET CORES
leaves the groups in their states.
(DEDUCED, log entry 80.) -/
def Op.servedAsleep (o : Op) (params : List Byte) (masks : Bool) : Bool :=
  match o with
  | .nop | .getStatus | .readAttention | .loginChallenge | .loginResponse | .logout | .abort
  | .ledgerBegin | .ledgerSet | .ledgerRollback | .settingGet | .settingSet
  | .tensorDefine | .assayRead | .networkLoad | .networkActivate | .networkUnload
  | .stackConfig | .routeLoad | .crewListSet | .linkStatus | .streamMap
  | .countersRead | .spareStatus | .identityGet | .attest | .auditRead | .keyEnrol | .fwStage => true
  | .ledgerCommit => !masks
  | .pairSet => decide (fld params 0 1 = 3)
  | .reset => decide (fld params 0 1 = 1)
  | _ => false

/-- A command carries a freeze mask to its commit.
(DESIGN CHOICE, log entry 94.) -/
def State.carriesMask (s : State) (source tag : Nat) : Bool :=
  s.commits.any (fun k => decide (k.source = source) && decide (k.tag = tag) && !k.masks.isEmpty)

/-- A command is served in S3. -/
def State.asleepOk (s : State) (c : Cmd) : Bool := c.op.servedAsleep c.params (s.carriesMask c.source c.tag)

/-- R439, R441: the module's sleep does not hold a command back: the command did not come after a request for S3 that still
waits, and the module is awake, or falling asleep, or serves the command in S3.
(DESIGN CHOICE, log entry 94.) -/
def State.sleepOk (s : State) (c : Cmd) : Bool :=
  (decide (s.power.sleep = .awake ∨ s.power.sleep = .entering) || (decide (s.power.sleep = .housed) && s.asleepOk c))
    && !(s.earlier c).any (fun d => match d.body with | .power t _ => decide (t = 3) | _ => false)

/-- The shared units are out of S2 behaviour (R438, R440). -/
def State.sharedAwake (s : State) : Bool := !s.power.sharedS2 || s.power.groups.any (fun g => decide (g.state ≠ .s2))

/-- The commands that need the shared units (R440). -/
def Op.usesShared : Op → Bool
  | .updateRun | .paramWrite | .secure | .collectiveRun => true
  | _ => false

/-- A command may start: no fence holds it, the units it needs are awake, its bulk data is complete, and no CORES reset is
in progress (R449). -/
def State.mayStart (s : State) (c : Cmd) : Bool :=
  s.fenceOk c && !s.power.coresReset && s.sleepOk c && (!c.op.usesShared || s.sharedAwake)
    && (match c.bulk with
      | some b => decide (b.data.length = b.total)
      | none => true)

/-! ## The audit log (R418 to R420) -/

/-- H_0 (R419). -/
def auditSeed : List Byte :=
  sha3_512 (([0x53, 0x56, 0x39, 0x36, 0x31, 0x33, 0x2D, 0x41, 0x55, 0x44, 0x49, 0x54].map (BitVec.ofNat 8)) ++ serialBytes)

/-- The chain hash of the newest record, or the anchor. -/
def AuditLog.head (a : AuditLog) : List Byte :=
  match a.records.getLast? with
  | some r => r.hash
  | none => a.anchor.getD auditSeed

/-- One record appended; the ring overwrites its oldest (R420).
(DEDUCED, log entry 25.) -/
def AuditLog.push (a : AuditLog) (body : List Byte) : AuditLog :=
  let r : AuditRec := ⟨a.next, body, sha3_512 (a.head ++ body)⟩
  match a.records with
  | [] => { a with records := [r], next := a.next + 1 }
  | o :: os =>
    if 65536 ≤ a.records.length then { a with records := os ++ [r], next := a.next + 1, anchor := some o.hash }
    else { a with records := a.records ++ [r], next := a.next + 1 }

/-- What an audit record says (Table 13.6), apart from its sequence number, BOOT_COUNT and time. -/
structure AuditEvent where
  kind : Nat
  role : Nat
  source : Nat
  keyIndex : Nat
  subject : Nat
  ledger : Nat
  old : Nat
  new : Nat
  detail : List Byte
  deriving DecidableEq, Repr

/-- An event of the device itself. -/
def AuditEvent.device (kind : Nat) : AuditEvent := ⟨kind, 0, 0xFFFF, 0xFF, 0, 0, 0, 0, []⟩

/-- A byte list cut or filled with zeros to a length. -/
def padTo (n : Nat) (bs : List Byte) : List Byte := bs.take n ++ List.replicate (n - bs.length) 0

/-- The 64-byte body of a record (Table 13.6). -/
def auditBody (s : State) (e : AuditEvent) : List Byte :=
  leBytes 8 s.trust.audit.next ++ leBytes 1 e.kind ++ leBytes 1 e.role ++ leBytes 2 e.source ++ leBytes 1 e.keyIndex
    ++ leBytes 1 0 ++ leBytes 2 e.subject ++ leBytes 4 e.ledger ++ leBytes 4 s.trust.firmware.bootCount
    ++ leBytes 8 s.now ++ leBytes 8 e.old ++ leBytes 8 e.new ++ padTo 16 e.detail

/-- A record pushed, with no look at what it overwrites.
(DEDUCED, log entry 25.) -/
def State.auditPush (s : State) (e : AuditEvent) : State :=
  { s with trust := { s.trust with audit := s.trust.audit.push (auditBody s e) } }

/-- R418 to R420: a record written, the record of an overwrite episode, and the three-quarters mark. A record that cannot be written
raises FAULT (R419).
(DEDUCED, log entry 25; DESIGN CHOICE, log entry 122.) -/
def State.audit (s : State) (e : AuditEvent) : State :=
  if s.trust.flashFault then s.raiseFault (6 * 4096)
  else
  let a := s.trust.audit
  let unread := decide (65536 ≤ a.records.length) && decide (a.exported + 65536 < a.next)
  let s1 := s.auditPush e
  let s2 :=
    if unread && !a.overwriting then
      let t := s1.auditPush { AuditEvent.device 0x0D with detail := leBytes 8 1 }
      ({ t with trust := { t.trust with audit := { t.trust.audit with overwriting := true } } }).raiseAttn attnSecurity
    else if unread then s1
    else { s1 with trust := { s1.trust with audit := { s1.trust.audit with overwriting := false } } }
  if s2.trust.audit.exported + 49152 < s2.trust.audit.next then s2.raiseService 3 else s2

/-- An event by a source under its role. -/
def State.actor (s : State) (kind source : Nat) : AuditEvent :=
  match s.source source with
  | some x => ⟨kind, x.role.code, source, if x.role = .none then 0xFF else x.keyIndex, 0, 0, 0, 0, []⟩
  | none => { AuditEvent.device kind with source := source }

/-! ## What a handler of a command answers -/

/-- What happens after the reply has left. -/
inductive After where
  | nothing
  /-- LOGOUT: the source stops being live where it holds no command (R346). -/
  | logout
  /-- KEY_ENROL REVOKE: every login made with the key ends (R399). -/
  | revoke (role : Role) (index : Nat)
  /-- RESET CORES, RESET MODULE, FW_ACTIVATE (R381, R397). -/
  | coresReset
  | coldStart
  /-- ABORT with result OK: the target stops (R174). -/
  | abort (source tag : Nat)
  deriving DecidableEq, Repr

/-- The answer of a command's checks (R371): a single reply, which for form I and X is the result and for any form a
refusal; acceptance, with the parameter bytes of the ACK, what the command does, and the length of its bulk data; or a
form-I command's wait for its bulk data. -/
inductive Verdict where
  | done (res : Res) (params : List Byte) (s : State) (after : After)
  | accept (params : List Byte) (body : Body) (bulk : Option Nat) (s : State)
  | await (total : Nat) (s : State)

/-- A refusal. -/
def refuse (r : Res) (s : State) : Verdict := .done r [] s .nothing
/-- A form-I result OK. -/
def okReply (params : List Byte) (s : State) : Verdict := .done .ok params s .nothing

/-- A command as its handler sees it. -/
structure Req where
  op : Op
  port : Nat
  source : Nat
  tag : Nat
  flags : Nat
  seq : Nat
  role : Role
  keyIndex : Nat
  params : List Byte
  deriving DecidableEq, Repr

/-- FLAGS bit 0: FENCE_BEFORE. -/
def fenceBefore (flags : Nat) : Bool := flags.testBit 0
/-- FLAGS bit 1: IN_LEDGER. -/
def inLedger (flags : Nat) : Bool := flags.testBit 1
/-- FLAGS bit 2: CONTINUATION. -/
def continued (flags : Nat) : Bool := flags.testBit 2
/-- FLAGS bit 3: ADOPT. -/
def adoptFlag (flags : Nat) : Bool := flags.testBit 3

end Sys2Proof.Machine
end

