-- ==== Sys2Proof/Machine/Layout.lean ====
section
/-!
DEFINITION. Tensors in memory: the blocked layout (R193 to R197), footprints, reading and writing elements, padding
(R195), tile tags (R192) and the ring header.
-/
namespace Sys2Proof.Machine

/-! ## Geometry -/

/-- Fields of one block: its 1,024 elements, or in BLNS8 33 bytes for each of 32 rows (R193, R194). -/
def Fmt.fields (f : Fmt) : Nat := if f = .blns8 then 1056 else 1024

/-- The block size BS (Table 6.4). -/
def Fmt.blockBytes (f : Fmt) : Nat := f.fields * f.bits / 8

/-- The code padding is written with (R195): the format's +0; a fresh element for TAL.
(DEDUCED, log entry 31.) -/
def padCode (f : Fmt) : Nat := if f = .tal then Tal.fresh.encode else zeroCode f

/-- The format of a tensor; LNS8 stands in for a RAW tensor, whose elements are never read. -/
def Tensor.f (t : Tensor) : Fmt := t.fmt.getD .lns8

/-- BR and BC of R193. -/
def Tensor.br (t : Tensor) : Nat := (t.rows + 31) / 32
/-- Block columns. -/
def Tensor.bc (t : Tensor) : Nat := (t.cols + 31) / 32

/-- Bytes of one plane or slot. -/
def Tensor.planeBytes (t : Tensor) : Nat := t.br * t.bc * t.f.blockBytes

/-- The footprint in bytes (R189, R193, R197). -/
def Tensor.footprint (t : Tensor) : Nat :=
  match t.layout with
  | .raw => t.rows * t.pitch
  | .blocked => t.planes * t.planeBytes
  | .ring => 64 + t.planes * t.planeBytes

/-- The first byte of plane or slot `p`. -/
def Tensor.planeAddr (t : Tensor) (p : Nat) : Nat :=
  t.base + (if t.layout = .ring then 64 else 0) + p * t.planeBytes

/-- The first byte of a block (R193). -/
def Tensor.blockAddr (t : Tensor) (p bi bj : Nat) : Nat := t.planeAddr p + (bi * t.bc + bj) * t.f.blockBytes

/-- Storage positions of a BLOCKED tensor (R259). -/
def Tensor.positions (t : Tensor) : Nat := t.planes * t.br * t.bc * 1024

/-- The plane, row and column of a storage index (R259). -/
def Tensor.ofStorage (t : Tensor) (x : Nat) : Nat × Nat × Nat :=
  let b := x / 1024
  let n := x % 1024
  (b / (t.br * t.bc), b / t.bc % t.br * 32 + n / 32, b % t.bc * 32 + n % 32)

/-- A storage index lies in padding (R195). -/
def Tensor.padding (t : Tensor) (x : Nat) : Bool :=
  let e := t.ofStorage x
  decide (t.rows ≤ e.2.1) || decide (t.cols ≤ e.2.2)

/-- The storage index of an element (R259). -/
def Tensor.storageIx (t : Tensor) (p r c : Nat) : Nat := ((p * t.br + r / 32) * t.bc + c / 32) * 1024 + 32 * (r % 32) + c % 32

/-- The field of a block in which an element lies. -/
def fieldIx (f : Fmt) (r c : Nat) : Nat := if f = .blns8 then 33 * (r % 32) + c % 32 else 32 * (r % 32) + c % 32

/-- The bytes an element lies in: address and length (R16). -/
def Tensor.elemRange (t : Tensor) (p r c : Nat) : Nat × Nat :=
  let a := t.blockAddr p (r / 32) (c / 32)
  let i := fieldIx t.f r c
  match t.f.bits with
  | 4 => (a + i / 2, 1)
  | 12 => (a + 3 * (i / 2), 3)
  | w => (a + i * (w / 8), w / 8)

/-- A live handle of the tensor table. -/
def State.tensor (s : State) (h : Nat) : Option Tensor := s.tensors.find? (fun t => t.handle = h)

/-- A live handle's entry replaced. -/
def State.setTensor (s : State) (t : Tensor) : State :=
  { s with tensors := s.tensors.map (fun u => if u.handle = t.handle then t else u) }

/-- An entry put into the table, kept in handle order. -/
def tensorPut : List Tensor → Tensor → List Tensor
  | [], t => [t]
  | u :: us, t => if u.handle < t.handle then u :: tensorPut us t else if u.handle = t.handle then t :: us else t :: u :: us

/-! ## Reading elements -/

/-- The code of an element. -/
def State.code (s : State) (t : Tensor) (p r c : Nat) : Nat :=
  let g := t.elemRange p r c
  let x := leNat (s.read g.1 g.2)
  let i := fieldIx t.f r c
  match t.f.bits with
  | 4 => x / 2 ^ (4 * (i % 2)) % 16
  | 12 => x / 2 ^ (12 * (i % 2)) % 4096
  | _ => x

/-- The scale byte of a BLNS8 element's row; 0 in another format. -/
def State.blockScale (s : State) (t : Tensor) (p r c : Nat) : Nat :=
  if t.f = .blns8 then leNat (s.read (t.blockAddr p (r / 32) (c / 32) + 33 * (r % 32) + 32) 1) else 0

/-- An element as a seat value (R104). -/
def State.seatAt (s : State) (t : Tensor) (p r c : Nat) : LVal × FlagWord :=
  elemToSeat t.f (scaleLog t.scale) (s.blockScale t p r c) (s.code t p r c)

/-- An element in the log number system. -/
def State.logAt (s : State) (t : Tensor) (p r c : Nat) : LVal × FlagWord :=
  elemToLog t.f (scaleLog t.scale) (s.blockScale t p r c) (s.code t p r c)

/-- A TAL element. -/
def State.talAt (s : State) (t : Tensor) (p r c : Nat) : Tal := Tal.decode (s.code t p r c)

/-- A byte range of an element or of its scale is poisoned. -/
def State.elemPoisoned (s : State) (t : Tensor) (p r c : Nat) : Bool :=
  let g := t.elemRange p r c
  s.poisoned g.1 g.2 || (decide (t.f = .blns8) && s.poisoned (t.blockAddr p (r / 32) (c / 32) + 33 * (r % 32) + 32) 1)

/-- No unit of memory is poisoned and no quarter has failed. -/
def State.clean (s : State) : Bool := s.poison.isEmpty && s.health.failedPackages.isEmpty

/-- A read of the elements of a region meets poison: the first byte range that does. -/
def State.regionPoison (s : State) (t : Tensor) (p r0 nr c0 nc : Nat) : Option (Nat × Nat) :=
  if s.clean then none
  else
    ((List.range nr).flatMap (fun i => (List.range nc).map (fun j => (r0 + i, c0 + j)))).findSome? (fun e =>
      if s.elemPoisoned t p e.1 e.2 then some (t.elemRange p e.1 e.2) else none)

/-! ## Writing elements -/

/-- A list cut into pieces of `k`; `n` bounds their number. -/
def cut {α : Type} (k : Nat) : Nat → List α → List (List α)
  | 0, _ => []
  | n + 1, xs => if xs.isEmpty then [] else xs.take k :: cut k n (xs.drop k)

/-- The codes in packed bytes (R16), `n` of them. -/
def codesOf (w n : Nat) (bs : List Byte) : List Nat :=
  match w with
  | 4 => (bs.flatMap (fun b => [b.toNat % 16, b.toNat / 16])).take n
  | 12 => ((cut 3 (n / 2 + 1) bs).flatMap (fun g => let x := leNat g; [x % 4096, x / 4096])).take n
  | _ => (cut (w / 8) n bs).map leNat

/-- Codes packed into bytes (R16). -/
def bytesOf (w : Nat) (cs : List Nat) : List Byte :=
  match w with
  | 4 => (cut 2 cs.length cs).map (fun g => BitVec.ofNat 8 (g.getD 0 0 + 16 * g.getD 1 0))
  | 12 => (cut 2 cs.length cs).flatMap (fun g => leBytes 3 (g.getD 0 0 + 4096 * g.getD 1 0))
  | _ => cs.flatMap (leBytes (w / 8))

/-- Which bytes are written, from which codes are. -/
def coverOf (w : Nat) (cs : List Bool) : List Bool :=
  match w with
  | 4 => (cut 2 cs.length cs).map (fun g => g.all id)
  | 12 => (cut 2 cs.length cs).flatMap (fun g => [g.getD 0 true, g.all id, g.getD 1 true])
  | _ => cs.flatMap (List.replicate (w / 8))

/-- Bytes written of which only those covered count as written: the others keep the value they had. -/
def State.writeCover (s : State) (a : Nat) (bs : List Byte) (cov : List Bool) : State :=
  { s.write a bs with
    written := s.wrote (((List.range bs.length).zip cov).filterMap (fun x => if x.2 then some (a + x.1, 1) else none))
    poison := s.poison.filter (fun u =>
      !(decide (a ≤ u) && decide (u + unitSize u ≤ a + bs.length) && ((cov.drop (u - a)).take (unitSize u)).all id)) }

/-- R195: the elements of one block written: `new` gives the code for a field, none where the field is kept; padding is
written as +0 where any element is. A block with nothing to write is left as it is. -/
def State.putBlock (s : State) (t : Tensor) (p bi bj : Nat) (new : Nat → Option Nat) : State :=
  let f := t.f
  let w := f.bits
  let n := f.fields
  let news := (List.range n).map new
  if news.all (fun x => decide (x = none)) then s
  else
    let stride := n / 32
    let a := t.blockAddr p bi bj
    let old := codesOf w n (s.read a f.blockBytes)
    let isPad (i : Nat) : Bool :=
      decide (t.rows ≤ 32 * bi + i / stride) || (decide (i % stride < 32) && decide (t.cols ≤ 32 * bj + i % stride))
    let full := (List.range n).zip news |>.map (fun x =>
      match x.2 with
      | some v => some v
      | none => if isPad x.1 then some (if x.1 % stride = 32 then 0x80 else padCode f) else none)
    let codes := (full.zip old).map (fun x => x.1.getD x.2)
    s.writeCover a (bytesOf w codes) (coverOf w (full.map Option.isSome))

/-- The blocks a region of a plane touches. -/
def blocksOf (r0 nr c0 nc : Nat) : List (Nat × Nat) :=
  if nr = 0 ∨ nc = 0 then []
  else
    (List.range ((r0 + nr - 1) / 32 + 1 - r0 / 32)).flatMap (fun i =>
      (List.range ((c0 + nc - 1) / 32 + 1 - c0 / 32)).map (fun j => (r0 / 32 + i, c0 / 32 + j)))

/-- A region of a plane written from codes by row and column; none leaves the element as it is. -/
def State.putRegion (s : State) (t : Tensor) (p r0 nr c0 nc : Nat) (code : Nat → Nat → Option Nat) : State :=
  (blocksOf r0 nr c0 nc).foldl (fun s b =>
    s.putBlock t p b.1 b.2 (fun i =>
      let r := 32 * b.1 + i / 32
      let c := 32 * b.2 + i % 32
      if r0 ≤ r ∧ r < r0 + nr ∧ c0 ≤ c ∧ c < c0 + nc ∧ r < t.rows ∧ c < t.cols then code r c else none)) s

/-- Whole BLNS8 rows of a plane written: `row r bj` gives the 32 codes and the scale; none leaves the row as it is. -/
def State.putRows8 (s : State) (t : Tensor) (p r0 nr c0 nc : Nat) (row : Nat → Nat → Option (List Nat × Nat)) : State :=
  (blocksOf r0 nr c0 nc).foldl (fun s b =>
    let rows := (List.range 32).map (fun k =>
      let r := 32 * b.1 + k
      if r0 ≤ r ∧ r < r0 + nr ∧ r < t.rows then row r b.2 else none)
    s.putBlock t p b.1 b.2 (fun i =>
      match rows.getD (i / 33) none with
      | some x => if i % 33 = 32 then some x.2 else some (x.1.getD (i % 33) 0)
      | none => none)) s

/-- One element written. -/
def State.putElem (s : State) (t : Tensor) (p r c code : Nat) : State := s.putRegion t p r 1 c 1 (fun _ _ => some code)

/-! ## Tile tags (R99, R192) -/

/-- The tile tag over the elements of a TAL tensor as they stand; poisoned elements take no part. -/
def State.formTag (s : State) (t : Tensor) : Option Tag :=
  tagOf (((List.range t.planes).flatMap (fun p => (List.range t.rows).flatMap (fun r =>
    ((List.range t.cols).filter (fun c => s.clean || !s.elemPoisoned t p r c)).map (s.talAt t p r)))))

/-- R192: the tile tag set at the commit point of a write of a TAL tensor. -/
def State.retag (s : State) (h : Nat) : State :=
  match s.tensor h with
  | some t => if t.f = .tal ∧ t.layout = .blocked then s.setTensor { t with tag := s.formTag t } else s
  | none => s

/-- R192: the tile tag left with no value. -/
def State.untag (s : State) (h : Nat) : State :=
  match s.tensor h with
  | some t => s.setTensor { t with tag := none }
  | none => s

/-- A tensor's contents become undefined: free values over its footprint. -/
def State.scramble (s : State) (h : Nat) : State :=
  match s.tensor h with
  | some t =>
    let x := s.freeBytes t.footprint
    (x.2.write t.base x.1).untag h
  | none => s

/-! ## Stream rings (R197 to R199) -/

/-- COMPLETED, LAST and DROPPED of a ring's header. -/
def State.ringCompleted (s : State) (t : Tensor) : Nat := leNat (s.read t.base 8)
/-- LAST. -/
def State.ringLast (s : State) (t : Tensor) : Nat := leNat (s.read (t.base + 8) 4)
/-- DROPPED. -/
def State.ringDropped (s : State) (t : Tensor) : Nat := leNat (s.read (t.base + 12) 4)

/-- A tensor is a receive ring: a stream maps it.
(DEDUCED, log entry 101.) -/
def State.receiveRing (s : State) (h : Nat) : Bool := s.streams.any (fun x => !x.output && decide (x.ring = h))

/-- A RING tensor read as one slot: a BLOCKED plane over the slot's bytes. -/
def Tensor.slot (t : Tensor) (i : Nat) : Tensor := { t with layout := .blocked, planes := 1, base := t.planeAddr i }

/-! ## Descriptors (Table 6.3, R189) -/

/-- The 32 bytes of a descriptor. -/
def Tensor.descriptor (t : Tensor) : List Byte :=
  leBytes 4 t.handle ++ leBytes 1 (match t.fmt with | some f => f.code | none => 0)
    ++ leBytes 1 (match t.layout with | .blocked => 0 | .raw => 1 | .ring => 2) ++ leBytes 2 t.planes
    ++ leBytes 4 t.rows ++ leBytes 4 t.cols ++ leBytes 8 t.base ++ leBytes 4 t.pitch ++ leBytes 2 t.scale ++ leBytes 2 0

/-- R189: the tensor a descriptor describes, where no field breaks Table 6.3. -/
def tensorOf (bs : List Byte) : Option Tensor :=
  let h := fld bs 0 4
  let fc := fld bs 4 1
  let lay := fld bs 5 1
  let planes := fld bs 6 2
  let rows := fld bs 8 4
  let cols := fld bs 12 4
  let base := fld bs 16 8
  let pitch := fld bs 24 4
  let scale := fld bs 28 2
  let handleOk := decide (1 ≤ h) && decide (h ≤ 0x7FFFFFFE)
  let baseOk := decide (base < 2 ^ 44) && decide (base % 32 = 0)
  let rowsOk := decide (1 ≤ rows) && decide (rows ≤ 2 ^ 24)
  if !(handleOk && baseOk && rowsOk) then none
  else if lay = 1 then
    if fc = 0 ∧ planes = 1 ∧ cols = 0 ∧ 1 ≤ pitch ∧ pitch ≤ 2 ^ 24 then
      some ⟨h, none, .raw, 1, rows, 0, base, pitch, 0, .empty, none⟩
    else none
  else if 2 < lay then none
  else
    match Fmt.ofCode fc with
    | none => none
    | some f =>
      let colsOk := decide (1 ≤ cols) && decide (cols ≤ 2 ^ 24)
      let planesOk := decide ((if lay = 2 then 2 else 1) ≤ planes) && decide (pitch = 0)
      let scaleGood := !f.isLin || scaleOk scale
      if f.isWire || (decide (f = .tal) && decide (lay ≠ 0)) || !(colsOk && planesOk && scaleGood) then none
      else some ⟨h, some f, if lay = 0 then .blocked else .ring, planes, rows, cols, base, 0,
                 if f.isLin then scale else 0, .empty, none⟩

/-- The partner area overlaps a byte range (R312). -/
def State.hitsPartner (s : State) (a n : Nat) : Bool := overlaps a n (s.setting 0x6010) (s.setting 0x6011)

/-- A spill region overlaps a byte range. -/
def State.hitsSpill (s : State) (a n : Nat) : Bool :=
  s.actStacks.any (fun k => k.configured && overlaps a n k.spillBase k.spillSize)

/-- R189, R463: a footprint the device refuses with MEMORY_RANGE. -/
def State.badRange (s : State) (t : Tensor) : Bool :=
  !inOneRegion t.base t.footprint || s.hitsPartner t.base t.footprint || s.hitsSpill t.base t.footprint
    || s.touchesFailed t.base t.footprint

/-! ## The table (R190, R191) -/

/-- A handle's descriptor takes its place in the table (R190, R191). -/
def State.defineTensor (s : State) (t : Tensor) : State := { s with tensors := tensorPut s.tensors t }

/-- A live handle leaves the table (R191). -/
def State.releaseTensor (s : State) (t : Tensor) : State :=
  { s with tensors := s.tensors.filter (fun u => u.handle ≠ t.handle) }

end Sys2Proof.Machine
end

