-- ==== Sys2Proof/Machine/Login.lean ====
section
/-!
DEFINITION. Sessions, roles and keys: NOP, GET_STATUS, READ_ATTENTION, the login commands, LOGOUT, KEY_ENROL, and the
expiry of challenges, lockouts and sources (R346, R353, R376 to R379, R399, R402 to R408).
-/
namespace Sys2Proof.Machine

/-! ## The open Ledger as roles end (R412) -/

/-- The causes of a rollback record (Table 13.7). -/
inductive RollCause where
  | request | idle | roleEnded | reset | check | quiet
  deriving DecidableEq, Repr

/-- The code of a cause. -/
def RollCause.code : RollCause → Nat
  | .request => 0 | .idle => 1 | .roleEnded => 2 | .reset => 3 | .check => 4 | .quiet => 5

/-- The rollback record of a Ledger (Table 13.7). `key` is the failing key, 0 where the cause has none. -/
def rollRecord (e : AuditEvent) (ledger : Nat) (c : RollCause) (key : Nat) : AuditEvent :=
  { e with kind := 0x02, ledger := ledger, detail := leBytes 2 key ++ leBytes 1 c.code }

/-- R412: the open Ledger is rolled back with nothing applied. A Ledger whose commit has been accepted is not touched; one whose record
cannot be written stays open (R419).
(DESIGN CHOICE, log entry 122.) -/
def State.rollback (s : State) (c : RollCause) (e : AuditEvent) : State :=
  match s.ledger with
  | none => s
  | some l =>
    if l.committing then s
    else if s.trust.flashFault then s.raiseFault (6 * 4096)
    else ({ s with ledger := none }).audit (rollRecord e l.id c 0)

/-- R407: a source's role ends; an open Ledger it owns is rolled back (R412), and its 10 s without a login begin (R346). -/
def State.endRole (s : State) (n : Nat) : State :=
  match s.source n with
  | none => s
  | some x =>
    let s1 :=
      match s.ledger with
      | some l => if l.owner = n then s.rollback .roleEnded (s.actor 0x02 n) else s
      | none => s
    s1.setSource { x with role := .none, keyIndex := 0xFF, idleSince := s.now }

/-! ## GET_STATUS and READ_ATTENTION -/

/-- The input power averaged over the last stint, watts (POWER_W). -/
def State.powerW (s : State) : Nat := s.power.stintWatts

/-- The highest die temperature now. -/
def State.dieTemp (s : State) : Int := s.health.coreTemps.foldl max (-128)

/-- The groups in S0, as a mask. -/
def State.awakeMask (s : State) : Nat :=
  (List.range 16).foldl (fun a g => if (s.groupPower g).state = .s0 then a + 2 ^ g else a) 0

/-- The GET_STATUS block (Table 12.4). -/
def statusBlock (s : State) : List Byte :=
  leBytes 8 s.now ++ leBytes 2 (1024 - s.cmds.length) ++ leBytes 2 s.sources.length ++ leBytes 2 s.powerW
    ++ leBytes 2 (s.setting 0x1000) ++ leBytes 1 (twos 8 s.dieTemp) ++ leBytes 1 0 ++ leBytes 2 s.awakeMask
    ++ leBytes 4 s.crewVersion ++ leBytes 8 s.localStep
    ++ leBytes 4 (match s.ledger with | some l => l.id | none => 0) ++ leBytes 4 0

/-- GET_STATUS (R376).
(DEDUCED, log entry 53.) -/
def getStatus (_q : Req) (s : State) : Verdict := okReply (statusBlock s) s

/-- A first event as its 32-bit field with the valid bit. -/
def firstField (x : Option Nat) : Nat :=
  match x with
  | some v => v + 2 ^ 31
  | none => 0

/-- The attention record (Table 11.6). SERVICE bit 1 is set for as long as the device is degraded (R466), bit 0
while firmware is staged and not active (R423), bit 2 in a recovery boot. -/
def attentionBlock (s : State) : List Byte :=
  let a := s.attention
  let service := a.service.toNat ||| (if s.degraded then 2 else 0)
    ||| (if s.trust.firmware.staged then 1 else 0) ||| (if s.power.recovery then 4 else 0)
  leBytes 1 a.attn.toNat ++ leBytes 1 s.stateCode ++ leBytes 2 0 ++ leBytes 4 (min (a.recordNo + 1) (2 ^ 32 - 1))
    ++ leBytes 8 (match a.firstPoison with | some x => x + 2 ^ 63 | none => 0)
    ++ leBytes 4 (firstField a.firstFault) ++ leBytes 4 (firstField a.firstLostPeer)
    ++ leBytes 8 a.linksChanged.toNat ++ leBytes 4 a.overruns ++ leBytes 4 a.seqGaps ++ leBytes 2 a.throttles
    ++ leBytes 1 (twos 8 a.tempMax) ++ leBytes 1 0 ++ leBytes 4 a.loginFails ++ leBytes 4 a.spareEvents
    ++ leBytes 4 service ++ leBytes 8 0

/-- READ_ATTENTION (R353): the record is copied, and it and the ATTN bits are cleared, in one step.
(DEDUCED, log entry 10.) -/
def readAttention (_q : Req) (s : State) : Verdict :=
  okReply (attentionBlock s)
    { s with attention := .clear (s.attention.recordNo + 1) (s.health.coreTemps.foldl max (-128)), power := { s.power with throttled := false } }

/-! ## Keys (R403 to R405) -/

/-- The key indexes of a role (Table 13.1). -/
def keyLimit : Role → Nat
  | .operator => 32 | .installer => 8 | .maker => 4 | .none => 0

/-- The public key enrolled at an index. -/
def State.key (s : State) (r : Role) (i : Nat) : Option KeySlot :=
  s.trust.keys.find? (fun k => k.role = r && k.index = i)

/-- R405: the claim window is open. -/
def State.claimOpen (s : State) : Bool :=
  decide (s.setting 0x7002 = 1) && !(s.trust.keys.any (fun k => decide (k.role = .installer)))

/-- The 64 bytes of a fused digest (R403). -/
def fusedDigest (i : Nat) : List Byte := (List.range 64).map (Config.fusedDigest i)

/-- Bytes of an ML-DSA-87 public key. -/
def keyBytes : Nat := 2592
/-- Bytes of an ML-DSA-87 signature. -/
def sigBytes : Nat := 4627

/-- The detail of a key record (Table 13.7): the first 15 bytes of the key's digest, and whether it was claimed. -/
def keyDetail (pub : List Byte) (claimed : Bool) : List Byte :=
  (sha3_512 pub).take 15 ++ leBytes 1 (if claimed then 1 else 0)

/-- A key put into its slot. -/
def State.enrol (s : State) (r : Role) (i : Nat) (pub : List Byte) : State :=
  { s with trust := { s.trust with keys := s.trust.keys ++ [⟨r, i, pub⟩] } }

/-! ## LOGIN_CHALLENGE (R377, R406) -/

/-- The key index of a challenge can be answered (R406): an operator or installer key is enrolled there, a maker index is
fused, or the claim window is open for an empty installer index. -/
def State.challengeable (s : State) (r : Role) (i : Nat) : Bool :=
  decide (i < keyLimit r) &&
  (decide (r = .maker) || (s.key r i).isSome || (decide (r = .installer) && s.claimOpen))

/-- LOGIN_CHALLENGE. -/
def loginChallenge (q : Req) (s : State) : Verdict :=
  if q.params.length ≠ 4 then refuse .badParam s
  else
    match Role.ofCode (fld q.params 0 1), s.source q.source with
    | some r, some x =>
      let i := fld q.params 1 1
      if !s.challengeable r i then refuse .badParam s
      else
        let nonce := (List.range 32).map (Config.nonceByte s.trust.nextNonce)
        let c : Challenge := ⟨s.trust.nextChallenge % 2 ^ 32, nonce, r, i, s.now + 10000000⟩
        let s1 := s.setSource { x with challenge := some c }
        okReply (nonce ++ leBytes 4 c.id ++ leBytes 4 10000)
          { s1 with trust := { s1.trust with nextChallenge := s.trust.nextChallenge + 1, nextNonce := s.trust.nextNonce + 1 } }
    | _, _ => refuse .badParam s

/-! ## LOGIN_RESPONSE (R378, R406 to R408) -/

/-- The failures of a key; where its lockout has passed they restart at 0 (R408). -/
def State.failsOf (s : State) (r : Role) (i : Nat) : KeyFails :=
  match s.trust.fails.find? (fun f => f.role = r && f.index = i) with
  | some f => if f.lockedUntil.any (fun t => decide (t ≤ s.now)) then ⟨r, i, 0, none⟩ else f
  | none => ⟨r, i, 0, none⟩

/-- The failures of a key replaced. -/
def State.setFails (s : State) (f : KeyFails) : State :=
  { s with trust := { s.trust with
      fails := s.trust.fails.filter (fun g => !(g.role = f.role && g.index = f.index)) ++ [f] } }

/-- A key is locked now (R408). -/
def State.keyLocked (s : State) (r : Role) (i : Nat) : Bool :=
  match (s.failsOf r i).lockedUntil with
  | some t => decide (s.now < t)
  | none => false

/-- The context string of a login signature: "SV9613-LOGIN". -/
def loginContext : List Byte :=
  [0x53, 0x56, 0x39, 0x36, 0x31, 0x33, 0x2D, 0x4C, 0x4F, 0x47, 0x49, 0x4E].map (BitVec.ofNat 8)

/-- The signed login message (Table 13.2). -/
def loginMessage (c : Challenge) (source : Nat) : List Byte :=
  c.nonce ++ leBytes 4 c.id ++ leBytes 1 c.role.code ++ leBytes 1 c.index ++ serialBytes ++ leBytes 2 source

/-- A failed response (R408): LOGIN_FAILS, the SECURITY/AUDIT bit and its audit record. -/
def State.loginFailed (s : State) (source : Nat) (c : Challenge) (locked : Bool) : State :=
  let s1 := { s with attention :=
    { s.attention with attn := s.attention.attn ||| attnSecurity, loginFails := satAdd 32 s.attention.loginFails 1 } }
  s1.audit { s1.actor 0x04 source with subject := c.role.code * 256 + c.index, detail := leBytes 1 (if locked then 1 else 0) }

/-- R408: a SIG_INVALID counted; at LOGIN_FAIL_LIMIT the key is locked for LOCKOUT_S and its record written. -/
def State.countFail (s : State) (source : Nat) (c : Challenge) : State :=
  let n := (s.failsOf c.role c.index).count + 1
  if s.setting 0x7000 ≤ n ∧ !s.trust.flashFault then
    let s1 := s.setFails ⟨c.role, c.index, n, some (s.now + s.setting 0x7001 * 1000000)⟩
    s1.audit { s1.actor 0x05 source with
                 subject := c.role.code * 256 + c.index, detail := leBytes 2 (s.setting 0x7001) }
  else s.setFails ⟨c.role, c.index, n, none⟩

/-- A source's challenge closed. -/
def State.closeChallenge (s : State) (n : Nat) : State :=
  match s.source n with
  | some x => s.setSource { x with challenge := none }
  | none => s

/-- R407: a source takes a role; it replaces the role that the source had, and no role ends by it. -/
def State.takeRole (s : State) (n : Nat) (r : Role) (i : Nat) : State :=
  match s.source n with
  | some x => s.setSource { x with role := r, keyIndex := i, leaving := false }
  | none => s

/-- A successful login. -/
def State.loginOk (s : State) (source : Nat) (c : Challenge) (claimed : Option (List Byte)) : State :=
  let s1 := (s.setFails ⟨c.role, c.index, 0, none⟩).takeRole source c.role c.index
  let s2 :=
    match claimed with
    | some pub => (s1.enrol c.role c.index pub).audit
        { s1.actor 0x06 source with subject := c.role.code * 256 + c.index, detail := keyDetail pub true }
    | none => s1
  match claimed with
  | some _ => s2
  | none => s2.audit { s2.actor 0x03 source with subject := c.role.code * 256 + c.index }

/-- LOGIN_RESPONSE. -/
def loginResponse (q : Req) (s : State) : Verdict :=
  let claim := (fld q.params 6 1).testBit 0
  let long := claim || decide (fld q.params 4 1 = 3)
  if q.params.length ≠ 8 + sigBytes + (if long then keyBytes else 0) then refuse .badParam s
  else
    match s.source q.source with
    | none => refuse .badParam s
    | some x =>
      match x.challenge with
      | none => refuse .badParam s
      | some c =>
        if c.id ≠ fld q.params 0 4 ∨ c.role.code ≠ fld q.params 4 1 ∨ c.index ≠ fld q.params 5 1 then refuse .badParam s
        else if claim && !(decide (c.role = .installer) && s.claimOpen) then refuse .noRight s
        else if s.keyLocked c.role c.index then
          refuse .locked ((s.closeChallenge q.source).loginFailed q.source c true)
        else
          let sig := (q.params.drop 8).take sigBytes
          let carried := (q.params.drop (8 + sigBytes)).take keyBytes
          let pub : List Byte :=
            if long then carried else match s.key c.role c.index with | some k => k.pub | none => []
          let fusedOk := decide (c.role ≠ .maker) || decide (sha3_512 carried = fusedDigest c.index)
          let known := long || (s.key c.role c.index).isSome
          let s1 := s.closeChallenge q.source
          if known && fusedOk && Config.verify pub loginContext (loginMessage c q.source) sig then
            if s.trust.flashFault then refuse .fault (s1.raiseFault (6 * 4096))
            else
            okReply [] (s1.loginOk q.source c (if claim then some carried else none))
          else refuse .sigInvalid ((s1.loginFailed q.source c false).countFail q.source c)

/-! ## NOP, LOGOUT, KEY_ENROL -/

/-- NOP (R379). -/
def nop (_q : Req) (s : State) : Verdict := okReply [] s

/-- LOGOUT (R379, R346): the role ends; the source stays bound while it holds a command. -/
def logout (q : Req) (s : State) : Verdict :=
  let s1 := s.endRole q.source
  match s1.source q.source with
  | some x => .done .ok [] (s1.setSource { x with leaving := true }) .logout
  | none => .done .ok [] s1 .logout

/-- KEY_ENROL (R399, R404): ENROL where `revoke` is false. -/
def keyEnrol (q : Req) (s : State) : Verdict :=
  let action := fld q.params 0 1
  let i := fld q.params 2 1
  if q.params.length < 8 ∨ 1 < action then refuse .badParam s
  else
    match Role.ofCode (fld q.params 1 1) with
    | none => refuse .badParam s
    | some .maker => refuse .badParam s
    | some r =>
      let allowed := (decide (q.role = .installer) && decide (r = .operator))
        || (decide (q.role = .maker) && decide (r = .installer))
      if !allowed then refuse .noRight s
      else if keyLimit r ≤ i then refuse .badParam s
      else
        match s.key r i with
        | none =>
          if action = 0 ∧ q.params.length = 8 + keyBytes then
            if s.trust.flashFault then refuse .fault (s.raiseFault (6 * 4096))
            else
            let pub := q.params.drop 8
            okReply [] ((s.enrol r i pub).audit
              { s.actor 0x06 q.source with subject := r.code * 256 + i, detail := keyDetail pub false })
          else refuse .badParam s
        | some k =>
          if action = 1 then
            if s.trust.flashFault then refuse .fault (s.raiseFault (6 * 4096))
            else
            let s1 := { s with trust := { s.trust with
                          keys := s.trust.keys.filter (fun x => !(x.role = r && x.index = i)) } }
            .done .ok [] (s1.audit { s1.actor 0x07 q.source with
                                      subject := r.code * 256 + i, detail := keyDetail k.pub false }) (.revoke r i)
          else refuse .badParam s

/-- R399: every login made with a key ends. -/
def State.endLogins (s : State) (r : Role) (i : Nat) : State :=
  (s.sources.filter (fun x => x.role = r && x.keyIndex = i)).foldl (fun t x => t.endRole x.num) s

/-! ## Expiry -/

/-- The local timer has reached a moment (the event says so).
(DESIGN CHOICE, log entry 2.) -/
def State.reach (s : State) (t : Nat) : State := { s with now := max s.now t }

/-- SOURCE_EXPIRY (R346): a source with no login and no command for 10 s stops being live. -/
def execSourceExpiry (source : Nat) (s : State) : Host.Outcome State Fault Refusal :=
  match s.source source with
  | some x =>
    if x.role = .none ∧ s.slotsHeld source = 0 then .next ((s.reach (x.idleSince + 10000000)).unbind source) else .next s
  | none => .next s

/-- CHALLENGE_EXPIRY (R377): an open challenge closes when VALID_MS has passed. -/
def execChallengeExpiry (source : Nat) (s : State) : Host.Outcome State Fault Refusal :=
  match s.source source with
  | some x =>
    match x.challenge with
    | some c => .next ((s.reach c.closes).closeChallenge source)
    | none => .next s
  | none => .next s

/-- LOCKOUT_EXPIRY (R408): a locked key is unlocked and its count restarts at 0. `role` is a ROLE code. -/
def execLockoutExpiry (role index : Nat) (s : State) : Host.Outcome State Fault Refusal :=
  match Role.ofCode role with
  | some r =>
    match (s.failsOf r index).lockedUntil with
    | some t => .next ((s.reach t).setFails ⟨r, index, 0, none⟩)
    | none => .next s
  | none => .next s

end Sys2Proof.Machine
end

