-- ==== Sys2Proof/Machine/Link.lean ====
section
/-!
DEFINITION. The Coanasa links: states, lanes, flow control and retry (R271 to R281), sending (R283), and routing
(R284 to R290).
-/
namespace Sys2Proof.Machine

/-- A link. -/
def State.link (s : State) (i : Nat) : Link := s.net9.links.getD i Link.reset

/-- A link replaced. -/
def State.setLink (s : State) (i : Nat) (l : Link) : State :=
  { s with net9 := { s.net9 with links := s.net9.links.set i l } }

/-- The device address (R284); none while DEVADDR is unset. -/
def State.devAddr (s : State) : Option Nat :=
  let v := s.setting 0x4000
  if v.testBit 31 then some (v % 2 ^ 20) else none

/-- LINK_ENABLE has the link's bit. -/
def State.linkEnabled (s : State) (i : Nat) : Bool := (s.setting 0x4001).testBit i

/-- A link changed state or width: the LINK/PEER bit and LINKS_CHANGED (Table 11.6). -/
def State.linkChanged (s : State) (i : Nat) : State :=
  { s with attention :=
      { s.attention with attn := s.attention.attn ||| attnLink,
                         linksChanged := s.attention.linksChanged ||| BitVec.ofNat 64 (2 ^ i) } }

/-! ## Routing (R285 to R288) -/

/-- The route entry for a destination (R285). -/
def State.routeEntry (s : State) (dest : Nat) : Nat :=
  if dest / 256 = s.devAddr.getD 0 / 256 then assocGet 0 s.net9.intra (dest % 256) else assocGet 0 s.net9.inter (dest / 256)

/-- The links a destination allows that are UP (R286): where its entry is 0, those whose peer it is. -/
def State.upLinks (s : State) (dest : Nat) : List Nat :=
  let e := s.routeEntry dest
  (List.range 64).filter (fun i =>
    decide ((s.link i).state = .up) && (if e = 0 then decide ((s.link i).peerAddr = some dest) else e.testBit i))

/-- The index of a class and channel's credits. -/
def creditIx (tc vc : Nat) : Nat := 2 * (tc - 1) + vc

/-- The link with the fewest flits queued, the lowest number winning a tie.
(DESIGN CHOICE, log entry 21.) -/
def State.shortest (s : State) : List Nat → Option Nat
  | [] => none
  | i :: is =>
    match s.shortest is with
    | none => some i
    | some j => if (s.link i).queue.length ≤ (s.link j).queue.length then some i else some j

/-- R286: a DATA flit goes to the queue of a link, waits for a credit, or is dropped.
(DESIGN CHOICE, log entry 21.) -/
def State.route (s : State) (f : Flit) : State :=
  let up := s.upLinks f.dest
  if up.isEmpty then s.count 0x0509 1
  else
    match s.shortest (up.filter (fun i => decide (0 < (s.link i).credits.getD (creditIx f.tc f.vc) 0))) with
    | none => { s with net9 := { s.net9 with waiting := s.net9.waiting ++ [f] } }
    | some i => let l := s.link i; s.setLink i { l with queue := l.queue ++ [f] }

/-- The flits that waited for a credit, routed again.
(DESIGN CHOICE, log entry 21.) -/
def State.routeWaiting (s : State) : State :=
  s.net9.waiting.foldl State.route { s with net9 := { s.net9 with waiting := [] } }

/-- R288: a flit this device forwards crosses one link more, on channel 1 once it is in its destination's domain (R287). -/
def State.forward (s : State) (f : Flit) : State :=
  if 15 ≤ f.hops then s.count 0x0508 1
  else
    let vc := if f.dest / 256 = s.devAddr.getD 0 / 256 then 1 else f.vc
    s.route { f with hops := f.hops + 1, vc := vc }

/-- A payload filled to 236 bytes. -/
def payload236 (bs : List Byte) : List Byte := padTo 236 bs

/-- A DATA flit sent by this device under an address of its own: to itself, or over a link with HOPS 1 on channel 0 (R285, R287,
R288).
(DESIGN CHOICE, log entry 18; DESIGN CHOICE, log entry 21.) -/
def State.sendFlitFrom (s : State) (src : Option Nat) (dest tc crew cid : Nat) (bs : List Byte) (poison : List Nat) : State :=
  let f : Flit := ⟨dest, 1, src.getD 0, tc, 0, crew % 2 ^ 16, cid, payload236 bs, poison⟩
  if src = some dest then { s with net9 := { s.net9 with loopback := s.net9.loopback ++ [f] } } else s.route f

/-- A DATA flit sent by this device under its present address. -/
def State.sendFlit (s : State) (dest tc crew cid : Nat) (bs : List Byte) (poison : List Nat) : State :=
  s.sendFlitFrom s.devAddr dest tc crew cid bs poison

/-! ## What goes onto a link -/

/-- A flit put on the wire of a link; an IDLE goes before it where it would be the 2,048th without one (R271).
(DESIGN CHOICE, log entry 17.) -/
def State.emit (s : State) (i : Nat) (x : LinkFlit) : State :=
  let l := s.link i
  let due := decide (l.state = .up ∨ l.state = .training) && decide (2047 ≤ l.sinceIdle) && decide (x ≠ .idle)
  let s1 := s.setLink i { l with lastTx := s.now, sinceIdle := if x = .idle then 0 else if due then 1 else l.sinceIdle + 1 }
  { s1 with net9 := { s1.net9 with wire := s1.net9.wire ++ (if due then [(i, .idle)] else []) ++ [(i, x)] } }

/-- A flit that needs no credit, waiting for its turn (R283).
(DESIGN CHOICE, log entry 17.) -/
def State.pushCtrl (s : State) (i : Nat) (x : LinkFlit) : State :=
  let l := s.link i
  s.setLink i { l with ctrl := l.ctrl ++ [x] }

/-- This device's STATE in keepalives (R326): 0 ACTIVE, 1 HOUSING, 2 RESETTING. -/
def State.keepState (s : State) : Nat := if s.power.sleep = .entering ∨ s.power.sleep = .housed then 1 else 0

/-- The KEEPALIVE of a link (R276). -/
def State.keepaliveOf (s : State) (i : Nat) : LinkFlit := .keepalive s.devAddr i s.crewVersion s.keepState

/-- A routed PEER_KEEPALIVE (R326): it needs no credit, and goes over the first allowed link that is UP. -/
def State.sendPeerKeepalive (s : State) (dest state : Nat) : State :=
  let a := s.devAddr.getD 0
  let f : Flit := ⟨dest, 1, a, 0, 0, 0, 0,
    payload236 (leBytes 4 a ++ leBytes 1 state ++ leBytes 3 0 ++ leBytes 4 s.crewVersion), []⟩
  match s.shortest (s.upLinks dest) with
  | some i => s.pushCtrl i (.peerKeepalive f)
  | none => s.count 0x0509 1

/-- R281: a PEER_KEEPALIVE for another device goes one hop on. Where flits wait on its link, the room for it may be wanting.
(DESIGN CHOICE, log entry 118.) -/
def State.passPeerKeepalive (s : State) (f : Flit) : State :=
  if 15 ≤ f.hops then s.count 0x0508 1
  else
    match s.shortest (s.upLinks f.dest) with
    | none => s.count 0x0509 1
    | some i =>
      let w := s.freeNat
      if !(s.link i).ctrl.isEmpty && decide (w.1 % 2 = 1) then w.2.count 0x0507 1
      else
        let vc := if f.dest / 256 = s.devAddr.getD 0 / 256 then 1 else f.vc
        w.2.pushCtrl i (.peerKeepalive { f with hops := f.hops + 1, vc := vc })

/-! ## State changes of a link -/

/-- R279: the flits a link held go back to the forwarding queue. -/
def State.giveBack (s : State) (i : Nat) : State :=
  let l := s.link i
  let s1 := s.setLink i { l with replay := [], queue := [], resend := 0, ctrl := [], txSeq := 0, rxSeq := 0,
                                 nakSent := false, naks := 0, unacked := 0, credits := List.replicate 14 0,
                                 owed := List.replicate 14 0 }
  (l.replay.map Prod.snd ++ l.queue).foldl State.route s1

/-- A link enters a state; one that leaves UP gives its flits back. -/
def State.linkTo (s : State) (i : Nat) (x : LState) : State :=
  let l := s.link i
  if l.state = x then s
  else
    let s1 := (s.setLink i { l with state := x, downAt := s.now }).linkChanged i
    if l.state = .up then s1.giveBack i else s1

/-- A link trains again from the keepalives on (step 4 of Table 9.3), or from the start, forgetting its peer. -/
def State.retrain (s : State) (i : Nat) : State :=
  let s1 := s.linkTo i .training
  s1.setLink i { s1.link i with peerAddr := none, peerLink := none }

/-- The links are stopped: before the reset ends, after a thermal trip, and in S3 (R435, R445, R447). -/
def State.linksOff (s : State) : Bool :=
  s.power.failed || decide (s.power.sleep = .housed) || !decide (s.power.phase = .boot ∨ s.power.phase = .ready)

/-- The lanes are clocked: the links are not stopped, and REFCLK is there (R474, R475). -/
def State.lanesRun (s : State) : Bool := !s.linksOff && s.power.refclk

/-- R284: at a change of DEVADDR every link that is not DISABLED or DOWN retrains. -/
def State.retrainAll (s : State) : State :=
  (List.range 64).foldl (fun t i =>
    match (t.link i).state with
    | .disabled => t
    | .down => t
    | _ => t.retrain i) s

/-- A committed LINK_ENABLE acts (R273): a link that is enabled trains, or waits for the wake where every link stops (R445). -/
def State.applyEnable (s : State) : State :=
  (List.range 64).foldl (fun t i =>
    match (t.link i).state, t.linkEnabled i with
    | .disabled, true => if t.linksOff then t.linkTo i .down else t.retrain i
    | .disabled, false => t
    | _, true => t
    | _, false => t.linkTo i .disabled) s

/-- Healthy lanes. -/
def Link.healthy (l : Link) : List Nat := (List.range 5).filter (fun k => !l.failed.contains k)

/-- R274, R275: an active lane fails: the spare takes its place, or the link narrows to half width, or goes DOWN. -/
def State.laneFail (s : State) (i lane : Nat) : State :=
  let l := s.link i
  if !l.active.contains lane then s.setLink i { l with failed := l.failed ++ (if l.failed.contains lane then [] else [lane]) }
  else
    let l1 := { l with failed := l.failed ++ [lane] }
    let healthy := l1.healthy
    if healthy.length = 4 then
      let s1 := s.setLink i { l1 with active := healthy, spareUsed := true, resend := l1.replay.length }
      ((s1.linkChanged i).spareEvent).count 0x0506 1
    else if 2 ≤ healthy.length then
      let s1 := s.setLink i { l1 with active := healthy.take 2, half := true, resend := l1.replay.length }
      (s1.linkChanged i).count 0x0506 1
    else (s.setLink i { l1 with active := [] }).linkTo i .down

/-! ## The rows of a link -/

/-- A flit was accepted on a link. -/
def State.linkHeard (s : State) (i : Nat) : State := s.setLink i { s.link i with lastRx := s.now }

/-- LINK_TRAINING_DONE (R273): a trained link comes UP with all credits of its peer (R280), or in CONFLICT. `ok` says
whether steps 2 and 3 of Table 9.3 succeeded. It is DOWN where they did not, with fewer than two healthy lanes (Table 9.2), and where
no KEEPALIVE of the peer has come (step 4); the peer's address is what its KEEPALIVEs said. Without REFCLK no training ends (R475). -/
def execLinkTrainingDone (link : Nat) (ok : Bool) (s : State) : Host.Outcome State Fault Refusal :=
  let l := s.link link
  if l.state ≠ .training ∨ 64 ≤ link ∨ !s.lanesRun then .next s
  else if !ok ∨ l.healthy.length < 2 ∨ l.peerLink = none then .next (s.linkTo link .down)
  else if s.devAddr = none ∨ l.peerAddr = none ∨ l.peerAddr = s.devAddr then
    .next ((s.linkTo link .conflict).linkHeard link)
  else
    let s1 := (s.linkTo link .up).linkHeard link
    .next ((s1.setLink link { s1.link link with credits := List.replicate 14 32 }).routeWaiting)

/-- LINK_RETRY_TIMER (R273): an enabled link in DOWN retries; not while REFCLK is lost (R475). -/
def execLinkRetryTimer (link : Nat) (s : State) : Host.Outcome State Fault Refusal :=
  if (s.link link).state = .down ∧ s.linkEnabled link ∧ s.power.refclk ∧ link < 64 ∧ !s.linksOff then
    .next (({ s with now := max s.now ((s.link link).downAt + 1000000) }).retrain link)
  else .next s

/-- BAD_FLIT (R277): a flit dropped for an uncorrectable codeword (`codeword`), its FCRC or a reserved kind; a dropped DATA
flit (`data`) is answered by one NAK (R278).
(DESIGN CHOICE, log entry 19.) -/
def execBadFlit (link : Nat) (codeword data : Bool) (s : State) : Host.Outcome State Fault Refusal :=
  let l := s.link link
  let s1 := (s.setLink link { l with fecUncorr := (l.fecUncorr + (if codeword then 1 else 0)) % 2 ^ 32 }).count 0x0507 1
  let s2 := s1.count 0x0503 (if codeword then 1 else 0)
  if data ∧ l.state = .up ∧ !l.nakSent ∧ link < 64 then
    .next ((s2.setLink link { s2.link link with nakSent := true }).pushCtrl link (.nak l.rxSeq))
  else .next s2

/-- Replay buffer entries up to the LSEQ named are freed (R278); the number freed. -/
def Link.freeTo (l : Link) (lseq : Nat) : Nat × Link :=
  match l.replay with
  | [] => (0, l)
  | x :: _ =>
    let p := (lseq + 4096 - x.1 % 4096) % 4096
    if p ≤ l.replay.length then
      let rest := l.replay.drop p
      (p, { l with replay := rest, resend := min l.resend rest.length })
    else (0, l)

/-- ACK_FLIT (R278). -/
def execAckFlit (link lseq : Nat) (s : State) : Host.Outcome State Fault Refusal :=
  let r := (s.link link).freeTo lseq
  let s1 := s.setLink link { r.2 with naks := if 0 < r.1 then 0 else r.2.naks }
  .next (s1.linkHeard link)

/-- NAK_FLIT (R278, R279): the sender replays from the LSEQ named; RETRY_LIMIT NAKs without progress retrain the link.
(DEDUCED, log entry 20.) -/
def execNakFlit (link lseq : Nat) (s : State) : Host.Outcome State Fault Refusal :=
  let r := (s.link link).freeTo lseq
  let l := r.2
  let naks := if 0 < r.1 then 1 else l.naks + 1
  let s1 := ((s.setLink link { l with naks := naks, resend := l.replay.length, replays := (l.replays + 1) % 2 ^ 32 }).count
    0x0504 1).linkHeard link
  if s.setting 0x4003 ≤ naks ∧ l.state = .up then .next ((s1.retrain link).count 0x0505 1) else .next s1

/-- CREDIT_FLIT (R280): credits return, for (TC, VC) = (i div 2, i mod 2). -/
def execCreditFlit (link : Nat) (payload : List Byte) (s : State) : Host.Outcome State Fault Refusal :=
  let l := s.link link
  let cr := (List.range 14).map (fun i => min 32 (l.credits.getD i 0 + fld payload (i + 2) 1))
  .next (((s.setLink link { l with credits := cr }).linkHeard link).routeWaiting)

/-- KEEPALIVE_FLIT (R276, Table 9.2): what the peer says of itself. A peer that reports this device's address, or none, puts
an UP link in CONFLICT; a link in CONFLICT whose peer has another address retrains.
(DESIGN CHOICE, log entry 17.) -/
def execKeepaliveFlit (link : Nat) (addr : Option Nat) (peerLink crew _state : Nat) (s : State) :
    Host.Outcome State Fault Refusal :=
  let l := s.link link
  if l.state = .disabled ∨ l.state = .down then .next s
  else
    let s1 := (s.setLink link { l with peerAddr := addr, peerLink := some peerLink, peerCrew := crew }).linkHeard link
    let bad := decide (s.devAddr = none) || decide (addr = none) || decide (addr = s.devAddr)
    if bad && decide (l.state = .up) then .next (s1.linkTo link .conflict)
    else if !bad && decide (l.state = .conflict) then .next (s1.linkTo link .training)
    else .next s1

/-- IDLE_FLIT (R272): discarded. -/
def execIdleFlit (link : Nat) (s : State) : Host.Outcome State Fault Refusal := .next (s.linkHeard link)

/-- LANE_CTRL (R274): the peer moves a lane off the link.
(DESIGN CHOICE, log entry 17.) -/
def execLaneCtrl (link lane : Nat) (s : State) : Host.Outcome State Fault Refusal :=
  if (s.link link).state = .up then .next ((s.laneFail link lane).linkHeard link) else .next s

/-- LANE_LOSS_OF_LOCK (R274, R275): the lane is given up, and the peer told. -/
def execLaneLossOfLock (link lane : Nat) (s : State) : Host.Outcome State Fault Refusal :=
  if (s.link link).state = .up ∧ (s.link link).active.contains lane then
    .next ((s.pushCtrl link (.laneCtrl lane)).laneFail link lane)
  else .next s

/-- SER_WINDOW (R274): the symbol errors of each lane in the window, of `total` symbols a lane; lanes over
2^−SPARE_SER_LOG2 are given up. How many codewords the errors lay in is free: at most one for each (0x0502, R310).
(DESIGN CHOICE, log entry 19; DESIGN CHOICE, log entry 22.) -/
def execSerWindow (link : Nat) (errors : List Nat) (total : Nat) (s : State) : Host.Outcome State Fault Refusal :=
  let l := s.link link
  let all := errors.foldl (· + ·) 0
  let w := s.freeNat
  let s1 := (w.2.setLink link { l with symErr := all % 2 ^ 32 }).count 0x0502 (w.1 % (all + 1))
  let noisy := l.active.filter (fun k => decide (total < errors.getD k 0 * 2 ^ s.setting 0x4004))
  .next (noisy.foldl (fun t k =>
    if (t.link link).state = .up then (t.pushCtrl link (.laneCtrl k)).laneFail link k else t) s1)

/-- ACK_TIMER (R278): accepted DATA flits not yet acknowledged are acknowledged. -/
def execAckTimer (link : Nat) (s : State) : Host.Outcome State Fault Refusal :=
  let l := s.link link
  if l.state = .up ∧ 0 < l.unacked ∧ s.lanesRun then .next ((s.setLink link { l with unacked := 0 }).emit link (.ack l.rxSeq)) else .next s

/-- KEEPALIVE_SEND (R281). -/
def execKeepaliveSend (link : Nat) (s : State) : Host.Outcome State Fault Refusal :=
  let l := s.link link
  let s1 := { s with now := max s.now (l.lastTx + s.setting 0x4002) }
  if s.lanesRun ∧ (l.state = .training ∨ l.state = .up ∨ l.state = .conflict) then
    .next (s1.emit link (s1.keepaliveOf link))
  else .next s

/-- LINK_SILENCE_TIMEOUT (R281): no acceptable flit for 16 × KEEPALIVE_US. -/
def execLinkSilenceTimeout (link : Nat) (s : State) : Host.Outcome State Fault Refusal :=
  let l := s.link link
  if l.state = .up ∨ l.state = .conflict then
    .next (({ s with now := max s.now (l.lastRx + 16 * s.setting 0x4002) }).linkTo link .down)
  else .next s

/-- The activity class that pays for a traffic class on the link groups (Table 9.6). -/
def payerOf (tc : Nat) : Activity := if tc = 1 then .maint else if tc ≤ 5 then .collective else .secure

/-- The link group of a link in the direction it sends (Table 6.8); the other direction is one higher.
(DESIGN CHOICE, log entry 113.) -/
def linkGroup (i : Nat) : Nat := i / 8 * 2

/-- The classes that have a DATA flit with a credit on a link, in the order they are served after `last` (R280, R283). -/
def Link.readyClasses (l : Link) (last : Nat) : List Nat :=
  ((List.range 7).map (fun k => (last + k) % 7 + 1)).filter (fun tc =>
    l.queue.any (fun f => decide (f.tc = tc) && decide (0 < l.credits.getD (creditIx f.tc f.vc) 0)))

/-- A traffic class is not at its ceiling on the group of a link (R208, R283). -/
def State.classMay (s : State) (i tc : Nat) : Bool := s.belowCeiling (payerOf tc) 1 (linkGroup i)

/-- Classes that wait at their ceilings on a link (R208). -/
def State.classesWait (s : State) (i : Nat) (tcs : List Nat) : State :=
  (tcs.filter (fun tc => !s.classMay i tc)).foldl (fun a tc => a.atCeiling (payerOf tc) 1 (linkGroup i)) s

/-- A flit of a class that holds a credit, and the queue without it. -/
def takeClass (l : Link) (tc : Nat) : List Flit → Option (Flit × List Flit)
  | [] => none
  | f :: fs =>
    if f.tc = tc ∧ 0 < l.credits.getD (creditIx f.tc f.vc) 0 then some (f, fs)
    else (takeClass l tc fs).map (fun r => (r.1, f :: r.2))

/-- A DATA flit is sent or received: it wakes the link engines and the die fabric, and the 10 ms of R446 start anew. -/
def State.dataPassed (s : State) : State :=
  { s with power := { s.power with linksS2 := false, lastData := s.now } }

/-- A DATA flit goes out on a link for the first time, granted by the budget of the link's group (R283). -/
def State.sendNew (s : State) (i : Nat) : State :=
  let l := s.link i
  if 1024 ≤ l.replay.length then s
  else
    let ready := l.readyClasses l.lastClass
    let s0 := s.classesWait i ready
    match ready.find? (s.classMay i) with
    | none => s0
    | some tc =>
      match takeClass l tc l.queue with
      | none => s0
      | some (f, rest) =>
        let ix := creditIx f.tc f.vc
        let s1 := (s0.requestOn (payerOf tc) 1 (linkGroup i) 256).setLink i
          { l with queue := rest, replay := l.replay ++ [(l.txSeq, f)], txSeq := (l.txSeq + 1) % 4096, lastClass := tc,
                   credits := l.credits.set ix (l.credits.getD ix 0 - 1) }
        let s2 := s1.dataPassed
        (s2.emit i (.data l.txSeq f)).count 0x0500 1

/-- FLIT_SEND (R283): unsequenced flits first, then replays, then new DATA flits against credits. -/
def execFlitSend (link : Nat) (s : State) : Host.Outcome State Fault Refusal :=
  let l := s.link link
  if 64 ≤ link ∨ !s.lanesRun ∨ (l.state ≠ .up ∧ l.state ≠ .training ∧ l.state ≠ .conflict) then .next s
  else
    match l.ctrl with
    | x :: xs => .next ((s.setLink link { l with ctrl := xs }).emit link x)
    | [] =>
      if l.state = .training then .next (s.emit link .idle)
      else if l.state = .conflict then .next s
      else if l.owed.any (fun n => decide (0 < n)) then
        .next ((s.setLink link { l with owed := l.owed.map (fun n => n - min n 255) }).emit link
          (.credit ([0, 0] ++ l.owed.map (fun n => min n 255))))
      else
        match l.replay.drop (l.replay.length - l.resend) with
        | x :: _ =>
          if 0 < l.resend then
            .next ((((s.setLink link { l with resend := l.resend - 1 }).dataPassed).emit link (.data x.1 x.2)).count 0x0500 1)
          else .next (s.sendNew link)
        | [] => .next (s.sendNew link)

/-! ## LINK_STATUS and ROUTE_LOAD -/

/-- The status record of a link (Table 9.9). -/
def linkRecord (s : State) (i : Nat) : List Byte :=
  let l := s.link i
  let lanes := l.active.foldl (fun a k => a ||| 2 ^ k) 0 + (if l.spareUsed then 32 else 0) + (if l.half then 64 else 0)
  leBytes 1 l.state.code ++ leBytes 1 lanes ++ leBytes 1 (l.peerLink.getD 0xFF) ++ leBytes 1 0
    ++ leBytes 4 (match l.peerAddr with | some a => a + 2 ^ 31 | none => 0) ++ leBytes 4 l.peerCrew
    ++ leBytes 4 l.symErr ++ leBytes 4 l.fecUncorr ++ leBytes 4 l.replays ++ leBytes 4 (s.now - l.lastRx) ++ leBytes 4 0

/-- LINK_STATUS (R292). -/
def linkStatus (q : Req) (s : State) : Verdict :=
  if q.params.length ≠ 8 then refuse .badParam s
  else
    let m := fld q.params 0 8
    okReply (((List.range 64).filter (fun i => decide (m = 0) || m.testBit i)).flatMap (linkRecord s)) s

/-- ROUTE_LOAD (R290). -/
def routeLoad (q : Req) (s : State) : Verdict :=
  let table := fld q.params 0 1
  let first := fld q.params 2 2
  let count := fld q.params 4 2
  let size := if table = 0 then 256 else 4096
  if 1 < table ∨ count = 0 ∨ 4096 < count ∨ size < first + count ∨ q.params.length ≠ 8 + 8 * count then refuse .badParam s
  else
    let put (t : List (Nat × Nat)) : List (Nat × Nat) :=
      (List.range count).foldl (fun a k =>
        let v := fld q.params (8 + 8 * k) 8
        if v = 0 then assocDel a (first + k) else assocPut a (first + k) v) t
    okReply [] { s with net9 :=
      if table = 0 then { s.net9 with intra := put s.net9.intra } else { s.net9 with inter := put s.net9.inter } }

end Sys2Proof.Machine
end

