-- ==== Sys2Proof/Machine/Pair.lean ====
section
/-!
DEFINITION. Feeds, pair messages and watched peers (R311 to R317, R326): what the pair commands, the collectives and the
Ledger share.
-/
namespace Sys2Proof

/-- MSG of a received flit. -/
def Flit.msg (f : Flit) : Nat := Machine.fld f.payload 0 1
/-- TIDX. -/
def Flit.tidx (f : Flit) : Nat := Machine.fld f.payload 1 1
/-- OFFSET. -/
def Flit.offset (f : Flit) : Nat := Machine.fld f.payload 4 8
/-- ARG. -/
def Flit.arg (f : Flit) : Nat := Machine.fld f.payload 12 4
/-- The data bytes, LEN of them. -/
def Flit.data (f : Flit) : List Byte := (f.payload.drop 16).take (min 220 (Machine.fld f.payload 2 2))
/-- The data bytes that are poisoned.
(DESIGN CHOICE, log entry 18.) -/
def Flit.badData (f : Flit) : List Nat :=
  (f.poison.filter (fun i => decide (16 ≤ i))).map (fun i => i - 16)

end Sys2Proof

namespace Sys2Proof.Machine

/-! ## Pair messages (R317) -/

/-- The payload of a pair message (Table 10.3). -/
def pairMsg (msg tidx offset arg : Nat) (data : List Byte) : List Byte :=
  leBytes 1 msg ++ leBytes 1 tidx ++ leBytes 2 data.length ++ leBytes 8 offset ++ leBytes 4 arg ++ data

/-! ## Feeds (R311, R315) -/

/-- This device's FEED_A_ID and FEED_B_ID. -/
def State.feeds (s : State) : Nat × Nat := (s.setting 0x6000, s.setting 0x6001)

/-- R314 step 2: one of two feed IDs equals one of two others. -/
def feedsMeet (x y : Nat × Nat) : Bool :=
  decide (x.1 = y.1) || decide (x.1 = y.2) || decide (x.2 = y.1) || decide (x.2 = y.2)

/-- The feed data of PAIR_REQ and FEED_UPDATE. -/
def State.feedData (s : State) : List Byte :=
  leBytes 4 (s.setting 0x6000) ++ leBytes 4 (s.setting 0x6001) ++ leBytes 2 (s.setting 0x6002)

/-- R315: the same-feed flags re-evaluated; a flag that becomes 1 raises LINK/PEER. -/
def State.refreshFlags (s : State) : State :=
  let p := s.pair
  let h := decide (p.holderState = .bound) && feedsMeet s.feeds p.holderFeeds
  let w := decide (p.wardState = .bound) && feedsMeet s.feeds p.wardFeeds
  let s1 := { s with pair := { p with sameHolder := h, sameWard := w } }
  if (h && !p.sameHolder) || (w && !p.sameWard) then s1.raiseAttn attnLink else s1

/-- R315: a committed change of the feed settings: FEED_UPDATE to the other members, and the flags. -/
def State.feedsChanged (s : State) : State :=
  let s1 :=
    match s.pair.holder with
    | some h => if s.pair.holderState = HolderState.bound then s.sendFlit h 6 0 0 (pairMsg 4 0 0 0 s.feedData) [] else s
    | none => s
  let s2 :=
    match s1.pair.ward with
    | some w => if s1.pair.wardState = WardState.bound then s1.sendFlit w 6 0 0 (pairMsg 4 0 0 0 s.feedData) [] else s1
    | none => s1
  s2.refreshFlags

/-! ## Watched peers (R326) -/

/-- The ring neighbours of a collective. -/
def CollRun.neighbours (r : CollRun) : List Nat :=
  let n := r.members.length
  if n ≤ 1 then []
  else [r.members.getD ((r.rank + n - 1) % n) 0, r.members.getD ((r.rank + 1) % n) 0]

/-- The peers a command has the device watch. -/
def Cmd.watches (c : Cmd) : List Nat :=
  match c.body with
  | .coll r => r.neighbours
  | .update r => match r.norm with | some x => x.neighbours | none => []
  | _ => []

/-- R326: the peers watched now, but for this device itself. -/
def State.watched (s : State) : List Nat :=
  let ps := (match s.pair.holder with
      | some h => if s.pair.holderState = HolderState.none then [] else [h]
      | none => [])
    ++ (match s.pair.ward with
      | some w => if s.pair.wardState = WardState.bound then [w] else []
      | none => [])
    ++ s.cmds.flatMap Cmd.watches
  (ps.filter (fun a => decide (s.devAddr ≠ some a))).eraseDups

/-- The holders that accepted BINDs name: they are watched once their PAIR_REQ goes out. -/
def State.bindings (s : State) : List Nat := s.cmds.filterMap (fun c => match c.body with | .bind h _ _ => some h | _ => none)

/-- R326: watching these peers too would make more than 64. -/
def State.watchFull (s : State) (more : List Nat) : Bool :=
  decide (64 < ((s.watched ++ s.bindings ++ more).filter (fun a => decide (s.devAddr ≠ some a))).eraseDups.length)

/-- A peer's record. -/
def State.peer (s : State) (a : Nat) : Option Peer := s.pair.peers.find? (fun p => p.addr = a)

/-- A peer's record replaced or added. -/
def State.setPeer (s : State) (p : Peer) : State :=
  { s with pair := { s.pair with peers := s.pair.peers.filter (fun q => q.addr ≠ p.addr) ++ [p] } }

/-- A peer comes to be watched: its loss timer starts now (R327). When a flit of it was last accepted stays what it is. -/
def State.watchPeer (s : State) (a : Nat) : State :=
  match s.peer a with
  | some p => if p.lost then s.setPeer { p with since := s.now, suspended := false, lost := false } else s
  | none => s.setPeer ⟨a, s.now, false, false, s.now⟩

/-- A peer in state LOST that sends keepalives again sets its RETURNED (R327, Table 10.6). -/
def Pair.backFrom (p : Pair) (a : Nat) : Pair :=
  { p with returned := p.returned || (decide (p.holder = some a) && decide (p.holderState = .lost))
           wardReturned := p.wardReturned || (decide (p.ward = some a) && decide (p.wardState = .lost)) }

/-- R327, R328: a flit from a peer was accepted; a peer that newly sets RETURNED is counted (R333). -/
def State.heard (s : State) (a : Nat) (keepalive : Bool) : State :=
  match s.peer a with
  | none => s
  | some p =>
    let s1 := s.setPeer { p with last := s.now, suspended := false, lost := p.lost && !keepalive, since := s.now }
    let b := s1.pair.backFrom a
    if keepalive && ((b.returned && !s1.pair.returned) || (b.wardReturned && !s1.pair.wardReturned)) then
      ({ s1 with pair := b }).count 0x0388 1
    else s1

end Sys2Proof.Machine
end

