-- ==== Sys2Proof/Machine/Ledger.lean ====
section
/-!
DEFINITION. Settings, freeze masks in the store, and the Ledger (R258 to R260, R382 to R384, R411 to R417).
-/
namespace Sys2Proof.Machine

/-! ## Freeze masks (R258 to R263) -/

/-- The quarter a byte range lies wholly in. -/
def quarterFor (a n : Nat) : Option Nat :=
  if inLpddr a n ∧ 0 < n ∧ quarterOf a = quarterOf (a + n - 1) then some (quarterOf a) else none

/-- The freeze entry of a weight tensor. -/
def State.freezeOf (s : State) (w : Nat) : Option Freeze := s.freezes.find? (fun z => z.m.w = w)

/-- A bit of a mask (R259). -/
def maskBit (mask : List Byte) (x : Nat) : Bool := (mask.getD (x / 8) 0).toNat.testBit (x % 8)

/-- R259 to R263: the element at a storage index is frozen under an entry; a LOST entry freezes the whole tensor. -/
def Freeze.frozen (z : Freeze) (x : Nat) : Bool :=
  z.lost || (match z.m.gran with
    | 0 => maskBit z.m.mask (x / 32)
    | 1 => maskBit z.m.mask x
    | 2 => true
    | _ => false)

/-- The element of W at a storage index is frozen. -/
def State.frozen (s : State) (w x : Nat) : Bool :=
  match s.freezeOf w with
  | some z => z.frozen x
  | none => false

/-- The frozen elements of W, padding apart. -/
def State.frozenCount (s : State) (w : Nat) : Nat :=
  match s.tensor w, s.freezeOf w with
  | some t, some z => ((List.range t.positions).filter (fun x => !t.padding x && z.frozen x)).length
  | _, _ => 0

/-- Bytes a mask takes in the freeze store. -/
def StagedMask.bytes (m : StagedMask) : Nat := m.mask.length

/-- What an installed entry holds in the store: a LOST one no mask (R263). -/
def Freeze.stored (z : Freeze) : StagedMask := if z.lost then { z.m with mask := [] } else z.m

/-- The entries of a quarter once staged masks are installed: the staged ones, and the installed ones they do not replace. -/
def State.masksThen (s : State) (staged : List StagedMask) (q : Nat) : List StagedMask :=
  (staged.filter (fun m => m.quarter = q && m.gran ≠ 3))
    ++ (s.freezes.filter (fun z => z.m.quarter = q && !staged.any (fun m => m.w = z.m.w))).map Freeze.stored

/-- A handle is named by an accepted UPDATE_RUN or PARAM_WRITE as W. -/
def State.weightBusy (s : State) (w : Nat) : Bool :=
  s.cmds.any (fun c =>
    match c.op, c.body with
    | .updateRun, .update r => r.entries.any (fun e => e.w = w)
    | .paramWrite, _ => decide (fld c.params 0 4 = w)
    | _, _ => false)

/-- A staged mask in the Ledger, replacing one of the same W. -/
def stagePut (ms : List StagedMask) (m : StagedMask) : List StagedMask := ms.filter (fun x => x.w ≠ m.w) ++ [m]

/-- The refusals R383 gives to a command of the open Ledger that names its ID; none where it may go on. -/
def State.ledgerRefusal (s : State) (source id : Nat) : Option Res :=
  match s.ledger with
  | none => some .ledgerNone
  | some l =>
    if l.committing ∨ l.owner ≠ source then some .ledgerConflict
    else if l.id ≠ id then some .ledgerNone
    else none

/-- The owner's idle time restarts (R412). -/
def State.touchLedger (s : State) (f : Ledger → Ledger) : State :=
  match s.ledger with
  | some l => { s with ledger := some { f l with lastAt := s.now } }
  | none => s

/-- FREEZE_SET (R258, R259). -/
def freezeSet (q : Req) (s : State) : Verdict :=
  let w := fld q.params 0 4
  let mh := tref (fld q.params 4 4)
  let gran := fld q.params 8 1
  if !inLedger q.flags then refuse .ledgerNone s
  else
    match s.ledger with
    | none => refuse .ledgerNone s
    | some l =>
      if l.committing ∨ l.owner ≠ q.source then refuse .ledgerConflict s
      else if q.params.length ≠ 12 ∨ 3 < gran then refuse .badParam s
      else
        match s.tensor w with
        | none => refuse .badParam s
        | some t =>
          match quarterFor t.base t.footprint with
          | none => refuse .memoryRange s
          | some qr =>
            if t.layout ≠ .blocked ∨ t.fmt ≠ some .lns24 ∨ s.weightBusy w then refuse .badParam s
            else
              let need := if gran = 0 then t.positions / 32 else t.positions
              let stage (mask : List Byte) : Verdict :=
                let ms := stagePut l.masks ⟨w, gran, qr, mask⟩
                let then_ := s.masksThen ms qr
                if 2 ^ 22 < (then_.map StagedMask.bytes).foldl (· + ·) 0 ∨ 1024 < then_.length then refuse .badParam s
                else okReply [] (s.touchLedger (fun l => { l with masks := ms }))
              if 2 ≤ gran then (if mh = none then stage [] else refuse .badParam s)
              else
                match mh with
                | none => refuse .badParam s
                | some h =>
                  match s.tensor h with
                  | none => refuse .badParam s
                  | some m =>
                    if m.layout ≠ .raw ∨ m.footprint * 8 < need then refuse .badParam s
                    else if s.poisoned m.base ((need + 7) / 8) then refuse .fault (s.notePoison m.base ((need + 7) / 8))
                    else stage (s.read m.base ((need + 7) / 8))

/-! ## Checks that span keys (R413 step 2) -/

/-- A setting as it will stand when the commits before these keys, and then the keys, are applied. -/
def State.settingThen (s : State) (keys : List (Nat × Nat)) (k : Nat) : Nat :=
  settingIn (keys ++ s.commits.reverse.flatMap Commit.keys ++ s.settings) k

/-- R206 over the keys as they will stand. -/
def State.stintOk (s : State) (keys : List (Nat × Nat)) : Bool :=
  let v := s.settingThen keys
  (List.range 4).all (fun kind =>
    (List.range 7).all (fun cls => decide (v (floorKey cls kind) ≤ v (floorKey cls kind + 1)))
      && decide (((List.range 7).map (fun cls => v (floorKey cls kind))).foldl (· + ·) 0 ≤ 256))

/-- R225: the window fits every configured stack. -/
def State.windowOk (s : State) (keys : List (Nat × Nat)) : Bool :=
  s.actStacks.all (fun k => !k.configured || decide (s.settingThen keys 0x3201 * 2 ^ 20 ≤ k.sramSize))

/-- R312: the partner area lies in LPDDR5X and meets no live tensor and no spill region. -/
def State.partnerOk (s : State) (keys : List (Nat × Nat)) : Bool :=
  let a := s.settingThen keys 0x6010
  let n := s.settingThen keys 0x6011
  decide (n = 0) ||
    (inLpddr a n && !s.tensors.any (fun t => overlaps a n t.base t.footprint)
      && !s.actStacks.any (fun k => k.configured && overlaps a n k.spillBase k.spillSize))

/-- R484: the settings of one port. -/
def State.portOk (s : State) (keys : List (Nat × Nat)) (p : Nat) : Bool :=
  let v (i : Nat) : Nat := s.settingThen keys (0x5000 + 16 * p + i)
  if v 1 = 0 then decide (v 2 = 1) || decide (v 2 = 2) || decide (v 2 = 4)
  else decide (v 2 ≤ 3) && decide (v 3 ≤ 6000)

/-- A key is staged in a range. -/
def stagedIn (keys : List (Nat × Nat)) (p : Nat → Bool) : Option Nat := (keys.find? (fun x => p x.1)).map (fun x => x.1)

/-- The checks of R413 step 2, each over the keys it reads: the first staged key whose check fails, and the result a
SETTING_SET of it gets. -/
def State.checkKeys (s : State) (keys : List (Nat × Nat)) : Option (Nat × Res) :=
  let one (p : Nat → Bool) (ok : Bool) (r : Res) : Option (Nat × Res) :=
    match stagedIn keys p with
    | some k => if ok then none else some (k, r)
    | none => none
  let cap := one (fun k => k = 0x1000 || k = 0xE000)
    (decide (s.settingThen keys 0x1000 ≤ s.settingThen keys 0xE000)) .badParam
  let stint := one (fun k => k / 256 = 0x22) (s.stintOk keys) .badParam
  let window := one (fun k => k = 0x3201) (s.windowOk keys) .badParam
  let ports := (List.range 12).map (fun p =>
    one (fun k => k / 16 = 0x500 + p) (s.portOk keys p) .badParam)
  let ward := one (fun k => k = 0x6010 || k = 0x6011) (decide (s.pair.wardState = .none)) .badParam
  let area := one (fun k => k = 0x6010 || k = 0x6011) (s.partnerOk keys) .memoryRange
  let found := ([cap, stint, window] ++ ports ++ [ward, area]).filterMap id
  found.foldl (fun a x => match a with | none => some x | some y => if x.1 < y.1 then some x else some y) none

/-! ## SETTING_GET and SETTING_SET (R384, R417) -/

/-- SETTING_GET. -/
def settingGet (q : Req) (s : State) : Verdict :=
  let n := fld q.params 0 2
  if n = 0 ∨ 255 < n ∨ q.params.length ≠ 4 + 2 * n then refuse .badParam s
  else
    let ks := (List.range n).map (fun i => fld q.params (4 + 2 * i) 2)
    if ks.any (fun k => decide (keyInfo k = none)) then refuse .badParam s
    else if ks.any (fun k => !keyReadable q.role k) then refuse .noRight s
    else okReply (ks.flatMap (fun k => leBytes 8 (s.keyValue k))) s

/-- The check of one key and value (R383, R384): none where it may be set. -/
def keyRefusal (r : Role) (k v : Nat) : Option Res :=
  match keyInfo k with
  | none => some .badParam
  | some i => if !keyWritable r k then some .noRight
    else if 2 ^ (8 * i.width) ≤ v ∨ !keyValueOk k v then some .badParam else none

/-- SETTING_SET. -/
def settingSet (q : Req) (s : State) : Verdict :=
  let k := fld q.params 0 2
  let v := fld q.params 8 8
  if q.params.length ≠ 16 then refuse .badParam s
  else
    match keyRefusal q.role k v with
    | some r => refuse r s
    | none =>
      let staged := match s.ledger with | some l => l.keys.any (fun x => x.1 = k) | none => false
      if staged then refuse .ledgerConflict s
      else
        match s.checkKeys [(k, v)] with
        | some x => refuse x.2 s
        | none =>
          .accept [] .plain none { s with commits := s.commits ++
            [⟨q.source, q.tag, 0, q.role, q.keyIndex, [(k, v)], [], s.now + 50000, none⟩] }

/-! ## The Ledger commands (R382, R383, R411) -/

/-- LEDGER_BEGIN. -/
def ledgerBegin (q : Req) (s : State) : Verdict :=
  match s.ledger with
  | some _ => refuse .ledgerConflict s
  | none =>
    okReply (leBytes 4 s.nextLedger)
      { s with ledger := some ⟨s.nextLedger, q.source, s.now, false, [], []⟩, nextLedger := (s.nextLedger + 1) % 2 ^ 32 }

/-- LEDGER_SET. -/
def ledgerSet (q : Req) (s : State) : Verdict :=
  let k := fld q.params 4 2
  let v := fld q.params 8 8
  match s.ledgerRefusal q.source (fld q.params 0 4) with
  | some r => refuse r s
  | none =>
    if q.params.length ≠ 16 then refuse .badParam s
    else
      match keyRefusal q.role k v, s.ledger with
      | some r, _ => refuse r s
      | none, none => refuse .ledgerNone s
      | none, some l =>
        if 256 ≤ l.keys.length ∧ !l.keys.any (fun x => x.1 = k) then refuse .badParam s
        else okReply [] (s.touchLedger (fun l => { l with keys := assocPut l.keys k v }))

/-- LEDGER_ROLLBACK (R412). -/
def ledgerRollback (q : Req) (s : State) : Verdict :=
  match s.ledgerRefusal q.source (fld q.params 0 4) with
  | some r => refuse r s
  | none =>
    if s.trust.flashFault then refuse .fault (s.raiseFault (6 * 4096))
    else okReply [] (s.rollback .request (s.actor 0x02 q.source))

/-- LEDGER_COMMIT (R413): it starts at its acceptance, with the checks of step 2. -/
def ledgerCommit (q : Req) (s : State) : Verdict :=
  match s.ledgerRefusal q.source (fld q.params 0 4), s.ledger with
  | some r, _ => refuse r s
  | none, none => refuse .ledgerNone s
  | none, some l =>
    .accept [] .plain none { s with
      ledger := some { l with committing := true, lastAt := s.now }
      commits := s.commits ++ [⟨q.source, q.tag, l.id, q.role, q.keyIndex, l.keys, l.masks, s.now + 50000,
                               (s.checkKeys l.keys).map (fun x => x.1)⟩] }

/-! ## Which commit goes on (R384, R413) -/

/-- Two commits are one. -/
def Commit.is (c d : Commit) : Bool := decide (c.source = d.source) && decide (c.tag = d.tag)

/-- R384: a SETTING_SET comes after a LEDGER_COMMIT accepted before it, and after an earlier SETTING_SET of its key. Nothing else
waits for another commit. -/
def Commit.after (c d : Commit) : Bool :=
  decide (c.ledger = 0) && (decide (d.ledger ≠ 0) || d.keys.any (fun x => c.keys.any (fun y => y.1 = x.1)))

/-- The commits that wait for no other, of a list in acceptance order. -/
def freeCommits : List Commit → List Commit → List Commit
  | _, [] => []
  | done, c :: cs => (if done.any c.after then [] else [c]) ++ freeCommits (done ++ [c]) cs

/-- A commit's command is not held back by a fence or by the module's sleep (R168, R439, R441).
(DESIGN CHOICE, log entry 94.) -/
def State.commitDue (s : State) (k : Commit) : Bool :=
  match s.cmd k.source k.tag with
  | some c => s.fenceOk c && s.sleepOk c
  | none => true

/-- The commits that have started and not ended. -/
def State.openCommits (s : State) : List Commit := (freeCommits [] s.commits).filter s.commitDue

/-- The moment by which the quiet points of a commit must hold (R415): 50 ms from its start. -/
def State.commitLimit (s : State) (k : Commit) : Nat :=
  match s.cmd k.source k.tag with
  | some c => if c.running then max k.limit (c.startedAt + 50000) else s.now + 50000
  | none => k.limit

/-! ## Quiet points (R414) -/

/-- The quarter a Tinker command works on. -/
def Cmd.quarters (c : Cmd) (s : State) : List Nat :=
  match c.op, c.body with
  | .updateRun, .update r => (r.entries.map (fun e => e.quarter)).eraseDups
  | .paramWrite, _ => match s.tensor (fld c.params 0 4) with | some t => [quarterOf t.base] | none => []
  | _, _ => []

/-- R284: a COLLECTIVE_RUN, UPDATE_RUN or SECURE is in a non-terminal state.
(DEDUCED, log entry 27.) -/
def State.addressBusy (s : State) : Bool :=
  s.cmds.any (fun c => decide (c.op = .collectiveRun) || decide (c.op = .updateRun) || decide (c.op = .secure))

/-- An UPDATE_RUN has begun on the Tinker of a quarter and not ended there: from the start of pass 1 to its last entry in pass 2. -/
def UpdRun.runsOn (r : UpdRun) (q : Nat) : Bool :=
  let n := (r.entries.filter (fun e => e.quarter = q)).length
  decide (0 < n) && decide (r.pass1.getD q .ended ≠ .waiting) && !(r.normed && decide (n ≤ r.done.getD q 0))

/-- An UPDATE_RUN or PARAM_WRITE runs on the Tinker of a quarter. -/
def Cmd.runsOn (c : Cmd) (s : State) (q : Nat) : Bool :=
  c.running &&
    match c.body with
    | .update r => r.runsOn q
    | _ => (c.quarters s).contains q

/-- R260: an UPDATE_RUN or PARAM_WRITE runs on the Tinker of a quarter. -/
def State.tinkerRuns (s : State) (q : Nat) : Bool := s.cmds.any (fun c => c.runsOn s q)

/-- The item of a commit that has a quiet point (Table 13.5): a key, or 0xFFFF for a mask. -/
def Commit.quietItem (c : Commit) : Option Nat :=
  if c.keys.any (fun x => x.1 = 0x4000) then some 0x4000 else if c.masks.isEmpty then none else some 0xFFFF

/-- The item whose quiet point does not hold: a key, or 0xFFFF for a mask.
(DEDUCED, log entry 27.) -/
def Commit.notQuiet (c : Commit) (s : State) : Option Nat :=
  if c.keys.any (fun x => x.1 = 0x4000) && s.addressBusy then some 0x4000
  else if c.masks.any (fun m => s.tinkerRuns m.quarter) then some 0xFFFF
  else none

/-- R413 step 3: a commit holds new starts of Tinker commands on a quarter. -/
def State.heldQuarter (s : State) (q : Nat) : Bool :=
  s.openCommits.any (fun c => c.bad.isNone && c.masks.any (fun m => m.quarter = q))

/-- R413 step 3: a commit holds new starts of COLLECTIVE_RUN, UPDATE_RUN and SECURE. -/
def State.heldAddress (s : State) : Bool :=
  s.openCommits.any (fun c => c.bad.isNone && c.keys.any (fun x => x.1 = 0x4000))

/-! ## The apply (R413 step 4) -/

/-- The actor of a commit's records. -/
def Commit.event (c : Commit) (kind : Nat) : AuditEvent :=
  ⟨kind, c.role.code, c.source, c.keyIndex, 0, c.ledger, 0, 0, []⟩

/-- What applying a key does beyond holding its value (Table 13.5). -/
def State.keyActs (s : State) (k : Nat) : State :=
  match k with
  | 0x4000 => s.retrainAll
  | 0x4001 => s.applyEnable
  | _ => s

/-- One key applied, with its record. -/
def State.applyKey (s : State) (c : Commit) (x : Nat × Nat) : State :=
  let e := { c.event 0x01 with subject := x.1, old := s.setting x.1, new := x.2 }
  (({ s with settings := settingPut s.settings x.1 x.2 }).keyActs x.1).audit e

/-- One mask installed, with its record (R260, R263). -/
def State.applyMask (s : State) (c : Commit) (m : StagedMask) : State :=
  let old := s.frozenCount m.w
  let rest := s.freezes.filter (fun z => z.m.w ≠ m.w)
  let s1 := { s with freezes := if m.gran = 3 then rest else rest ++ [(⟨m, false⟩ : Freeze)] }
  s1.audit { c.event 0x08 with old := old, new := s1.frozenCount m.w,
                               detail := leBytes 4 m.w ++ leBytes 1 m.gran ++ leBytes 1 m.quarter }

/-- A commit ends: it leaves the list, its Ledger closes, and the 50 ms of a SETTING_SET that waited for it start. -/
def State.endCommit (s : State) (c : Commit) : State :=
  let rest := s.commits.filter (fun d => !d.is c)
  let waited := (freeCommits [] rest).filter (fun d => !(freeCommits [] s.commits).any d.is)
  { s with
    commits := rest.map (fun d => if waited.any d.is then { d with limit := s.now + 50000 } else d)
    ledger := if c.ledger = 0 then s.ledger else none }

/-- The command of a commit completes. -/
def State.finishCommit (s : State) (c : Commit) (res : Res) (cause detail : Nat) : State :=
  match s.cmd c.source c.tag with
  | some d => s.completeGeneric d res 0 cause detail
  | none => s

/-- R415: a commit rolled back: nothing applied, the record, and LEDGER_ROLLED_BACK with the key that failed; the Ledger is closed
then (R411). -/
def State.failCommit (s : State) (c : Commit) (cause : RollCause) (key : Nat) : State :=
  let s1 := s.audit (rollRecord (c.event 0x02) c.ledger cause key)
  (s1.endCommit c).finishCommit c .ledgerRolledBack 0x31 key

/-- The keys and masks of a commit applied in one step; none where their records cannot be written (R419). A change of CAP_W moves the
inlet limit (R480).
(DESIGN CHOICE, log entry 122.) -/
def State.applyCommit (s : State) (c : Commit) : State :=
  if s.trust.flashFault && !(c.keys.isEmpty && c.masks.isEmpty) then
    ((s.raiseFault (6 * 4096)).endCommit c).finishCommit c .ledgerRolledBack 0x31 0
  else
  let s1 := c.keys.foldl (fun t x => t.applyKey c x) s
  let s2 := c.masks.foldl (fun t m => t.applyMask c m) s1
  let s3 := if c.keys.any (fun x => x.1 = 0x6000 || x.1 = 0x6001 || x.1 = 0x6002) then s2.feedsChanged else s2
  let ports := c.keys.filter (fun x => x.1 / 4096 = 5)
  let s4 := if ports.isEmpty then s3 else { s3 with portQueue := s3.portQueue ++ [(s.now + 1000, ports)] }
  let s5 := if c.keys.any (fun x => x.1 = 0x1000) then s4.lookAtInlet else s4
  (s5.endCommit c).finishCommit c .complete 0 0

/-- What has become of a commit that has started: it fails with a cause and a key, it applies, or it waits for its quiet points. -/
inductive CommitMove where
  | fail (cause : RollCause) (key : Nat)
  | apply
  | wait
  deriving DecidableEq, Repr

/-- The outcome of a commit now: one whose check failed is rolled back, also where it fails only against what other commits have set
since (R206); one whose quiet points first hold after its 50 ms too (R415). -/
def State.commitMove (s : State) (c : Commit) : CommitMove :=
  match c.bad with
  | some k => .fail .check k
  | none =>
    match ({ s with commits := [] } : State).checkKeys c.keys with
    | some x => .fail .check x.1
    | none =>
      if c.notQuiet s ≠ none then .wait
      else
        match c.quietItem with
        | some k => if s.commitLimit c < s.now then .fail .quiet k else .apply
        | none => .apply

/-- LEDGER_APPLY (R413): the first of the commits that have started and need not wait is applied, or rolled back. -/
def execLedgerApply (s : State) : Host.Outcome State Fault Refusal :=
  match s.openCommits.find? (fun c => decide (s.commitMove c ≠ .wait)) with
  | none => .next s
  | some c =>
    match s.commitMove c with
    | .fail cause k => .next (s.failCommit c cause k)
    | .apply => .next (s.applyCommit c)
    | .wait => .next s

/-- LEDGER_COMMIT_TIMEOUT (R415): the quiet points of a commit were not reached within 50 ms. -/
def execLedgerCommitTimeout (s : State) : Host.Outcome State Fault Refusal :=
  match s.openCommits.find? (fun c => (c.notQuiet s).isSome) with
  | none => .next s
  | some c =>
    match c.notQuiet s with
    | some k => .next ((s.reach (s.commitLimit c)).failCommit c .quiet k)
    | none => .next s

/-- LEDGER_IDLE_TIMEOUT (R412). -/
def execLedgerIdleTimeout (s : State) : Host.Outcome State Fault Refusal :=
  match s.ledger with
  | some l => if l.committing then .next s
    else .next ((s.reach (l.lastAt + 10000000)).rollback .idle (AuditEvent.device 0x02))
  | none => .next s

end Sys2Proof.Machine
end

