-- ==== Sys2Proof/Machine/Data.lean ====
section
/-!
DEFINITION. The data commands: TENSOR_DEFINE, TENSOR_WRITE, TENSOR_READ, TENSOR_COPY, TENSOR_FILL and ASSAY_READ (R190, R191,
R385 to R389), and the end of their memory traffic.
-/
namespace Sys2Proof.Machine

/-! ## Handles named by accepted commands (R191) -/

/-- An optional handle as a list. -/
def optList (x : Option Nat) : List Nat := match x with | some h => [h] | none => []

/-- The handles an update entry names. -/
def UEntry.handles (e : UEntry) : List Nat :=
  [e.w, e.g] ++ optList e.m ++ optList e.v ++ optList e.s1 ++ optList e.s2 ++ optList e.wc

/-- The handles a command names. -/
def Cmd.handles (c : Cmd) : List Nat :=
  match c.body with
  | .ops r => r.handles
  | .update r => r.entries.flatMap UEntry.handles ++ optList r.normOut
  | .secure r => r.tensors
  | .serve r => [r.handle]
  | .coll r => optList r.input ++ optList r.output
  | .streamOut _ => [fld c.params 4 4]
  | _ =>
    match c.op with
    | .tensorWrite | .tensorRead | .tensorFill => [fld c.params 0 4]
    | .tensorCopy => [fld c.params 0 4, fld c.params 4 4]
    | .paramWrite => [fld c.params 0 4] ++ optList (tref (fld c.params 4 4))
    | _ => []

/-- R191: a handle is named by an accepted command that is not terminal. -/
def State.handleBusy (s : State) (h : Nat) : Bool := s.cmds.any (fun c => c.acked && c.handles.contains h)

/-- TENSOR_DEFINE (R189 to R191, R224, R260): ACTION 0 defines, 1 releases. -/
def tensorDefine (q : Req) (s : State) : Verdict :=
  let action := fld q.params 0 1
  let h := fld q.params 8 4
  if q.params.length ≠ 40 ∨ 1 < action then refuse .badParam s
  else if s.handleBusy h ∨ (s.freezeOf h).isSome then refuse .badParam s
  else if action = 1 then
    match s.tensor h with
    | none => refuse .badParam s
    | some t => okReply [] (s.releaseTensor t)
  else
    match tensorOf (q.params.drop 8) with
    | none => refuse .badParam s
    | some t =>
      if s.badRange t then refuse .memoryRange s
      else if 65536 ≤ s.tensors.length ∧ s.tensor h = none then refuse .badParam s
      else okReply [] (s.defineTensor t)

/-! ## Assay records (R133, R389) -/

/-- The 544 bytes of an Assay record (Tables 4.9 and 4.10). -/
def assayBytes (a : Assay) (f : Fmt) : List Byte :=
  ((List.range 128).flatMap (fun i => leBytes 4 (assocGet 0 a.bins i))) ++ leBytes 4 a.zeros ++ leBytes 4 a.infs
    ++ leBytes 4 a.nans ++ leBytes 4 a.flushed ++ leBytes 8 a.total
    ++ leBytes 1 ((if a.saturated then 1 else 0) + (if a.low then 2 else 0) + (if a.high then 4 else 0))
    ++ leBytes 1 f.code ++ leBytes 6 0

/-- ASSAY_READ. -/
def assayRead (q : Req) (s : State) : Verdict :=
  if q.params.length ≠ 8 then refuse .badParam s
  else
    match s.tensor (fld q.params 0 4) with
    | none => refuse .badParam s
    | some t =>
      match t.fmt with
      | none => refuse .badParam s
      | some f =>
        okReply (assayBytes t.assay f)
          (if (fld q.params 4 1).testBit 0 then s.setTensor { t with assay := .empty } else s)

/-! ## Regions (R385, R386) -/

/-- The fields of Table 12.6. -/
structure Access where
  handle : Nat
  mode : Nat
  wfmt : Nat
  plane : Nat
  row0 : Nat
  nrows : Nat
  col0 : Nat
  ncols : Nat
  offset : Nat
  len : Nat
  deriving DecidableEq, Repr

/-- Table 12.6 read from a parameter block. -/
def accessOf (ps : List Byte) : Access :=
  ⟨fld ps 0 4, fld ps 4 1, fld ps 5 1, fld ps 6 2, fld ps 8 4, fld ps 12 4, fld ps 16 4, fld ps 20 4, fld ps 24 8, fld ps 32 4⟩

/-- Bytes of one row of a region on the wire; for BLNS8 its 33-byte blocks. -/
def wireBits (w : Fmt) (ncols : Nat) : Nat := if w = .blns8 then (ncols + 31) / 32 * 264 else ncols * w.bits

/-- The bulk bytes of a region (R385). -/
def Access.regionBytes (a : Access) (w : Fmt) : Nat := (a.nrows * wireBits w a.ncols + 7) / 8

/-- R386: the region is one the device accepts for the tensor; the wire format where it is. `ring` says that PLANE is
ignored. -/
def Access.region (a : Access) (t : Tensor) (ring : Bool) : Option Fmt :=
  match t.fmt, Fmt.ofCode a.wfmt with
  | some f, some w =>
    let sizes := decide (1 ≤ a.nrows) && decide (a.nrows ≤ 2 ^ 24) && decide (1 ≤ a.ncols) && decide (a.ncols ≤ 2 ^ 24)
    let inside := decide (a.row0 + a.nrows ≤ t.rows) && decide (a.col0 + a.ncols ≤ t.cols)
      && (ring || decide (a.plane < t.planes))
    let kind := decide (w = f) || (w.isWire && decide (f ≠ .tal))
    let blocks := decide (f ≠ .blns8) ||
      (decide (a.col0 % 32 = 0) && (decide ((a.col0 + a.ncols) % 32 = 0) || decide (a.col0 + a.ncols = t.cols)))
    let even := (decide (f ≠ .lns12) && decide (f ≠ .pw4)) || decide (a.nrows * a.ncols % 2 = 0)
    if sizes && inside && kind && blocks && even then some w else none
  | _, _ => none

/-- The bulk length of an access the device accepts for a tensor; none where it refuses it with BAD_PARAM. The footprint of a
receive ring is that of the slot read (R386).
(DEDUCED, log entry 114.) -/
def Access.bulkLen (a : Access) (t : Tensor) (ring : Bool) : Option Nat :=
  if a.mode = 0 then
    if a.wfmt = 0 ∧ 1 ≤ a.len ∧ a.len ≤ 2 ^ 30 ∧ a.offset + a.len ≤ (if ring then t.planeBytes else t.footprint) then some a.len
    else none
  else if a.mode = 1 then (a.region t ring).map a.regionBytes
  else none

/-! ## TENSOR_WRITE -/

/-- TENSOR_WRITE: its checks; the bulk data follows. -/
def tensorWrite (q : Req) (s : State) : Verdict :=
  let a := accessOf q.params
  if q.params.length ≠ 40 then refuse .badParam s
  else
    match s.tensor a.handle with
    | none => refuse .badParam s
    | some t =>
      if s.receiveRing a.handle then refuse .badParam s
      else
        match a.bulkLen t false with
        | none => refuse .badParam s
        | some n => .accept [] .plain (some n) s

/-- The reserved bytes of TAL elements in a range of a footprint are 0 (R80). -/
def talReserved (offset : Nat) (bs : List Byte) : List Byte :=
  ((List.range bs.length).zip bs).map (fun x => if 42 ≤ (offset + x.1) % 48 then 0 else x.2)

/-- An element from the wire: its value in the log number system or exact, with its flags. -/
def wireVal (w : Fmt) (c : Nat) : XVal × FlagWord :=
  if w.isWire then fpDecode w.fp c else (.log (lnsDecode w.shape c), 0)

/-- A region written into a tensor of another format than BLNS8 and TAL. -/
def State.writeRegion (s : State) (t : Tensor) (a : Access) (w : Fmt) (bs : List Byte) : State × FlagWord :=
  let codes := codesOf w.bits (a.nrows * a.ncols) bs
  let encs := codes.map (fun c =>
    if w = t.f then (c % 2 ^ 336, (0 : FlagWord))
    else
      let v := wireVal w c
      let e := encodeElem t.f (scaleLog t.scale) v.1
      (e.code, v.2 ||| e.flags))
  let arr := encs.toArray
  (s.putRegion t a.plane a.row0 a.nrows a.col0 a.ncols
     (fun r c => some (arr.getD ((r - a.row0) * a.ncols + (c - a.col0)) (0, 0)).1),
   flagsOr (encs.map (fun e => e.2)))

/-- A region of BLNS8 rows written: whole blocks as they come, or each encoded from its 32 elements. -/
def State.writeRegion8 (s : State) (t : Tensor) (a : Access) (w : Fmt) (bs : List Byte) : State × FlagWord :=
  let nb := (a.ncols + 31) / 32
  let rows : List ((List Nat × Nat) × FlagWord) :=
    if w = .blns8 then
      (cut 33 (a.nrows * nb) bs).map (fun g => (((g.take 32).map BitVec.toNat, (g.getD 32 0).toNat), 0))
    else
      let codes := codesOf w.bits (a.nrows * a.ncols) bs
      (cut a.ncols a.nrows codes).flatMap (fun row => (cut 32 nb row).map (fun g =>
        let vs := g.map (wireVal w)
        let e := blnsEncode (vs.map (fun v => v.1) ++ List.replicate (32 - g.length) (.log .pzero))
        ((e.1.map (fun x => x.code), e.2.1), flagsOr (vs.map (fun v => v.2)) ||| e.2.2)))
  let arr := rows.toArray
  (s.putRows8 t a.plane a.row0 a.nrows a.col0 a.ncols
     (fun r bj => some (arr.getD ((r - a.row0) * nb + (bj - a.col0 / 32)) (([], 0x80), 0)).1),
   flagsOr (rows.map (fun e => e.2)))

/-- TENSOR_WRITE with its bulk data complete: the bytes or the region written, and the flags. -/
def State.doWrite (s : State) (c : Cmd) (bs : List Byte) : State × FlagWord :=
  let a := accessOf c.params
  match s.tensor a.handle with
  | none => (s, 0)
  | some t =>
    let r : State × FlagWord :=
      if a.mode = 0 then
        let data := if t.fmt = some .tal then talReserved a.offset bs else bs
        (s.write (t.base + a.offset) data, 0)
      else
        match a.region t false with
        | none => (s, 0)
        | some w => if t.f = .blns8 then s.writeRegion8 t a w bs else s.writeRegion t a w bs
    (r.1.retag a.handle, r.2)

/-! ## TENSOR_READ -/

/-- A command being accepted starts at once: nothing before it holds it (R168, R169). -/
def State.startsNow (s : State) (q : Req) : Bool :=
  !(fenceBefore q.flags && s.cmds.any (fun c => c.acked)) && !s.cmds.any (fun c => decide (c.body = .fence []))

/-- TENSOR_READ: its checks. One of a receive ring that starts at once pins the slot LAST (R199).
(DEDUCED, log entry 114.) -/
def tensorRead (q : Req) (s : State) : Verdict :=
  let a := accessOf q.params
  if q.params.length ≠ 40 then refuse .badParam s
  else
    match s.tensor a.handle with
    | none => refuse .badParam s
    | some t =>
      let ring := s.receiveRing a.handle
      match a.bulkLen t ring with
      | none => refuse .badParam s
      | some _ =>
        .accept [] (if ring ∧ s.ringLast t < t.planes ∧ s.startsNow q then .read a.handle (s.ringLast t) else .plain) none s

/-- A region read for the wire, row after row. -/
def State.readRegion (s : State) (t : Tensor) (a : Access) (w : Fmt) : List Byte × FlagWord :=
  if w = .blns8 then
    ((List.range a.nrows).flatMap (fun i => (List.range ((a.ncols + 31) / 32)).flatMap (fun j =>
      s.read (t.blockAddr a.plane ((a.row0 + i) / 32) (a.col0 / 32 + j) + 33 * ((a.row0 + i) % 32)) 33)), 0)
  else
    let xs := (List.range a.nrows).flatMap (fun i => (List.range a.ncols).map (fun j =>
      let r := a.row0 + i
      let c := a.col0 + j
      let code := s.code t a.plane r c
      if w = t.f then (code, (0 : FlagWord))
      else
        let e := elemToWire w t.f (scaleLog t.scale) (s.blockScale t a.plane r c) code
        (e.code, e.flags)))
    (bytesOf w.bits (xs.map (fun x => x.1)), flagsOr (xs.map (fun x => x.2)))

/-- The poison an access meets (R352). -/
def State.accessPoison (s : State) (t : Tensor) (a : Access) : Option (Nat × Nat) :=
  if a.mode = 0 then
    if s.poisoned (t.base + a.offset) a.len then some (t.base + a.offset, a.len) else none
  else s.regionPoison t a.plane a.row0 a.nrows a.col0 a.ncols

/-- The tensor a TENSOR_READ reads: of a receive ring the slot pinned, or slot LAST where it starts only now; none while no slot is
complete (R199). -/
def State.readTensor (s : State) (c : Cmd) (t : Tensor) : Option Tensor :=
  match c.body with
  | .read _ slot => some (t.slot slot)
  | _ => if !s.receiveRing t.handle then some t else if s.ringLast t < t.planes then some (t.slot (s.ringLast t)) else none

/-- TENSOR_READ served (R352, R385): FAULT at poison, otherwise the data and the completion.
(DEDUCED, log entry 73.) -/
def State.doRead (s : State) (c : Cmd) : State :=
  let a0 := accessOf c.params
  match s.tensor a0.handle with
  | none => s.completeGeneric c .aborted 0 0x41 0
  | some t0 =>
    match s.readTensor c t0 with
    | none => s
    | some t =>
      let a := if t0.layout = .ring ∧ t.layout = .blocked then { a0 with plane := 0 } else a0
      match s.accessPoison t a with
      | some g => (s.notePoison g.1 g.2).completeGeneric c .fault 0 0x41 0
      | none =>
        if a.mode = 0 then (s.sendData c [] (s.read (t.base + a.offset) a.len)).completeGeneric c .complete 0 0 0
        else
          match a.region t false with
          | none => s.completeGeneric c .aborted 0 0x41 0
          | some w =>
            let r := s.readRegion t a w
            (s.sendData c [] r.1).completeGeneric c (doneRes r.2) r.2 0 0

/-! ## TENSOR_COPY (R387) and TENSOR_FILL (R388) -/

/-- TENSOR_COPY. -/
def tensorCopy (q : Req) (s : State) : Verdict :=
  let p0 := fld q.params 8 2
  let np := fld q.params 10 2
  if q.params.length ≠ 12 then refuse .badParam s
  else
    match s.tensor (fld q.params 0 4), s.tensor (fld q.params 4 4) with
    | some a, some b =>
      let same := decide (a.fmt = b.fmt) && decide (a.layout = b.layout) && decide (a.rows = b.rows)
        && decide (a.cols = b.cols)
      let clear := !overlaps a.base a.footprint b.base b.footprint && !s.receiveRing b.handle
      let planes :=
        match a.layout with
        | .blocked => if np = 0 then decide (p0 < min a.planes b.planes) else decide (p0 + np ≤ min a.planes b.planes)
        | .ring => decide (np ≤ 1) && decide (p0 < b.planes)
        | .raw => decide (a.pitch = b.pitch) && decide (p0 = 0) && decide (np ≤ 1)
      if same && clear && planes then .accept [] .plain none s else refuse .badParam s
    | _, _ => refuse .badParam s

/-- TENSOR_COPY done: the bytes of the planes, padding included, with poison carried along (R185). A ring whose header
names no complete slot waits for the first (R199). -/
def State.doCopy (s : State) (c : Cmd) : State :=
  let p0 := fld c.params 8 2
  let np := fld c.params 10 2
  match s.tensor (fld c.params 0 4), s.tensor (fld c.params 4 4) with
  | some a, some b =>
    match a.layout with
    | .raw => ((s.noteRead a.base a.footprint).copy a.base b.base a.footprint).completeGeneric c .complete 0 0 0
    | .ring =>
      let last := s.ringLast a
      if a.planes ≤ last then s
      else ((s.noteRead (a.planeAddr last) a.planeBytes).copy (a.planeAddr last) (b.planeAddr p0) a.planeBytes).completeGeneric c .complete 0 0 0
    | .blocked =>
      let n := if np = 0 then min a.planes b.planes - p0 else np
      let len := n * a.planeBytes
      (((s.noteRead (a.planeAddr p0) len).copy (a.planeAddr p0) (b.planeAddr p0) len).retag b.handle).completeGeneric c .complete 0 0 0
  | _, _ => s.completeGeneric c .aborted 0 0x41 0

/-- The planes TENSOR_FILL fills: the first and their number. -/
def fillPlanes (t : Tensor) (p0 np : Nat) : Option (Nat × Nat) :=
  match t.layout with
  | .blocked => if np = 0 then (if p0 < t.planes then some (p0, t.planes - p0) else none)
    else if p0 + np ≤ t.planes then some (p0, np) else none
  | .ring => if np ≤ 1 ∧ p0 < t.planes then some (p0, 1) else none
  | .raw => if p0 = 0 ∧ np ≤ 1 then some (0, 1) else none

/-- R388: the VALUE is one the tensor takes. -/
def fillValueOk (t : Tensor) (v : Nat) : Bool :=
  match t.fmt with
  | none => decide (v < 256)
  | some .tal => decide (v = 0x00400000)
  | some _ => decide (v < 2 ^ 24)

/-- TENSOR_FILL. -/
def tensorFill (q : Req) (s : State) : Verdict :=
  if q.params.length ≠ 12 then refuse .badParam s
  else
    match s.tensor (fld q.params 0 4) with
    | none => refuse .badParam s
    | some t =>
      match fillPlanes t (fld q.params 8 2) (fld q.params 10 2) with
      | none => refuse .badParam s
      | some _ => if fillValueOk t (fld q.params 4 4) && !s.receiveRing t.handle then .accept [] .plain none s
        else refuse .badParam s

/-- One block filled with a code in its elements and the padding code beyond ROWS and COLS; a BLNS8 row beyond ROWS holds zeros
alone, with the scale 0x80 of R32. -/
def fillBlock (t : Tensor) (bi bj code scale : Nat) : List Byte :=
  let n := t.f.fields
  let stride := n / 32
  bytesOf t.f.bits ((List.range n).map (fun i =>
    if i % stride = 32 then (if t.rows ≤ 32 * bi + i / stride then 0x80 else scale)
    else if t.rows ≤ 32 * bi + i / stride ∨ t.cols ≤ 32 * bj + i % stride then padCode t.f else code))

/-- TENSOR_FILL done. A VALUE that is NaN raises no NAN_IN.
(DESIGN CHOICE, log entry 129.) -/
def State.doFill (s : State) (c : Cmd) : State :=
  let v := fld c.params 4 4
  match s.tensor (fld c.params 0 4) with
  | none => s.completeGeneric c .aborted 0 0x41 0
  | some t =>
    match t.fmt with
    | none => (s.write t.base (List.replicate t.footprint (BitVec.ofNat 8 v))).completeGeneric c .complete 0 0 0
    | some f =>
      let x := XVal.log (lnsDecode shape24 v)
      let e : Nat × Nat × FlagWord :=
        if f = .tal then (padCode .tal, 0, 0)
        else if f = .blns8 then
          let b := blnsEncode [x]
          ((b.1.getD 0 ⟨0, 0, false⟩).code, b.2.1, b.2.2)
        else let r := encodeElem f (scaleLog t.scale) x; (r.code, 0, r.flags)
      let pl := (fillPlanes t (fld c.params 8 2) (fld c.params 10 2)).getD (0, 0)
      let s1 := (List.range pl.2).foldl (fun s p => (List.range t.br).foldl (fun s bi =>
        (List.range t.bc).foldl (fun s bj =>
          s.write (t.blockAddr (pl.1 + p) bi bj) (fillBlock t bi bj e.1 e.2.1)) s) s) s
      (s1.retag t.handle).completeGeneric c (doneRes e.2.2) e.2.2 0 0

/-! ## The end of a data command -/

/-- The blocks a region of a plane touches, as one range for each block row. -/
def Tensor.regionRuns (t : Tensor) (p r0 nr c0 nc : Nat) : List (Nat × Nat) :=
  if nr = 0 ∨ nc = 0 then []
  else (List.range ((r0 + nr - 1) / 32 + 1 - r0 / 32)).map (fun i =>
    (t.blockAddr p (r0 / 32 + i) (c0 / 32), ((c0 + nc - 1) / 32 + 1 - c0 / 32) * t.f.blockBytes))

/-- The bytes an access moves: those of the storage range, or the blocks its region touches. -/
def Access.moves (a : Access) (t : Tensor) (write : Bool) : Moves :=
  if a.mode = 0 then [(write, t.base + a.offset, a.len)]
  else (t.regionRuns a.plane a.row0 a.nrows a.col0 a.ncols).map (fun r => (write, r.1, r.2))

/-- A TENSOR_READ starts: one of a receive ring resolves to slot LAST and pins it, and waits for the first slot where none is complete
(R199).
(DEDUCED, log entry 114.) -/
def State.startRead (s : State) (c : Cmd) : State :=
  let h := (accessOf c.params).handle
  match s.tensor h with
  | none => s.startCmd c
  | some t =>
    if !s.receiveRing h then s.startCmd c
    else if s.ringLast t < t.planes then
      s.setCmd { c with running := true, startedAt := s.now, body := .read h (s.ringLast t) }
    else s

/-- The class a data command moves its bytes under (Table 6.7), and the bytes.
(DESIGN CHOICE, log entry 113.) -/
def State.dataMoves (s : State) (c : Cmd) : Activity × Moves :=
  let a := accessOf c.params
  let x := s.tensor (fld c.params 0 4)
  match c.op, x with
  | .tensorWrite, some t => (.ingest, a.moves t true)
  | .tensorRead, some t =>
    (.ingest, match s.readTensor c t with
      | some u => (if t.layout = .ring ∧ u.layout = .blocked then { a with plane := 0 } else a).moves u false
      | none => [])
  | .tensorCopy, some t =>
    (.compute, match s.tensor (fld c.params 4 4) with
      | some u =>
        let np := fld c.params 10 2
        let k := fld c.params 8 2
        match t.layout with
        | .raw => [(false, t.base, t.footprint), (true, u.base, t.footprint)]
        | .ring => [(false, t.planeAddr (s.ringLast t), t.planeBytes), (true, u.planeAddr k, t.planeBytes)]
        | .blocked =>
          let n := (if np = 0 then min t.planes u.planes - k else np) * t.planeBytes
          [(false, t.planeAddr k, n), (true, u.planeAddr k, n)]
      | none => [])
  | .tensorFill, some t =>
    let pl := (fillPlanes t (fld c.params 8 2) (fld c.params 10 2)).getD (0, 0)
    (.compute, if t.layout = .raw then [(true, t.base, t.footprint)] else [(true, t.planeAddr pl.1, pl.2 * t.planeBytes)])
  | _, _ => (.compute, [])

/-- The work of a data command. -/
def State.dataWork (s : State) (c : Cmd) : State :=
  match c.op with
  | .tensorWrite =>
    let r := s.doWrite c (match c.bulk with | some b => b.data | none => [])
    r.1.completeGeneric c (doneRes r.2) r.2 0 0
  | .tensorRead => s.doRead c
  | .tensorCopy => s.doCopy c
  | .tensorFill => s.doFill c
  | _ => s

/-- TENSOR_COMMAND_DONE (R385 to R388): the command finishes its memory traffic and completes.
(DESIGN CHOICE, log entry 38.) -/
def execTensorCommandDone (source tag : Nat) (s : State) : Host.Outcome State Fault Refusal :=
  match s.cmd source tag with
  | none => .next s
  | some c =>
    if !s.mayStart c then .next s
    else
      let m := s.dataMoves c
      .next (s.moving m.1 m.2 (fun s => s.dataWork c))

end Sys2Proof.Machine
end

