-- ==== Sys2Proof/Machine/Collective.lean ====
section
/-!
DEFINITION. Crew lists and collectives (R293 to R309), and what an UPDATE_RUN's completion says (Table 8.16), since a norm
all-reduce can end one.
-/
namespace Sys2Proof.Machine

/-! ## Segments and elements (R294, R303) -/

/-- Elements and bytes of the smallest whole unit of a format: a pair in LNS12 and PW4, a block row in BLNS8. -/
def Fmt.unit (f : Fmt) : Nat × Nat :=
  match f with
  | .lns12 => (2, 3) | .pw4 => (2, 1) | .blns8 => (32, 33) | _ => (1, f.bits / 8)

/-- The tensor whose shape a collective has. -/
def CollRun.shape (r : CollRun) (s : State) : Option Tensor :=
  match r.input with
  | some h => s.tensor h
  | none => match r.output with | some h => s.tensor h | none => none

/-- Blocks of the data of a collective (R294); the elements of a norm all-reduce fill blocks of 1,024. -/
def CollRun.blocks (r : CollRun) (s : State) : Nat :=
  match r.shape s with
  | some t => t.planes * t.br * t.bc
  | none => (r.vec.length + 1023) / 1024

/-- A storage index holds no element of the data. -/
def CollRun.absent (r : CollRun) (s : State) (x : Nat) : Bool :=
  match r.shape s with
  | some t => t.padding x
  | none => decide (r.vec.length ≤ x)

/-- The storage indexes of the units of `g` elements in blocks `lo` to `hi - 1`, those of padding alone left out. -/
def CollRun.units (r : CollRun) (s : State) (g lo hi : Nat) : List Nat :=
  ((List.range ((hi - lo) * (1024 / g))).map (fun i => lo * 1024 + i * g)).filter (fun x =>
    (List.range g).any (fun k => !r.absent s (x + k)))

/-- The elements of a unit that are no padding: those alone travel (R294).
(DESIGN CHOICE, log entry 120.) -/
def CollRun.present (r : CollRun) (s : State) (g x : Nat) : Nat := ((List.range g).filter (fun k => !r.absent s (x + k))).length

/-- Bytes on the wire of a unit of which `n` elements are present: packed, in BLNS8 with the row's scale after them. -/
def Fmt.wireBytes (f : Fmt) (n : Nat) : Nat := if f = .blns8 then n + 1 else (f.bits * n + 7) / 8

/-- A unit of a tensor as it travels: its elements without the padding after them. -/
def Fmt.trimUnit (f : Fmt) (n : Nat) (bs : List Byte) : List Byte :=
  if f = .blns8 then bs.take n ++ (bs.drop 32).take 1 else leBytes (f.wireBytes n) (leNat bs % 2 ^ (f.bits * n))

/-- The bytes a unit has in memory, its padding +0. -/
def Fmt.fillUnit (f : Fmt) (n : Nat) (bs : List Byte) : List Byte :=
  if f = .blns8 then padTo 32 (bs.take n) ++ (bs.drop n).take 1 else padTo f.unit.2 bs

/-- The units of segment `seg` (R294). -/
def CollRun.segUnits (r : CollRun) (s : State) (g seg : Nat) : List Nat :=
  let p := max 1 r.members.length
  let nb := r.blocks s
  r.units s g (seg * nb / p) ((seg + 1) * nb / p)

/-- Every unit of the data. -/
def CollRun.allUnits (r : CollRun) (s : State) (g : Nat) : List Nat := r.units s g 0 (r.blocks s)

/-- Members of the crew list. -/
def CollRun.p (r : CollRun) : Nat := r.members.length

/-- Ring step `s` is a step of the reduction (R295). -/
def CollRun.reducing (r : CollRun) (step : Nat) : Bool := decide (r.kind ≤ 1) && decide (step < r.p)

/-- The last ring step of this member. -/
def CollRun.lastStep (r : CollRun) : Nat :=
  match r.kind with
  | 0 => r.p - 1
  | 1 => 2 * (r.p - 1)
  | 2 => r.p - 1
  | 3 => (r.rank + r.p - r.peer) % r.p
  | 5 => 1
  | _ => 0

/-- The format elements travel in at a step; none for the packed TAL form (R301). -/
def CollRun.wireFmt (r : CollRun) (s : State) (step : Nat) : Option Fmt :=
  if r.combine = 0 ∧ r.kind ≤ 1 ∧ (r.reducing step ∨ r.close = 0) then none
  else if r.reducing step then some (if r.combine = 1 then .lns16 else .lns24)
  else
    match r.output, r.input with
    | some h, _ => (s.tensor h).map Tensor.f
    | none, some h => (s.tensor h).map Tensor.f
    | none, none => none

/-- Elements of a unit at a step. -/
def CollRun.unitAt (r : CollRun) (s : State) (step : Nat) : Nat :=
  match r.wireFmt s step with
  | some f => f.unit.1
  | none => 1

/-- The units this member receives at a step (R295, R298). -/
def CollRun.stepUnits (r : CollRun) (s : State) (step : Nat) : List Nat :=
  let g := r.unitAt s step
  let p := max 1 r.p
  if r.reducing step then r.segUnits s g ((r.rank + 2 * p - 1 - step % p) % p)
  else
    match r.kind with
    | 1 => r.segUnits s g ((r.rank + 2 * p - (step - (p - 1)) % p) % p)
    | 2 => r.segUnits s g ((r.rank + p - step % p) % p)
    | _ => r.allUnits s g

/-- The steps at which this member receives. -/
def CollRun.rxSteps (r : CollRun) : List Nat :=
  match r.kind with
  | 3 => if r.rank = r.peer then [] else [r.lastStep]
  | 4 => []
  | _ => (List.range r.lastStep).map (fun i => i + 1)

/-- The step of a flit from its SEG byte and FIRST: SEG holds the low 8 bits of the ring step. Where a step of the reduction and one
of the gather share it, and the segment, it is the first of which the range has not been received.
(DEDUCED, log entry 119.) -/
def CollRun.stepOf (r : CollRun) (s : State) (seg first : Nat) : Option Nat :=
  let ks := r.rxSteps.filter (fun k => decide (k % 256 = seg) && (r.stepUnits s k).contains first)
  match ks.find? (fun k => !r.got.contains (k, first)) with
  | some k => some k
  | none => ks.head?

/-! ## Sending -/

/-- A collective's packed units cut into flits of whole units, at most 228 bytes each (R303): FIRST, the number of elements and the
bytes. A unit is given with the elements it holds. -/
def packFlits : List (Nat × Nat × List Byte) → List (Nat × Nat × List Byte)
  | [] => []
  | x :: xs =>
    match packFlits xs with
    | [] => [x]
    | y :: ys =>
      if x.2.2.length + y.2.2.length ≤ 228 then (x.1, x.2.1 + y.2.1, x.2.2 ++ y.2.2) :: ys else x :: y :: ys

/-- Units sent to a member at a ring step. -/
def State.collSend (s : State) (r : CollRun) (dest step : Nat) (xs : List (Nat × List Byte)) : State :=
  let g := r.unitAt s step
  (packFlits (xs.map (fun x => (x.1, r.present s g x.1, x.2)))).foldl (fun t y =>
    t.sendFlit dest r.tc r.crew r.cid (leBytes 4 y.1 ++ leBytes 2 y.2.1 ++ leBytes 1 step ++ leBytes 1 0 ++ y.2.2) []) s

/-- The next member of the ring. -/
def CollRun.next (r : CollRun) : Nat := r.members.getD ((r.rank + 1) % max 1 r.p) 0

/-- The bytes of a unit of a tensor. -/
def State.unitBytes (s : State) (t : Tensor) (x : Nat) : List Byte :=
  let e := t.ofStorage x
  let g := t.elemRange e.1 e.2.1 e.2.2
  s.read g.1 (if t.f = .blns8 then 33 else g.2)

/-- A unit of a tensor as a collective sends it (R294). -/
def State.wireUnit (s : State) (r : CollRun) (t : Tensor) (x : Nat) : List Byte :=
  t.f.trimUnit (r.present s t.f.unit.1 x) (s.unitBytes t x)

/-- A unit written into a tensor, charged to COLLECTIVE (R203). -/
def State.putUnit (s : State) (h x : Nat) (bs : List Byte) : State :=
  match s.tensor h with
  | some t =>
    let e := t.ofStorage x
    let a := (t.elemRange e.1 e.2.1 e.2.2).1
    (s.charge .collective [(true, a, bs.length)]).write a bs
  | none => s

/-- A unit as it travels, written into a tensor. -/
def State.putWire (s : State) (r : CollRun) (h x : Nat) (bs : List Byte) : State :=
  match s.tensor h with
  | some t => s.putUnit h x (t.f.fillUnit (r.present s t.f.unit.1 x) bs)
  | none => s

/-- This member's own element as it enters an exact reduction (R296); a NaN raises NAN_IN (R42). -/
def CollRun.ownTal (r : CollRun) (s : State) (x : Nat) : Tal × FlagWord :=
  match r.input with
  | none => (r.vec.getD x .fresh, 0)
  | some h =>
    match s.tensor h with
    | none => (.fresh, 0)
    | some t =>
      let e := t.ofStorage x
      if t.f = .tal then (s.talAt t e.1 e.2.1 e.2.2, 0)
      else
        let v := s.logAt t e.1 e.2.1 e.2.2
        let a := Tal.fresh.addTerm (Tag.ofCode r.tag) v.1
        (a.1, v.2 ||| a.2 ||| nanIns [v.1])

/-- This member's own element as it enters a rounded reduction (R297). -/
def CollRun.ownLog (r : CollRun) (s : State) (x : Nat) : LVal × FlagWord :=
  match r.input with
  | some h => match s.tensor h with
    | some t => let e := t.ofStorage x; s.logAt t e.1 e.2.1 e.2.2
    | none => (.nan, 0)
  | none => (.nan, 0)

/-- The shape a rounded reduction writes. -/
def CollRun.target (r : CollRun) : LnsShape := if r.combine = 1 then shape16 else shape24

/-- Units of this member's own data as it first sends them at a step, with the flags of their conversion. -/
def CollRun.ownUnits (r : CollRun) (s : State) (step : Nat) (xs : List Nat) : List (Nat × List Byte) × FlagWord :=
  if r.kind ≤ 1 then
    if r.combine = 0 then
      let ts := xs.map (fun x => (x, r.ownTal s x))
      (ts.map (fun y => (y.1, y.2.1.pack)), flagsOr (ts.map (fun y => y.2.2)))
    else
      let es := xs.map (fun x => let v := r.ownLog s x; let e := lnsEncode r.target v.1; (x, e.code, v.2 ||| e.flags))
      (es.map (fun y => (y.1, leBytes (if r.combine = 1 then 2 else 3) y.2.1)), flagsOr (es.map (fun y => y.2.2)))
  else
    match r.input with
    | some h =>
      match s.tensor h with
      | some t => (xs.map (fun x => (x, s.wireUnit r t x)), 0)
      | none => ([], 0)
    | none => let _ := step; ([], 0)

/-! ## Closing (R296) -/

/-- The elements of the own segment closed into OUT and its units on the wire. A BLNS8 OUT closes row by row. -/
def State.closeSegment (s : State) (h : Nat) (acc : List (Nat × Tal)) : State × FlagWord :=
  match s.tensor h with
  | none => (s, 0)
  | some t =>
    let closed := acc.map (fun x => let c := x.2.close CloseCol.plain; (x.1, c.1, c.2))
    let pre := flagsOr (closed.map (fun x => x.2.2))
    if t.f = .blns8 then
      let rows := (closed.map (fun x => x.1 / 32)).eraseDups
      rows.foldl (fun a row =>
        let vs := (List.range 32).map (fun k =>
          match closed.find? (fun x => x.1 = 32 * row + k) with
          | some x => XVal.log x.2.1
          | none => .log .pzero)
        let e := blnsEncode vs
        (a.1.putUnit h (32 * row) (e.1.map (fun y => BitVec.ofNat 8 y.code) ++ [BitVec.ofNat 8 e.2.1]), a.2 ||| e.2.2)) (s, pre)
    else
      closed.foldl (fun a x =>
        let e := encodeElem t.f (scaleLog t.scale) (.log x.2.1)
        let y := t.ofStorage x.1
        let g := t.elemRange y.1 y.2.1 y.2.2
        ((a.1.charge .collective [(true, g.1, g.2)]).putElem t y.1 y.2.1 y.2.2 e.code, a.2 ||| e.flags)) (s, pre)

/-! ## The engine -/

/-- A unit received and combined with the own element in a reduction: what travels on, or is the result, and the flags. -/
inductive Combined where
  | tal (t : Tal)
  | code (c : Nat)
  deriving DecidableEq, Repr

/-- One element combined under R296 or R297; a NaN among the operands of a rounded sum raises NAN_IN (R42). -/
def CollRun.combineAt (r : CollRun) (s : State) (x : Nat) (bs : List Byte) : Combined × FlagWord :=
  if r.combine = 0 then
    let a := Tal.unpack bs
    let own := r.ownTal s x
    let c := a.1.combine own.1
    (.tal c.1, a.2 ||| own.2 ||| c.2)
  else
    let own := r.ownLog s x
    let vs := [lnsDecode r.target (leNat bs), own.1]
    let sum := lvSum vs
    let e := lnsEncode r.target sum.1
    (.code e.code, own.2 ||| sum.2 ||| e.flags ||| nanIns vs)

/-- What travels on. -/
def Combined.bytes (combine : Nat) : Combined → List Byte
  | .tal t => t.pack
  | .code c => leBytes (if combine = 1 then 2 else 3) c

/-- The units of a flit of `n` elements: of the units from its first, each with the elements it holds, those that fill it. -/
def takeUnits : Nat → List (Nat × Nat) → List (Nat × Nat)
  | _, [] => []
  | n, x :: xs => if 0 < n ∧ x.2 ≤ n then x :: takeUnits (n - x.2) xs else []

/-- The units of a flit with their bytes: in a format, or packed. -/
def splitUnits (f : Option Fmt) : List (Nat × Nat) → List Byte → List (Nat × List Byte)
  | [], _ => []
  | x :: xs, bs =>
    let m := match f with | none => packLen (bs.headD 0).toNat | some y => y.wireBytes x.2
    (x.1, bs.take m) :: splitUnits f xs (bs.drop m)

/-- The final element of a reduction kept: in `vec` for a norm, for closing, or written to OUT. -/
def State.keepResult (s : State) (r : CollRun) (x : Nat) (c : Combined) : State × CollRun :=
  match r.output, c with
  | none, .tal t => (s, { r with vec := r.vec.set x t })
  | none, .code _ => (s, r)
  | some h, .tal t =>
    if r.close = 1 then (s, { r with acc := r.acc ++ [(x, t)] }) else (s.putUnit h x (leBytes 48 t.encode), r)
  | some h, .code c => (s.putUnit h x (leBytes (if r.combine = 1 then 2 else 3) c), r)

/-- A gathered unit written to OUT, or into `vec`. -/
def State.keepGathered (s : State) (r : CollRun) (packed : Bool) (x : Nat) (bs : List Byte) : State × CollRun :=
  match r.output with
  | none => (s, { r with vec := r.vec.set x (Tal.unpack bs).1 })
  | some h => (if packed then s.putUnit h x (leBytes 48 (Tal.unpack bs).1.encode) else s.putWire r h x bs, r)

/-- The own segment's units as the gather sends them, read from where the results are kept. -/
def CollRun.ownResult (r : CollRun) (s : State) (step : Nat) : List (Nat × List Byte) :=
  let xs := r.segUnits s (r.unitAt s step) r.rank
  match r.output with
  | none => xs.map (fun x => (x, (r.vec.getD x .fresh).pack))
  | some h =>
    match s.tensor h with
    | none => []
    | some t =>
      if r.wireFmt s step = none then xs.map (fun x => let e := t.ofStorage x; (x, (s.talAt t e.1 e.2.1 e.2.2).pack))
      else xs.map (fun x => (x, s.wireUnit r t x))

/-- R295: the reduction of the own segment has ended: it is closed, and an ALL_REDUCE starts to gather. -/
def State.reduceDone (s : State) (r : CollRun) : State × CollRun :=
  let c : State × FlagWord :=
    match r.output with
    | some h => if r.close = 1 then s.closeSegment h r.acc else (s, 0)
    | none => (s, 0)
  let r1 := { r with acc := [], flags := r.flags ||| c.2 }
  if r.kind = 1 ∧ 1 < r.p then (c.1.collSend r1 r1.next r.p (r1.ownResult c.1 r.p), r1) else (c.1, r1)

/-- Units received at each step so far. -/
def CollRun.countAt (r : CollRun) (step : Nat) : Nat := assocGet 0 r.counts step

/-- A flit delivered to a running collective (R295 to R298). -/
def State.collTake (s : State) (r : CollRun) (f : Flit) : State × CollRun :=
  let first := fld f.payload 0 4
  let seg := fld f.payload 6 1
  let r0 := { r with lastRx := s.now }
  match r.stepOf s seg first with
  | none => (s.count 0x050B 1, r0)
  | some step =>
    if r.got.contains (step, first) then (s.count 0x050B 1, r0)
    else
      let g := r.unitAt s step
      let packed := decide (r.wireFmt s step = none)
      let xs := ((r.stepUnits s step).dropWhile (fun x => decide (x ≠ first))).map (fun x => (x, r.present s g x))
      let us := splitUnits (r.wireFmt s step) (takeUnits (fld f.payload 4 2) xs) (f.payload.drop 8)
      let r1 := { r0 with got := (step, first) :: r.got, counts := assocPut r.counts step (r.countAt step + us.length) }
      if r.reducing step then
        let cs := us.map (fun u => (u.1, r.combineAt s u.1 u.2))
        let s1 := s.count 0x050C (if r.combine = 0 then cs.length else 0)
        let r2 := { r1 with flags := r1.flags ||| flagsOr (cs.map (fun c => c.2.2)) }
        if step + 1 < r.p then
          (s1.collSend r2 r2.next (step + 1) (cs.map (fun c => (c.1, c.2.1.bytes r.combine))), r2)
        else
          let k := cs.foldl (fun a c => a.1.keepResult a.2 c.1 c.2.1) (s1, r2)
          if r2.countAt step = (r.stepUnits s step).length then k.1.reduceDone k.2 else k
      else
        let k := us.foldl (fun a u => a.1.keepGathered a.2 packed u.1 u.2) (s, r1)
        let last := if r.kind = 3 then r.p - 1 else r.lastStep
        if step < last ∧ r.kind ≠ 5 then (k.1.collSend k.2 k.2.next (step + 1) us, k.2) else k

/-- The first sends of a collective as it starts (R295, R298). -/
def State.collBegin (s : State) (r : CollRun) : State × CollRun :=
  let r0 := { r with started := true, lastRx := s.now }
  match r.kind with
  | 2 =>
    let own := r.ownUnits s 1 (r.segUnits s (r.unitAt s 1) r.rank)
    let s1 := match r.output with
      | some h => own.1.foldl (fun t u => t.putWire r h u.1 u.2) s
      | none => s
    if 1 < r.p then (s1.collSend r0 r.next 1 own.1, r0) else (s1, r0)
  | 3 =>
    if r.rank = r.peer then
      let own := r.ownUnits s 1 (r.allUnits s (r.unitAt s 1))
      let s1 := match r.output with
        | some h => own.1.foldl (fun t u => t.putWire r h u.1 u.2) s
        | none => s
      if 1 < r.p then (s1.collSend r0 r.next 1 own.1, r0) else (s1, r0)
    else (s, r0)
  | 4 => (s.collSend r0 (r.members.getD r.peer 0) 1 (r.ownUnits s 1 (r.allUnits s (r.unitAt s 1))).1, r0)
  | 5 => (s, r0)
  | _ =>
    if r.p ≤ 1 then
      let xs := r.segUnits s 1 0
      let k := xs.foldl (fun (a : State × CollRun) x =>
        if r.combine = 0 then
          let t := r.ownTal s x
          a.1.keepResult { a.2 with flags := a.2.flags ||| t.2 } x (.tal t.1)
        else
          let v := r.ownLog s x
          let e := lnsEncode r.target v.1
          a.1.keepResult { a.2 with flags := a.2.flags ||| v.2 ||| e.flags } x (.code e.code)) (s, r0)
      k.1.reduceDone k.2
    else
      let own := r.ownUnits s 1 (r.segUnits s (r.unitAt s 1) ((r.rank + r.p - 1) % r.p))
      (s.collSend r0 r.next 1 own.1, { r0 with flags := r0.flags ||| own.2 })

/-- Every element this member waits for has come. -/
def CollRun.complete (r : CollRun) (s : State) : Bool :=
  r.rxSteps.all (fun k => decide (r.countAt k = (r.stepUnits s k).length))

/-- R299: a flit of the collective that this device sent has not been acknowledged by the next hop. -/
def State.collUnacked (s : State) (r : CollRun) : Bool :=
  let mine (f : Flit) : Bool := decide (f.cid = r.cid) && decide (f.crew = r.crew % 2 ^ 16)
    && decide (s.devAddr = some f.src) && decide (f.tc = r.tc)
  s.net9.links.any (fun l => l.queue.any mine || l.replay.any (fun x => mine x.2)) || s.net9.waiting.any mine

/-- R195: the padding of the blocks a collective has written in OUT, charged to COLLECTIVE. -/
def State.padOut (s : State) (r : CollRun) : State :=
  match r.output with
  | none => s
  | some h =>
    match s.tensor h with
    | none => s
    | some t =>
      let p := max 1 r.p
      let nb := r.blocks s
      let lo := if r.kind = 0 then r.rank * nb / p else 0
      let hi := if r.kind = 0 then (r.rank + 1) * nb / p else nb
      (List.range (hi - lo)).foldl (fun s k =>
        let b := lo + k
        let bi := b / t.bc % t.br
        let bj := b % t.bc
        let whole := decide (32 * bi + 32 ≤ t.rows) && decide (32 * bj + 32 ≤ t.cols)
        let ms : Moves := if whole then [] else [(true, t.blockAddr (b / (t.br * t.bc)) bi bj, t.f.blockBytes)]
        (s.charge .collective ms).putBlock t (b / (t.br * t.bc)) bi bj (fun i =>
          let row := 32 * bi + (if t.f = .blns8 then i / 33 else i / 32)
          let col := 32 * bj + (if t.f = .blns8 then i % 33 else i % 32)
          if row < t.rows ∧ col < t.cols ∧ (t.f ≠ .blns8 ∨ i % 33 < 32) then
            some (s.code t (b / (t.br * t.bc)) row col)
          else none)) s

/-! ## Completions -/

/-- The parameter block of an UPDATE_RUN's completion (Table 8.16). -/
def updateBlock (s : State) (c : Cmd) (r : UpdRun) (cause : Nat) : List Byte :=
  let outcome := (if r.pass1.all (fun x => decide (x = .ended)) then 1 else 0)
    + (if cause = 0 ∧ !r.skipped ∧ r.mode = 0 then 2 else 0) + (if r.skipped then 4 else 0)
  let recs := r.lrecs.take 32
  leBytes 1 r.flags.toNat ++ leBytes 1 cause ++ leBytes 1 outcome ++ leBytes 1 recs.length ++ leBytes 8 r.frozenHits
    ++ leBytes 2 r.singular ++ leBytes 2 r.damped
    ++ ((List.range 4).flatMap (fun q => leBytes 2 (r.done.getD q 0))) ++ leBytes 1 r.failed ++ leBytes 3 0
    ++ leBytes 4 (s.runUs c)
    ++ recs.flatMap (fun x => leBytes 2 x.layer ++ leBytes 1 x.retries ++ leBytes 1 (if x.kept then 1 else 0))

/-- The result of an UPDATE_RUN (R264). -/
def UpdRun.result (r : UpdRun) (cause : Nat) : Res :=
  if cause ≠ 0 then .aborted else if 0 < r.singular then .singular else doneRes r.flags

/-- The collective of a command: its own, or the norm all-reduce of an UPDATE_RUN. -/
def Cmd.collective (c : Cmd) : Option CollRun :=
  match c.body with
  | .coll r => some r
  | .update r => r.norm
  | _ => none

/-- A version that a non-terminal command uses. -/
def State.crewUsed (s : State) (v : Nat) : Bool :=
  s.cmds.any (fun c => match c.collective with | some r => decide (r.crew = v) | none => false)

/-- R305: older lists that no command uses any more are discarded. -/
def State.trimCrews (s : State) : State :=
  { s with net9 := { s.net9 with oldCrews := s.net9.oldCrews.filter (fun c => s.crewUsed c.version) } }

/-- An UPDATE_RUN completes; its crew list may have no use left (R305). -/
def State.endUpdate (s : State) (c : Cmd) (r : UpdRun) (cause : Nat) : State :=
  let s1 := s.complete c (r.result cause) (updateBlock s c r cause)
  (if cause = 0 then (s1.count 0x0340 1).count 0x0343 (if r.skipped then 1 else 0) else s1).trimCrews

/-- A member's address in DETAIL. -/
def detailOf (a : Nat) : Nat := a % 2 ^ 20 + 2 ^ 31

/-- A collective ends without its commit point: OUT is left undefined (R299, R300); a norm all-reduce ends its UPDATE_RUN. -/
def State.failColl (s : State) (c : Cmd) (cause detail : Nat) : State :=
  match c.body with
  | .coll r =>
    let s1 := match r.output with | some h => if r.started then s.scramble h else s | none => s
    (s1.completeGeneric c .aborted r.flags cause detail).trimCrews
  | .update r => s.endUpdate c r cause
  | _ => s

/-- A command with its collective replaced. -/
def Cmd.withCollective (c : Cmd) (r : CollRun) : Cmd :=
  match c.body with
  | .coll _ => { c with body := .coll r }
  | .update u => { c with body := .update { u with norm := some r } }
  | _ => c

/-- The accepted command whose collective a flit names. -/
def State.collFor (s : State) (crew cid : Nat) : Option Cmd :=
  s.cmds.find? (fun c =>
    match c.collective with
    | some r => decide (r.crew % 2 ^ 16 = crew) && decide (r.cid = cid)
    | none => false)

/-! ## Received flits of classes 1 to 5 (R308) -/

/-- How a flit's crew version stands. -/
inductive CrewAge where
  | current | newer | older
  deriving DecidableEq, Repr

/-- The low 16 bits of a version against the current one; versions are less than 2^15 apart (R304). -/
def State.crewAge (s : State) (crew : Nat) : CrewAge :=
  let d := (crew + 2 ^ 16 - s.crewVersion % 2 ^ 16) % 2 ^ 16
  if d = 0 then .current else if d < 2 ^ 15 then .newer else .older

/-- The collective ID of a flit of classes 1 to 5 (Table 9.4): class 1 names it in its payload. -/
def collIdOf (f : Flit) : Nat := if f.tc = 1 then Config.crewCid f.payload else f.cid

/-- Flits of 256 bytes that the match buffer of 4 MiB holds (R308). -/
def matchFlits : Nat := 16384

/-- A flit put into the match buffer; it keeps the receive credit of its link. While the buffer is full it waits in its receive
buffer. -/
def State.holdFlit (s : State) (link : Option Nat) (cancel : Bool) (f : Flit) : State :=
  if s.net9.held.length < matchFlits then { s with net9 := { s.net9 with held := s.net9.held ++ [(link, cancel, f)] } }
  else { s with net9 := { s.net9 with stuck := s.net9.stuck ++ [(link, cancel, f)] } }

/-- An earlier flit of the link, class and channel waits in its receive buffer. -/
def State.behind (s : State) (link : Option Nat) (f : Flit) : Bool :=
  s.net9.stuck.any (fun x => decide (x.1 = link) && decide (x.2.2.tc = f.tc) && decide (x.2.2.vc = f.vc))

/-- The receive buffer of a flit is freed: its credit goes back (R280). -/
def State.freeBuffer (s : State) (link : Option Nat) (f : Flit) : State :=
  match link with
  | none => s
  | some i =>
    let l := s.link i
    let ix := creditIx f.tc f.vc
    s.setLink i { l with owed := l.owed.set ix (l.owed.getD ix 0 + 1) }

/-- R308: a stale flit is dropped and counted, and the first of its (version, CID) answered by a STALE notice.
(DESIGN CHOICE, log entry 16.) -/
def State.stale (s : State) (f : Flit) : State :=
  let s1 := s.count 0x050A 1
  let id := collIdOf f
  if s.net9.notified.contains (f.crew, id) then s1
  else
    let s2 := { s1 with net9 := { s1.net9 with notified := s1.net9.notified ++ [(f.crew, id)] } }
    s2.sendFlit f.src 1 f.crew 0 ((List.range 236).map (Config.crewByte false id)) []

/-- A CANCEL (`true`) or STALE notice meets a command's collective (R299, R308).
(DESIGN CHOICE, log entry 16.) -/
def State.crewEnd (s : State) (c : Cmd) (cancel : Bool) (f : Flit) : State :=
  s.failColl c (if cancel then 0x04 else 0x26) (detailOf f.src)

/-- A RECV takes the flits of its peer alone (R298). -/
def CollRun.expects (r : CollRun) (f : Flit) : Bool := decide (r.kind ≠ 5) || decide (r.members[r.peer]? = some f.src)

/-- R308 for a flit that no accepted command takes, a CANCEL and a STALE notice like any other: of a CID committed, held, or
stale. -/
def State.crewOther (s : State) (link : Option Nat) (cancel : Bool) (f : Flit) : State :=
  if s.net9.committed.contains (f.crew, collIdOf f) then (s.count 0x050B (if f.tc = 1 then 0 else 1)).freeBuffer link f
  else
    match s.crewAge f.crew with
    | .older => (s.stale f).freeBuffer link f
    | _ => s.holdFlit link cancel f

/-- R308: a received flit of classes 1 to 5: delivered, held, discarded or dropped as stale. `cancel` tells a class 1
CANCEL from a STALE notice. A CANCEL ends an accepted collective at once (R299), a STALE notice one that runs. -/
def State.crewTake (s : State) (link : Option Nat) (cancel : Bool) (f : Flit) : State :=
  match s.collFor f.crew (collIdOf f) with
  | none => s.crewOther link cancel f
  | some c =>
    match c.collective with
    | none => s.freeBuffer link f
    | some r =>
      if f.tc = 1 then
        if r.started ∨ cancel then (s.crewEnd c cancel f).freeBuffer link f else s.holdFlit link cancel f
      else if r.started ∧ r.expects f then
        let k := s.collTake r f
        (k.1.setCmd (c.withCollective k.2)).freeBuffer link f
      else s.holdFlit link cancel f

/-- A received flit of classes 1 to 5 taken, or kept behind those that wait in their receive buffers (R308). -/
def State.crewFlit (s : State) (link : Option Nat) (cancel : Bool) (f : Flit) : State :=
  if s.behind link f then { s with net9 := { s.net9 with stuck := s.net9.stuck ++ [(link, cancel, f)] } }
  else s.crewTake link cancel f

/-- The flits that waited in their receive buffers offered again in the order they came: those of a collective that runs are
delivered, the others held where the match buffer has room. -/
def State.unstick (s : State) : State :=
  s.net9.stuck.foldl (fun t x => t.crewFlit x.1 x.2.1 x.2.2) { s with net9 := { s.net9 with stuck := [] } }

/-- What a flit of a collective that runs writes to OUT when it is taken (R295 to R298); a reduction that closes writes at its end. -/
def State.collMoves (s : State) (f : Flit) : Moves :=
  let first := fld f.payload 0 4
  match (s.collFor f.crew f.cid).bind Cmd.collective with
  | none => []
  | some r =>
    match r.output.bind s.tensor, r.stepOf s (fld f.payload 6 1) first with
    | some t, some step =>
      if !r.started ∨ !r.expects f ∨ r.got.contains (step, first) ∨ (r.reducing step ∧ (step + 1 < r.p ∨ r.close = 1)) then []
      else
        let g := r.unitAt s step
        let xs := ((r.stepUnits s step).dropWhile (fun x => decide (x ≠ first))).map (fun x => (x, r.present s g x))
        (takeUnits (fld f.payload 4 2) xs).map (fun u =>
          let e := t.ofStorage u.1
          (true, (t.elemRange e.1 e.2.1 e.2.2).1, t.f.unit.2))
    | _, _ => []

/-- Held flits of a collective that starts, in the order they came (R308). -/
def State.takeHeld (s : State) (crew cid : Nat) : State :=
  let mine := s.net9.held.filter (fun x => decide (x.2.2.crew = crew % 2 ^ 16) && decide (collIdOf x.2.2 = cid))
  let s1 := { s with net9 := { s.net9 with held := s.net9.held.filter (fun x => !(mine.contains x)) } }
  (mine.foldl (fun t x =>
    match t.collFor (crew % 2 ^ 16) cid with
    | some _ => t.crewTake x.1 x.2.1 x.2.2
    | none => t.freeBuffer x.1 x.2.2) s1).unstick

/-- Held flits whose version has become stale are dropped (R308). -/
def State.dropStale (s : State) : State :=
  let old := s.net9.held.filter (fun x =>
    decide (s.crewAge x.2.2.crew = .older) && decide (s.collFor x.2.2.crew (collIdOf x.2.2) = none))
  let s1 := { s with net9 := { s.net9 with held := s.net9.held.filter (fun x => !(old.contains x)) } }
  (old.foldl (fun t x => (t.stale x.2.2).freeBuffer x.1 x.2.2) s1).unstick

/-! ## Crew lists (R304 to R307) -/

/-- A list becomes current. -/
def State.newCrew (s : State) (c : Crew) : State :=
  let s1 := { s with net9 := { s.net9 with crew := c, pendingCrew := none, oldCrews := s.net9.oldCrews ++ [s.net9.crew] } }
  s1.trimCrews.dropStale

/-- R306: a command moves the local step, and the pending list becomes current where its step is reached. -/
def State.moveStep (s : State) (step : Nat) : State :=
  let s1 := { s with net9 := { s.net9 with localStep := max s.net9.localStep step } }
  match s1.net9.pendingCrew with
  | some p => if p.step ≤ s1.net9.localStep then s1.newCrew p.crew else s1
  | none => s1

/-- CREW_LIST_SET: its parameters; the members follow as bulk data. -/
def crewListSet (q : Req) (s : State) : Verdict :=
  let n := fld q.params 4 4
  if q.params.length ≠ 16 ∨ n = 0 ∨ 65536 < n then refuse .badParam s else .await (4 * n) s

/-- The members of a crew list. -/
def crewMembers (bs : List Byte) : List Nat := (cut 4 (bs.length / 4) bs).map (fun g => leNat g % 2 ^ 20)

/-- CREW_LIST_SET with its members (R304, R306). -/
def State.crewListDone (s : State) (params bs : List Byte) : Res × State :=
  let v := fld params 0 4
  let step := fld params 8 8
  let ms := crewMembers bs
  let pendingV := match s.net9.pendingCrew with | some p => p.crew.version | none => 0
  let lists := 1 + (s.net9.oldCrews.filter (fun c => s.crewUsed c.version)).length
    + (if s.crewUsed s.crewVersion ∧ step ≤ s.localStep then 1 else if s.localStep < step then 1 else 0)
  if v ≤ s.crewVersion ∨ v ≤ pendingV ∨ s.crewVersion + 2 ^ 15 ≤ v ∨ ms.eraseDups.length ≠ ms.length ∨ 4 < lists then
    (.badParam, s)
  else if step ≤ s.localStep then (.ok, s.newCrew ⟨v, ms⟩)
  else (.ok, { s with net9 := { s.net9 with pendingCrew := some ⟨⟨v, ms⟩, step⟩ } })

/-! ## COLLECTIVE_RUN (R293) -/

/-- R296, R298: the formats of IN and OUT fit the kind. -/
def collFormats (kind combine close : Nat) (a b : Option Tensor) : Bool :=
  let shapes :=
    match a, b with
    | some x, some y => decide (x.rows = y.rows) && decide (x.cols = y.cols) && decide (x.planes = y.planes)
    | _, _ => true
  let layouts := (match a with | some x => decide (x.layout = .blocked) | none => true)
    && (match b with | some x => decide (x.layout = .blocked) | none => true)
  let formats :=
    match a, b with
    | some x, some y =>
      if 2 ≤ kind then decide (x.f = y.f)
      else if combine = 0 then
        (decide (x.f = .tal) || x.f.isLns)
          && (if close = 0 then decide (y.f = .tal) else decide (y.f ≠ .tal))
      else
        let target : Fmt := if combine = 1 then .lns16 else .lns24
        x.f.isLns && decide (x.f.bits ≤ target.bits) && decide (y.f = target)
    | _, _ => true
  shapes && layouts && formats

/-- The fields of Table 9.10 are in their ranges. -/
def collFieldsOk (ps : List Byte) (members : Nat) : Bool :=
  let kind := fld ps 0 1
  let combine := fld ps 1 1
  let close := fld ps 2 1
  let peer := fld ps 20 4
  decide (ps.length = 32) && decide (kind ≤ 5) && decide (combine ≤ (if kind ≤ 1 then 2 else 0))
    && decide (close ≤ (if kind ≤ 1 ∧ combine = 0 then 1 else 0)) && decide (fld ps 3 1 ≤ 2) && decide (fld ps 8 4 < 2 ^ 31)
    && (if kind ≤ 2 then decide (peer = 0) else decide (peer < members))
    && decide ((fld ps 24 4 = 0xFFFFFFFF) = (kind = 5)) && decide ((fld ps 28 4 = 0xFFFFFFFF) = (kind = 4))

/-- COLLECTIVE_RUN: it moves the local step, then is checked (R293, R306, R307). -/
def collectiveRun (q : Req) (s0 : State) : Verdict :=
  let ps := q.params
  let s := s0.moveStep (fld ps 12 8)
  let inH := tref (fld ps 24 4)
  let outH := tref (fld ps 28 4)
  let a := inH.bind s.tensor
  let b := outH.bind s.tensor
  let kind := fld ps 0 1
  let ms := s.net9.crew.members
  if fld ps 4 4 ≠ s.crewVersion then refuse .crewChanged s
  else if !collFieldsOk ps ms.length then refuse .badParam s
  else if (inH.isSome ∧ a = none) ∨ (outH.isSome ∧ b = none) then refuse .badParam s
  else if !collFormats kind (fld ps 1 1) (fld ps 2 1) a b then refuse .badParam s
  else if inH.isSome ∧ inH = outH ∧ kind ≠ 1 then refuse .badParam s
  else
    match s.devAddr with
    | none => refuse .badParam s
    | some me =>
      match ms.findIdx? (fun m => m = me) with
      | none => refuse .badParam s
      | some rank =>
        let r : CollRun :=
          { kind := kind, combine := fld ps 1 1, close := fld ps 2 1, tag := fld ps 3 1, crew := s.crewVersion,
            cid := fld ps 8 4, peer := fld ps 20 4,
            tc := if kind ≤ 1 ∧ fld ps 1 1 = 0 then 3 else if kind ≤ 3 then 4 else 5,
            input := inH, output := outH, vec := [], members := ms, rank := rank, started := false, got := [],
            counts := [], acc := [], flags := 0, lastRx := s.now }
        if (s.collFor (r.crew % 2 ^ 16) r.cid).isSome ∨ s.watchFull r.neighbours then refuse .badParam s
        else .accept [] (.coll r) none s

/-! ## The rows of a collective -/

/-- The parts of its input that a collective reads, as address and length: an ALL_GATHER only its own segment (R294). -/
def State.collReads (s : State) (r : CollRun) : List (Nat × Nat) :=
  match r.input.bind s.tensor with
  | none => []
  | some t =>
    if r.kind ≠ 2 then [(t.base, t.footprint)]
    else
      let p := max 1 r.p
      let nb := r.blocks s
      (List.range ((r.rank + 1) * nb / p - r.rank * nb / p)).map (fun k =>
        let b := r.rank * nb / p + k
        (t.blockAddr (b / (t.br * t.bc)) (b / t.bc % t.br) (b % t.bc), t.f.blockBytes))

/-- The input of a collective meets poison (R185). -/
def State.collPoison (s : State) (r : CollRun) : Option (Nat × Nat) := (s.collReads r).find? (fun g => s.poisoned g.1 g.2)

/-- COLLECTIVE_COMMIT (R299): outputs written and every flit acknowledged by the next hop. -/
def execCollectiveCommit (source tag : Nat) (s : State) : Host.Outcome State Fault Refusal :=
  match s.cmd source tag with
  | none => .next s
  | some c =>
    match c.body with
    | .coll r =>
      if r.started ∧ r.complete s ∧ !s.collUnacked r then
        let s1 := s.padOut r
        let s2 := match r.output with | some h => s1.retag h | none => s1
        let s3 := { s2 with net9 := { s2.net9 with committed := s2.net9.committed ++ [(r.crew % 2 ^ 16, r.cid)] } }
        .next ((s3.completeGeneric c (doneRes r.flags) r.flags 0 0).trimCrews)
      else .next s
    | _ => .next s

/-- The member a collective waits on: the previous rank of the ring, or its peer. -/
def CollRun.awaited (r : CollRun) : Nat :=
  if 4 ≤ r.kind then r.members.getD r.peer 0 else r.members.getD ((r.rank + r.p - 1) % max 1 r.p) 0

/-- COLLECTIVE_STALL_TIMEOUT (R300): no flit for COLL_STALL_MS while one is awaited. -/
def execCollectiveStallTimeout (source tag : Nat) (s : State) : Host.Outcome State Fault Refusal :=
  match s.cmd source tag with
  | none => .next s
  | some c =>
    match c.collective with
    | some r =>
      if r.started ∧ !r.complete s then
        .next ((s.reach (r.lastRx + s.setting 0x4005 * 1000)).failColl c 0x40 (detailOf r.awaited))
      else .next s
    | none => .next s

/-- LINK_ENGINE_FAULT (R300): running collectives end with CAUSE 0x41; the fault is a hard fault of a link unit.
(DEDUCED, log entry 29.) -/
def execLinkEngineFault (engine : Nat) (s : State) : Host.Outcome State Fault Refusal :=
  let running := s.cmds.filter (fun c => match c.collective with | some r => r.started | none => false)
  .next (running.foldl (fun t c => t.failColl c 0x41 (detailOf (s.devAddr.getD 0)))
    (s.raiseFault (3 * 4096 + engine % 4096)))

end Sys2Proof.Machine
end

