-- ==== Sys2Proof/Machine/Catalogue.lean ====
section
/-!
DEFINITION. The operator catalogue (Table 5.5): the parameter blocks of Tables 5.6 to 5.8, 4.13, 4.14, 7.3, 7.9 and 7.11, and
the rules of each that do not depend on the bound tensors.
-/
namespace Sys2Proof.Machine

/-! ## Tensor references (R152) -/

/-- The byte offsets of the tensor references of an operator's parameter block. -/
def trefOffsets (op : Nat) : List Nat :=
  match op with
  | 0x0200 => [8, 12, 16, 20, 24, 28, 32, 40, 48, 52, 56, 60, 82]
  | 0x0201 => [4, 8, 12, 16, 20]
  | 0x0202 => [8, 12, 22]
  | 0x0203 => [0, 4, 8, 16, 20]
  | 0x0204 => [0, 4, 8, 12, 16]
  | 0x0205 => [0, 4, 8, 12]
  | 0x0206 => [0, 4]
  | 0x0207 => [0, 4, 12]
  | 0x0208 => [4, 8, 12]
  | 0x0300 => []
  | 0x0400 => [4]
  | _ => [16, 20, 24, 28, 40, 44, 48, 52, 56, 80]

/-- Table 5.4: a reference has one of the encodings that a record, or an OP_RUN, may carry. -/
def trefForm (graph : Bool) (x : Nat) : Bool :=
  decide (x = 0xFFFFFFFF) || decide (x < 2 ^ 31) || (graph && decide (x < 2 ^ 31 + 256))

/-- Four bytes of a block replaced. -/
def patch (bs : List Byte) (i v : Nat) : List Byte := bs.take i ++ leBytes 4 v ++ bs.drop (i + 4)

/-- R152, R160: one binding slot of a block resolved; none outside the binding table. A binding of 0xFFFF_FFFF names no tensor.
(DESIGN CHOICE, log entry 135.) -/
def bindRef (binds : List Nat) (bs : List Byte) (i : Nat) : Option (List Byte) :=
  let x := fld bs i 4
  if x = 0xFFFFFFFF ∨ x < 2 ^ 31 then some bs
  else if x < 2 ^ 31 + 256 then (binds[x - 2 ^ 31]?).map (patch bs i)
  else none

/-- The binding slots of a block resolved. -/
def bindRefs (binds : List Nat) : List Nat → List Byte → Option (List Byte)
  | [], bs => some bs
  | i :: is, bs =>
    match bindRef binds bs i with
    | some x => bindRefs binds is x
    | none => none

/-- A tensor reference of a block. -/
def ref (bs : List Byte) (i : Nat) : Option Nat := tref (fld bs i 4)

/-! ## Common rules -/

/-- The operator IDs of Table 5.5. -/
def opKnown (op : Nat) : Bool :=
  (decide (0x0100 ≤ op) && decide (op ≤ 0x0105)) || (decide (0x0200 ≤ op) && decide (op ≤ 0x0208)) || decide (op = 0x0300)
    || decide (op = 0x0400)

/-- The formats of a value output: ROUND of R84 and R105. -/
def roundFmt (c : Nat) : Option Fmt :=
  match Fmt.ofCode c with
  | some f => if f.isWire ∨ f = .tal then none else some f
  | none => none

/-- A core set is not empty and lies in the network's (R144, Table 5.6). -/
def coresOk (net cs : List Nat) : Bool := !cs.isEmpty && cs.all (fun c => net.contains c)

/-- The indices of the references that name a tensor. -/
def boundIx (xs : List (Option Nat)) : List Nat :=
  ((List.range xs.length).zip xs).filterMap (fun x => if x.2 = none then none else some x.1)

/-- `n` scalars from byte `i` (R154). -/
def scalarsAt (bs : List Byte) (i n : Nat) : List (BitVec 64) :=
  (List.range n).map (fun k => BitVec.ofNat 64 (fld bs (i + 8 * k) 8))

/-- The STOCH lengths' log2, 0 in another mode. -/
def Mode.lg : Mode → Nat
  | .stoch n => n
  | _ => 0

/-- R53, R155: SCALE_A and SCALE_B as the mode wants them. -/
def scalesOk (m : Mode) (a b : Nat) : Bool :=
  if m.isStoch then scaleOk a && scaleOk b else decide (a = 0) && decide (b = 0)

/-- R87: the close offset of a STOCH operator is an integer. -/
def stochPairOk (m : Mode) (a b : Nat) : Bool :=
  !m.isStoch || decide ((scaleLog a + scaleLog b) % 65536 = 0)

/-! ## Convolution geometry (Table 7.3) -/

/-- The geometry block: MODE, KH, KW, SH, SW, DH, DW, PH, PW, IH, IW. -/
def convGeometry (bs : List Byte) : List Nat :=
  [fld bs 88 1, fld bs 90 2, fld bs 92 2, fld bs 94 1, fld bs 95 1, fld bs 96 1, fld bs 97 1, fld bs 98 1, fld bs 99 1,
   fld bs 100 2, fld bs 102 2]

/-- OH or OW. -/
def convOut (i p d k s : Nat) : Nat := if i + 2 * p < d * (k - 1) + 1 then 0 else (i + 2 * p - d * (k - 1) - 1) / s + 1

/-- Item `i` of a geometry. -/
def geo (g : List Nat) (i : Nat) : Nat := g.getD i 0
/-- OH. -/
def geoOH (g : List Nat) : Nat := convOut (geo g 9) (geo g 7) (geo g 5) (geo g 1) (geo g 3)
/-- OW. -/
def geoOW (g : List Nat) : Nat := convOut (geo g 10) (geo g 8) (geo g 6) (geo g 2) (geo g 4)

/-- R216: the fields of a geometry lie in their ranges. -/
def geoOk (one : Bool) (g : List Nat) : Bool :=
  let rng (i lo hi : Nat) : Bool := decide (lo ≤ geo g i) && decide (geo g i ≤ hi)
  rng 0 0 2 && rng 1 1 15 && rng 2 1 255 && rng 3 1 8 && rng 4 1 8 && rng 5 1 8 && rng 6 1 8 && rng 7 0 255 && rng 8 0 255
    && rng 9 1 4096 && rng 10 1 65535
    && (!one || (rng 1 1 1 && rng 3 1 1 && rng 5 1 1 && rng 7 0 0 && rng 9 1 1))
    && decide (1 ≤ geoOH g) && decide (1 ≤ geoOW g)

/-! ## The blocks -/

/-- The product of a Loom operator ID. -/
def loomKind (op : Nat) (bs : List Byte) : LoomKind :=
  match op with
  | 0x0101 => .transA
  | 0x0102 => .transB
  | 0x0103 => .batch
  | 0x0104 => .conv1 (convGeometry bs)
  | 0x0105 => .conv2 (convGeometry bs)
  | _ => .plain

/-- Where the chain descriptor of a Loom block begins. -/
def chainOffset (op : Nat) : Nat := if op = 0x0104 ∨ op = 0x0105 then 104 else 88

/-- Table 5.6 (and Table 7.3) read from a block of at least the length it names. -/
def readLoom (op : Nat) (bs : List Byte) (ch : Chain) (len : Nat) : LoomP :=
  { kind := loomKind op bs, m := fld bs 0 4, n := fld bs 4 4, k := fld bs 8 4, kbase := fld bs 12 4, a := fld bs 16 4,
    b := fld bs 20 4, c := ref bs 24, tal := ref bs 28, src := fld bs 32 1 % 4, srcSlot := fld bs 32 1 / 4 % 4,
    close := fld bs 33 1 % 8, closeSlot := fld bs 33 1 / 16 % 4, outFmt := fld bs 34 1, scaleA := fld bs 36 2,
    scaleB := fld bs 38 2, colScale := ref bs 40, tills := [ref bs 44, ref bs 48, ref bs 52, ref bs 56],
    cores := coreSet bs 60, batch := fld bs 78 2, red := ref bs 80, redFmt := fld bs 84 1, chain := ch,
    scalars := scalarsAt bs (chainOffset op + len) (fld bs 35 1) }

/-- A close kind that writes C.
(DEDUCED, log entry 62.) -/
def LoomP.writesC (p : LoomP) : Bool := decide (p.close = 0) || decide (p.close = 1) || decide (p.close = 4)
/-- A close kind that writes the TAL tensor. -/
def LoomP.exports (p : LoomP) : Bool := decide (p.close = 2) || decide (p.close = 4)

/-- R14: a reduction output's format code is one of Table 1.1. -/
def redFmtOk (redOp fmt : Nat) : Bool := decide (redOp = 0) || (Fmt.ofCode fmt).isSome

/-- R129: with no seats, RED_SRC names only stream 0 or a constant. -/
def redSrcPlain (c : Chain) : Bool :=
  !c.seats.isEmpty || decide (c.redSrc = 0) || decide (c.redSrc = 1) || decide (c.redSrc = 0x80) || decide (c.redSrc = 0x81)

/-- The rules of Table 5.6, R83, R88, R93, R95, R155, R157, R216 and R218 that no bound tensor decides. A TAL
reference that nothing uses is passed over.
(DEDUCED, log entry 62; DESIGN CHOICE, log entry 133.) -/
def LoomP.ok (m : Mode) (net : List Nat) (stack : Nat) (p : LoomP) : Bool :=
  let sizes := decide (1 ≤ p.m) && decide (p.m ≤ 2 ^ 24) && decide (1 ≤ p.n) && decide (p.n ≤ 2 ^ 24)
    && decide (p.k < 2 ^ 31) && decide (p.kbase % 32 = 0)
  let batch := match p.kind with
    | .batch | .conv1 _ | .conv2 _ => decide (1 ≤ p.batch)
    | _ => decide (p.batch = 1)
  let codes := decide (p.src ≤ 2) && (decide (p.src ≠ 1) || decide (p.srcSlot ≤ 2)) && decide (p.close ≤ 4)
    && (decide (p.close ≠ 3) || decide (p.closeSlot ≤ 2))
  let slot := (decide (p.src ≠ 1) && decide (p.close ≠ 3))
    || (decide (p.cores.length = 1) && decide (p.m ≤ 128) && decide (p.n ≤ 128) && decide (p.batch = 1))
  let refs := decide (p.a ≠ 0xFFFFFFFF) && decide (p.b ≠ 0xFFFFFFFF) && decide (p.c.isSome = p.writesC)
    && ((decide (p.src ≠ 2) && !p.exports) || p.tal.isSome) && decide (p.colScale.isSome = m.isShift)
    && decide (p.red.isSome = decide (p.chain.redOp ≠ 0)) && redFmtOk p.chain.redOp p.redFmt && redSrcPlain p.chain
  let fmt := (decide (p.close ≠ 0) && decide (p.close ≠ 4)) || (roundFmt p.outFmt).isSome
  let chain := !p.chain.masked && decide (p.chain.predOut = 0) && (decide (p.close ≠ 1) || p.chain.seats.isEmpty)
  let scales := scalesOk m p.scaleA p.scaleB && (decide (p.close ≠ 1) || stochPairOk m p.scaleA p.scaleB)
  let conv := match p.kind with
    | .conv1 g => geoOk true g
    | .conv2 g => geoOk false g
    | _ => true
  sizes && batch && codes && coresOk net p.cores && slot && refs && fmt && chain && scales && conv
    && (decide (stack = 0) || p.writesC)

/-- A Loom operator's block. -/
def parseLoom (m : Mode) (net : List Nat) (op stack : Nat) (bs : List Byte) : Option OpP :=
  let off := chainOffset op
  let tills := boundIx [ref bs 44, ref bs 48, ref bs 52, ref bs 56]
  match chainOfBytes [0] tills (bs.drop off) with
  | none => none
  | some (ch, len) =>
    let ns := fld bs 35 1
    let p := readLoom op bs ch len
    if ns ≤ 48 ∧ off + len + 8 * ns ≤ bs.length ∧ p.ok m net stack then some (.loom p) else none

/-- Table 5.7 read from a block. -/
def readChain (bs : List Byte) (ch : Chain) (len : Nat) : ChainP :=
  { nrows := fld bs 0 4, vlen := fld bs 4 4, ins := [ref bs 8, ref bs 12, ref bs 16, ref bs 20], out := ref bs 24,
    pred := ref bs 28, mask := ref bs 32, pitch := fld bs 36 4, red := ref bs 40, outFmt := fld bs 44 1,
    redFmt := fld bs 45 1, tills := [ref bs 48, ref bs 52, ref bs 56, ref bs 60], core := (coreSet bs 64).headD 0,
    sumOut := ref bs 82, chain := ch, scalars := scalarsAt bs (88 + len) (fld bs 46 1) }

/-- R158: a CHAIN names no stream and no Till vector that its chain does not read. -/
def ChainP.allRead (p : ChainP) : Bool :=
  (boundIx p.ins).all (fun i => p.chain.reads.contains i) && (boundIx p.tills).all (fun i => p.chain.tillReads.contains i)

/-- The rules of R14, R103, R158 and R218 that no bound tensor decides.
(DEDUCED, log entry 62.) -/
def ChainP.ok (stack : Nat) (p : ChainP) : Bool :=
  decide (1 ≤ p.nrows) && decide (p.nrows ≤ 65535) && decide (p.vlen ≤ 2 ^ 24)
    && decide (p.pred.isSome = decide (p.chain.predOut ≠ 0)) && decide (p.mask.isSome = p.chain.masked)
    && decide (p.red.isSome = decide (p.chain.redOp ≠ 0)) && (p.sumOut = none || p.chain.summary.isSome)
    && (p.out = none || ((roundFmt p.outFmt).isSome && (!p.chain.seats.isEmpty || (p.ins.getD 0 none).isSome)))
    && redFmtOk p.chain.redOp p.redFmt && p.allRead && (decide (stack = 0) || p.out.isSome)

/-- CHAIN's block. -/
def parseChain (net : List Nat) (stack : Nat) (bs : List Byte) : Option OpP :=
  let streams := boundIx [ref bs 8, ref bs 12, ref bs 16, ref bs 20]
  let tills := boundIx [ref bs 48, ref bs 52, ref bs 56, ref bs 60]
  match chainOfBytes streams tills (bs.drop 88) with
  | none => none
  | some (ch, len) =>
    let ns := fld bs 46 1
    let cs := coreSet bs 64
    let p := readChain bs ch len
    if ns ≤ 48 ∧ 88 + len + 8 * ns ≤ bs.length ∧ coresOk net cs ∧ cs.length = 1 ∧ p.ok stack then some (.chain p) else none

/-- A row operator's parameters with nothing but what every one has. -/
def RowP.base (k : RowKind) (input : Nat) (out : Option Nat) (cores : List Nat) : RowP :=
  { kind := k, input := input, out := out, mask := none, pitch := 0, offset := none, den := none, mode := 0, beta := 0,
    gain := none, bias := none, stats := none, eps := 0, shift := 0, index := none, nidx := 0, cores := cores }

/-- An ε of R137: +0 or positive and finite. -/
def epsOk (c : Nat) : Bool :=
  match lnsDecode shape24 c with
  | .zero n => !n
  | .fin n _ => !n
  | _ => false

/-- The block of SOFTMAX, LAYERNORM, RMSNORM, CONVERT or GATHER_ROWS (Tables 4.13, 4.14). -/
def parseRow (net : List Nat) (op stack : Nat) (bs : List Byte) : Option OpP :=
  let done (len : Nat) (p : RowP) (ok : Bool) : Option OpP :=
    if len ≤ bs.length ∧ p.input ≠ 0xFFFFFFFF ∧ coresOk net p.cores ∧ ok ∧ (stack = 0 ∨ p.out.isSome) then some (.rows p)
    else none
  match op with
  | 0x0203 =>
    let mode := fld bs 24 1
    let p := { RowP.base .softmax (fld bs 0 4) (ref bs 4) (coreSet bs 28) with
      mask := ref bs 8, pitch := fld bs 12 4, offset := ref bs 16, den := ref bs 20, mode := mode, beta := fld bs 25 3 }
    done 46 p (decide (mode ≤ 2) && decide (p.out.isSome = decide (mode ≠ 1)) && (decide (mode = 0) || p.den.isSome)
      && (p.mask.isSome || decide (p.pitch = 0)))
  | 0x0204 =>
    let p := { RowP.base .layernorm (fld bs 0 4) (ref bs 4) (coreSet bs 24) with
      gain := ref bs 8, bias := ref bs 12, stats := ref bs 16, eps := fld bs 20 3 }
    done 42 p (p.out.isSome && epsOk p.eps)
  | 0x0205 =>
    let p := { RowP.base .rmsnorm (fld bs 0 4) (ref bs 4) (coreSet bs 20) with
      gain := ref bs 8, stats := ref bs 12, eps := fld bs 16 3 }
    done 38 p (p.out.isSome && epsOk p.eps)
  | 0x0206 =>
    let p := { RowP.base .convert (fld bs 0 4) (ref bs 4) (coreSet bs 12) with shift := fldS bs 8 2 }
    done 30 p p.out.isSome
  | _ =>
    let p := { RowP.base .gather (fld bs 0 4) (ref bs 12) (coreSet bs 16) with index := ref bs 4, nidx := fld bs 8 4 }
    done 34 p (p.out.isSome && p.index.isSome && decide (1 ≤ p.nidx) && decide (p.nidx ≤ 2 ^ 24))

/-- TAL_COMBINE's block (Table 5.8): OUT may be IN0, and no other input. -/
def parseCombine (net : List Nat) (bs : List Byte) : Option OpP :=
  let cs := coreSet bs 24
  let ins := [ref bs 4, ref bs 8, ref bs 12, ref bs 16].filterMap id
  let n := fld bs 0 4
  match ref bs 20 with
  | none => none
  | some o =>
    if 42 ≤ bs.length ∧ 1 ≤ n ∧ n ≤ 2 ^ 26 ∧ 2 ≤ ins.length ∧ (ref bs 4 ≠ none ∨ !ins.contains o) ∧ coresOk net cs
        ∧ cs.length = 1 then
      some (.combine n ins o (cs.headD 0)) else none

/-- TAL_CLOSE's block (Table 5.8). COLSCALE names a tensor in SHIFT mode and in no other.
(DESIGN CHOICE, log entry 134.) -/
def parseClose (m : Mode) (net : List Nat) (bs : List Byte) : Option OpP :=
  let cs := coreSet bs 26
  let rows := fld bs 0 4
  let cols := fld bs 4 4
  let kind := fld bs 16 1
  let sa := fld bs 18 2
  let sb := fld bs 20 2
  match ref bs 8, ref bs 12 with
  | some i, some o =>
    let sizes := decide (1 ≤ rows) && decide (rows ≤ 2 ^ 24) && decide (1 ≤ cols) && decide (cols ≤ 2 ^ 24)
    let scales := if m.isShift then scaleOk sa && decide (sb = 0) else scalesOk m sa sb
    let fmt := decide (kind = 1) || (decide (kind = 0) && (roundFmt (fld bs 17 1)).isSome)
    if 44 ≤ bs.length ∧ sizes ∧ fmt ∧ scales ∧ (ref bs 22).isSome = m.isShift ∧ (kind = 0 ∨ stochPairOk m sa sb)
        ∧ coresOk net cs ∧ cs.length = 1 then
      some (.close rows cols i o kind (fld bs 17 1) sa sb (ref bs 22) (cs.headD 0)) else none
  | _, _ => none

/-- SCATTER_ADD_TAL's block (Table 7.11). -/
def parseScatter (net : List Nat) (bs : List Byte) : Option OpP :=
  let cs := coreSet bs 16
  let rows := fld bs 0 4
  match ref bs 4, ref bs 8, ref bs 12 with
  | some i, some x, some o =>
    if 34 ≤ bs.length ∧ 1 ≤ rows ∧ rows ≤ 2 ^ 24 ∧ coresOk net cs then some (.scatter rows i x o cs) else none
  | _, _, _ => none

/-- SKIP_IF's block (Table 5.8). -/
def parseSkip (bs : List Byte) : Option OpP :=
  let skip := fld bs 12 2
  match Cmp.ofCode (fld bs 3 1) with
  | none => none
  | some t =>
    if 14 ≤ bs.length ∧ fld bs 2 1 ≤ 3 ∧ 1 ≤ skip ∧ skip ≤ 4095 then
      some (.skipIf (fld bs 0 2) (fld bs 2 1) t (fld bs 4 8) skip) else none

/-- STACK_POP's block (Table 7.9). -/
def parsePop (net : List Nat) (bs : List Byte) : Option OpP :=
  let cs := coreSet bs 10
  let discard := (fld bs 8 1).testBit 0
  if 28 ≤ bs.length ∧ coresOk net cs ∧ (ref bs 4).isSome = !discard then
    some (.pop (fld bs 0 4) (ref bs 4) discard cs) else none

/-- R147, R152, R153, R155 to R159, R216, R218: an operator record's block, checked by the rules that no bound tensor
decides; none where one is broken.
(DEDUCED, log entry 51.) -/
def parseOp (n : Net) (graph : Bool) (op stack : Nat) (bs : List Byte) : Option OpP :=
  if !opKnown op ∨ 2 < stack ∨ !(trefOffsets op).all (fun i => trefForm graph (fld bs i 4)) then none
  else
    match op with
    | 0x0200 => parseChain n.cores stack bs
    | 0x0201 => if stack = 0 then parseCombine n.cores bs else none
    | 0x0202 => if stack = 0 then parseClose n.mode n.cores bs else none
    | 0x0208 => if stack = 0 then parseScatter n.cores bs else none
    | 0x0300 => if stack = 0 ∧ graph then parseSkip bs else none
    | 0x0400 => if stack = 0 then parsePop n.cores bs else none
    | _ => if op < 0x0200 then parseLoom n.mode n.cores op stack bs else parseRow n.cores op stack bs

/-- The cores of an operator (R145); a SKIP_IF has none. -/
def OpP.cores : OpP → List Nat
  | .loom p => p.cores
  | .chain p => [p.core]
  | .rows p => p.cores
  | .combine _ _ _ c => [c]
  | .close _ _ _ _ _ _ _ _ _ c => [c]
  | .scatter _ _ _ _ cs => cs
  | .skipIf _ _ _ _ _ => []
  | .pop _ _ _ cs => cs

/-- R159: the record is a CHAIN with SUMMARY bit 7 set. -/
def OpP.summarises : OpP → Bool
  | .chain p => p.chain.summary.isSome
  | _ => false

/-! ## Network descriptors (R146, R147, R390) -/

/-- A fault of a descriptor: the graph and record indices of its reply. -/
abbrev NetFault := Nat × Nat

/-- `n` records of a graph body from byte `i`, each padded to a multiple of 8 bytes within the descriptor (R146); `prev` are
those before, `ix` is the graph's index. Table 5.3 gives DEP 0 and 1 a meaning, and the model refuses any other.
R146 and R147 bar neither a body that lies over the header or over another body, nor padding that is not 0.
(DESIGN CHOICE, log entry 107; DESIGN CHOICE, log entry 132.) -/
def parseRecs (net : Net) (bs : List Byte) (ix : Nat) : Nat → Nat → List NetRec → Except NetFault (List NetRec)
  | 0, _, prev => .ok prev
  | n + 1, i, prev =>
    let blen := fld bs (i + 4) 2
    let block := (bs.drop (i + 8)).take blen
    if bs.length < i + 8 + (blen + 7) / 8 * 8 then .error (ix, prev.length)
    else
      let r : NetRec := ⟨fld bs i 2, fld bs (i + 2) 1 = 1, fld bs (i + 3) 1, block⟩
      match parseOp net true r.op r.stack block with
      | none => .error (ix, prev.length)
      | some p =>
        let skipOk := match p with
          | .skipIf k _ _ _ _ =>
            match prev[k]? with
            | some q => ((parseOp net true q.op q.stack q.block).map OpP.summarises).getD false
            | none => false
          | _ => true
        if 1 < fld bs (i + 2) 1 ∨ !skipOk then .error (ix, prev.length)
        else parseRecs net bs ix n (i + 8 + (blen + 7) / 8 * 8) (prev ++ [r])

/-- The graphs of a descriptor, `n` of them from index `ix`. -/
def parseGraphs (net : Net) (bs : List Byte) : Nat → Nat → Except NetFault (List Graph)
  | 0, _ => .ok []
  | n + 1, ix =>
    let e := 32 + 8 * ix
    match parseRecs net bs ix (fld bs (e + 2) 2) (fld bs (e + 4) 4) [] with
    | .error f => .error f
    | .ok rs =>
      match parseGraphs net bs n (ix + 1) with
      | .error f => .error f
      | .ok gs => .ok (⟨fld bs e 2, rs⟩ :: gs)

/-- The directory entries keep Table 5.2. -/
def directoryOk (bs : List Byte) (n : Nat) : Bool :=
  let es := (List.range n).map (fun i => fld bs (32 + 8 * i) 2)
  decide es.Nodup && (List.range n).all (fun i =>
    decide (1 ≤ fld bs (34 + 8 * i) 2) && decide (fld bs (34 + 8 * i) 2 ≤ 4096) && decide (fld bs (36 + 8 * i) 4 % 8 = 0))

/-- R146, R147: a network read from a descriptor. -/
def parseNet (bs : List Byte) : Except NetFault Net :=
  let total := fld bs 28 4
  let ng := fld bs 26 2
  let id := fld bs 0 2
  let head := (0xFFFF, 0xFFFF)
  match Mode.ofCode (fld bs 2 1) with
  | none => .error head
  | some m =>
    let n : Net := { id := id, mode := m, seed := fld bs 4 4, cores := coreSet bs 8, total := total, graphs := [] }
    if bs.length < 32 ∨ id = 0 ∨ id = 0xFFFF ∨ n.cores = [] ∨ ng = 0 ∨ 256 < ng ∨ total ≠ bs.length ∨ 2 ^ 20 < total
        ∨ total < 32 + 8 * ng ∨ !directoryOk bs ng then .error head
    else
      match parseGraphs n bs ng 0 with
      | .error f => .error f
      | .ok gs => .ok { n with graphs := gs }

end Sys2Proof.Machine
end

