-- ==== Sys2Proof/Machine/OpsCheck.lean ====
section
/-!
DEFINITION. Running operators: the tiles and bands of an operator (R135, R156), the checks of OP_RUN and GRAPH_RUN against
the bound tensors and the predicted state (R47, R99, R120, R127, R152 to R161, R218 to R230), and the two commands (R160).
-/
namespace Sys2Proof.Machine

/-! ## Tiles and bands (R135, R156, R220, R236) -/

/-- Tile rows and tile columns of an output. -/
def tileRows (m : Nat) : Nat := (m + 127) / 128

/-- R156: tile `t` of an m × n output, plane by plane. -/
def tileOf (m n t : Nat) : OutTile :=
  let per := tileRows m * tileRows n
  let u := t % per
  let ti := u / tileRows n
  let tj := u % tileRows n
  ⟨t, t / per, 128 * ti, min 128 (m - 128 * ti), 128 * tj, min 128 (n - 128 * tj)⟩

/-- R135: band `t` of a tensor of `rows` rows and `cols` columns. -/
def bandOf (rows cols t : Nat) : OutTile :=
  let b := t % tileRows rows
  ⟨t, t / tileRows rows, 128 * b, min 128 (rows - 128 * b), 0, cols⟩

/-- Planes of a tensor as an input: a receive ring is read as one slot. -/
def Tensor.inPlanes (t : Tensor) : Nat := if t.layout = .ring then 1 else t.planes

/-- The row tensor's ROWS, COLS and PLANES (R135). -/
def State.rowShape (s : State) (p : RowP) : Nat × Nat × Nat :=
  match s.tensor (if p.kind = .gather then p.out.getD 0 else p.input) with
  | some t => if p.kind = .gather then (p.nidx, t.cols, 1) else (t.rows, t.cols, t.inPlanes)
  | none => (0, 0, 0)

/-- The number of units of work an operator is cut into: tiles, bands, column bands, or one. -/
def State.units (s : State) (p : OpP) : Nat :=
  match p with
  | .loom q => q.batch * (tileRows q.m * tileRows q.n)
  | .rows q => let sh := s.rowShape q; sh.2.2 * tileRows sh.1
  | .scatter _ _ _ out _ => match s.tensor out with | some t => tileRows t.cols | none => 0
  | .skipIf _ _ _ _ _ => 0
  | _ => 1

/-- R145: the units that run on one core of a core set, ascending. -/
def unitsOn (cores : List Nat) (units core : Nat) : List Nat :=
  (List.range units).filter (fun t => decide (cores.getD (t % cores.length) 144 = core))

/-- Unit `t` of an operator as a region of its value output; a compensated pair takes two columns. -/
def State.outTile (s : State) (p : OpP) (t : Nat) : OutTile :=
  match p with
  | .loom q =>
    let o := tileOf q.m q.n t
    if q.close = 1 then { o with c0 := 2 * o.c0, nc := 2 * o.nc } else o
  | .chain q => ⟨0, 0, 0, q.nrows, 0, q.vlen⟩
  | .rows q => let sh := s.rowShape q; bandOf sh.1 sh.2.1 t
  | .close r c _ _ kind _ _ _ _ _ => ⟨0, 0, 0, r, 0, if kind = 1 then 2 * c else c⟩
  | _ => ⟨t, 0, 0, 0, 0, 0⟩

/-- The value output of an operator.
(DEDUCED, log entry 60.) -/
def OpP.valueOut : OpP → Option Nat
  | .loom p => if p.writesC then p.c else none
  | .chain p => p.out
  | .rows p => p.out
  | .close _ _ _ o _ _ _ _ _ _ => some o
  | _ => none

/-- The groups of a core set, ascending. -/
def groupsOf (cores : List Nat) : List Nat := (List.range 16).filter (fun g => cores.any (fun c => c / 9 = g))

/-- R220: the tiles a group's entry holds, in ascending tile number. -/
def State.entryTiles (s : State) (p : OpP) (g : Nat) : List OutTile :=
  ((List.range (s.units p)).filter (fun t => decide (p.cores.getD (t % p.cores.length) 0 / 9 = g))).map (s.outTile p)

/-- Bytes of the whole blocks of tiles. -/
def tilesBytes (f : Fmt) (ts : List OutTile) : Nat :=
  ts.foldl (fun a o => a + (blocksOf o.r0 o.nr o.c0 o.nc).length * f.blockBytes) 0

/-! ## Bound tensors -/

/-- An input of the Eight or the Loom: BLOCKED or a receive ring (R199), of a storage format other than TAL. -/
def State.inTensor (s : State) (h : Nat) : Option Tensor :=
  match s.tensor h with
  | some t =>
    if t.fmt = none ∨ t.fmt = some .tal ∨ (t.layout ≠ .blocked ∧ !(t.layout = .ring && s.receiveRing h)) then none
    else some t
  | none => none

/-- An output: a BLOCKED tensor of a storage format other than TAL. -/
def State.outTensor (s : State) (h : Nat) : Option Tensor :=
  match s.tensor h with
  | some t => if t.layout ≠ .blocked ∨ t.fmt = none ∨ t.fmt = some .tal then none else some t
  | none => none

/-- A BLOCKED TAL tensor. -/
def State.talTensor (s : State) (h : Nat) : Option Tensor :=
  match s.tensor h with
  | some t => if t.layout = .blocked ∧ t.fmt = some .tal then some t else none
  | none => none

/-- A RAW tensor. -/
def State.rawTensor (s : State) (h : Nat) : Option Tensor :=
  match s.tensor h with
  | some t => if t.layout = .raw then some t else none
  | none => none

/-- The tensor covers rows × cols.
(DEDUCED, log entry 60.) -/
def Tensor.covers (t : Tensor) (rows cols : Nat) : Bool := decide (rows ≤ t.rows) && decide (cols ≤ t.cols)

/-- R156: the planes of an operand that may be broadcast. -/
def planesOk (n batch : Nat) : Bool := decide (n = 1) || decide (batch ≤ n)

/-- A condition on a tensor that must exist. -/
def optOk (t : Option Tensor) (f : Tensor → Bool) : Bool := match t with | some x => f x | none => false

/-- A condition on a tensor that a reference may name. -/
def maybe (h : Option Nat) (get : Nat → Option Tensor) (f : Tensor → Bool) : Bool :=
  match h with
  | none => true
  | some x => optOk (get x) f

/-- Two footprints have a byte in common. -/
def Tensor.hits (a b : Tensor) : Bool := overlaps a.base a.footprint b.base b.footprint

/-- R120: the same base address and descriptor. -/
def Tensor.same (a b : Tensor) : Bool :=
  decide (a.base = b.base) && decide (a.fmt = b.fmt) && decide (a.layout = b.layout) && decide (a.planes = b.planes)
    && decide (a.rows = b.rows) && decide (a.cols = b.cols) && decide (a.pitch = b.pitch) && decide (a.scale = b.scale)

/-- The tensors of optional references. -/
def State.named (s : State) (hs : List (Option Nat)) : List Tensor := hs.filterMap (fun h => h.bind s.tensor)

/-- R120: an output overlaps no input stream but in place, and nothing else an operator reads. -/
def clearOf (out : Option Tensor) (inputs others : List Tensor) : Bool :=
  match out with
  | none => true
  | some o => inputs.all (fun i => o.same i || !o.hits i) && others.all (fun i => !o.hits i)

/-- R118: a BLNS8 output's row ends at a multiple of 32 or at COLS.
(DEDUCED, log entry 61.) -/
def blnsEnd (t : Tensor) (cols : Nat) : Bool := decide (t.f ≠ .blns8) || decide (cols % 32 = 0) || decide (cols = t.cols)

/-- R116: the Till vectors of an operator. -/
def State.tillsOk (s : State) (hs : List (Option Nat)) : Bool :=
  hs.all (fun h => maybe h s.inTensor (fun t => decide (t.rows * t.cols ≤ 65536)))
    && decide (((s.named hs).map (fun t => 3 * (t.rows * t.cols))).foldl (· + ·) 0 ≤ 262144)

/-- R52: a column-scale vector of `n` LNS16 elements. -/
def State.colScaleOk (s : State) (h : Option Nat) (n : Nat) : Bool :=
  maybe h s.inTensor (fun t => decide (t.f = .lns16) && decide (t.layout = .blocked) && decide (n ≤ t.rows * t.cols))

/-- R127: the shape of a reduction's output over `rows` × `cols`.
(DEDUCED, log entry 63.) -/
def State.redOk (s : State) (h : Option Nat) (op axis fmt rows cols : Nat) : Bool :=
  match h with
  | none => true
  | some x =>
    let r := if axis = 1 then rows else 1
    let c := if axis = 2 then cols else 1
    if !redFmtOk op fmt then false
    else if 6 ≤ op ∧ op ≤ 8 then optOk (s.rawTensor x) (fun t => decide (4 * (r * c) ≤ t.rows * t.pitch))
    else
      let shape (t : Tensor) : Bool := decide (t.planes = 1) && decide (t.rows = r) && decide (t.cols = c)
      if fmt = 0x10 then decide (op ≤ 2) && optOk (s.talTensor x) shape
      else optOk (s.outTensor x) (fun t => shape t && decide (t.f.code = fmt))

/-- R117: a bit stream of `rows` rows of `cols` bits at a pitch lies in a RAW tensor. -/
def State.bitsOk (s : State) (h : Option Nat) (rows cols pitch : Nat) : Bool :=
  maybe h s.rawTensor (fun t => decide (cols = 0) || decide ((rows - 1) * pitch + (cols + 7) / 8 ≤ t.rows * t.pitch))

/-! ## The checks of each operator -/

/-- R156, R216, R217, Table 7.4: the operands of a Loom product have its shape. -/
def loomShapes (p : LoomP) (a b : Tensor) : Bool :=
  let conv (g : List Nat) : Bool :=
    let ih := geo g 9 * geo g 10
    let oh := geoOH g * geoOW g
    let ks := geo g 1 * geo g 2
    match geo g 0 with
    | 0 => decide (a.rows = ih) && decide (b.rows = ks * a.cols) && decide (p.m = oh) && decide (p.n = b.cols)
        && decide (p.k = ks * a.cols)
    | 1 => decide (a.rows = ih) && decide (b.rows = oh) && decide (p.m = ks * a.cols) && decide (p.n = b.cols)
        && decide (p.k = oh)
    | _ => decide (a.rows = oh) && decide (b.rows = ks * p.n) && decide (b.cols = a.cols) && decide (p.m = ih)
        && decide (p.k = ks * a.cols)
  match p.kind with
  | .plain | .batch => a.covers p.m p.k && b.covers p.k p.n
  | .transA => a.covers p.k p.m && b.covers p.k p.n
  | .transB => a.covers p.m p.k && b.covers p.n p.k
  | .conv1 g => conv g
  | .conv2 g => conv g

/-- A Loom operator's tensors (R47, R52, R84, R87, R116, R120, R127, R156). R120 speaks of input streams, mask streams and
Till sources: the model takes the operands A and B and the column scales for none of these, and lets C overlap them.
(DESIGN CHOICE, log entry 108.) -/
def State.loomOk (s : State) (m : Mode) (p : LoomP) : Bool :=
  match s.inTensor p.a, s.inTensor p.b with
  | some a, some b =>
    let formats := m.acceptsA a.f && m.acceptsB b.f
    let planes := planesOk a.inPlanes p.batch && planesOk b.inPlanes p.batch
    let c := !p.writesC || maybe p.c s.outTensor (fun t =>
      if p.close = 1 then decide (t.f = .lns16) && decide (t.rows = p.m) && decide (t.cols = 2 * p.n) && decide (p.batch ≤ t.planes)
      else decide (t.f.code = p.outFmt) && t.covers p.m p.n && decide (p.batch ≤ t.planes) && blnsEnd t p.n)
    let tal := (decide (p.src ≠ 2) && !p.exports) ||
      maybe p.tal s.talTensor (fun t => t.covers p.m p.n && planesOk t.planes p.batch)
    let red := !p.writesC || s.redOk p.red p.chain.redOp p.chain.redAxis p.redFmt p.m p.n
    let clear := !p.writesC || clearOf (p.c.bind s.tensor) [] (s.named p.tills)
    formats && loomShapes p a b && planes && c && tal && s.colScaleOk p.colScale p.n && s.tillsOk p.tills && red && clear
  | _, _ => false

/-- CHAIN's tensors (R104, R117, R118, R120, R127, R158). -/
def State.chainOk (s : State) (p : ChainP) : Bool :=
  let stream (i : Nat) : Bool :=
    let get (h : Nat) : Option Tensor := if i = 0 ∧ (s.talTensor h).isSome then s.talTensor h else s.inTensor h
    maybe (p.ins.getD i none) get (fun t => t.covers p.nrows p.vlen)
  let out := maybe p.out s.outTensor (fun t => decide (t.f.code = p.outFmt) && t.covers p.nrows p.vlen && blnsEnd t p.vlen)
  let inputs := s.named p.ins
  let others := s.named (p.mask :: p.tills)
  let summary := maybe p.sumOut s.rawTensor (fun t => decide (32 ≤ t.footprint))
  (List.range 4).all stream && out && s.bitsOk p.pred p.nrows p.vlen p.pitch && s.bitsOk p.mask p.nrows p.vlen p.pitch
    && s.redOk p.red p.chain.redOp p.chain.redAxis p.redFmt p.nrows p.vlen && s.tillsOk p.tills && summary
    && clearOf (p.out.bind s.tensor) inputs others && clearOf (p.pred.bind s.tensor) [] (inputs ++ others)

/-- A row operator's tensors (R120, R135 to R140). A receive ring counts as one plane wherever it is an input (R135, R199).
Outputs of one operator may overlap one another: R120 refuses an overlap with what is read.
(DESIGN CHOICE, log entry 109.) -/
def State.rowsOk (s : State) (p : RowP) : Bool :=
  match s.inTensor p.input with
  | none => false
  | some i =>
    let like (c : Nat) (t : Tensor) : Bool :=
      decide (t.rows = i.rows) && decide (t.cols = c) && decide (t.inPlanes = i.inPlanes)
    let out := maybe p.out s.outTensor (fun t =>
      if p.kind = .gather then decide (t.rows = p.nidx) && decide (t.cols = i.cols) && decide (t.planes = 1)
      else like i.cols t)
    let vec (h : Option Nat) : Bool := maybe h s.inTensor (fun t => decide (t.rows = 1) && decide (t.cols = i.cols))
    let lns (c : Nat) (t : Tensor) : Bool := decide (t.f = .lns24) && like c t
    let offset := maybe p.offset s.inTensor (lns 1)
    let den := maybe p.den s.talTensor (like 1)
    let stats := maybe p.stats s.outTensor (lns (if p.kind = .layernorm then 2 else 1))
    let index := maybe p.index s.rawTensor (fun t => decide (4 * p.nidx ≤ t.footprint))
    let denIn := if p.mode = 2 then p.den else none
    let denOut := if p.mode = 2 then none else p.den
    let side := s.named [p.mask, p.offset, denIn, p.gain, p.bias, p.index]
    let clear := clearOf (p.out.bind s.tensor) [i] side
      && clearOf (denOut.bind s.tensor) [] (i :: side) && clearOf (p.stats.bind s.tensor) [] (i :: side)
    out && vec p.gain && vec p.bias && s.tillsOk [p.gain, p.bias] && offset && den && stats && index
      && s.bitsOk p.mask (i.rows * i.inPlanes) i.cols p.pitch && clear

/-- R159: TAL_COMBINE's tensors. -/
def State.combineOk (s : State) (n : Nat) (ins : List Nat) (out : Nat) : Bool :=
  let room (t : Tensor) : Bool := decide (n ≤ t.planes * t.rows * t.cols)
  match s.talTensor out with
  | none => false
  | some o =>
    room o && ins.all (fun h => optOk (s.talTensor h) room)
      && ((List.range ins.length).zip ins).all (fun x =>
        decide (x.1 = 0 ∧ x.2 = out) || optOk (s.tensor x.2) (fun t => !o.hits t))

/-- R159: TAL_CLOSE's tensors. -/
def State.closeOk (s : State) (rows cols input out kind outFmt : Nat) (colScale : Option Nat) : Bool :=
  match s.talTensor input, s.outTensor out with
  | some i, some o =>
    let shape :=
      if kind = 1 then decide (o.f = .lns16) && decide (o.rows = rows) && decide (o.cols = 2 * cols)
      else decide (o.f.code = outFmt) && o.covers rows cols && blnsEnd o cols
    i.covers rows cols && shape && s.colScaleOk colScale cols && clearOf (some o) [] (i :: s.named [colScale])
  | _, _ => false

/-- R236: SCATTER_ADD_TAL's tensors. -/
def State.scatterOk (s : State) (rows input index out : Nat) : Bool :=
  match s.inTensor input, s.rawTensor index, s.talTensor out with
  | some i, some x, some o =>
    i.f.isLns && decide (rows ≤ i.rows) && decide (4 * rows ≤ x.footprint) && decide (o.cols = i.cols)
      && clearOf (some o) [] [i, x]
  | _, _, _ => false

/-- The bound tensors of an operator keep its rules. -/
def State.opOk (s : State) (m : Mode) (p : OpP) : Bool :=
  match p with
  | .loom q => s.loomOk m q
  | .chain q => s.chainOk q
  | .rows q => s.rowsOk q
  | .combine n ins out _ => s.combineOk n ins out
  | .close r c i o k f _ _ cs _ => s.closeOk r c i o k f cs
  | .scatter r i x o _ => s.scatterOk r i x o
  | .skipIf _ _ _ _ _ => true
  | .pop _ out _ _ => maybe out s.tensor (fun t => decide (t.layout = .blocked))

/-! ## Bit streams (R117) -/

/-- A bit of a stream.
(DEDUCED, log entry 115.) -/
def State.bitAt (s : State) (t : Tensor) (pitch r e : Nat) : Bool :=
  (leNat (s.read (t.base + r * pitch + e / 8) 1)).testBit (e % 8)

/-- R117: the elements of a row that are active. -/
def State.activeBit (s : State) (mask : Option Tensor) (pitch : Nat) (invert : Bool) (r e : Nat) : Bool :=
  match mask with
  | none => true
  | some t => s.bitAt t pitch r e != invert

/-! ## Predicted tags (R99, R100) -/

/-- The tag under R81 of two sets of elements. -/
def joinTag (a b : Option Tag) : Option Tag :=
  match a, b with
  | none, y => y
  | x, none => x
  | some x, some y => some (if x = y then x else .mixed)

/-- The tags of the elements of a TAL tensor or a parked tile, element by element, plane after plane and row after row: none
where TERMS is 0. -/
structure TagGrid where
  rows : Nat
  cols : Nat
  tags : List (Option Tag)
  deriving DecidableEq, Repr

/-- The tag of an element; none outside the grid. -/
def TagGrid.elem (g : TagGrid) (p r c : Nat) : Option Tag :=
  if r < g.rows ∧ c < g.cols then g.tags.getD ((p * g.rows + r) * g.cols + c) none else none

/-- The tile tag of a grid (R99). -/
def TagGrid.tag (g : TagGrid) : Option Tag := g.tags.foldl joinTag none

/-- A grid with elements by their plane, row and column. -/
def gridOf (planes rows cols : Nat) (f : Nat → Nat → Nat → Option Tag) : TagGrid :=
  ⟨rows, cols, (List.range planes).flatMap (fun p => (List.range rows).flatMap (fun r => (List.range cols).map (f p r)))⟩

/-- The tag an element carries. -/
def Tal.tagged (t : Tal) : Option Tag := if t.terms then some t.tag else none

/-- The tags that earlier operators will leave, where they differ from those that stand: by handle, and by 3 × core + slot. -/
structure TagView where
  tensors : List (Nat × TagGrid)
  slots : List (Nat × TagGrid)
  deriving DecidableEq, Repr

/-- The entry at a key, where there is one. -/
def gridAt (xs : List (Nat × TagGrid)) (k : Nat) : Option TagGrid := (xs.find? (fun x => x.1 = k)).map (fun x => x.2)

/-- The predicted tile tag of a tensor. -/
def State.tagOfTensor (s : State) (v : TagView) (h : Nat) : Option Tag :=
  match gridAt v.tensors h with
  | some g => g.tag
  | none => (s.tensor h).bind Tensor.tag

/-- The predicted tile tag of a parked slot. -/
def State.tagOfSlot (s : State) (v : TagView) (core slot : Nat) : Option Tag :=
  match gridAt v.slots (3 * core + slot) with
  | some g => g.tag
  | none => ((s.core core).slots.getD slot .none).tag

/-- The predicted tags of a tensor's elements; a poisoned element takes no part (R192). -/
def State.gridOfTensor (s : State) (v : TagView) (h : Nat) : TagGrid :=
  match gridAt v.tensors h, s.tensor h with
  | some g, _ => g
  | none, some t => gridOf t.planes t.rows t.cols (fun p r c =>
      if !s.clean && s.elemPoisoned t p r c then none else (s.talAt t p r c).tagged)
  | none, none => ⟨0, 0, []⟩

/-- The predicted tags of a parked slot's elements. -/
def State.gridOfSlot (s : State) (v : TagView) (core slot : Nat) : TagGrid :=
  match gridAt v.slots (3 * core + slot) with
  | some g => g
  | none => let x := (s.core core).slots.getD slot .none; ⟨x.rows, x.cols, x.tile.map Tal.tagged⟩

/-- The tag an operator's work carries: MIXED under ADOPT (R98, R100). -/
def workTag (m : Mode) (adopt : Bool) : Tag := if adopt then .mixed else m.tag

/-- A tag prediction for a tensor. -/
def TagView.put (v : TagView) (h : Nat) (g : TagGrid) : TagView := { v with tensors := assocPut v.tensors h g }

/-- R100: an element under ADOPT. -/
def adoptTag (adopt : Bool) (t : Option Tag) : Option Tag := if adopt && t.isSome then some .mixed else t

/-- The predicted tag of an element of a Loom operator's tile: its source's, and its own where it forms a product. -/
def State.loomTag (s : State) (v : TagView) (m : Mode) (adopt : Bool) (p : LoomP) (pl r c : Nat) : Option Tag :=
  let src :=
    match p.src, p.tal with
    | 1, _ => (s.gridOfSlot v (p.cores.headD 0) p.srcSlot).elem 0 r c
    | 2, some h =>
      let one := match s.tensor h with | some t => decide (t.planes = 1) | none => true
      (s.gridOfTensor v h).elem (if one then 0 else pl) r c
    | _, _ => none
  adoptTag adopt (if p.k = 0 then src else joinTag src (some (workTag m adopt)))

/-- A tensor of sums that each carry one tag, but for those over no active element, which are fresh (R125). -/
def State.sumGrid (s : State) (h : Nat) (g : Tag) (summed : Nat → Nat → Nat → Bool) : TagGrid :=
  match s.tensor h with
  | some t => gridOf t.planes t.rows t.cols (fun p r c => if summed p r c then some g else none)
  | none => ⟨0, 0, []⟩

/-- Element (r, e) of a reduction along an axis is over an active element of a mask as it stands. -/
def State.redSummed (s : State) (mask : Option Nat) (pitch : Nat) (invert : Bool) (axis rows cols r e : Nat) : Bool :=
  let m := mask.bind s.tensor
  let on (i j : Nat) : Bool := s.activeBit m pitch invert i j
  match axis with
  | 1 => (List.range cols).any (on r)
  | 2 => (List.range rows).any (fun i => on i e)
  | _ => (List.range rows).any (fun i => (List.range cols).any (on i))

/-- The tags as an operator will leave them. What an operator writes takes the place of what stood there: elements it does not
write keep their tags. The rows of a SCATTER_ADD_TAL are those its index tensor names, and the active elements of a masked sum those
its mask names, at the check.
(DEDUCED, log entry 67.) -/
def State.tagStep (s : State) (m : Mode) (adopt : Bool) (v : TagView) (p : OpP) : TagView :=
  let w := workTag m adopt
  let red (v : TagView) (h : Option Nat) (op fmt : Nat) (summed : Nat → Nat → Bool) : TagView :=
    match h with
    | some x => if op ≠ 0 ∧ op ≤ 2 ∧ fmt = 0x10 then v.put x (s.sumGrid x w (fun _ r c => summed r c)) else v
    | none => v
  match p with
  | .loom q =>
    let core := q.cores.headD 0
    let v1 := if q.src = 1 then { v with slots := assocPut v.slots (3 * core + q.srcSlot) ⟨0, 0, []⟩ } else v
    let v2 := if q.close = 3 then
        { v1 with slots := assocPut v1.slots (3 * core + q.closeSlot) (gridOf 1 q.m q.n (s.loomTag v m adopt q)) } else v1
    let v3 :=
      match q.tal.bind s.tensor with
      | some t =>
        if q.exports then
          let old := s.gridOfTensor v t.handle
          v2.put t.handle (gridOf t.planes t.rows t.cols (fun pl r c =>
            if r < q.m ∧ c < q.n ∧ (t.planes = 1 ∨ pl < q.batch) then s.loomTag v m adopt q pl r c else old.elem pl r c))
        else v2
      | none => v2
    if q.writesC then red v3 q.red q.chain.redOp q.redFmt (fun _ _ => true) else v3
  | .chain q => red v q.red q.chain.redOp q.redFmt (s.redSummed q.mask q.pitch q.chain.invert q.chain.redAxis q.nrows q.vlen)
  | .rows q =>
    match q.den with
    | some h =>
      let sh := s.rowShape q
      if q.mode = 2 then v
      else v.put h (s.sumGrid h w (fun p r _ => s.redSummed q.mask q.pitch false 1 0 sh.2.1 (p * sh.1 + r) 0))
    | none => v
  | .combine n ins out _ =>
    let gs := ins.map (s.gridOfTensor v)
    let old := s.gridOfTensor v out
    v.put out { old with tags := (List.range old.tags.length).map (fun i =>
      if i < n then adoptTag adopt (gs.foldl (fun a g => joinTag a (g.tags.getD i none)) none) else old.tags.getD i none) }
  | .scatter rows _ index out _ =>
    match s.tensor index, s.tensor out with
    | some x, some t =>
      let hit := (List.range rows).map (fun i => leNat (s.read (x.base + 4 * i) 4))
      let old := s.gridOfTensor v out
      v.put out (gridOf t.planes t.rows t.cols (fun pl r c =>
        let e := old.elem pl r c
        if pl = 0 ∧ hit.contains r then adoptTag adopt (joinTag e (some w)) else e))
    | _, _ => v
  | _ => v

/-- The tags an operator meets as sources (R99). -/
def State.sourceTags (s : State) (v : TagView) (p : OpP) : List (Option Tag) :=
  match p with
  | .loom q =>
    match q.src, q.tal with
    | 1, _ => [s.tagOfSlot v (q.cores.headD 0) q.srcSlot]
    | 2, some h => [s.tagOfTensor v h]
    | _, _ => []
  | .rows q => match q.den with | some h => if q.mode = 2 then [s.tagOfTensor v h] else [] | none => []
  | .combine _ ins _ _ => ins.map (s.tagOfTensor v)
  | .close _ _ i _ _ _ _ _ _ _ => [s.tagOfTensor v i]
  | .scatter _ _ _ out _ => [s.tagOfTensor v out]
  | _ => []

/-- Two core sets share a core. -/
def shareCore (a b : List Nat) : Bool := a.any (fun c => b.contains c)

/-- A record that is still to reach its commit point. -/
def RecRun.open (r : RecRun) : Bool := decide (r.phase = .waiting) || decide (r.phase = .running)

/-- The mode of a loaded network. -/
def State.netMode (s : State) (id : Nat) : Mode :=
  match s.nets.find? (fun n => n.id = id) with
  | some n => n.mode
  | none => .log8

/-- R99: the tags that the operators accepted before, on the cores given, will leave. One that is to stop counts as the others until
it has stopped.
(DEDUCED, log entry 67.) -/
def State.tagsAhead (s : State) (cores : List Nat) : TagView :=
  s.cmds.foldl (fun v c =>
    match c.body with
    | .ops r =>
      (r.recs.filter (fun x => x.open && shareCore x.op.cores cores)).foldl
        (fun v x => s.tagStep (s.netMode r.net) r.adopt v x.op) v
    | _ => v) ⟨[], []⟩

/-- R99: no source of an operator has another tag than the network's. -/
def State.tagsOk (s : State) (m : Mode) (adopt : Bool) (before : List OpP) (p : OpP) : Bool :=
  let v := (before.filter (fun q => shareCore q.cores p.cores)).foldl (s.tagStep m adopt) (s.tagsAhead p.cores)
  adopt || (s.sourceTags v p).all (fun t => decide (t = none) || decide (t = some m.tag))

/-! ## The predicted network, lost cores and stacks (R161, R218, R230, R465) -/

/-- R161: the network that will be active on a core when every command accepted has completed.
(DEDUCED, log entry 67.) -/
def State.netAhead (s : State) (core : Nat) : Option Nat :=
  s.cmds.foldl (fun a c =>
    match c.body with
    | .activate n todo => if todo.contains core then some n else a
    | _ => a) (s.core core).net

/-- A group's stack. -/
def State.stack (s : State) (g : Nat) : Stack := s.actStacks.getD g Stack.reset

/-- R218, R230: a SAVE or RECOMPUTE record's groups have configured stacks, and an entry fits its SRAM area. -/
def State.saveOk (s : State) (p : OpP) (stack : Nat) : Bool :=
  decide (stack = 0) || (groupsOf p.cores).all (fun g =>
    (s.stack g).configured &&
    (decide (stack = 2) ||
      match p.valueOut.bind s.tensor with
      | some t => decide (tilesBytes t.f (s.entryTiles p g) ≤ (s.stack g).sramSize)
      | none => false))

/-- R161: one operator of a command checked; `before` are the operators of the command's earlier records. -/
def State.opRefusal (s : State) (n : Net) (adopt : Bool) (before : List OpP) (stack : Nat) (p : OpP) : Option Res :=
  let active := p.cores.all (fun c => decide (s.netAhead c = some n.id) && !s.lost c)
  if !active ∨ !s.opOk n.mode p ∨ !s.saveOk p stack then some .badParam
  else if !s.tagsOk n.mode adopt before p then some .precisionMismatch
  else none

/-! ## OP_RUN and GRAPH_RUN -/

/-- A record as it is accepted. -/
def RecRun.new (op : OpP) (dep : Bool) (stack stamp : Nat) : RecRun :=
  { op := op, dep := dep, stack := stack, stamp := stamp, phase := .waiting, started := [], finished := [], flags := 0,
    reds := [], assays := [], summary := none, pins := [], waited := [] }

/-- R147, R152: a record bound to tensors; none where a reference names no live handle. -/
def State.bindRec (s : State) (n : Net) (graph : Bool) (binds : List Nat) (r : NetRec) : Option (OpP × List Nat) :=
  if !(trefOffsets r.op).all (fun i => trefForm graph (fld r.block i 4)) then none
  else
    match bindRefs binds (trefOffsets r.op) r.block with
    | none => none
    | some b =>
      let hs := (trefOffsets r.op).filterMap (ref b)
      if hs.all (fun h => (s.tensor h).isSome) then (parseOp n graph r.op r.stack b).map (fun p => (p, hs)) else none

/-- The records of a command bound and checked in order, with their stamps (R219). `before` holds the earlier ones. -/
def State.bindAll (s : State) (n : Net) (graph adopt : Bool) (binds : List Nat) :
    List NetRec → List OpP → Nat → Except Res (List RecRun × List Nat × Nat)
  | [], _, st => .ok ([], [], st)
  | r :: rs, before, st =>
    match s.bindRec n graph binds r with
    | none => .error .badParam
    | some (p, hs) =>
      match s.opRefusal n adopt before r.stack p with
      | some e => .error e
      | none =>
        let st1 := if r.stack = 0 then st else (st + 1) % 2 ^ 32
        match s.bindAll n graph adopt binds rs (before ++ [p]) st1 with
        | .error e => .error e
        | .ok (xs, gs, st2) => .ok (RecRun.new p r.dep r.stack st :: xs, hs ++ gs, st2)

/-- OP_RUN or GRAPH_RUN over records: refused, or accepted with the stamp of its first SAVE or RECOMPUTE record.
(DEDUCED, log entry 67.) -/
def runRecords (q : Req) (n : Net) (graph : Bool) (binds : List Nat) (rs : List NetRec) (s : State) : Verdict :=
  match s.bindAll n graph (adoptFlag q.flags) binds rs [] s.stampCounter with
  | .error e => refuse e s
  | .ok (xs, hs, st) =>
    let stamp := if rs.any (fun r => r.stack ≠ 0) then s.stampCounter else 0xFFFFFFFF
    let r : OpsRun :=
      { net := n.id, graph := graph, adopt := adoptFlag q.flags, recs := xs, handles := hs ++ binds, devaddr := 0, stop := none }
    .accept (leBytes 4 stamp) (.ops r) none { s with stampCounter := st }

/-- A loaded network. -/
def State.loadedNet (s : State) (id : Nat) : Option Net := s.nets.find? (fun n => n.id = id)

/-- OP_RUN (R153, R160, R161). -/
def opRun (q : Req) (s : State) : Verdict :=
  let ps := q.params
  if ps.length < 8 then refuse .badParam s
  else
    match s.loadedNet (fld ps 0 2) with
    | none => refuse .badParam s
    | some n => runRecords q n false [] [⟨fld ps 2 2, false, fld ps 4 1, ps.drop 8⟩] s

/-- GRAPH_RUN (R160, R161). -/
def graphRun (q : Req) (s : State) : Verdict :=
  let ps := q.params
  let nb := fld ps 4 2
  if ps.length < 8 ∨ 256 < nb ∨ ps.length ≠ 8 + 4 * nb then refuse .badParam s
  else
    match s.loadedNet (fld ps 0 2) with
    | none => refuse .badParam s
    | some n =>
      match n.graphs.find? (fun g => g.id = fld ps 2 2) with
      | none => refuse .badParam s
      | some g => runRecords q n true ((List.range nb).map (fun i => fld ps (8 + 4 * i) 4)) g.recs s

end Sys2Proof.Machine
end

