-- ==== Sys2Proof/Machine/UpdateOps.lean ====
section
/-!
DEFINITION. The arithmetic of the Tinkers (R240 to R243, R252 to R257): update programs and their steps on one element, and
the layer stages GRAM_INVROOT and NEWTON_SCHULZ on matrices of LNS24 values.
-/
namespace Sys2Proof.Machine

/-! ## Programs (Tables 8.3 to 8.6) -/

/-- An operation code of Table 8.6. -/
def uOpOk (c : Nat) : Bool := decide (c ≤ 0x10) || (decide (0x18 ≤ c) && decide (c ≤ 0x1E)) || decide (c = 0x32)

/-- Sources an operation of Table 8.6 uses; SCALE and POWI use the slot in B (R241). -/
def uArity (c : Nat) : Nat :=
  match EOp.ofCode c with
  | some .scale => 2
  | some .powi => 2
  | some op => op.arity
  | none => 1

/-- A selector of Table 8.5 that stands for a value. -/
def uSelOk (c : Nat) : Bool :=
  (decide (1 ≤ c) && decide (c ≤ 9)) || (decide (0x10 ≤ c) && decide (c ≤ 0x1F)) || decide (c = 0x80) || decide (c = 0x81)

/-- R240, R242: step number `i` (from 1) is one the device accepts. -/
def UStep.ok (rule split i : Nat) (x : UStep) : Bool :=
  let n := uArity x.op
  let src (k c : Nat) : Bool :=
    if k < n then uSelOk c && (decide (c ≠ 9) || (decide (rule ≠ 0) && decide (split < i))) else decide (c = 0)
  uOpOk x.op && decide (2 ≤ x.dst) && decide (x.dst ≤ 8) && src 0 x.a && src 1 x.b && src 2 x.c
    && (decide (x.op ≠ 6 ∧ x.op ≠ 7) || (decide (0x10 ≤ x.b) && decide (x.b ≤ 0x1F)))

/-- A positive finite LNS24 code. -/
def posFinite (c : Nat) : Bool :=
  match lnsDecode shape24 c with
  | .fin n _ => !n
  | _ => false

/-- The fields of Table 8.3 but for PROG_ID. -/
def UProgram.headerOk (p : UProgram) : Bool :=
  decide (p.rule ≤ 2) && (decide (p.split = 0) || (decide (p.rule = 2) && decide (p.split ≤ p.steps.length)))
    && (match p.rule with
        | 1 => decide (1 ≤ p.rparam) && decide (p.rparam ≤ 2) && decide (1 ≤ p.every)
        | 2 => decide (1 ≤ p.rparam) && decide (p.rparam ≤ 10) && decide (p.every = 0)
        | _ => decide (p.rparam = 0) && decide (p.every = 0))
    && posFinite p.damp0 && (posFinite p.pivot || decide (lnsDecode shape24 p.pivot = .zero false))

/-- R240, R242: a program the device accepts. -/
def UProgram.ok (p : UProgram) : Bool :=
  p.headerOk && ((List.range p.steps.length).zip p.steps).all (fun x => x.2.ok p.rule p.split (x.1 + 1))

/-- R243, Table 8.11: the built-in program SIGN_MOMENTUM. -/
def signMomentum : UProgram :=
  { id := 0x40, split := 0, rule := 0, rparam := 0, every := 0, damp0 := 0, pivot := 0, nsA := 0, nsB := 0,
    steps := [⟨0x32, 0x05, 0x01, 0, 0⟩, ⟨0x03, 0x06, 0x11, 0x03, 0⟩, ⟨0x05, 0x03, 0x18, 0x05, 0x06⟩,
      ⟨0x05, 0x07, 0x13, 0x02, 0x03⟩, ⟨0x03, 0x08, 0x10, 0x07, 0⟩, ⟨0x03, 0x08, 0x08, 0x17, 0⟩,
      ⟨0x02, 0x02, 0x02, 0x08, 0⟩] }

/-- A program reads or writes a register. NEWTON_SCHULZ works from M (R256). -/
def UProgram.uses (p : UProgram) (r : Nat) : Bool :=
  p.steps.any (fun x => decide (x.dst = r) || decide (x.a = r) || decide (x.b = r) || decide (x.c = r))
    || (decide (p.rule = 2) && decide (r = 3))

/-! ## One element (R241, R244) -/

/-- A source's value; `regs` holds the registers by selector, `ks` the scalar slots. -/
def uSrc (regs : List LVal) (ks : List Nat) (c : Nat) : LVal :=
  if c ≤ 9 then regs.getD c .pzero
  else if 0x10 ≤ c ∧ c ≤ 0x1F then lnsDecode shape24 (ks.getD (c - 0x10) 0 % 2 ^ 24)
  else if c = 0x81 then .one
  else .pzero

/-- SIGN (Table 8.6). -/
def lvSign (a : LVal) : LVal × FlagWord :=
  match a with
  | .nan => (.nan, flagNanIn)
  | .zero _ => (.pzero, 0)
  | .inf n => (.fin n 0, 0)
  | .fin n _ => (.fin n 0, 0)

/-- One step. -/
def UStep.run (ks : List Nat) (regs : List LVal) (x : UStep) : List LVal × FlagWord :=
  let a := uSrc regs ks x.a
  if x.op = 0x32 then
    let y := lvSign a
    (regs.set x.dst y.1, y.2)
  else
    match EOp.ofCode x.op with
    | none => (regs, 0)
    | some op =>
      let y := eightOp op (.val a) (.val (uSrc regs ks x.b)) (.val (uSrc regs ks x.c))
        (untwos 32 (ks.getD (x.b - 0x10) 0)) .lns24
      (regs.set x.dst y.1.value, y.2)

/-- A list of steps. -/
def runSteps (ks : List Nat) (xs : List UStep) (regs : List LVal) : List LVal × FlagWord :=
  xs.foldl (fun a x => let y := x.run ks a.1; (y.1, a.2 ||| y.2)) (regs, 0)

/-- The registers at the start of an element. -/
def uRegs (g w m v p : LVal) : List LVal := [.pzero, g, w, m, v, .pzero, .pzero, .pzero, .pzero, p]

/-! ## Matrices (R252, R253) -/

/-- A matrix of LNS24 values, row by row. -/
structure Mat where
  rows : Nat
  cols : Nat
  cells : Array LVal

/-- An element. -/
def Mat.at (m : Mat) (i j : Nat) : LVal := m.cells.getD (i * m.cols + j) .pzero

/-- A matrix whose elements are formed one by one, with their flags. -/
def Mat.form (r c : Nat) (f : Nat → Nat → LVal × FlagWord) : Mat × FlagWord :=
  let xs := (List.range r).flatMap (fun i => (List.range c).map (fun j => f i j))
  (⟨r, c, (xs.map (fun x => x.1)).toArray⟩, flagsOr (xs.map (fun x => x.2)))

/-- A list in pieces of 32: the chunks of R70. -/
def chunks32 {α : Type} : Nat → List α → List (List α)
  | 0, _ => []
  | n + 1, xs => if xs.isEmpty then [] else xs.take 32 :: chunks32 n (xs.drop 32)

/-- R253: products entered chunk by chunk into a tally.
(DEDUCED, log entry 35.) -/
def sumProducts (t : Tal) (ps : List (LVal × FlagWord)) : Tal × FlagWord :=
  (chunks32 (ps.length / 32 + 1) ps).foldl (fun a c =>
    let r := a.1.promote .log (chunkLog (c.map (fun p => p.1)))
    (r.1, a.2 ||| r.2 ||| flagsOr (c.map (fun p => p.2)))) (t, 0)

/-- R253: one output element of a matrix product over `n` inner indexes.
(DEDUCED, log entry 35.) -/
def dot24 (n : Nat) (a b : Nat → LVal) : LVal × FlagWord :=
  let t := sumProducts .fresh ((List.range n).map (fun k => lvMul (a k) (b k)))
  let c := t.1.closeSeat .plain
  (c.1, t.2 ||| c.2)

/-- close24 of a list of terms with their flags (R253). -/
def close24 (ts : List (LVal × FlagWord)) : LVal × FlagWord :=
  let t := ts.foldl (fun (a : Tal × FlagWord) x => let r := a.1.addTerm .log x.1; (r.1, a.2 ||| x.2 ||| r.2)) (.fresh, 0)
  let c := t.1.closeSeat .plain
  (c.1, t.2 ||| c.2)

/-- A binary operation of Table 4.4 on values. -/
def op24 (op : EOp) (a b : LVal) : LVal × FlagWord :=
  let y := eightOp op (.val a) (.val b) (.val .pzero) 0 .lns24
  (y.1.value, y.2)

/-- Element (i, j) of a symmetric matrix held below its diagonal (R252). -/
def Mat.sym (m : Mat) (i j : Nat) : LVal := if i < j then m.at j i else m.at i j

/-- A product of three factors, exact in log: NaN of a NaN factor raises NAN_IN, any other NaN INVALID (R42). -/
def lvMul3 (a b c : LVal) : LVal × FlagWord :=
  let p := lvMul (lvMul a b).1 c
  (p.1, if a.isNan || b.isNan || c.isNan then flagNanIn else flagIf p.1.isNan flagInvalid)

/-- R254 step 1: the Gram statistic: V(k2·S1) plus the terms of Q with the log of k9 added. Held below the diagonal.
(DEDUCED, log entry 35.) -/
def gramStat (g s1 : Mat) (k2 k9 : LVal) : Mat × FlagWord :=
  let wide := decide (g.rows ≤ g.cols)
  let d := min g.rows g.cols
  let e := max g.rows g.cols
  Mat.form d d (fun i j =>
    if i < j then (.pzero, 0)
    else
      let own := lvMul k2 (s1.at i j)
      let t0 := Tal.fresh.addTerm .log own.1
      let ps := (List.range e).map (fun x =>
        if wide then lvMul3 (g.at i x) (g.at j x) k9 else lvMul3 (g.at x i) (g.at x j) k9)
      let t := sumProducts t0.1 ps
      let c := t.1.closeSeat .plain
      (c.1, own.2 ||| t0.2 ||| t.2 ||| c.2))

/-- A factor under construction: its cells, the flags, and whether a pivot failed. -/
structure Factor where
  cells : Array LVal
  flags : FlagWord
  failed : Bool

/-- An element that enters an exact sum as it is: NaN raises NAN_IN (R42). -/
def ownTerm (v : LVal) : LVal × FlagWord := (v, nanIn v)

/-- Column `j` of the factorisation (R254). A pivot that is NaN fails its test, which raises nothing of its own (R20).
(DESIGN CHOICE, log entry 128.) -/
def cholColumn (s : Mat) (lam thr : LVal) (x : Factor) (j : Nat) : Factor :=
  if x.failed then x
  else
    let d := s.rows
    let l (i k : Nat) : LVal := x.cells.getD (i * d + k) .pzero
    let less (i : Nat) : List (LVal × FlagWord) :=
      (List.range j).map (fun k => let p := lvMul (l i k) (l j k); (p.1.negIf true, p.2))
    let piv := close24 ([ownTerm (s.sym j j), ownTerm lam] ++ less j)
    if !Cmp.gt.holds piv.1 thr then { x with flags := x.flags ||| piv.2, failed := true }
    else
      let root := op24 .sqrt piv.1 .pzero
      let below := ((List.range d).filter (fun i => decide (j < i))).map (fun i =>
        let q := close24 (ownTerm (s.sym i j) :: less i)
        let v := op24 .div q.1 root.1
        (i, v.1, q.2 ||| v.2))
      { cells := below.foldl (fun a y => a.setIfInBounds (y.1 * d + j) y.2.1) (x.cells.setIfInBounds (j * d + j) root.1)
        flags := x.flags ||| piv.2 ||| root.2 ||| flagsOr (below.map (fun y => y.2.2)), failed := false }

/-- The factorisation of `s + lam·I` under a pivot threshold. -/
def cholesky (s : Mat) (lam thr : LVal) : Factor :=
  (List.range s.rows).foldl (cholColumn s lam thr) ⟨Array.replicate (s.rows * s.rows) .pzero, 0, false⟩

/-- Column `j` of the triangular inverse (R254), its elements from the diagonal downwards. -/
def inverseColumn (l : Mat) (j : Nat) : List LVal × FlagWord :=
  let r0 := op24 .recip (l.at j j) .pzero
  (List.range (l.rows - 1 - j)).foldl (fun (a : List LVal × FlagWord) n =>
    let i := j + 1 + n
    let q := close24 ((List.range (i - j)).map (fun k => lvMul (l.at i (j + k)) (a.1.getD k .pzero)))
    let v := op24 .div q.1 (l.at i i)
    let w := op24 .neg v.1 .pzero
    (a.1 ++ [w.1], a.2 ||| q.2 ||| v.2 ||| w.2)) ([r0.1], r0.2)

/-- X from the factor (R254): the inverse for ROOT 2, the product of its transpose with it for ROOT 1.
(DEDUCED, log entry 36.) -/
def invRoot (root : Nat) (l : Mat) : Mat × FlagWord :=
  let d := l.rows
  let cs := (List.range d).map (inverseColumn l)
  let ca := (cs.map (fun c => c.1.toArray)).toArray
  let y (i j : Nat) : LVal := (ca.getD j #[]).getD (i - j) .pzero
  let fl := flagsOr (cs.map (fun c => c.2))
  let x := if root = 2 then Mat.form d d (fun i j => (if j ≤ i then y i j else .pzero, 0))
    else Mat.form d d (fun i j =>
      if i < j then (.pzero, 0)
      else close24 ((List.range (d - i)).map (fun k => lvMul (y (i + k) i) (y (i + k) j))))
  (x.1, fl ||| x.2)

/-- The LNS24 value 10 of R255. -/
def tenCode : Nat := 0x01A935

/-- R255: the attempts at a factorisation: X (none where the last fails), the retries used and the flags. -/
def attempts (s : Mat) (root : Nat) (thr : LVal) : Nat → Nat → LVal → FlagWord → Option Mat × Nat × FlagWord
  | 0, used, _, fl => (none, used, fl)
  | n + 1, used, lam, fl =>
    let f := cholesky s lam thr
    if f.failed then
      if n = 0 then (none, used, fl ||| f.flags)
      else
        let m := op24 .mul lam (lnsDecode shape24 tenCode)
        attempts s root thr n (used + 1) m.1 (fl ||| f.flags ||| m.2)
    else
      let x := invRoot root ⟨s.rows, s.rows, f.cells⟩
      (some x.1, used, fl ||| f.flags ||| x.2)

/-- R254 step 3: P from X and G. In ROOT 2, X has no elements above its diagonal.
(DEDUCED, log entry 36.) -/
def gramDirection (root : Nat) (x g : Mat) : Mat × FlagWord :=
  let d := x.rows
  let n (i : Nat) : Nat := if root = 2 then i + 1 else d
  let xa (i k : Nat) : LVal := if root = 2 then x.at i k else x.sym i k
  if g.rows ≤ g.cols then Mat.form g.rows g.cols (fun i c => dot24 (n i) (xa i) (fun k => g.at k c))
  else Mat.form g.rows g.cols (fun r j => dot24 (n j) (fun k => g.at r k) (xa j))

/-- One iteration of NEWTON_SCHULZ (R256). -/
def newtonStep (a b : LVal) (x : Mat × FlagWord) : Mat × FlagWord :=
  let m := x.1
  let wide := decide (m.rows ≤ m.cols)
  let d := min m.rows m.cols
  let e := max m.rows m.cols
  let g := Mat.form d d (fun i j =>
    if wide then dot24 e (fun k => m.at i k) (fun k => m.at j k) else dot24 e (fun k => m.at k i) (fun k => m.at k j))
  let y := Mat.form m.rows m.cols (fun r c =>
    if wide then dot24 d (fun k => g.1.at r k) (fun k => m.at k c) else dot24 d (fun k => m.at r k) (fun k => g.1.at k c))
  let z := Mat.form m.rows m.cols (fun r c => close24 [lvMul a (m.at r c), lvMul b (y.1.at r c)])
  (z.1, x.2 ||| g.2 ||| y.2 ||| z.2)

/-- R256: P of NEWTON_SCHULZ from M, its flags, and whether it iterated: it does not where N is zero.
(DEDUCED, log entry 34.) -/
def newtonSchulz (p : UProgram) (m : Mat) : Mat × FlagWord × Bool :=
  let t := m.cells.toList.foldl (fun (a : Tal × FlagWord) v => let r := a.1.addProduct .log v v; (r.1, a.2 ||| r.2)) (.fresh, 0)
  let c := t.1.closeSeat .plain
  let n := op24 .sqrt c.1 .pzero
  let fl := t.2 ||| c.2 ||| n.2
  match n.1 with
  | .zero _ => (⟨m.rows, m.cols, Array.replicate (m.rows * m.cols) .pzero⟩, fl, false)
  | _ =>
    let x := Mat.form m.rows m.cols (fun r k => op24 .div (m.at r k) n.1)
    let y := (List.range p.rparam).foldl (fun y _ =>
      newtonStep (lnsDecode shape24 p.nsA) (lnsDecode shape24 p.nsB) y) (x.1, fl ||| x.2)
    (y.1, y.2, true)

end Sys2Proof.Machine
end

