-- ==== Sys2Proof/Machine/Tinker.lean ====
section
/-!
DEFINITION. The Tinkers: UPDATE_PROGRAM_LOAD, UPDATE_RUN with its two passes, PARAM_WRITE, copy-before-write as the Tinkers
meet it, and Tinker faults (R240 to R270, R319, R320).
-/
namespace Sys2Proof.Machine

/-! ## UPDATE_PROGRAM_LOAD (R240, R242, R243) -/

/-- A loaded program, or the built-in one. -/
def State.program (s : State) (id : Nat) : Option UProgram :=
  if id = 0x40 then some signMomentum else s.programs.find? (fun p => p.id = id)

/-- An accepted UPDATE_RUN names a program. -/
def State.programBusy (s : State) (id : Nat) : Bool :=
  s.cmds.any (fun c => match c.body with | .update r => r.entries.any (fun e => e.prog.id = id) | _ => false)

/-- A program read from a parameter block (Tables 8.3 and 8.4). -/
def programOf (ps : List Byte) : UProgram :=
  { id := fld ps 0 1, split := fld ps 2 1, rule := fld ps 3 1, rparam := fld ps 4 1, every := fld ps 6 2,
    damp0 := fld ps 8 3, pivot := fld ps 11 3, nsA := fld ps 14 3, nsB := fld ps 17 3,
    steps := (List.range (fld ps 1 1)).map (fun i =>
      let o := 24 + 8 * i
      ⟨fld ps o 1, fld ps (o + 1) 1, fld ps (o + 2) 1, fld ps (o + 3) 1, fld ps (o + 4) 1⟩) }

/-- UPDATE_PROGRAM_LOAD: NSTEPS 0 unloads. -/
def updateProgramLoad (q : Req) (s : State) : Verdict :=
  let n := fld q.params 1 1
  let p := programOf q.params
  if q.params.length ≠ 24 + 8 * n ∨ 16 < n ∨ p.id = 0 ∨ 63 < p.id ∨ s.programBusy p.id then refuse .badParam s
  else if !p.ok then refuse .badParam s
  else if n = 0 then
    if (s.program p.id).isSome then okReply [] { s with programs := s.programs.filter (fun x => x.id ≠ p.id) }
    else refuse .badParam s
  else okReply [] { s with programs := s.programs.filter (fun x => x.id ≠ p.id) ++ [p] }

/-! ## Tinkers and quarters (R268, R463) -/

/-- A Tinker serves: it is not retired and its quarter has not failed. -/
def State.tinkerUp (s : State) (t : Nat) : Bool := !s.health.tinkerRetired.getD t true && !s.quarterFailed t

/-- The neighbour of a Tinker. -/
def neighbour (t : Nat) : Nat := t ^^^ 1

/-- The Tinker that serves a quarter (R268).
(DEDUCED, log entry 93.) -/
def State.server (s : State) (q : Nat) : Option Nat :=
  if s.tinkerUp q then some q else if s.tinkerUp (neighbour q) then some (neighbour q) else none

/-- The quarters a Tinker serves, its own first. -/
def State.serves (s : State) (t : Nat) : List Nat :=
  [t, neighbour t].filter (fun q => decide (s.server q = some t))

/-! ## UPDATE_RUN: its checks (R245, R246, R252) -/

/-- Formats of M, G and V. -/
def stateFmt (t : Tensor) : Bool := decide (t.layout = .blocked) && (decide (t.f = .lns16) || decide (t.f = .lns24))

/-- Formats of WC. -/
def copyFmt (t : Tensor) : Bool :=
  decide (t.layout = .blocked) && (decide (t.f = .lns16) || decide (t.f = .lns8) || decide (t.f = .blns8))

/-- Two tensors have the same ROWS, COLS and PLANES. -/
def sameShape (a b : Tensor) : Bool := decide (a.rows = b.rows) && decide (a.cols = b.cols) && decide (a.planes = b.planes)

/-- Bytes of the workspace of a layer rule (Table 8.13). -/
def layerWorkspace (rule rows cols : Nat) : Nat :=
  let d := min rows cols
  let b := (d + 31) / 32
  match rule with
  | 1 => 3072 * b * (b + 1)
  | 2 => 9 * rows * cols + 3 * d * d
  | _ => 0

/-- 59 MiB. -/
def workspaceBytes : Nat := 59 * 2 ^ 20

/-- An optional TREF resolved: an outer none where it names no live tensor. -/
def State.optTensor (s : State) (x : Option Nat) : Option (Option Tensor) :=
  match x with
  | none => some none
  | some h => (s.tensor h).map some

/-- A predicate on an optional tensor. -/
def optAll (x : Option Tensor) (p : Tensor → Bool) : Bool := match x with | some t => p t | none => true

/-- One update entry checked (Table 8.9, R246, R252) and resolved. -/
def State.updateEntry (s : State) (nlayers : Nat) (bs : List Byte) : Option UEntry :=
  let layer := fld bs 0 2
  match s.program (fld bs 2 1), s.tensor (fld bs 4 4), s.tensor (fld bs 12 4), s.optTensor (tref (fld bs 8 4)),
      s.optTensor (tref (fld bs 16 4)), s.optTensor (tref (fld bs 20 4)), s.optTensor (tref (fld bs 24 4)),
      s.optTensor (tref (fld bs 28 4)) with
  | some p, some w, some g, some m, some v, some s1, some s2, some wc =>
    let d := min w.rows w.cols
    let inQuarter (t : Tensor) : Bool :=
      decide (quarterFor t.base t.footprint = quarterFor w.base w.footprint)
    let square (t : Tensor) : Bool :=
      decide (t.layout = .blocked) && decide (t.f = .lns24) && decide (t.rows = d) && decide (t.cols = d)
        && decide (t.planes = 1) && inQuarter t
    let like (t : Tensor) : Bool := stateFmt t && sameShape t w && inQuarter t
    let layerOk := decide (p.rule = 0) ||
      (decide (w.planes = 1) && decide (d ≤ 4096) && decide (layerWorkspace p.rule w.rows w.cols ≤ workspaceBytes))
    let ok := decide (layer < nlayers) && decide (w.layout = .blocked) && decide (w.f = .lns24) && like g
      && decide (m.isSome = p.uses 3) && optAll m like && decide (v.isSome = p.uses 4) && optAll v like
      && decide (s1.isSome = decide (p.rule = 1)) && optAll s1 square && decide (s2.isSome = decide (p.rule = 1))
      && optAll s2 square && optAll wc (fun t => copyFmt t && sameShape t w && inSram t.base t.footprint) && layerOk
    match quarterFor w.base w.footprint with
    | some q =>
      if ok then
        some ⟨layer, p, w.handle, tref (fld bs 8 4), g.handle, tref (fld bs 16 4), tref (fld bs 20 4), tref (fld bs 24 4),
              tref (fld bs 28 4), fld bs 32 3, q⟩
      else none
    | none => none
  | _, _, _, _, _, _, _, _ => none

/-- The tensors an entry writes (R246). -/
def UEntry.written (e : UEntry) : List Nat := [e.w] ++ optList e.m ++ optList e.v ++ optList e.s1 ++ optList e.s2 ++ optList e.wc

/-- The byte ranges of tensors. -/
def State.ranges (s : State) (hs : List Nat) : List (Nat × Nat) :=
  hs.filterMap (fun h => (s.tensor h).map (fun t => (t.base, t.footprint)))

/-- Some two ranges of a list overlap. -/
def anyOverlap : List (Nat × Nat) → Bool
  | [] => false
  | x :: xs => xs.any (fun y => overlaps x.1 x.2 y.1 y.2) || anyOverlap xs

/-- The norm all-reduce of a run as it will be matched (R248): a CID of its own, made from STEP.
(DESIGN CHOICE, log entry 32.) -/
def normColl (crew step rank now : Nat) (members : List Nat) : CollRun :=
  { kind := 1, combine := 0, close := 0, tag := 0, crew := crew, cid := 2 ^ 31 + step % 2 ^ 31, peer := 0, tc := 2,
    input := none, output := none, vec := [], members := members, rank := rank, started := false, got := [], counts := [],
    acc := [], flags := 0, lastRx := now }

/-- R268: a tensor touches a quarter that no Tinker can serve. -/
def State.inDeadQuarter (s : State) (h : Option Nat) : Bool :=
  match h.bind s.tensor with
  | some t => (List.range 4).any (fun q => decide (s.server q = none) && touchesQuarter q t.base t.footprint)
  | none => false

/-- The largest layer-rule workspace among entries (Table 8.13). -/
def State.largestWorkspace (s : State) (es : List UEntry) : Nat :=
  (es.map (fun e => match s.tensor e.w with | some x => layerWorkspace e.prog.rule x.rows x.cols | none => 0)).foldl max 0

/-- R268: a Tinker that serves two quarters holds the workspace of both, the largest of each, within the bound of R252.
(DEDUCED, log entry 117.) -/
def State.sharedWorkspace (s : State) (es : List UEntry) : Bool :=
  (List.range 4).all (fun t => decide (((s.serves t).map (fun q =>
    s.largestWorkspace (es.filter (fun e => e.quarter = q)))).foldl (· + ·) 0 ≤ workspaceBytes))

/-- UPDATE_RUN: it moves the local step by k4, then is checked (R246, R306, R307).
(DEDUCED, log entry 33.) -/
def updateRun (q : Req) (s0 : State) : Verdict :=
  let ps := q.params
  let s := s0.moveStep (fld ps 40 4)
  let n := fld ps 0 2
  let nl := fld ps 2 2
  let coll := decide (fld ps 5 1 = 1)
  if ps.length ≠ 88 + 40 * n ∨ n = 0 ∨ 4096 < n ∨ nl = 0 ∨ 4096 < nl ∨ 1 < fld ps 4 1 ∨ 1 < fld ps 5 1 then
    refuse .badParam s
  else if coll && decide (fld ps 8 4 ≠ s.crewVersion) then refuse .crewChanged s
  else if !coll && decide (fld ps 8 4 ≠ 0) then refuse .badParam s
  else
    let normOut := tref (fld ps 12 4)
    let normOk := match normOut with
      | none => true
      | some h => match s.tensor h with
        | some t => decide (t.layout = .raw) && decide (80 + 4 * nl ≤ t.footprint)
        | none => false
    let es := (List.range n).map (fun i => s.updateEntry nl ((ps.drop (88 + 40 * i)).take 40))
    let entries := es.filterMap id
    if !normOk ∨ entries.length ≠ n ∨ anyOverlap (s.ranges (entries.flatMap UEntry.written)) then refuse .badParam s
    else if entries.any (fun e => decide (s.server e.quarter = none)) || s.inDeadQuarter normOut then refuse .sparesExhausted s
    else if !s.sharedWorkspace entries then refuse .badParam s
    else
      let ms := s.net9.crew.members
      let rank := match s.devAddr with | some a => ms.findIdx? (fun m => m = a) | none => none
      let norm := rank.map (fun r => normColl s.crewVersion (fld ps 40 4) r s.now ms)
      let run : UpdRun :=
        { nlayers := nl, mode := fld ps 4 1, coll := coll, skip := fld ps 6 1 % 4, crew := fld ps 8 4, normOut := normOut,
          skipNorm := fld ps 16 3, clip := fld ps 19 3, ks := (List.range 16).map (fun i => fld ps (24 + 4 * i) 4),
          entries := entries,
          pass1 := (List.range 4).map (fun x => if entries.any (fun e => e.quarter = x) then .waiting else .ended),
          tallies := List.replicate (nl + 1) .fresh, nans := 0, infs := 0, frozenHits := 0, kept := List.replicate 4 false,
          norm := if coll then norm else none, normed := false, gnorm := 0, trust := 0, lnorms := [], skipped := false,
          done := [0, 0, 0, 0], busy := [false, false, false, false], flags := 0, lrecs := [], singular := 0, damped := 0,
          failed := 0, stop := none }
      match run.norm with
      | none => if coll then refuse .badParam s else .accept [] (.update run) none s
      | some r =>
        if s.watchFull r.neighbours then refuse .badParam s else .accept [] (.update run) none s

/-! ## Pass 1 (R247, R261) -/

/-- The elements of a tensor: plane, row, column and storage index. -/
def Tensor.elems (t : Tensor) : List (Nat × Nat × Nat × Nat) :=
  (List.range t.planes).flatMap (fun p => (List.range t.rows).flatMap (fun r => (List.range t.cols).map (fun c =>
    (p, r, c, t.storageIx p r c))))

/-- One element of G entered into the tallies and counts of a run. -/
def UpdRun.enter (r : UpdRun) (layer : Nat) (frozen : Bool) (v : LVal) : UpdRun :=
  if frozen then
    match v with
    | .zero _ => r
    | _ => { r with frozenHits := r.frozenHits + 1 }
  else
    let a := (r.tallies.getD 0 .fresh).addProduct .log v v
    let b := (r.tallies.getD (layer + 1) .fresh).addProduct .log v v
    { r with tallies := (r.tallies.set 0 a.1).set (layer + 1) b.1, flags := r.flags ||| a.2 ||| b.2,
             nans := r.nans + (if v.isNan then 1 else 0), infs := r.infs + (match v with | .inf _ => 1 | _ => 0) }

/-- An entry's G read in pass 1. -/
def State.pass1Entry (s : State) (r : UpdRun) (e : UEntry) : UpdRun :=
  match s.tensor e.g with
  | none => r
  | some g => g.elems.foldl (fun a x => a.enter e.layer (s.frozen e.w x.2.2.2) (s.seatAt g x.1 x.2.1 x.2.2.1).1) r

/-- The entries of a quarter, in list order, with their numbers. -/
def UpdRun.inQuarter (r : UpdRun) (q : Nat) : List (Nat × UEntry) :=
  ((List.range r.entries.length).zip r.entries).filter (fun x => x.2.quarter = q)

/-- UPDATE_PASS1_START (R247): a Tinker starts on the quarters it serves. A run that no Tinker can serve any more ends
ABORTED. -/
def execUpdatePass1Start (source tag tinker : Nat) (s : State) : Host.Outcome State Fault Refusal :=
  match s.cmd source tag with
  | none => .next s
  | some c =>
    match c.body with
    | .update r =>
      let qs := (s.serves tinker).filter (fun q => decide (r.pass1.getD q .ended = .waiting))
      if r.entries.any (fun e => decide (s.server e.quarter = none)) && !r.normed && s.mayStart c then
        .next (s.endUpdate c r 0x41)
      else if qs.isEmpty ∨ !s.mayStart c ∨ (!c.running && s.heldAddress) ∨ qs.any s.heldQuarter then .next s
      else
        let r1 := { r with pass1 := qs.foldl (fun l q => l.set q .running) r.pass1 }
        .next (s.setCmd { c with body := .update r1, running := true, startedAt := if c.running then c.startedAt else s.now })
    | _ => .next s

/-- A run whose pass 1 has ended everywhere starts its norm all-reduce (R248).
(DESIGN CHOICE, log entry 32.) -/
def State.startNorm (s : State) (c : Cmd) (r : UpdRun) : State :=
  match r.norm with
  | none => s.setCmd { c with body := .update r }
  | some n =>
    let count (k : Nat) : Tal := { Tal.fresh with value := (k : Int) * 2 ^ 160, terms := true, nz := true }
    let n1 := { n with vec := r.tallies ++ [count r.nans, count r.infs] }
    let s1 := n.neighbours.foldl State.watchPeer s
    let k := s1.collBegin n1
    (k.1.setCmd { c with body := .update { r with norm := some k.2 } }).takeHeld n.crew n.cid

/-- Bytes of the elements of a tensor, its padding left out. -/
def Tensor.elemTotal (t : Tensor) : Nat := t.planes * t.rows * t.cols * t.f.bits / 8

/-- R251, R268: a Tinker retains the gradients of the entries it serves. -/
def State.retains (s : State) (r : UpdRun) (t : Nat) : Bool :=
  let es := (s.serves t).flatMap r.inQuarter
  let g := (es.map (fun e => match s.tensor e.2.g with | some x => x.footprint | none => 0)).foldl (· + ·) 0
  decide (g + s.largestWorkspace (es.map (fun e => e.2)) ≤ workspaceBytes)

/-- A run whose pass 1 has ended on these quarters: tallies, counts, what is retained, and the next stage. -/
def State.pass1Done (s : State) (c : Cmd) (r : UpdRun) (tinker : Nat) (qs : List Nat) (gs : List Tensor) : State :=
  let r1 := (qs.flatMap r.inQuarter).foldl (fun a e => s.pass1Entry a e.2) r
  let r2 := { r1 with pass1 := qs.foldl (fun l q => l.set q .ended) r1.pass1,
                      kept := qs.foldl (fun l q => l.set q (s.retains r tinker)) r1.kept }
  let read := (gs.map Tensor.elemTotal).foldl (· + ·) 0
  let s1 := (s.count 0x0342 (r2.frozenHits - r.frozenHits)).count 0x0346 read
  if r2.pass1.all (fun x => decide (x = .ended)) then s1.startNorm c r2 else s1.setCmd { c with body := .update r2 }

/-- UPDATE_PASS1_END (R247): the Tinker has read the gradients of its quarters. A poisoned gradient stops the run (R185). -/
def execUpdatePass1End (source tag tinker : Nat) (s : State) : Host.Outcome State Fault Refusal :=
  match s.cmd source tag with
  | none => .next s
  | some c =>
    match c.body with
    | .update r =>
      let qs := (s.serves tinker).filter (fun q => decide (r.pass1.getD q .ended = .running))
      if qs.isEmpty then .next s
      else
        let gs := (qs.flatMap r.inQuarter).filterMap (fun e => s.tensor e.2.g)
        match gs.find? (fun g => s.poisoned g.base g.footprint) with
        | some g => .next ((s.notePoison g.base g.footprint).endUpdate c r 0x41)
        | none => .next (s.moving .update (gs.map (fun g => (false, g.base, g.elemTotal))) (fun s => s.pass1Done c r tinker qs gs))
    | _ => .next s

/-! ## Norms (R249) -/

/-- The norm of a tally: its LNS24 code and flags. -/
def normOf (t : Tal) : Nat × FlagWord :=
  let c := t.closeSeat .plain
  let r := op24 .sqrt c.1 .pzero
  ((lnsEncode shape24 r.1).code, c.2 ||| r.2)

/-- The counts and tallies of a run after its all-reduce. -/
def UpdRun.combined (r : UpdRun) : UpdRun :=
  match r.norm with
  | none => r
  | some n =>
    let k (i : Nat) : Nat := ((n.vec.getD (r.nlayers + 1 + i) .fresh).value / 2 ^ 160).toNat
    { r with tallies := n.vec.take (r.nlayers + 1), nans := k 0, infs := k 1, flags := r.flags ||| n.flags }

/-- The norm record (Table 8.10). -/
def UpdRun.normRecord (r : UpdRun) : List Byte :=
  leBytes 48 (r.tallies.getD 0 .fresh).encode ++ leBytes 4 r.gnorm ++ leBytes 4 r.trust ++ leBytes 8 r.nans
    ++ leBytes 8 r.infs ++ leBytes 8 0 ++ r.lnorms.flatMap (leBytes 4)

/-- GNORM, the layer norms, TRUST and the skip test, whose comparison raises nothing of its own (R20).
(DESIGN CHOICE, log entry 128.) -/
def UpdRun.withNorms (r0 : UpdRun) : UpdRun :=
  let r := r0.combined
  let g := normOf (r.tallies.getD 0 .fresh)
  let ls := (List.range r.nlayers).map (fun i => normOf (r.tallies.getD (i + 1) .fresh))
  let gv := lnsDecode shape24 g.1
  let q := op24 .div (lnsDecode shape24 r.clip) gv
  let t := op24 .min .one q.1
  let skip := (r.skip.testBit 0 && decide (0 < r.nans + r.infs))
    || (r.skip.testBit 1 && Cmp.gt.holds gv (lnsDecode shape24 r.skipNorm))
  { r with normed := true, gnorm := g.1, trust := (lnsEncode shape24 t.1).code, lnorms := ls.map (fun x => x.1),
           skipped := skip, flags := r.flags ||| g.2 ||| flagsOr (ls.map (fun x => x.2)) ||| q.2 ||| t.2 }

/-- UPDATE_NORMS (R249): once pass 1 and the all-reduce are done. -/
def execUpdateNorms (source tag : Nat) (s : State) : Host.Outcome State Fault Refusal :=
  match s.cmd source tag with
  | none => .next s
  | some c =>
    match c.body with
    | .update r =>
      let reduced := match r.norm with | some n => n.started && n.complete s && !s.collUnacked n | none => true
      if r.normed ∨ !r.pass1.all (fun x => decide (x = .ended)) ∨ !reduced then .next s
      else
        let r1 := r.withNorms
        let s1 := match r.normOut with
          | some h => match s.tensor h with
            | some t => s.write t.base r1.normRecord
            | none => s
          | none => s
        let s2 := match r.norm with
          | some n => { s1 with net9 := { s1.net9 with committed := s1.net9.committed ++ [(n.crew % 2 ^ 16, n.cid)] } }
          | none => s1
        .next ((s2.setCmd { c with body := .update { r1 with norm := none } }).trimCrews)
    | _ => .next s

/-! ## Copy-before-write (R320) -/

/-- Bytes of a piece of a footprint (R319): its offset and length. -/
def pieceRange (footprint j : Nat) : Nat × Nat := (65536 * j, min 65536 (footprint - 65536 * j))

/-- What a Tinker writes is no other requester's write (R320): the list of those stays as `s` has it. -/
def State.byTinker (s t : State) : State := { t with written := s.written }

/-- The running SECURE, with its command. -/
def State.secureRun (s : State) : Option (Cmd × SecureRun) :=
  s.cmds.findSome? (fun c => match c.body with | .secure r => if r.cut then some (c, r) else none | _ => none)

/-- The unsent pieces of the running SECURE that meet any of these ranges. -/
def State.unsentIn (s : State) (rs : List (Nat × Nat)) : List (Nat × Nat) :=
  match s.secureRun with
  | none => []
  | some (_, r) => r.unsent.filter (fun x =>
      match s.tensor (r.tensors.getD x.1 0) with
      | some t => let g := pieceRange t.footprint x.2; rs.any (fun y => overlaps (t.base + g.1) g.2 y.1 y.2)
      | none => false)

/-! ## Pass 2 (R250 to R257) -/

/-- A tensor seen without its padding: a write leaves padding as it is (R250). -/
def Tensor.whole (t : Tensor) : Tensor := { t with rows := 32 * t.br, cols := 32 * t.bc }

/-- Elements written into every plane from their codes, `code` giving none where one is left as it is. `pad`: the padding of a
block written in part is written as +0 (R195); a Tinker's pass leaves that of W, M and V (R250).
(DEDUCED, log entry 37.) -/
def State.putCodes (s : State) (pad : Bool) (h : Nat) (code : Nat → Nat → Nat → Option Nat) : State :=
  match s.tensor h with
  | none => s
  | some t =>
    let u := if pad then t else t.whole
    (List.range t.planes).foldl (fun s p => s.putRegion u p 0 t.rows 0 t.cols (fun r c =>
      if r < t.rows ∧ c < t.cols then code p r c else none)) s

/-- WC written from final W (R250): `w` gives the value where the element is written. -/
def State.putCopy (s : State) (h : Nat) (old : Nat → Nat → Nat → LVal) (w : Nat → Nat → Nat → Option LVal) :
    State × FlagWord :=
  match s.tensor h with
  | none => (s, 0)
  | some t =>
    (List.range t.planes).foldl (fun (a : State × FlagWord) p =>
      if t.f = .blns8 then
        let row (r bj : Nat) : Option (List Enc × Nat × FlagWord) :=
          let cs := (List.range 32).map (fun k => 32 * bj + k)
          if cs.any (fun c => decide (c < t.cols) && (w p r c).isSome) then
            some (blnsEncode (cs.map (fun c =>
              if t.cols ≤ c then XVal.log .pzero else .log ((w p r c).getD (old p r c)))))
          else none
        let fl := flagsOr ((List.range t.rows).flatMap (fun r => (List.range t.bc).map (fun bj =>
          match row r bj with | some x => x.2.2 | none => 0)))
        (a.1.putRows8 t p 0 t.rows 0 t.cols (fun r bj => (row r bj).map (fun x => (x.1.map (fun y => y.code), x.2.1))),
         a.2 ||| fl)
      else
        let enc (r c : Nat) : Option Enc := (w p r c).map (fun v => encodeElem t.f 0 (.log v))
        let fl := flagsOr ((List.range t.rows).flatMap (fun r => (List.range t.cols).map (fun c =>
          match enc r c with | some e => e.flags | none => 0)))
        (a.1.putRegion t p 0 t.rows 0 t.cols (fun r c => (enc r c).map (fun e => e.code)), a.2 ||| fl)) (s, 0)

/-- What pass 2 of one entry gives: the layer stage's statistic and root to write, the final registers by element (none where
frozen), flags and layer report. -/
structure EntryOut where
  s1 : Option Mat
  s2 : Option Mat
  regs : Array (Option (List LVal))
  flags : FlagWord
  retries : Nat
  kept : Bool
  /-- The layer stage factorised or iterated. -/
  worked : Bool

/-- The scalar slots of an entry (R244).
(DEDUCED, log entry 33.) -/
def UpdRun.slots (r : UpdRun) (e : UEntry) : List Nat × FlagWord :=
  let m := op24 .mul (lnsDecode shape24 (r.ks.getD 0 0 % 2 ^ 24)) (lnsDecode shape24 e.lrMul)
  ((((r.ks.set 0 (lnsEncode shape24 m.1).code).set 5 r.gnorm).set 6 (r.lnorms.getD e.layer 0)).set 7 r.trust, m.2)

/-- A plane of a tensor as a matrix of seat values. -/
def State.matrix (s : State) (h : Nat) : Mat :=
  match s.tensor h with
  | some t => (Mat.form t.rows t.cols (fun i j => ((s.seatAt t 0 i j).1, 0))).1
  | none => ⟨0, 0, #[]⟩

/-- Pass 2 of an entry, computed.
(DEDUCED, log entry 34.) -/
def State.entryOut (s : State) (r : UpdRun) (e : UEntry) (w : Tensor) : EntryOut :=
  let k := r.slots e
  let reg (h : Option Nat) (p i j : Nat) : LVal :=
    match h with
    | some h => match s.tensor h with | some t => (s.seatAt t p i j).1 | none => .pzero
    | none => .pzero
  let frozen (p i j : Nat) : Bool := s.frozen e.w (w.storageIx p i j)
  let es := w.elems
  let start (p i j : Nat) (d : LVal) : List LVal := uRegs (reg (some e.g) p i j) (reg (some e.w) p i j) (reg e.m p i j) (reg e.v p i j) d
  let finish (xs : List UStep) (f : Nat × Nat × Nat × Nat → List LVal) : Array (Option (List LVal)) × FlagWord :=
    let ys := es.map (fun x => if frozen x.1 x.2.1 x.2.2.1 then none else some (runSteps k.1 xs (f x)))
    ((ys.map (fun y => y.map (fun z => z.1))).toArray, flagsOr (ys.map (fun y => match y with | some z => z.2 | none => 0)))
  match e.prog.rule with
  | 1 =>
    let g := (Mat.form w.rows w.cols (fun i j => ((if frozen 0 i j then .pzero else reg (some e.g) 0 i j), 0))).1
    let stat := gramStat g (s.matrix (e.s1.getD 0)) (lnsDecode shape24 (k.1.getD 2 0 % 2 ^ 24))
      (lnsDecode shape24 (k.1.getD 9 0 % 2 ^ 24))
    let due := decide (r.ks.getD 4 0 % e.prog.every = 0)
    let fac : Option Mat × Nat × FlagWord :=
      if due then attempts stat.1 e.prog.rparam (lnsDecode shape24 e.prog.pivot) 4 0 (lnsDecode shape24 e.prog.damp0) 0
      else (none, 0, 0)
    let x := fac.1.getD (s.matrix (e.s2.getD 0))
    let d := gramDirection e.prog.rparam x g
    let y := finish e.prog.steps (fun z => start z.1 z.2.1 z.2.2.1 (d.1.at z.2.1 z.2.2.1))
    ⟨some stat.1, fac.1, y.1, k.2 ||| stat.2 ||| fac.2.2 ||| d.2 ||| y.2, fac.2.1, due && decide (fac.1.isNone), due⟩
  | 2 =>
    let pre := finish (e.prog.steps.take e.prog.split) (fun z => start z.1 z.2.1 z.2.2.1 .pzero)
    let m := (Mat.form w.rows w.cols (fun i j =>
      ((match pre.1.getD (i * w.cols + j) none with | some z => z.getD 3 .pzero | none => reg e.m 0 i j), 0))).1
    let d := newtonSchulz e.prog m
    let y := finish (e.prog.steps.drop e.prog.split) (fun z =>
      let q := (pre.1.getD (z.2.1 * w.cols + z.2.2.1) none).getD []
      uRegs (q.getD 1 .pzero) (q.getD 2 .pzero) (q.getD 3 .pzero) (q.getD 4 .pzero) (d.1.at z.2.1 z.2.2.1))
    ⟨none, none, y.1, k.2 ||| pre.2 ||| d.2.1 ||| y.2, 0, false, d.2.2⟩
  | _ =>
    let y := finish e.prog.steps (fun z => start z.1 z.2.1 z.2.2.1 .pzero)
    ⟨none, none, y.1, k.2 ||| y.2, 0, false, false⟩

/-- A matrix held below its diagonal written to a d × d tensor: its blocks on or below the diagonal (R252). Above the diagonal
inside a diagonal block, a symmetric matrix has the element across; what the device writes there of a triangular one (`tri`) is not
stated: those codes are free values.
(DEDUCED, log entry 36.) -/
def State.putLower (s : State) (h : Nat) (m : Mat) (tri : Bool) : State :=
  let s1 := { s with free := s.free + m.rows * m.rows }
  s1.putCodes true h (fun _ i j =>
    if j / 32 ≤ i / 32 then
      some (if tri ∧ i < j then Config.freeNat (s.free + i * m.rows + j) % 2 ^ 24 else (lnsEncode shape24 (m.sym i j)).code)
    else none)

/-- An entry's results written (R250): W, M, V and WC, S1 and S2.
(DEDUCED, log entry 37.) -/
def State.writeEntry (s : State) (e : UEntry) (w : Tensor) (o : EntryOut) : State × FlagWord :=
  let n := w.cols
  let at_ (p i j : Nat) : Option (List LVal) := o.regs.getD ((p * w.rows + i) * n + j) none
  let oldW (p i j : Nat) : LVal := (s.seatAt w p i j).1
  let enc (f : Fmt) (k p i j : Nat) : Option Enc := (at_ p i j).map (fun z => encodeElem f 0 (.log (z.getD k .pzero)))
  let put (a : State × FlagWord) (h : Option Nat) (k : Nat) : State × FlagWord :=
    match h.bind s.tensor with
    | none => a
    | some t => (a.1.putCodes false t.handle (fun p i j => (enc t.f k p i j).map (fun x => x.code)),
        a.2 ||| flagsOr (w.elems.map (fun x => match enc t.f k x.1 x.2.1 x.2.2.1 with | some y => y.flags | none => 0)))
  let s1 := match e.s1, o.s1 with | some h, some m => s.putLower h m false | _, _ => s
  let s2 := match e.s2, o.s2 with | some h, some m => s1.putLower h m (decide (e.prog.rparam = 2)) | _, _ => s1
  let a := put (put (put (s2, 0) (some e.w) 2) e.m 3) e.v 4
  match e.wc with
  | none => a
  | some h => let c := a.1.putCopy h oldW (fun p i j => (at_ p i j).map (fun z => z.getD 2 .pzero)); (c.1, a.2 ||| c.2)

/-- The next entry of pass 2 for a Tinker (R246, R268): its number and the entry. A quarter whose Tinker failed in this run
has none. -/
def State.nextEntry (s : State) (r : UpdRun) (t : Nat) : Option (Nat × UEntry) :=
  (s.serves t).findSome? (fun q => if r.failed.testBit q then none else (r.inQuarter q)[r.done.getD q 0]?)

/-- The bytes of unit `u` of 32 elements in storage order (R259): a row of a block. -/
def Tensor.unitRange (t : Tensor) (u : Nat) : Nat × Nat := (t.base + u * (t.f.blockBytes / 32), t.f.blockBytes / 32)

/-- The elements of an entry that are not frozen. -/
def State.liveElems (s : State) (e : UEntry) (w : Tensor) : List (Nat × Nat × Nat × Nat) :=
  w.elems.filter (fun x => !s.frozen e.w x.2.2.2)

/-- The units of an entry that hold an element that is not frozen: pass 2 reads no other (R261). -/
def State.liveUnits (s : State) (e : UEntry) (w : Tensor) : List Nat := ((s.liveElems e w).map (fun x => x.2.2.2 / 32)).eraseDups

/-- The blocks of an optional d × d tensor on or below its diagonal (R252). -/
def State.lowerRanges (s : State) (h : Option Nat) : List (Nat × Nat) :=
  match h.bind s.tensor with
  | some t => (List.range t.br).map (fun i => (t.blockAddr 0 i 0, (i + 1) * t.f.blockBytes))
  | none => []

/-- The byte ranges pass 2 of an entry reads (R251, R252, R261). `o` is what it gives. -/
def State.entryReads (s : State) (r : UpdRun) (e : UEntry) (w : Tensor) (o : EntryOut) : List (Nat × Nat) :=
  let us := s.liveUnits e w
  let units (h : Option Nat) : List (Nat × Nat) := match h.bind s.tensor with | some t => us.map t.unitRange | none => []
  units (some e.w) ++ (if r.kept.getD e.quarter false then [] else units (some e.g)) ++ units e.m ++ units e.v
    ++ s.lowerRanges e.s1 ++ (if o.s2.isSome then [] else s.lowerRanges e.s2)

/-- The byte ranges pass 2 of an entry writes (R250, R252, R261). -/
def State.entryWrites (s : State) (e : UEntry) (w : Tensor) (o : EntryOut) : List (Nat × Nat) :=
  let live := s.liveElems e w
  let elems (h : Option Nat) : List (Nat × Nat) :=
    match h.bind s.tensor with | some t => live.map (fun x => t.elemRange x.1 x.2.1 x.2.2.1) | none => []
  let copy := match e.wc.bind s.tensor with | some t => (s.liveUnits e w).map t.unitRange | none => []
  elems (some e.w) ++ elems e.m ++ elems e.v ++ copy ++ s.lowerRanges e.s1 ++ (if o.s2.isSome then s.lowerRanges e.s2 else [])

/-- Poison that pass 2 of an entry reads.
(DEDUCED, log entry 39.) -/
def State.entryPoison (s : State) (r : UpdRun) (e : UEntry) (w : Tensor) (o : EntryOut) : Option (Nat × Nat) :=
  if s.clean then none else (s.entryReads r e w o).find? (fun g => s.poisoned g.1 g.2)

/-- Ranges whose contents become undefined: free values. -/
def State.scrambleRanges (s : State) (rs : List (Nat × Nat)) : State :=
  rs.foldl (fun a g => let x := a.freeBytes g.2; x.2.write g.1 x.1) s

/-- Element bytes of an optional tensor. -/
def State.elemBytes (s : State) (h : Option Nat) : Nat :=
  match h.bind s.tensor with | some t => t.f.bits / 8 | none => 0

/-- The counters of an entry (Table 8.20): `n` elements updated, `rd` elements of units read, `rows8` units of WC written.
(DEDUCED, log entry 40.) -/
def State.countEntry (s : State) (e : UEntry) (w : Tensor) (o : EntryOut) (n rd rows8 : Nat) (kept : Bool) : State :=
  let gb := s.elemBytes (some e.g)
  let mv := s.elemBytes e.m + s.elemBytes e.v + 3
  let wcb := match e.wc.bind s.tensor with
    | some t => if t.f = .blns8 then 33 * rows8 else n * (t.f.bits / 8)
    | none => 0
  let d := min w.rows w.cols
  let b := (d + 31) / 32
  let x := max w.rows w.cols
  let gram := 512 * x * b * (b + 1)
  let full := 1024 * x * b * b
  let products := match e.prog.rule with
    | 1 => gram + (if e.prog.rparam = 1 then full else gram) + (if o.worked then Config.freeNat s.free else 0)
    | 2 => if o.worked then e.prog.rparam * (gram + full) else 0
    | _ => 0
  let tri := if e.prog.rule = 1 then 3072 * b * (b + 1) / 2 else 0
  let s1 := { s with free := s.free + 1 }
  (((((s1.count 0x0341 n).count 0x0346 (rd * (mv + (if kept then 0 else gb)) + tri * (if o.s2.isSome then 1 else 2))).count 0x0347
    (n * mv + wcb + tri + (if o.s2.isSome then tri else 0))).count 0x0348 products).count 0x0349 (if kept then rd * gb else 0))

/-- A layer record put in the order of the entries. -/
def lrecPut : List LRec → LRec → List LRec
  | [], x => [x]
  | y :: ys, x => if y.ix < x.ix then y :: lrecPut ys x else x :: y :: ys

/-- An entry of a run counted as done, with what pass 2 of it adds to the run. -/
def UpdRun.entryDone (r : UpdRun) (e : UEntry) : UpdRun := { r with done := r.done.set e.quarter (r.done.getD e.quarter 0 + 1) }

/-- What an entry's pass 2 adds to the run's report. -/
def UpdRun.report (r : UpdRun) (ix : Nat) (e : UEntry) (o : EntryOut) (flags : FlagWord) : UpdRun :=
  { r with
    flags := r.flags ||| o.flags ||| flags
    lrecs := if 0 < o.retries then lrecPut r.lrecs ⟨ix, e.layer, o.retries, o.kept⟩ else r.lrecs
    singular := r.singular + (if o.kept then 1 else 0)
    damped := r.damped + (if 0 < o.retries && !o.kept then 1 else 0) }

/-- Pass 2 of an entry: its results written, the counters, and the run's report. -/
def State.entryWork (s : State) (c : Cmd) (r : UpdRun) (ix : Nat) (e : UEntry) (w : Tensor) (o : EntryOut) : State :=
  let a := s.writeEntry e w o
  let units := s.liveUnits e w
  let rd := (w.elems.filter (fun x => units.contains (x.2.2.2 / 32))).length
  let s1 := a.1.countEntry e w o (s.liveElems e w).length rd units.length (r.kept.getD e.quarter false)
  let s2 := (s1.count 0x0344 o.retries).count 0x0345 (if o.kept then 1 else 0)
  s.byTinker (s2.setCmd { c with body := .update ((r.report ix e o a.2).entryDone e) })

/-- UPDATE_ENTRY (R250, R254 to R257): the next entry of a Tinker, from its reads to its last write. It waits while a byte it
is to write belongs to an unsent piece of a SECURE (R320).
(DESIGN CHOICE, log entry 38; DEDUCED, log entry 39.) -/
def execUpdateEntry (source tag tinker : Nat) (s : State) : Host.Outcome State Fault Refusal :=
  match s.cmd source tag with
  | none => .next s
  | some c =>
    match c.body with
    | .update r =>
      if !r.normed ∨ r.skipped ∨ r.mode = 1 ∨ r.stop.isSome then .next s
      else
        match s.nextEntry r tinker with
        | none => .next s
        | some (ix, e) =>
          match s.tensor e.w with
          | none => .next s
          | some w =>
            if (s.liveElems e w).isEmpty then .next (s.setCmd { c with body := .update (r.entryDone e) })
            else
              let o := s.entryOut r e w
              let ws := s.entryWrites e w o
              if !(s.unsentIn ws).isEmpty then .next s
              else
                match s.entryPoison r e w o with
                | some g =>
                  .next (s.byTinker (((s.notePoison g.1 g.2).scrambleRanges ws).setCmd { c with body := .update { r with stop := some 0x41 } }))
                | none =>
                  let ms := (s.entryReads r e w o).map (fun g => (false, g.1, g.2)) ++ ws.map (fun g => (true, g.1, g.2))
                  .next (s.moving .update ms (fun s => s.entryWork c r ix e w o))
    | _ => .next s

/-- Every Tinker has ended pass 2. -/
def UpdRun.pass2Done (r : UpdRun) : Bool :=
  (List.range 4).all (fun q => r.failed.testBit q || decide (r.done.getD q 0 = (r.inQuarter q).length))

/-- UPDATE_RUN_COMMIT (R264). -/
def execUpdateRunCommit (source tag : Nat) (s : State) : Host.Outcome State Fault Refusal :=
  match s.cmd source tag with
  | none => .next s
  | some c =>
    match c.body with
    | .update r =>
      if !r.normed then .next s
      else if r.stop.isSome ∨ r.skipped ∨ r.mode = 1 ∨ r.pass2Done then
        .next (s.endUpdate c r (match r.stop with | some x => x | none => if r.failed = 0 then 0 else 0x41))
      else .next s
    | _ => .next s

/-! ## PARAM_WRITE (R262) -/

/-- The fields of Table 8.15 with the data's bytes per element. -/
def pwFields (ps : List Byte) : Nat × Option Nat × Nat × Nat × Nat :=
  (fld ps 0 4, tref (fld ps 4 4), fld ps 8 8, fld ps 16 4, fld ps 20 1)

/-- Bytes of one data element. -/
def pwBytes (dfmt : Nat) : Nat := if dfmt = 0x04 then 3 else 4

/-- PARAM_WRITE: its checks. -/
def paramWrite (q : Req) (s : State) : Verdict :=
  let (wh, wch, first, count, dfmt) := pwFields q.params
  if q.params.length ≠ 24 ∨ count = 0 ∨ 2 ^ 24 < count ∨ (dfmt ≠ 0x04 ∧ dfmt ≠ 0x20) then refuse .badParam s
  else
    match s.tensor wh, s.optTensor wch with
    | some w, some wc =>
      if w.layout ≠ .blocked ∨ w.fmt ≠ some .lns24 then refuse .badParam s
      else
        match quarterFor w.base w.footprint with
        | none => refuse .memoryRange s
        | some qr =>
          if w.positions < first + count ∨ !optAll wc (fun t => copyFmt t && sameShape t w && inSram t.base t.footprint) then
            refuse .badParam s
          else if s.server qr = none then refuse .sparesExhausted s
          else .accept [] .plain (some (count * pwBytes dfmt)) s
    | _, _ => refuse .badParam s

/-- The plane, row and column of a storage index, padding included (R259). -/
def Tensor.placeOf (t : Tensor) (x : Nat) : Nat × Nat × Nat :=
  let b := x / 1024
  (b / (t.br * t.bc), 32 * (b / t.bc % t.br) + x % 1024 / 32, 32 * (b % t.bc) + x % 32)

/-- The storage indices, padding included, that a write of these elements of a tensor writes: the elements, whole rows of 32 in
BLNS8, and the padding of their blocks (R195). -/
def Tensor.wroteIx (t : Tensor) (xs : List Nat) : List Nat :=
  let blocks := (xs.map (fun x => x / 1024)).eraseDups
  let rows := if t.f = .blns8 then (xs.map (fun x => x / 32)).eraseDups.flatMap (fun u => (List.range 32).map (fun k => 32 * u + k)) else xs
  let pads := blocks.flatMap (fun b => ((List.range 1024).map (fun k => 1024 * b + k)).filter (fun x =>
    let p := t.placeOf x
    decide (t.rows ≤ p.2.1) || decide (t.cols ≤ p.2.2)))
  (rows ++ pads).eraseDups

/-- The byte ranges of these storage indices; in BLNS8 a row's scale byte goes with its elements. -/
def Tensor.rangesOf (t : Tensor) (xs : List Nat) : List (Nat × Nat) :=
  if t.f = .blns8 then (xs.map (fun x => x / 32)).eraseDups.map t.unitRange
  else xs.map (fun x => let p := t.placeOf x; t.elemRange p.1 p.2.1 p.2.2)

/-- The byte ranges a PARAM_WRITE writes in W and WC: its elements, and the padding of their blocks (R195, R262). -/
def State.pwRanges (s : State) (c : Cmd) : List (Nat × Nat) :=
  let (wh, wch, first, count, _) := pwFields c.params
  let of (h : Option Nat) : List (Nat × Nat) :=
    match h.bind s.tensor with
    | some t => t.rangesOf (t.wroteIx ((t.elems.map (fun x => x.2.2.2)).filter (fun x => decide (first ≤ x) && decide (x < first + count))))
    | none => []
  of (some wh) ++ of wch

/-- R262: the elements of a PARAM_WRITE written to W and WC, and its completion. -/
def State.pwWork (s : State) (c : Cmd) (w : Tensor) : State :=
  let (wh, wch, first, count, dfmt) := pwFields c.params
  let hit (x : Nat) : Bool := decide (first ≤ x) && decide (x < first + count)
  let data := match c.bulk with | some b => b.data | none => []
  let n := pwBytes dfmt
  let val (x : Nat) : LVal × FlagWord :=
    let code := fld data (n * (x - first)) n
    if dfmt = 0x04 then (lnsDecode shape24 code, 0)
    else let v := fpDecode Fmt.fp32.fp code; let z := seat v.1.toLog; (z.1, v.2 ||| z.2)
  let new (p i j : Nat) : Option LVal :=
    let x := w.storageIx p i j
    if hit x then some (val x).1 else none
  let old (p i j : Nat) : LVal := (s.seatAt w p i j).1
  let hits := w.elems.filter (fun x => hit x.2.2.2)
  let fl := flagsOr (hits.map (fun x => (val x.2.2.2).2))
  let s1 := s.putCodes true wh (fun p i j => (new p i j).map (fun v => (lnsEncode shape24 v).code))
  let a := match wch with | some h => s1.putCopy h old new | none => (s1, 0)
  let wcb := match wch.bind s.tensor with
    | some t => if t.f = .blns8 then 33 * ((hits.map (fun x => x.2.2.2 / 32)).eraseDups).length else hits.length * (t.f.bits / 8)
    | none => 0
  s.byTinker ((a.1.count 0x0347 (3 * hits.length + wcb)).completeGeneric c (doneRes (fl ||| a.2)) (fl ||| a.2) 0 0)

/-- PARAM_WRITE_START (R262): the freeze test, then W and WC. It waits while it would write a byte of an unsent piece.
(DESIGN CHOICE, log entry 38; DEDUCED, log entry 93.) -/
def execParamWriteStart (source tag : Nat) (s : State) : Host.Outcome State Fault Refusal :=
  match s.cmd source tag with
  | none => .next s
  | some c =>
    let (wh, _, first, count, _) := pwFields c.params
    match c.op, s.tensor wh with
    | .paramWrite, some w =>
      let q := quarterOf w.base
      if !s.mayStart c ∨ (!c.running && s.heldQuarter q) then .next s
      else if s.server q = none then .next (s.completeGeneric c .aborted 0 0x41 0)
      else
        let hit (x : Nat) : Bool := decide (first ≤ x) && decide (x < first + count)
        let ws := s.pwRanges c
        if w.elems.any (fun x => hit x.2.2.2 && s.frozen wh x.2.2.2) then .next ((s.startCmd c).completeGeneric c .frozen 0 0 0)
        else if !(s.unsentIn ws).isEmpty then .next (s.startCmd c)
        else .next (s.moving .update (ws.map (fun g => (true, g.1, g.2))) (fun s => s.pwWork c w))
    | _, _ => .next s

/-- Bytes copied from an address as a SECURE sends them (R320): the copied value of a byte that another requester has written since
the cut is free, also where the write left the byte as it was.
(DEDUCED, log entry 141.) -/
def State.openBytes (s : State) (a : Nat) (bs : List Byte) : List Byte × State :=
  if s.written.any (fun g => overlaps a bs.length g.1 g.2) then
    (((List.range bs.length).zip bs).map (fun x =>
       if s.written.any (fun g => overlaps (a + x.1) 1 g.1 g.2) then Config.freeByte (s.free + x.1) else x.2),
     { s with free := s.free + bs.length })
  else (bs, s)

/-- A piece of a SECURE read, its poison noted: what is to be sent of it. -/
def State.readPiece (s : State) (t : Tensor) (x : Nat × Nat) : CowPiece × State :=
  let g := pieceRange t.footprint x.2
  let a := t.base + g.1
  let bad := if s.poisoned a g.2 then (List.range g.2).filter (fun i => s.poisoned (a + i) 1) else []
  let b := (s.noteRead a g.2).openBytes a (s.read a g.2)
  (⟨x.1, x.2, b.1, bad⟩, b.2)

/-- Where a piece of a SECURE lies: its first byte and its bytes. -/
def State.pieceAt (s : State) (r : SecureRun) (x : Nat × Nat) : Option (Nat × Nat) :=
  (s.tensor (r.tensors.getD x.1 0)).map (fun t => let g := pieceRange t.footprint x.2; (t.base + g.1, g.2))

/-- An unsent piece read into the secure buffer and marked sent; the buffer holds 16 MiB.
(DESIGN CHOICE, log entry 12.) -/
def State.bufferPiece (s : State) (x : Nat × Nat) : State :=
  match s.secureRun with
  | none => s
  | some (c, r) =>
    match s.tensor (r.tensors.getD x.1 0) with
    | none => s
    | some t =>
      if r.unsent.contains x ∧ r.buffer.length < 256 then
        let p := s.readPiece t x
        let r1 := { r with unsent := r.unsent.filter (fun y => y ≠ x), buffer := r.buffer ++ [p.1], cow := r.cow + 1 }
        let w := (p.2.setCmd { c with body := .secure r1 }).freeNat
        (w.2.count 0x0383 1).count 0x0384 w.1
      else s

/-- The ranges that the Tinkers are about to write. -/
def State.aboutToWrite (s : State) : List (Nat × Nat) :=
  s.cmds.flatMap (fun d =>
    match d.op, d.body with
    | .paramWrite, _ => if d.running then s.pwRanges d else []
    | _, .update u =>
      if u.normed && !u.skipped && decide (u.mode = 0) && u.stop.isNone then
        (List.range 4).flatMap (fun t =>
          match s.nextEntry u t with
          | some x => match s.tensor x.2.w with
            | some w => if (s.liveElems x.2 w).isEmpty then [] else s.entryWrites x.2 w (s.entryOut u x.2 w)
            | none => []
          | none => [])
      else []
    | _, _ => [])

/-- The bytes of an unsent piece of the running SECURE. -/
def State.pieceMoves (s : State) (x : Nat × Nat) : Moves :=
  match s.secureRun with
  | none => []
  | some (_, r) => match s.pieceAt r x with | some g => [(false, g.1, g.2)] | none => []

/-- COPY_BEFORE_WRITE (R320): a Tinker that is about to write a byte of an unsent piece has the piece read into the secure
buffer first. `tensor` is the index in the SECURE's list. -/
def execCopyBeforeWrite (tensor piece : Nat) (s : State) : Host.Outcome State Fault Refusal :=
  let x := (tensor, piece)
  if (s.unsentIn s.aboutToWrite).contains x then .next (s.moving .secure (s.pieceMoves x) (fun s => s.bufferPiece x))
  else .next s

/-- A piece copied before a write that has begun: its read is charged to SECURE (R322). -/
def State.bufferNow (s : State) (x : Nat × Nat) : State :=
  match s.secureRun with
  | none => s
  | some (_, r) => if r.buffer.length < 256 then (s.charge .secure (s.pieceMoves x)).bufferPiece x else s

/-- Ranges of which a Tinker's write was under way are undefined, but for the bytes of pieces that a SECURE has not copied: their
copy comes before any write of them (R320). What the buffer has no room for is unwritten.
(DEDUCED, log entry 93.) -/
def State.loseRanges (s : State) (rs : List (Nat × Nat)) : State :=
  let s1 := (s.unsentIn rs).foldl State.bufferNow s
  let still : List (Nat × Nat) := match s1.secureRun with
    | none => []
    | some (_, r) => (s1.unsentIn rs).filterMap (s1.pieceAt r)
  let s2 := s1.scrambleRanges rs
  let s3 := still.foldl (fun a g => a.write g.1 (s1.read g.1 g.2)) s2
  s1.byTinker (s3.poisonUnits (s1.poison.filter (fun u => still.any (fun g => unitHit g.1 g.2 u))))

/-! ## Tinker faults (R268, R269, Table 8.19) -/

/-- The ranges of the elements of a PARAM_WRITE in W and WC, the scale bytes of BLNS8 rows left out: what its Tinker's fault leaves
undefined (R262).
(DEDUCED, log entry 93.) -/
def State.pwElems (s : State) (c : Cmd) : List (Nat × Nat) :=
  let (wh, wch, first, count, _) := pwFields c.params
  let of (h : Option Nat) : List (Nat × Nat) :=
    match h.bind s.tensor with
    | none => []
    | some t => (t.elems.filter (fun x => decide (first ≤ x.2.2.2) && decide (x.2.2.2 < first + count))).map (fun x =>
        t.elemRange x.1 x.2.1 x.2.2.1)
  of (some wh) ++ of wch

/-- What a Tinker's fault does to an UPDATE_RUN or PARAM_WRITE that runs on it. `served` are the quarters it served.
(DEDUCED, log entry 93.) -/
def State.tinkerFailCmd (s : State) (served : List Nat) (c : Cmd) : State :=
  match c.op, c.body with
  | .updateRun, .update r =>
    let mine := served.filter (fun q => !(r.inQuarter q).isEmpty)
    if mine.isEmpty ∨ !c.running then s
    else
      let bits := mine.foldl (fun a q => a ||| 2 ^ q) r.failed
      if !r.normed then s.endUpdate c { r with failed := bits } 0x41
      else if r.skipped ∨ r.mode = 1 then s
      else if r.stop.isSome then s.setCmd { c with body := .update { r with failed := bits } }
      else
        let s1 := match mine.findSome? (fun q => (r.inQuarter q)[r.done.getD q 0]?) with
          | some x => match s.tensor x.2.w with
            | some w => s.loseRanges (s.entryWrites x.2 w (s.entryOut r x.2 w))
            | none => s
          | none => s
        s1.setCmd { c with body := .update { r with failed := bits } }
  | .paramWrite, _ =>
    match s.tensor (fld c.params 0 4) with
    | some w => if c.running && served.contains (quarterOf w.base) then
        (s.loseRanges (s.pwElems c)).completeGeneric c .aborted 0 0x41 0
      else s
    | none => s
  | _, _ => s

/-- A Tinker retired: the attention bits, and the commands on it (R268, R269). -/
def State.retireTinker (s : State) (t : Nat) : State :=
  let served := s.serves t
  let s1 := s.cmds.foldl (fun a c => a.tinkerFailCmd served c) s
  let s2 : State := { s1 with health := { s1.health with
    tinkerRetired := s1.health.tinkerRetired.set t true
    proposals := s1.health.proposals.filter (fun u => u ≠ 2 * 4096 + t) } }
  s2.spareEvent.degradeCheck s.degraded

/-- TINKER_HARD_FAULT (R268, R457): a running Tinker fails. Its unit kind in FIRST_FAULT is 2. -/
def execTinkerHardFault (tinker : Nat) (s : State) : Host.Outcome State Fault Refusal :=
  if 4 ≤ tinker ∨ s.health.tinkerRetired.getD tinker true then .next s
  else .next ((s.raiseFault (2 * 4096 + tinker)).retireTinker tinker)

end Sys2Proof.Machine
end

