-- ==== Sys2Proof/Machine/Partner.lean ====
section
/-!
DEFINITION. Pairs, copies and serves: PAIR_SET, SECURE, RESTORE_SERVE, the pair messages as a member takes them, and lost
peers (R313 to R333).
-/
namespace Sys2Proof.Machine

/-! ## The partner area (R312, R318) -/

/-- Bytes of one slot. -/
def State.slotBytes (s : State) : Nat := s.setting 0x6011 / 2

/-- The first byte of a slot. -/
def State.slotBase (s : State) (k : Nat) : Nat := s.setting 0x6010 + k * s.slotBytes

/-- A byte count rounded up to a multiple of 4,096. -/
def pageUp (n : Nat) : Nat := (n + 4095) / 4096 * 4096

/-- A partner slot. -/
def State.pslot (s : State) (k : Nat) : PartnerSlot := s.pair.slots.getD k .empty

/-- A partner slot replaced. -/
def State.setPslot (s : State) (k : Nat) (x : PartnerSlot) : State :=
  { s with pair := { s.pair with slots := s.pair.slots.set k x } }

/-- The bytes of a slot header (R317): STEP, NTENS, descriptors. -/
def headerBytes (step : Nat) (ts : List Tensor) : List Byte :=
  leBytes 8 step ++ leBytes 1 ts.length ++ ts.flatMap Tensor.descriptor

/-- STEP of a slot's header. -/
def State.slotStep (s : State) (k : Nat) : Nat := leNat (s.read (s.slotBase k) 8)
/-- NTENS of a slot's header. -/
def State.slotCount (s : State) (k : Nat) : Nat := leNat (s.read (s.slotBase k + 8) 1)
/-- The tensors of a slot's header. -/
def State.slotTensors (s : State) (k : Nat) : List Tensor :=
  (List.range (s.slotCount k)).filterMap (fun i => tensorOf (s.read (s.slotBase k + 9 + 32 * i) 32))

/-- Where tensor `i` of a slot starts. -/
def State.slotTensorBase (s : State) (k i : Nat) : Nat :=
  s.slotBase k + 4096 + (((s.slotTensors k).take i).map (fun t => pageUp t.footprint)).foldl (· + ·) 0

/-- The COMPLETE slot. -/
def State.completeSlot (s : State) : Option Nat := [0, 1].find? (fun k => decide ((s.pslot k).state = .complete))

/-- HELD_STEP (Table 10.5). -/
def State.heldStep (s : State) : Option Nat := s.completeSlot.map s.slotStep

/-- Every FILLING slot returned to FREE. -/
def State.dropFilling (s : State) : State :=
  { s with pair := { s.pair with
      slots := s.pair.slots.map (fun x => if x.state = .filling then .empty else x)
      doneCopy := match s.pair.slots.find? (fun x => x.state = .filling) with | some x => some x.xfer | none => s.pair.doneCopy } }

/-! ## Completions (Table 10.7) -/

/-- The completion block of a SECURE. -/
def secureBlock (s : State) (r : SecureRun) (cause d : Nat) : List Byte :=
  leBytes 1 0 ++ leBytes 1 cause ++ leBytes 2 0 ++ leBytes 4 d ++ leBytes 8 r.step ++ leBytes 4 r.sent ++ leBytes 4 r.cow
    ++ leBytes 4 (if r.cut then s.now - r.cutAt else 0) ++ leBytes 4 0

/-- A SECURE ends without its commit point. -/
def State.abortSecure (s : State) (c : Cmd) (r : SecureRun) (cause : Nat) : State :=
  (s.complete c .aborted (secureBlock s r cause 0)).count 0x0381 1

/-- The completion block of a serve, in the layout of Table 10.7 (R330). -/
def serveBlock (s : State) (c : Cmd) (r : ServeRun) (cause : Nat) : List Byte :=
  leBytes 1 0 ++ leBytes 1 cause ++ leBytes 14 0 ++ leBytes 4 r.sent ++ leBytes 4 0 ++ leBytes 4 (s.runUs c) ++ leBytes 4 0

/-- A serve ends. -/
def State.endServe (s : State) (c : Cmd) (r : ServeRun) (cause : Nat) : State :=
  s.complete c (if cause = 0 then .complete else .aborted) (serveBlock s c r cause)

/-- Every SECURE that is not terminal ends (R327, R328).
(DEDUCED, log entry 42.) -/
def State.endSecures (s : State) (cause : Nat) : State :=
  s.cmds.foldl (fun t c => match c.body with | .secure r => t.abortSecure c r cause | _ => t) s

/-! ## PAIR_SET (R313 to R316, R325) -/

/-- A SECURE is not terminal. -/
def State.securing (s : State) : Bool := s.cmds.any (fun c => decide (c.op = .secure))

/-- The PAIR_REQ of a BIND goes out (R314). -/
def State.bindStart (s : State) (c : Cmd) : State :=
  match c.body with
  | .bind h _ _ =>
    let s1 := (s.setCmd { c with body := .bind h s.now (s.setting 0x6020), running := true, startedAt := s.now }).watchPeer h
    let s2 := { s1 with pair := { s1.pair with holderState := .binding, holder := some h } }
    s2.sendFlit h 6 0 0 (pairMsg 1 0 0 0 s2.feedData) []
  | _ => s

/-- A silent time of Table 10.5. -/
def State.silentUs (s : State) (a : Option Nat) : Nat :=
  match a with
  | some x => match s.peer x with | some p => (s.now - p.last) % 2 ^ 32 | none => 0
  | none => 0

/-- The pair status record (Tables 10.5 and 10.6). -/
def pairRecord (s : State) : List Byte :=
  let p := s.pair
  let back := (p.returned && decide (p.holderState = .lost)) || (p.wardReturned && decide (p.wardState = .lost))
  let flags := (if p.sameHolder then 1 else 0) + (if p.sameWard then 2 else 0)
    + (if s.setting 0x6002 = 1 then 4 else 0) + (if back then 8 else 0)
  let addr (a : Option Nat) : Nat := match a with | some x => x % 2 ^ 20 + 2 ^ 31 | none => 0
  leBytes 1 flags ++ leBytes 1 p.holderState.code ++ leBytes 1 p.wardState.code
    ++ leBytes 1 ((s.pslot 0).state.code + 4 * (s.pslot 1).state.code)
    ++ leBytes 4 (addr p.holder) ++ leBytes 4 (addr p.ward) ++ leBytes 4 p.holderFeeds.1 ++ leBytes 4 p.holderFeeds.2
    ++ leBytes 8 (p.lastStep.getD (2 ^ 64 - 1)) ++ leBytes 4 p.lastD ++ leBytes 8 (s.heldStep.getD (2 ^ 64 - 1))
    ++ leBytes 4 (s.silentUs p.holder) ++ leBytes 4 (s.silentUs p.ward)

/-- PAIR_SET.
(DEDUCED, log entry 42.) -/
def pairSet (q : Req) (s : State) : Verdict :=
  let action := fld q.params 0 1
  let h := fld q.params 4 4 % 2 ^ 20
  let p := s.pair
  if q.params.length ≠ 8 then refuse .badParam s
  else
    match action with
    | 0 =>
      let unset := decide (s.setting 0x6000 = 0) || decide (s.setting 0x6001 = 0)
      let bound := decide (p.holderState = .binding) || decide (p.holderState = .bound)
        || s.cmds.any (fun c => match c.body with | .bind _ _ _ => true | _ => false)
      if unset || decide (s.devAddr = some h) || bound || s.securing || s.watchFull [h] then refuse .badParam s
      else .accept [] (.bind h s.now (s.setting 0x6020)) none s
    | 1 =>
      match p.holder with
      | none => refuse .badParam s
      | some a =>
        if p.holderState = .binding then refuse .badParam s
        else
          let s1 := s.cmds.foldl (fun t c =>
            match c.body with
            | .secure r => (t.sendFlit a 6 0 r.id (pairMsg 0x14 0 0 0 []) []).abortSecure c r 0x40
            | _ => t) s
          let s2 := s1.sendFlit a 6 0 0 (pairMsg 3 0 0 0 []) []
          okReply [] ({ s2 with pair := { s2.pair with holderState := .none, holder := none } }).refreshFlags
    | 2 =>
      if p.wardState = .lost ∨ p.wardState = .retained then
        okReply [] ({ s with pair := { p with wardState := .none, ward := none, slots := [.empty, .empty] } }).refreshFlags
      else refuse .badParam s
    | 3 => okReply (pairRecord s) s
    | _ => refuse .badParam s

/-- BIND_TIMEOUT (R314): no PAIR_ACK within 16 × PEER_KA_US. -/
def execBindTimeout (source tag : Nat) (s : State) : Host.Outcome State Fault Refusal :=
  match s.cmd source tag with
  | none => .next s
  | some c =>
    match c.body with
    | .bind _ since ka =>
      if c.running then
        let s1 := s.reach (since + 16 * ka)
        .next (({ s1 with pair := { s1.pair with holderState := .none, holder := none } }).completeGeneric c .peerLost 0 0x40 0)
      else .next s
    | _ => .next s

/-! ## SECURE (R318 to R323) -/

/-- Bytes a copy takes in a slot. -/
def copyBytes (ts : List Tensor) : Nat := 4096 + (ts.map (fun t => pageUp t.footprint)).foldl (· + ·) 0

/-- SECURE: its checks.
(DEDUCED, log entry 41.) -/
def secure (q : Req) (s : State) : Verdict :=
  let n := fld q.params 8 1
  let hs := (List.range n).map (fun i => fld q.params (16 + 4 * i) 4)
  let ts := hs.filterMap s.tensor
  if n = 0 ∨ 64 < n ∨ q.params.length ≠ 16 + 4 * n then refuse .badParam s
  else if ts.length ≠ n ∨ ts.any (fun t => decide (t.layout ≠ .blocked)) ∨ hs.eraseDups.length ≠ n ∨ s.securing then
    refuse .badParam s
  else if s.pair.holderState ≠ .bound then refuse .peerLost s
  else if s.pair.sameHolder && decide (s.setting 0x6002 = 0) then refuse .sameFeed s
  else if s.pair.holderSlot < copyBytes ts then refuse .memoryRange s
  else
    let id := s.pair.nextSecure
    .accept (leBytes 4 id)
      (.secure { id := id, step := fld q.params 0 8, tensors := hs, cut := false, cutAt := 0, unsent := [],
                 buffer := [], sent := 0, cow := 0, ended := false })
      none { s with pair := { s.pair with nextSecure := (id + 1) % 2 ^ 32 } }

/-- Bytes sent in pair messages of at most 220 bytes each, with their poisoned bytes. -/
def State.sendBytes (s : State) (src : Option Nat) (dest tc cid msg tidx arg : Nat) : Nat → Nat → List Byte → List Nat → State
  | 0, _, _, _ => s
  | n + 1, off, bs, bad =>
    if bs.isEmpty then s
    else
      let here := (bad.filter (fun i => decide (i < 220))).map (fun i => i + 16)
      let rest := (bad.filter (fun i => decide (220 ≤ i))).map (fun i => i - 220)
      (s.sendFlitFrom src dest tc 0 cid (pairMsg msg tidx off arg (bs.take 220)) here).sendBytes src dest tc cid msg tidx arg n
        (off + 220) (bs.drop 220) rest

/-- SECURE_CUT (R319): once the Tinker commands accepted before it are terminal. -/
def execSecureCut (source tag : Nat) (s : State) : Host.Outcome State Fault Refusal :=
  match s.cmd source tag with
  | none => .next s
  | some c =>
    match c.body with
    | .secure r =>
      let tinker := (s.earlier c).any (fun d => decide (d.op = .updateRun) || decide (d.op = .paramWrite))
      if r.cut ∨ tinker ∨ !s.mayStart c ∨ s.heldAddress then .next s
      else
        match s.pair.holder with
        | some h =>
          if s.pair.holderState ≠ .bound then .next (s.abortSecure c r 0x40)
          else
            let ts := r.tensors.filterMap s.tensor
            let pieces := ((List.range ts.length).zip ts).flatMap (fun x =>
              (List.range ((x.2.footprint + 65535) / 65536)).map (fun j => (x.1, j)))
            let r1 := { r with cut := true, cutAt := s.now, unsent := pieces }
            let s1 : State := { s.setCmd { c with body := .secure r1, running := true, startedAt := s.now } with written := [] }
            let hd := headerBytes r.step ts
            .next (s1.sendBytes s.devAddr h 6 r.id 0x10 0 0 (hd.length / 220 + 1) 0 hd [])
        | none => .next (s.abortSecure c r 0x40)
    | _ => .next s

/-- A piece sent to the holder, and SLOT_END after the last. -/
def State.sendPiece (s : State) (c : Cmd) (r : SecureRun) (h : Nat) (p : CowPiece) : State :=
  let r1 := { r with sent := r.sent + 1 }
  let s1 := (s.sendBytes s.devAddr h 6 r.id 0x11 p.tidx 0 299 (65536 * p.piece) p.bytes p.poison).count 0x0382 p.bytes.length
  if r1.unsent.isEmpty && r1.buffer.isEmpty then
    (s1.sendFlit h 6 0 r.id (pairMsg 0x12 0 0 r1.sent []) []).setCmd { c with body := .secure { r1 with ended := true } }
  else s1.setCmd { c with body := .secure r1 }

/-- SECURE_PIECE_SEND (R319, R320): a piece of the secure buffer first, else the next unsent one; after the last, SLOT_END. -/
def execSecurePieceSend (source tag : Nat) (s : State) : Host.Outcome State Fault Refusal :=
  match s.cmd source tag with
  | none => .next s
  | some c =>
    match c.body, s.pair.holder with
    | .secure r, some h =>
      if !r.cut ∨ r.ended then .next s
      else
        match r.buffer, r.unsent with
        | p :: ps, _ =>
          let b := s.openBytes (match s.pieceAt r (p.tidx, p.piece) with | some g => g.1 | none => 0) p.bytes
          .next (b.2.sendPiece c { r with buffer := ps } h { p with bytes := b.1 })
        | [], x :: xs =>
          match s.tensor (r.tensors.getD x.1 0) with
          | some t =>
            .next (s.moving .secure (s.pieceMoves x) (fun s =>
              let p := s.readPiece t x
              p.2.sendPiece c { r with unsent := xs } h p.1))
          | none => .next s
        | [], [] => .next s
    | _, _ => .next s

/-! ## The holder's side (R314, R316, R321) -/

/-- A pair message with these data bytes sent in answer; a serve of this device to itself goes on under one address (R416). -/
def State.answer (s : State) (f : Flit) (tc msg arg : Nat) (data : List Byte) : State :=
  s.sendFlitFrom (if f.src = f.dest then some f.dest else s.devAddr) f.src tc 0 f.cid (pairMsg msg 0 0 arg data) []

/-- PAIR_REQ as the holder takes it (R314, R316, R326). -/
def State.onPairReq (s : State) (f : Flit) : State :=
  let theirs := (fld f.data 0 4, fld f.data 4 4)
  let p := s.pair
  let other := decide (p.wardState ≠ .none) && decide (p.ward ≠ some f.src)
  let ack (t : State) (r : Res) : State :=
    t.answer f 6 2 0 (leBytes 1 r.code ++ leBytes 4 (t.setting 0x6000) ++ leBytes 4 (t.setting 0x6001) ++ leBytes 8 t.slotBytes)
  if s.setting 0x6011 = 0 ∨ s.setting 0x6000 = 0 ∨ s.setting 0x6001 = 0 ∨ other ∨ s.watchFull [f.src] then ack s .badParam
  else if feedsMeet s.feeds theirs && decide (fld f.data 8 2 = 0) then ack s .sameFeed
  else
    let s1 := s.dropFilling
    let s2 := { s1 with pair := { s1.pair with
      wardState := .bound, ward := some f.src, wardFeeds := theirs, wardReturned := false, doneCopy := none } }
    ack (s2.refreshFlags.watchPeer f.src) .ok

/-- PAIR_ACK as the ward takes it (R314). -/
def State.onPairAck (s : State) (f : Flit) : State :=
  match s.cmds.find? (fun c => match c.body with | .bind h _ _ => c.running && decide (h = f.src) | _ => false) with
  | none => s
  | some c =>
    let code := fld f.data 0 1
    if code = 0 then
      let s1 := { s with pair := { s.pair with holderState := .bound, holderFeeds := (fld f.data 1 4, fld f.data 5 4),
                                               holderSlot := fld f.data 9 8, returned := false } }
      s1.refreshFlags.completeGeneric c .ok 0 0 0
    else
      let s1 := { s with pair := { s.pair with holderState := .none, holder := none } }
      s1.completeGeneric c (if code = Res.sameFeed.code then .sameFeed else .badParam) 0 0x11 0

/-- UNBIND as the holder takes it (R316). -/
def State.onUnbind (s : State) (f : Flit) : State :=
  if s.pair.ward = some f.src ∧ s.pair.wardState = .bound then
    ({ s with pair := { s.pair with wardState := .retained } }).refreshFlags
  else s

/-- FEED_UPDATE (R315). -/
def State.onFeedUpdate (s : State) (f : Flit) : State :=
  let theirs := (fld f.data 0 4, fld f.data 4 4)
  let p := s.pair
  let p1 := if p.holder = some f.src ∧ p.holderState = .bound then { p with holderFeeds := theirs } else p
  let p2 := if p1.ward = some f.src ∧ p1.wardState = .bound then { p1 with wardFeeds := theirs } else p1
  ({ s with pair := p2 }).refreshFlags

/-- SECURE ID `a` comes after `b`: IDs count up, modulo 2^32. -/
def laterCopy (a b : Nat) : Bool := decide (a ≠ b) && decide ((a + 2 ^ 32 - b % 2 ^ 32) % 2 ^ 32 < 2 ^ 31)

/-- A flit belongs to a copy that has ended here: one that is complete or cancelled, or that a newer one has replaced.
(DEDUCED, log entry 45.) -/
def State.lateCopy (s : State) (cid : Nat) : Bool :=
  (match s.pair.doneCopy with | some d => !laterCopy cid d | none => false)
    || [0, 1].any (fun k => decide ((s.pslot k).state = .filling) && laterCopy (s.pslot k).xfer cid)

/-- A copy has ended here. -/
def State.endCopy (s : State) (cid : Nat) : State :=
  match s.pair.doneCopy with
  | some d => if laterCopy cid d then { s with pair := { s.pair with doneCopy := some cid } } else s
  | none => { s with pair := { s.pair with doneCopy := some cid } }

/-- The slot a transfer fills: the one it fills already, else the one that is not COMPLETE (R321).
(DEDUCED, log entry 45.) -/
def State.fillSlot (s : State) (cid : Nat) : Nat :=
  match [0, 1].find? (fun k => decide ((s.pslot k).state = .filling) && decide ((s.pslot k).xfer = cid)) with
  | some k => k
  | none => match [0, 1].find? (fun k => decide ((s.pslot k).state ≠ .complete)) with | some k => k | none => 0

/-- The slot marked FILLING by a transfer. -/
def State.openSlot (s : State) (cid : Nat) : Nat × State :=
  let k := s.fillSlot cid
  let x := s.pslot k
  if x.state = .filling ∧ x.xfer = cid then (k, s) else (k, s.setPslot k { PartnerSlot.empty with state := .filling, xfer := cid })

/-- Bytes received of one object of a slot; 64 stands for the header. -/
def PartnerSlot.bytesOf (x : PartnerSlot) (i : Nat) : Nat :=
  ((x.got.filter (fun g => g.1 = i)).map (fun g => g.2.2)).foldl (· + ·) 0

/-- The header of a FILLING slot has arrived whole.
(DEDUCED, log entry 45.) -/
def State.headerDone (s : State) (k : Nat) : Bool :=
  let x := s.pslot k
  x.got.any (fun g => decide (g.1 = 64) && decide (g.2.1 = 0) && decide (9 ≤ g.2.2))
    && decide (9 + 32 * s.slotCount k ≤ x.bytesOf 64)

/-- Bytes of a pair message written at an address, with the poison they carry (R185); charged to SECURE (R322). -/
def State.land (s : State) (a : Nat) (f : Flit) : State :=
  let bad := f.badData.filter (fun i => decide (i < f.data.length))
  ((s.charge .secure [(true, a, f.data.length)]).write a f.data).poisonUnits (bad.flatMap (fun i => unitsOf (a + i) 1))

/-- A range of an object received; a range received before is not counted twice. -/
def State.gotRange (s : State) (k i off n : Nat) : State :=
  let x := s.pslot k
  if x.got.contains (i, off, n) then s else s.setPslot k { x with got := (i, off, n) :: x.got }

/-- A PIECE written into the slot (R321).
(DESIGN CHOICE, log entry 18.) -/
def State.putPiece (s : State) (k : Nat) (f : Flit) : State :=
  match (s.slotTensors k)[f.tidx]? with
  | none => s
  | some t =>
    if f.offset + f.data.length ≤ t.footprint then
      (s.land (s.slotTensorBase k f.tidx + f.offset) f).gotRange k f.tidx f.offset f.data.length
    else s

/-- R321: a slot whose pieces are all written becomes COMPLETE, the other FREE, and SECURED goes out. -/
def State.slotDone (s : State) (k : Nat) (src : Nat) : State :=
  let x := s.pslot k
  let ts := s.slotTensors k
  if x.endArg.isSome && s.headerDone k
      && ((List.range ts.length).zip ts).all (fun y => decide (x.bytesOf y.1 = y.2.footprint)) then
    let s1 := ((s.setPslot k { PartnerSlot.empty with state := .complete, xfer := x.xfer }).setPslot (1 - k) .empty).endCopy x.xfer
    s1.sendFlit src 6 0 x.xfer (pairMsg 0x13 0 0 k []) []
  else s

/-- A flit of a copy comes from the BOUND ward, and its copy has not ended here. -/
def State.fromWard (s : State) (f : Flit) : Bool :=
  decide (s.pair.ward = some f.src) && decide (s.pair.wardState = .bound) && !s.lateCopy f.cid

/-- SLOT_BEGIN. -/
def State.onSlotBegin (s : State) (f : Flit) : State :=
  if !s.fromWard f then s
  else
    let o := s.openSlot f.cid
    let s1 := (o.2.land (o.2.slotBase o.1 + f.offset) f).gotRange o.1 64 f.offset f.data.length
    if s1.headerDone o.1 then
      let early := (s1.pslot o.1).early
      let s2 := s1.setPslot o.1 { s1.pslot o.1 with early := [] }
      (early.foldl (fun t g => t.putPiece o.1 g) s2).slotDone o.1 f.src
    else s1

/-- PIECE. -/
def State.onPiece (s : State) (f : Flit) : State :=
  if !s.fromWard f then s
  else
    let o := s.openSlot f.cid
    if o.2.headerDone o.1 then (o.2.putPiece o.1 f).slotDone o.1 f.src
    else o.2.setPslot o.1 { o.2.pslot o.1 with early := (o.2.pslot o.1).early ++ [f] }

/-- SLOT_END. -/
def State.onSlotEnd (s : State) (f : Flit) : State :=
  if !s.fromWard f then s
  else
    let o := s.openSlot f.cid
    (o.2.setPslot o.1 { o.2.pslot o.1 with endArg := some f.arg }).slotDone o.1 f.src

/-- SECURED as the ward takes it: the commit point (R321, R322). -/
def State.onSecured (s : State) (f : Flit) : State :=
  match s.cmds.findSome? (fun c => match c.body with
      | .secure r => if r.id = f.cid ∧ r.ended then some (c, r) else none
      | _ => none) with
  | none => s
  | some (c, r) =>
    let d := (s.localStep - r.step) % 2 ^ 32
    let s1 := { s with pair := { s.pair with lastStep := some r.step, lastD := d } }
    (s1.complete c .complete (secureBlock s1 r 0 d)).count 0x0380 1

/-- SECURE_CANCEL, from the ward or from the holder (R323, R328). -/
def State.onSecureCancel (s : State) (f : Flit) : State :=
  let s1 := if s.pair.ward = some f.src then
      ({ s with pair := { s.pair with slots := s.pair.slots.map (fun x =>
          if x.state = .filling ∧ x.xfer = f.cid then .empty else x) } } : State).endCopy f.cid
    else s
  if s.pair.holder = some f.src then
    match s1.cmds.findSome? (fun c => match c.body with
        | .secure r => if r.id = f.cid then some (c, r) else none
        | _ => none) with
    | some (c, r) => s1.abortSecure c r 0x40
    | none => s1
  else s1

/-! ## Restoring (R329, R330) -/

/-- Bytes of a unit of 32 elements in storage order. -/
def rowBytes (f : Fmt) : Nat := f.blockBytes / 32

/-- RESTORE_SERVE: its checks. -/
def restoreServe (q : Req) (s : State) : Verdict :=
  let ps := q.params
  let ward := fld ps 0 4 % 2 ^ 20
  let tidx := fld ps 12 1
  let first := fld ps 16 8
  let count := fld ps 24 4
  let tfirst := fld ps 36 8
  if ps.length ≠ 44 ∨ s.pair.wardState = .none ∨ s.pair.ward ≠ some ward then refuse .badParam s
  else
    match s.completeSlot with
    | none => refuse .badParam s
    | some k =>
      match (s.slotTensors k)[tidx]? with
      | none => refuse .badParam s
      | some t =>
        let lined := decide (first % 32 = 0) && decide (count % 32 = 0) && decide (tfirst % 32 = 0)
        if s.slotStep k ≠ fld ps 4 8 ∨ !lined ∨ count < 32 ∨ 2 ^ 30 < count ∨ t.positions < first + count then
          refuse .badParam s
        else
          let u := rowBytes t.f
          .accept [] (.serve { slot := k, tidx := tidx, target := fld ps 28 4 % 2 ^ 20, handle := fld ps 32 4,
                               from_ := first / 32 * u, to_ := tfirst / 32 * u, bytes := count / 32 * u, sent := 0,
                               ended := false, since := s.now, src := none }) none s

/-- What a serve reads next. -/
def State.serveMoves (s : State) (r : ServeRun) : Moves :=
  [(false, s.slotTensorBase r.slot r.tidx + r.from_ + r.sent, min 220 (r.bytes - r.sent))]

/-- RESTORE_DATA_SEND (R329): the next range, then RESTORE_END after the last. A serve keeps the address this device had when it
started (R416). -/
def State.serveNext (s : State) (c : Cmd) (r : ServeRun) : State :=
  let n := min 220 (r.bytes - r.sent)
  let a := s.slotTensorBase r.slot r.tidx + r.from_ + r.sent
  let bad := if s.poisoned a n then (List.range n).filter (fun i => s.poisoned (a + i) 1) else []
  let src := if c.running then r.src else s.devAddr
  let s1 := (s.noteRead a n).sendBytes src r.target 7 (c.source * 2 ^ 16 + c.tag) 0x20 r.tidx r.handle 1 (r.to_ + r.sent) (s.read a n) bad
  let r1 := { r with sent := r.sent + n, src := src }
  let done := decide (r.bytes ≤ r1.sent)
  let s2 := if done then s1.sendFlitFrom src r.target 7 0 (c.source * 2 ^ 16 + c.tag) (pairMsg 0x21 r.tidx 0 r.bytes []) [] else s1
  let c1 := if c.running then c else { c with running := true, startedAt := s.now }
  (s2.count 0x0385 n).setCmd { c1 with body := .serve { r1 with ended := done, since := s.now } }

/-- RESTORE_TARGET_SILENT (R330): nothing from the target for COLL_STALL_MS. -/
def execRestoreTargetSilent (source tag : Nat) (s : State) : Host.Outcome State Fault Refusal :=
  match s.cmd source tag with
  | none => .next s
  | some c =>
    match c.body with
    | .serve r =>
      if r.ended then .next ((s.reach (r.since + s.setting 0x4005 * 1000)).endServe c r 0x40) else .next s
    | _ => .next s

/-- A serve arriving here. -/
def State.serveOf (s : State) (holder id : Nat) : Option TargetServe :=
  s.pair.serves.find? (fun x => x.holder = holder && x.id = id)

/-- A serve's record replaced or added. -/
def State.setServe (s : State) (x : TargetServe) : State :=
  { s with pair := { s.pair with
      serves := s.pair.serves.filter (fun y => !(y.holder = x.holder && y.id = x.id)) ++ [x] } }

/-- A serve's record removed. -/
def State.dropServe (s : State) (holder id : Nat) : State :=
  { s with pair := { s.pair with serves := s.pair.serves.filter (fun y => !(y.holder = holder && y.id = id)) } }

/-- Ranges of a tensor, offset and bytes, left undefined by a serve that did not end well, so far as its footprint holds them
(R330). -/
def State.spoilServed (s : State) (h : Nat) (gs : List (Nat × Nat)) : State :=
  match s.tensor h with
  | some t =>
    if gs.isEmpty then s
    else (s.scrambleRanges (gs.map (fun g => (t.base + g.1, min g.2 (t.footprint - g.1))))).untag t.handle
  | none => s

/-- A serve's record removed, and the ranges it wrote left undefined (R330); one that was refused wrote nothing. -/
def State.undoServe (s : State) (x : TargetServe) : State :=
  (s.dropServe x.holder x.id).spoilServed x.handle (if x.refusal = none then x.got else [])

/-- The record of a serve that a flit belongs to. A serve that was refused, aborted or given up leaves its record here: a flit with
another handle, one with a range that has come before, or one COLL_STALL_MS after the last, starts a new serve, and what the old one
wrote is undefined.
(DEDUCED, log entry 44.) -/
def State.serveOfFlit (s : State) (f : Flit) : TargetServe × State :=
  let new : TargetServe := ⟨f.src, f.cid, f.arg, none, [], none, false, s.now⟩
  match s.serveOf f.src f.cid with
  | none => (new, s)
  | some x =>
    if (x.handle ≠ f.arg ∧ (!x.got.isEmpty ∨ x.refusal.isSome)) ∨ x.got.contains (f.offset, f.data.length)
        ∨ s.setting 0x4005 * 1000 ≤ s.now - x.last then
      (new, s.undoServe x)
    else ({ x with handle := f.arg, last := s.now }, s)

/-- The format code of the slot tensor of a serve: this device's own slot, or what no message says.
(DESIGN CHOICE, log entry 43.) -/
def State.servedFormat (s : State) (f : Flit) : Nat :=
  if s.devAddr = some f.src then
    match s.completeSlot with
    | some k => match (s.slotTensors k)[f.tidx]? with | some t => t.f.code | none => 0
    | none => 0
  else Config.slotFormat f.src f.cid

/-- What the target finds of a range (R330): none where it may be written. -/
def State.restoreRefusal (s : State) (f : Flit) (first : Bool) : Option Res :=
  match s.tensor f.arg with
  | none => some .badParam
  | some t =>
    match t.fmt with
    | none => some .badParam
    | some x =>
      if first && decide (x.code ≠ s.servedFormat f) then some .badParam
      else if t.footprint < f.offset + f.data.length then some .memoryRange
      else none

/-- A serve all of whose bytes have come is answered OK; the target's tile tag is set (R192). -/
def State.serveDone (s : State) (f : Flit) (x : TargetServe) : State :=
  match x.endArg with
  | some n =>
    if x.refusal = none ∧ (x.got.map (fun g => g.2)).foldl (· + ·) 0 = n then
      ((s.dropServe x.holder x.id).retag x.handle).answer f 7 0x22 0 (leBytes 1 0)
    else if x.refusal ≠ none then s.dropServe x.holder x.id
    else s.setServe x
  | none => s.setServe x

/-- RESTORE_DATA as the target takes it.
(DEDUCED, log entry 44.) -/
def State.onRestoreData (s : State) (f : Flit) : State :=
  let o := s.serveOfFlit f
  let x := o.1
  let s := o.2
  let x1 := { x with handle := f.arg, got := (f.offset, f.data.length) :: x.got }
  if x.refusal ≠ none then s.setServe x1
  else
    match s.restoreRefusal f x.got.isEmpty with
    | some r => (s.setServe { x1 with refusal := some r, answered := true }).answer f 7 0x22 0 (leBytes 1 r.code)
    | none =>
      match s.tensor f.arg with
      | none => s
      | some t => (((s.land (t.base + f.offset) f).untag t.handle).count 0x0386 f.data.length).serveDone f x1

/-- RESTORE_END as the target takes it. -/
def State.onRestoreEnd (s : State) (f : Flit) : State :=
  let x := (s.serveOf f.src f.cid).getD ⟨f.src, f.cid, 0, none, [], none, false, s.now⟩
  s.serveDone f { x with endArg := some f.arg, last := s.now }

/-- RESTORE_ACK as the holder takes it. -/
def State.onRestoreAck (s : State) (f : Flit) : State :=
  match s.cmd (f.cid / 2 ^ 16) (f.cid % 2 ^ 16) with
  | none => s
  | some c =>
    match c.body with
    | .serve r => if r.target = f.src then s.endServe c r (fld f.data 0 1) else s
    | _ => s

/-! ## Peers (R326 to R328) -/

/-- R327: a peer declared lost. -/
def State.declareLost (s : State) (a : Nat) : State :=
  let p := (s.peer a).getD ⟨a, s.now, false, false, s.now⟩
  let s1 := (s.setPeer { p with lost := true }).raiseAttn attnLink
  let s2 := { s1 with attention := { s1.attention with firstLostPeer := firstOf s1.attention.firstLostPeer a } }
  let s3 := s2.count 0x0387 1
  let s4 : State := s3.cmds.foldl (fun t c =>
    match c.collective with
    | some r => if r.started && r.members.contains a then t.failColl c 0x40 (detailOf a) else t
    | none => t) s3
  let s5 : State := s4.cmds.foldl (fun t c =>
    match c.body with
    | .serve r => if r.target = a then t.endServe c r 0x40 else t
    | _ => t) s4
  let s6 : State := if s5.pair.holder = some a ∧ s5.pair.holderState = HolderState.bound then
      ({ s5 with pair := { s5.pair with holderState := .lost, returned := false } }).endSecures 0x40
    else s5
  let s7 : State := if s6.pair.ward = some a ∧ s6.pair.wardState = WardState.bound then
      ({ s6 with pair := { s6.pair with wardState := .lost, wardReturned := false } }).dropFilling
    else s6
  s7.refreshFlags

/-- PEER_LOSS_TIMEOUT (R327): nothing from a watched peer for PEER_KA_US × PEER_MISS. -/
def execPeerLossTimeout (peer : Nat) (s : State) : Host.Outcome State Fault Refusal :=
  match s.peer peer with
  | none => .next s
  | some p =>
    if s.watched.contains peer ∧ !p.suspended ∧ !p.lost then
      .next ((s.reach (p.since + s.setting 0x6020 * s.setting 0x6021)).declareLost peer)
    else .next s

/-- PEER_KEEPALIVE_SEND (R326): every PEER_KA_US. -/
def execPeerKeepaliveSend (s : State) : Host.Outcome State Fault Refusal :=
  let s1 := s.reach (s.pair.kaAt + s.setting 0x6020)
  .next (s.watched.foldl (fun t a => t.sendPeerKeepalive a t.keepState) { s1 with pair := { s1.pair with kaAt := s1.now } })

/-- PEER_KEEPALIVE (R326 to R328): STATE 1 suspends the loss timer of its sender, STATE 2 declares it lost. One for another
device goes on (R281). -/
def execPeerKeepalive (f : Flit) (s : State) : Host.Outcome State Fault Refusal :=
  let st := fld f.payload 4 1
  let s1 := s.heard f.src true
  if s.devAddr.isSome ∧ s.devAddr ≠ some f.dest then .next (s.passPeerKeepalive f)
  else
  match s1.peer f.src with
  | none => .next s1
  | some p =>
    if st = 1 then .next (s1.setPeer { p with suspended := true })
    else if st = 2 && s1.watched.contains f.src && !p.lost then .next (s1.declareLost f.src)
    else .next s1

/-- What a pair message, or a flit of a collective, writes when it is taken now (R295, R321, R330). -/
def State.flitMoves (s : State) (f : Flit) : Moves :=
  let k := s.fillSlot f.cid
  match f.tc, f.msg with
  | 6, 0x10 => if s.fromWard f then [(true, s.slotBase k + f.offset, f.data.length)] else []
  | 6, 0x11 =>
    if s.fromWard f && s.headerDone k then [(true, s.slotTensorBase k f.tidx + f.offset, f.data.length)] else []
  | 7, 0x20 => match s.tensor f.arg with | some t => [(true, t.base + f.offset, f.data.length)] | none => []
  | _, _ => if 2 ≤ f.tc ∧ f.tc ≤ 5 then s.collMoves f else []

end Sys2Proof.Machine
end

