-- ==== Sys2Proof/Machine/Deliver.lean ====
section
/-!
DEFINITION. Flits delivered to this device: DATA_FLIT (R278, R285), the messages of every class (R299, R308, R317), the
flits a device sends to itself, and the rows that can make it do so.
-/
namespace Sys2Proof.Machine

/-- A class 6 or class 7 message taken (R317); an unknown one is dropped and counted. -/
def State.pairFlit (s : State) (f : Flit) : State :=
  match f.tc, f.msg with
  | 6, 0x01 => s.onPairReq f
  | 6, 0x02 => s.onPairAck f
  | 6, 0x03 => s.onUnbind f
  | 6, 0x04 => s.onFeedUpdate f
  | 6, 0x10 => s.onSlotBegin f
  | 6, 0x11 => s.onPiece f
  | 6, 0x12 => s.onSlotEnd f
  | 6, 0x13 => s.onSecured f
  | 6, 0x14 => s.onSecureCancel f
  | 7, 0x20 => s.onRestoreData f
  | 7, 0x21 => s.onRestoreEnd f
  | 7, 0x22 => s.onRestoreAck f
  | _, _ => s.count 0x0507 1

/-- A DATA flit for this device, out of the receive buffer of a link. -/
def State.deliver (s : State) (link : Option Nat) (f : Flit) : State :=
  if 1 ≤ f.tc ∧ f.tc ≤ 5 then s.crewFlit link (Config.isCancel f.payload) f else (s.pairFlit f).freeBuffer link f

/-- The flits this device sent to itself, delivered; what they make it send to itself follows, `n` rounds at most.
(DESIGN CHOICE, log entry 23.) -/
def State.settle : Nat → State → State
  | 0, s => s
  | n + 1, s =>
    match s.net9.loopback with
    | [] => s
    | fs => State.settle n (fs.foldl (fun t f => t.deliver none f) { s with net9 := { s.net9 with loopback := [] } })

/-- A flit for this device needs memory: SLOT_BEGIN, PIECE and RESTORE_DATA are written (R446). -/
def Flit.needsMemory (f : Flit) : Bool :=
  (decide (f.tc = 6) && (decide (f.msg = 0x10) || decide (f.msg = 0x11))) || (decide (f.tc = 7) && decide (f.msg = 0x20))

/-- A DATA flit for this device wakes the link engines, and the LPDDR5X controllers where it needs memory (R446). -/
def State.arrives (s : State) (f : Flit) : State :=
  let s1 := s.dataPassed
  if Flit.needsMemory f then { s1 with power := { s1.power with sharedS2 := false } } else s1

/-- An event's result, with the device's flits to itself delivered. -/
def settled (s : State) : Host.Outcome State Fault Refusal := .next (s.settle 64)

/-! ## Ceilings (R208) -/

/-- An accepted flit waits: its class is at its ceiling on the group of the link it came by or where it is to be written, or one of
its class from there waits already. -/
def State.flitGated (s : State) (link : Option Nat) (f : Flit) : Bool :=
  s.net9.gated.any (fun w => decide (w.1 = link) && decide (w.2.tc = f.tc))
    || (match link with | some i => !s.belowCeiling (payerOf f.tc) 1 (linkGroup i + 1) | none => false)
    || ((link.isNone || decide (s.devAddr = some f.dest)) && !s.mayMove (payerOf f.tc) (s.flitMoves f))

/-- An accepted flit put with those that wait. -/
def State.gateFlit (s : State) (link : Option Nat) (f : Flit) : State :=
  let s1 := match link with
    | some i => if s.belowCeiling (payerOf f.tc) 1 (linkGroup i + 1) then s else s.atCeiling (payerOf f.tc) 1 (linkGroup i + 1)
    | none => s
  let s2 := s1.waitAt (payerOf f.tc) (s.flitMoves f)
  { s2 with net9 := { s2.net9 with gated := s2.net9.gated ++ [(link, f)] } }

/-- An accepted flit charged to its class (R282), then delivered or forwarded (R285). -/
def State.admitFlit (s : State) (link : Option Nat) (f : Flit) : State :=
  let s1 := match link with | some i => s.requestOn (payerOf f.tc) 1 (linkGroup i + 1) 256 | none => s
  if link.isNone ∨ s.devAddr = some f.dest then s1.deliver link f else (s1.forward f).freeBuffer link f

/-- An accepted flit taken, or put with those that wait. -/
def State.takeFlit (s : State) (link : Option Nat) (f : Flit) : State :=
  if s.flitGated link f then s.gateFlit link f else s.admitFlit link f

/-- A new stint: the flits that wait are offered again, in order. -/
def State.drainFlits (s : State) : State :=
  (s.net9.gated.foldl (fun t x => State.takeFlit t x.1 x.2) { s with net9 := { s.net9 with gated := [] } }).settle 64

/-- A message event: a flit from a device was accepted, and is taken unless its class must wait (R208). -/
def took (f : Flit) (g : State → State) (s : State) : Host.Outcome State Fault Refusal :=
  let s1 := (s.arrives f).heard f.src false
  settled (if s1.flitGated none f then s1.gateFlit none f else g s1)

/-! ## DATA_FLIT -/

/-- A NAK for the expected LSEQ, once (R278). -/
def State.nakOnce (s : State) (i : Nat) : State :=
  let l := s.link i
  if l.nakSent then s else (s.setLink i { l with nakSent := true }).pushCtrl i (.nak l.rxSeq)

/-- DATA_FLIT (R278): accepted in LSEQ order, acknowledged at least every 64, charged to its class (R282), then delivered or
forwarded (R285); it waits while its class is at a ceiling (R208). -/
def execDataFlit (link lseq : Nat) (f : Flit) (s : State) : Host.Outcome State Fault Refusal :=
  let l := s.link link
  if 64 ≤ link ∨ l.state ≠ .up then .next s
  else if lseq ≠ l.rxSeq then .next (s.nakOnce link)
  else
    let n := l.unacked + 1
    let l1 := { l with rxSeq := (l.rxSeq + 1) % 4096, nakSent := false, lastRx := s.now, unacked := if 64 ≤ n then 0 else n }
    let s1 := (s.setLink link l1).count 0x0501 1
    let s2 := if 64 ≤ n then s1.pushCtrl link (.ack l1.rxSeq) else s1
    let s3 := if s.devAddr = some f.dest then (s2.arrives f).heard f.src false else s2.dataPassed
    settled (s3.takeFlit (some link) f)

/-! ## Messages -/

/-- PAIR_REQ (R314). -/
def execPairReq (f : Flit) (s : State) : Host.Outcome State Fault Refusal := took f (fun t => t.onPairReq f) s
/-- PAIR_ACK (R314). -/
def execPairAck (f : Flit) (s : State) : Host.Outcome State Fault Refusal := took f (fun t => t.onPairAck f) s
/-- UNBIND (R316). -/
def execUnbind (f : Flit) (s : State) : Host.Outcome State Fault Refusal := took f (fun t => t.onUnbind f) s
/-- FEED_UPDATE (R315). -/
def execFeedUpdate (f : Flit) (s : State) : Host.Outcome State Fault Refusal := took f (fun t => t.onFeedUpdate f) s
/-- SLOT_BEGIN (R321). -/
def execSlotBegin (f : Flit) (s : State) : Host.Outcome State Fault Refusal := took f (fun t => t.onSlotBegin f) s
/-- PIECE (R321). -/
def execPiece (f : Flit) (s : State) : Host.Outcome State Fault Refusal := took f (fun t => t.onPiece f) s
/-- SLOT_END (R321). -/
def execSlotEnd (f : Flit) (s : State) : Host.Outcome State Fault Refusal := took f (fun t => t.onSlotEnd f) s
/-- SECURED (R321). -/
def execSecured (f : Flit) (s : State) : Host.Outcome State Fault Refusal := took f (fun t => t.onSecured f) s
/-- SECURE_CANCEL (R323, R328). -/
def execSecureCancel (f : Flit) (s : State) : Host.Outcome State Fault Refusal := took f (fun t => t.onSecureCancel f) s
/-- RESTORE_DATA (R330). -/
def execRestoreData (f : Flit) (s : State) : Host.Outcome State Fault Refusal := took f (fun t => t.onRestoreData f) s
/-- RESTORE_END (R330). -/
def execRestoreEnd (f : Flit) (s : State) : Host.Outcome State Fault Refusal := took f (fun t => t.onRestoreEnd f) s
/-- RESTORE_ACK (R330). -/
def execRestoreAck (f : Flit) (s : State) : Host.Outcome State Fault Refusal := took f (fun t => t.onRestoreAck f) s
/-- COLLECTIVE_FLIT (R296, R308). -/
def execCollectiveFlit (f : Flit) (s : State) : Host.Outcome State Fault Refusal := took f (fun t => t.crewFlit none false f) s
/-- CANCEL (R299). -/
def execCancel (f : Flit) (s : State) : Host.Outcome State Fault Refusal :=
  took { f with tc := 1 } (fun t => t.crewFlit none true { f with tc := 1 }) s
/-- STALE_NOTICE (R308). -/
def execStaleNotice (f : Flit) (s : State) : Host.Outcome State Fault Refusal :=
  took { f with tc := 1 } (fun t => t.crewFlit none false { f with tc := 1 }) s

/-! ## Rows whose sends may be to this device itself -/

/-- COLLECTIVE_START (R295): the engine waits while its class is at a ceiling (R309). An input that holds poison ends it with FAULT
(R185). -/
def execCollectiveStart (source tag : Nat) (s : State) : Host.Outcome State Fault Refusal :=
  match s.cmd source tag with
  | none => .next s
  | some c =>
    match c.body with
    | .coll r =>
      if r.started ∨ !s.mayStart c ∨ s.heldAddress then .next s
      else
        let s1 := r.neighbours.foldl State.watchPeer (s.startCmd c)
        let c1 := { c with running := true, startedAt := s.now }
        match s.collPoison r with
        | some g => .next ((s1.notePoison g.1 g.2).failColl c1 0x41 (detailOf (s.devAddr.getD 0)))
        | none =>
          settled (s.moving .collective ((s.collReads r).map (fun g => (false, g))) (fun t =>
            let k := (r.neighbours.foldl State.watchPeer (t.startCmd c)).collBegin r
            (k.1.setCmd { c1 with body := .coll k.2 }).takeHeld r.crew r.cid))
    | _ => .next s

/-- RESTORE_DATA_SEND (R329): the next range of a serve, and RESTORE_END after the last. -/
def execRestoreDataSend (source tag : Nat) (s : State) : Host.Outcome State Fault Refusal :=
  match s.cmd source tag with
  | none => .next s
  | some c =>
    match c.body with
    | .serve r =>
      if r.ended ∨ !s.mayStart c then .next s
      else settled (s.moving .secure (s.serveMoves r) (fun t => t.serveNext c r))
    | _ => .next s

end Sys2Proof.Machine
end

