-- ==== Sys2Proof/Machine/Streams.lean ====
section
/-!
DEFINITION. Sensor and output streams (R197, R198, R356 to R363) and the moment at which port settings act (R335).
-/
namespace Sys2Proof.Machine

/-! ## Stream records -/

/-- A stream. -/
def State.stream (s : State) (id : Nat) : Option Stream := s.streams.find? (fun x => x.id = id)

/-- A stream replaced. -/
def State.setStream (s : State) (x : Stream) : State :=
  { s with streams := s.streams.map (fun y => if y.id = x.id then x else y) }

/-- A stream removed. -/
def State.dropStream (s : State) (id : Nat) : State := { s with streams := s.streams.filter (fun x => x.id ≠ id) }

/-- The group whose SRAM holds a byte. -/
def groupOfAddr (a : Nat) : Nat := a / groupBytes

/-- A receive data type (Table 11.4). -/
def pixelType (dt : Nat) : Bool := [0x2A, 0x2B, 0x2C, 0x2D, 0x2E, 0x1E, 0x24].contains dt
/-- An audio-line layout (Table 11.9). -/
def audioType (dt : Nat) : Bool := decide (0x32 ≤ dt) && decide (dt ≤ 0x37)
/-- A planar audio layout. -/
def planarType (dt : Nat) : Bool := decide (dt = 0x35) || decide (dt = 0x36)

/-- The formats of a receive ring (R356). -/
def ringFmt (f : Fmt) : Bool := f.isLns || f.isLin

/-- The status record of a stream (Table 11.8). -/
def Stream.record (x : Stream) : List Byte :=
  leBytes 1 (match x.state with | .mapped => 1 | .running => 2 | .stoppedPower => 3) ++ leBytes 1 (if x.output then 1 else 0)
    ++ leBytes 2 0 ++ leBytes 4 x.frames ++ leBytes 4 x.crcLines ++ leBytes 4 x.shortLines ++ leBytes 4 x.longLines
    ++ leBytes 4 x.abandoned ++ leBytes 4 x.saturated ++ leBytes 4 x.audioGaps

/-- A stream as it is mapped. -/
def Stream.new (id : Nat) (output : Bool) (port vc dt ring mode source tag : Nat) : Stream :=
  { id := id, output := output, port := port, vc := vc, dt := dt, channels := 0, shift := 0, black := 0, scale := 0,
    ring := ring, mode := mode, state := .mapped, source := source, tag := tag, frames := 0, crcLines := 0, shortLines := 0,
    longLines := 0, abandoned := 0, saturated := 0, audioGaps := 0, frame := none, frameNo := 0, slot := 0, sending := false,
    lastSent := none, stopping := false, nextSlot := 0, ended := [] }

/-! ## Pins (R198, R199) -/

/-- A slot of a ring is pinned by a record or by an output frame. -/
def State.slotPinned (s : State) (ring i : Nat) : Bool :=
  s.cmds.any (fun c =>
      match c.body with
      | .ops r => r.recs.any (fun x => x.pins.contains (ring, i))
      | .read h k => decide (h = ring) && decide (k = i)
      | _ => false)
    || s.streams.any (fun x => x.output && x.sending && decide (x.mode = 1) && decide (x.ring = ring) && decide (x.slot = i))

/-- The number of pinned slots of a ring. -/
def State.pinnedCount (s : State) (t : Tensor) : Nat :=
  ((List.range t.planes).filter (fun i => s.slotPinned t.handle i)).length

/-! ## A frame written (R198, R203) -/

/-- What a frame of a stream moves: its slot and the ring's header. -/
def Stream.frameMoves (x : Stream) (t : Tensor) : Moves := [(true, (t.slot x.nextSlot).base, t.planeBytes), (true, t.base, 64)]

/-- A frame that has ended: the slot is written and the ring's header with it, charged to INGEST (R198, R203).
(DEDUCED, log entry 47.) -/
def State.storeFrame (s : State) (x : Stream) (t : Tensor) (o : OpenFrame) : State :=
  let arr := o.cells.foldl (fun (a : Array Nat) c => a.setIfInBounds (c.1 * t.cols + c.2.1) c.2.2)
    (Array.replicate (t.rows * t.cols) (zeroCode t.f))
  let s1 := s.putRegion (t.slot x.nextSlot) 0 0 t.rows 0 t.cols (fun r c => some (arr.getD (r * t.cols + c) 0))
  let short := pixelType x.dt && decide (o.lines < t.rows)
  let s2 := s1.setStream { x with frames := x.frames + 1, nextSlot := (x.nextSlot + 1) % t.planes,
                                  shortLines := x.shortLines + (if short then 1 else 0) }
  let hd := leBytes 8 (s.ringCompleted t + 1) ++ leBytes 4 x.nextSlot ++ leBytes 4 (s.ringDropped t) ++ leBytes 8 s.now
    ++ leBytes 4 (s.pinnedCount t) ++ List.replicate 36 0
  ((s2.write t.base hd).charge .ingest (x.frameMoves t)).count 0x0608 1

/-- A frame dropped because its slot is pinned (R198). -/
def State.dropFrame (s : State) (t : Tensor) : State :=
  ((s.write (t.base + 12) (leBytes 4 (s.ringDropped t + 1))).count 0x0305 1).overrun 1

/-- The frames of a stream that wait, written at once: nothing is lost where the stream starts anew or is unmapped (R212). -/
def State.flushFrames (s : State) (x : Stream) : State :=
  match s.tensor x.ring with
  | none => s
  | some t => (List.range x.ended.length).foldl (fun a _ =>
      match a.stream x.id with
      | none => a
      | some y =>
        match y.ended with
        | [] => a
        | o :: os =>
          if a.slotPinned y.ring y.nextSlot then (a.setStream { y with ended := os }).dropFrame t
          else a.storeFrame { y with ended := os } t o) s

/-! ## STREAM_MAP, STREAM_START, STREAM_STOP (R356, R361) -/

/-- The MAP refusals of R356.
(DESIGN CHOICE, log entry 49.) -/
def State.mapRefusal (s : State) (ps : List Byte) : Option Res :=
  let id := fld ps 1 1
  let port := fld ps 2 1
  let vc := fld ps 3 1
  let dt := fld ps 4 1
  let ch := fld ps 5 1
  if 63 < id ∨ 7 < port ∨ 15 < vc ∨ (s.stream id).isSome ∨ 31 < fld ps 6 1 then some .badParam
  else if !(pixelType dt || audioType dt) ∨ s.portSetting port 0 ≠ 2 then some .badParam
  else if s.streams.any (fun x => !x.output && decide (x.port = port) && decide (x.vc = vc) && decide (x.dt = dt)) then
    some .badParam
  else
    match s.tensor (fld ps 12 4) with
    | none => some .badParam
    | some t =>
      if t.layout ≠ .ring ∨ !ringFmt t.f ∨ (t.f.isLns && !scaleOk (fld ps 10 2)) then some .badParam
      else if audioType dt && (decide (ch ≠ t.cols) || decide (ch = 0) || decide (64 < ch)) then some .badParam
      else if !audioType dt && decide (ch ≠ 0) then some .badParam
      else if !inSram t.base t.footprint then some .memoryRange
      else none

/-- STREAM_MAP: ACTION 0 maps, 1 unmaps, 2 queries. -/
def streamMap (q : Req) (s : State) : Verdict :=
  let ps := q.params
  let id := fld ps 1 1
  if ps.length ≠ 16 then refuse .badParam s
  else
    match fld ps 0 1 with
    | 0 =>
      match s.mapRefusal ps with
      | some r => refuse r s
      | none =>
        let x := { Stream.new id false (fld ps 2 1) (fld ps 3 1) (fld ps 4 1) (fld ps 12 4) 0 q.source q.tag with
                   channels := fld ps 5 1, shift := fld ps 6 1, black := fld ps 8 2, scale := fld ps 10 2 }
        okReply [] { s with streams := s.streams ++ [x] }
    | 1 =>
      match s.stream id with
      | none => refuse .badParam s
      | some x => if x.state = .running ∨ x.output then refuse .badParam s else okReply [] ((s.flushFrames x).dropStream id)
    | 2 =>
      if 63 < id then refuse .badParam s
      else okReply (match s.stream id with | some x => x.record | none => List.replicate 32 0) s
    | _ => refuse .badParam s

/-- The IDs a mask selects. -/
def maskIds (m : Nat) : List Nat := (List.range 64).filter (fun i => m.testBit i)

/-- R361: a mask names an unmapped ID, or an input stream whose ring's group is neither in S0 nor in S1. -/
def State.badMask (s : State) (m : Nat) : Bool :=
  (maskIds m).any (fun i =>
    match s.stream i with
    | none => true
    | some x =>
      if x.output then false
      else
        match s.tensor x.ring with
        | some t => decide ((s.groupPower (groupOfAddr t.base)).state = .s2) || decide (s.power.sleep = .housed)
        | none => true)

/-- An input stream starts: its ring header and its next slot.
(DEDUCED, log entry 48.) -/
def State.startInput (s : State) (x : Stream) : State :=
  if x.output then s
  else
    match s.tensor x.ring with
    | none => s
    | some t =>
      let a := s.flushFrames x
      (a.write t.base (leBytes 8 0 ++ leBytes 4 0xFFFFFFFF ++ leBytes 4 0)).setStream
        { (a.stream x.id).getD x with state := .running, frame := none, frames := 0, nextSlot := 0, ended := [] }

/-- STREAM_START. -/
def streamStart (q : Req) (s : State) : Verdict :=
  let m := fld q.params 0 8
  if q.params.length ≠ 8 ∨ s.badMask m then refuse .badParam s
  else okReply [] ((maskIds m).foldl (fun t i => match t.stream i with | some x => t.startInput x | none => t) s)

/-- The command of an output stream. -/
def State.streamCmd (s : State) (id : Nat) : Option Cmd :=
  s.cmds.find? (fun c => match c.body with | .streamOut i => decide (i = id) | _ => false)

/-- An output stream ends with its STREAM_OUT. -/
def State.endOutput (s : State) (x : Stream) (res : Res) (cause : Nat) : State :=
  let s1 := s.dropStream x.id
  match s.streamCmd x.id with
  | some c => s1.completeGeneric c res 0 cause 0
  | none => s1

/-- A stream stopped: an input stream at once, an output stream after its current frame. -/
def State.stopStream (s : State) (x : Stream) : State :=
  if !x.output then s.setStream { x with state := .mapped, frame := none }
  else if x.sending then s.setStream { x with stopping := true }
  else s.endOutput x .complete 0

/-- STREAM_STOP. -/
def streamStop (q : Req) (s : State) : Verdict :=
  let m := fld q.params 0 8
  if q.params.length ≠ 8 ∨ s.badMask m then refuse .badParam s
  else okReply [] ((maskIds m).foldl (fun t i => match t.stream i with | some x => t.stopStream x | none => t) s)

/-! ## Samples (R357, R358) -/

/-- The elements of a line of pixels, as CSI-2 packs them.
(PRESUMED, log entry 46.) -/
def unpackPixels (dt : Nat) (bs : List Byte) : List Nat :=
  let n (g : List Byte) (i : Nat) : Nat := (g.getD i 0).toNat
  match dt with
  | 0x2B => (cut 5 (bs.length / 5) bs).flatMap (fun g =>
      (List.range 4).map (fun i => 4 * n g i + n g 4 / 2 ^ (2 * i) % 4))
  | 0x2C => (cut 3 (bs.length / 3) bs).flatMap (fun g => [16 * n g 0 + n g 2 % 16, 16 * n g 1 + n g 2 / 16])
  | 0x2D => (cut 7 (bs.length / 7) bs).flatMap (fun g =>
      let low := n g 4 + 256 * n g 5 + 65536 * n g 6
      (List.range 4).map (fun i => 64 * n g i + low / 2 ^ (6 * i) % 64))
  | 0x2E => (cut 2 (bs.length / 2) bs).map leNat
  | _ => bs.map BitVec.toNat

/-- A sample converted into the ring's format (R357): its code, and whether it saturated. -/
def Stream.convert (x : Stream) (f : Fmt) (v : Int) : Nat × Bool :=
  if f.isLin then
    let q := roundNE v (2 ^ x.shift)
    let hi : Int := 2 ^ (f.bits - 1) - 1
    let lo : Int := -(2 ^ (f.bits - 1))
    (twos f.bits (max lo (min hi q)), decide (hi < q) || decide (q < lo))
  else if v = 0 then (zeroCode f, false)
  else ((lnsEncode f.shape (linLog (scaleLog x.scale) v)).code, false)

/-- Bytes of a PCM sample. -/
def pcmBytes (dt : Nat) : Nat := match dt with | 0x33 => 3 | 0x36 => 3 | 0x34 => 4 | _ => 2

/-- The samples of audio bytes. -/
def pcmSamples (dt : Nat) (bs : List Byte) : List Int :=
  let n := pcmBytes dt
  (cut n (bs.length / n) bs).map (fun g => untwos (8 * n) (leNat g))

/-! ## Input frames (R359, R360) -/

/-- An open frame with nothing in it. -/
def OpenFrame.empty : OpenFrame := ⟨[], 0, [], none, 0, false⟩

/-- The running input streams of a port and virtual channel; none once a thermal trip has stopped the ports (R435), or on a
port that is no sensor port (R335). -/
def State.inputs (s : State) (port vc : Nat) : List Stream :=
  if s.power.failed then [] else s.streams.filter (fun x => !x.output && decide (x.port = port) && decide (x.vc = vc) && decide (x.state = .running)
    && decide (s.portSetting port 0 = 2))

/-- A Frame Start met by one stream (R198, R359): a frame it abandons counts in OVERRUNS (Table 11.6), a ring drop raises BUDGET. The
slot of the new frame comes after those of the frames that wait. -/
def State.openFrame (s : State) (x : Stream) : State :=
  match s.tensor x.ring with
  | none => s
  | some t =>
    let x1 := { x with abandoned := x.abandoned + (if x.frame.isSome then 1 else 0), frame := some OpenFrame.empty }
    let s0 := if x.frame.isSome then s.countOverrun 1 else s
    if s.slotPinned x.ring ((x.nextSlot + x.ended.length) % t.planes) then (s0.setStream { x1 with frame := none }).dropFrame t
    else s0.setStream x1

/-- FRAME_START (R359). -/
def execFrameStart (port vc : Nat) (s : State) : Host.Outcome State Fault Refusal :=
  .next ((s.inputs port vc).foldl (fun t x => t.openFrame x) (s.corrected port))

/-- Samples written into an open frame, as (row, column, value); those outside the ring are counted (LONG_LINES). -/
def Stream.place (x : Stream) (t : Tensor) (o : OpenFrame) (vs : List (Nat × Nat × Int)) : Stream :=
  let inside := vs.filter (fun v => decide (v.1 < t.rows) && decide (v.2.1 < t.cols))
  let cs := inside.map (fun v => let e := x.convert t.f v.2.2; ((v.1, v.2.1, e.1), e.2))
  { x with frame := some { o with cells := o.cells ++ cs.map (fun c => c.1) },
           longLines := x.longLines + (vs.length - inside.length),
           saturated := x.saturated + (cs.filter (fun c => c.2)).length }

/-- A line of pixels: line k fills row k.
(DEDUCED, log entry 47.) -/
def Stream.pixelLine (x : Stream) (t : Tensor) (o : OpenFrame) (data : List Byte) (crcOk : Bool) : Stream :=
  let o1 := { o with lines := o.lines + 1 }
  if t.rows ≤ o.lines then { x with frame := some o1, longLines := x.longLines + 1 }
  else if !crcOk then { x with frame := some o1, crcLines := x.crcLines + 1 }
  else
    let vs : List Int := (unpackPixels x.dt data).map (fun (e : Nat) => (e : Int) - (x.black : Int))
    let y := x.place t o1 ((List.range vs.length).zip vs |>.map (fun v => (o.lines, v.1, v.2)))
    { y with shortLines := y.shortLines + (if vs.length < t.cols then 1 else 0) }

/-- Sample frames of an interleaved audio line from a row on. -/
def interleave (ch row : Nat) (vs : List Int) : List (Nat × Nat × Int) :=
  (List.range vs.length).zip vs |>.map (fun v => (row + v.1 / ch, v.1 % ch, v.2))

/-- An audio line (R358). A failed CRC drops an interleaved line, which the caller counts. -/
def Stream.audioLine (x : Stream) (t : Tensor) (o : OpenFrame) (data : List Byte) (crcOk : Bool) : Stream :=
  let n := pcmBytes x.dt
  let ch := max 1 x.channels
  if planarType x.dt then
    let c := o.lines % ch
    let at_ := o.fill.getD c 0
    let k := data.length / n
    let fill := (o.fill ++ List.replicate (ch - o.fill.length) 0).set c (at_ + k)
    let o1 := { o with lines := o.lines + 1, fill := fill }
    let x1 := { x with shortLines := x.shortLines + (if data.length % n = 0 then 0 else 1) }
    if crcOk then
      x1.place t o1 ((List.range k).zip (pcmSamples x.dt data) |>.map (fun v => (at_ + v.1, c, v.2)))
    else { x1 with frame := some o1, crcLines := x1.crcLines + 1 }
  else
    let body := if x.dt = 0x37 then data.drop 8 else data
    let k := body.length / (n * ch)
    let x1 := { x with shortLines := x.shortLines + (if body.length % (n * ch) = 0 then 0 else 1) }
    let vs := (pcmSamples x.dt body).take (k * ch)
    if x.dt = 0x37 then
      if data.length < 8 then { x with shortLines := x.shortLines + 1 }
      else
        let count := fld data 0 6
        let first := o.firstCounter.getD count
        let row := (count + 2 ^ 48 - first) % 2 ^ 48
        let gap := o.firstCounter.isSome && decide (count ≠ o.nextCounter)
        let o1 := { o with lines := o.lines + 1, firstCounter := some first, nextCounter := (count + k) % 2 ^ 48 }
        ({ x1 with audioGaps := x1.audioGaps + (if gap then 1 else 0) }).place t o1 (interleave ch row vs)
    else
      let row := o.fill.getD 0 0
      x1.place t { o with lines := o.lines + 1, fill := [row + k] } (interleave ch row vs)

/-- SENSOR_LINE (R357 to R360): a long packet of a data type. `crcOk`: its CRC-16 holds; `fits`: the port's buffer had
room.
(DESIGN CHOICE, log entry 19.) -/
def execSensorLine (port vc dt : Nat) (data : List Byte) (crcOk fits : Bool) (s : State) :
    Host.Outcome State Fault Refusal :=
  let s := s.corrected port
  match (s.inputs port vc).find? (fun x => x.dt = dt) with
  | none => .next s
  | some x =>
    match x.frame, s.tensor x.ring with
    | some o, some t =>
      if !fits then
        .next (((s.setStream { x with frame := none, abandoned := x.abandoned + 1 }).overrun 1).count 0x0605 1)
      else if audioType dt && !planarType dt && !crcOk then .next (s.count 0x0603 1)
      else
        let y := if audioType dt then x.audioLine t o data crcOk else x.pixelLine t o data crcOk
        .next ((s.setStream y).count 0x060A (y.saturated - x.saturated))
    | _, _ => .next s

/-- A Frame End met by one stream: the frame is written (R198), or waits while INGEST is at its ceiling or an earlier one waits
(R208, R369). -/
def State.closeFrame (s : State) (x : Stream) : State :=
  match x.frame, s.tensor x.ring with
  | some o, some t =>
    let ms := x.frameMoves t
    if x.ended.isEmpty && s.mayMove .ingest ms then s.storeFrame { x with frame := none } t o
    else (s.waitAt .ingest ms).setStream { x with frame := none, ended := x.ended ++ [o] }
  | _, _ => s

/-- The first frame of a stream that waits, at its turn: its slot is written, or, pinned since, left unchanged and the frame dropped
(R198). -/
def State.storeEnded (s : State) (id : Nat) : State :=
  match s.stream id with
  | none => s
  | some x =>
    match x.ended, s.tensor x.ring with
    | o :: os, some t =>
      let y := { x with ended := os }
      if s.slotPinned x.ring x.nextSlot then (s.setStream y).dropFrame t else s.storeFrame y t o
    | _, _ => s

/-- The waiting frames of a stream, while INGEST is below its ceiling. -/
def State.drainStream (s : State) (id : Nat) : Nat → State
  | 0 => s
  | n + 1 =>
    match s.stream id with
    | none => s
    | some x =>
      match s.tensor x.ring with
      | none => s
      | some t =>
        let ms := x.frameMoves t
        if x.ended.isEmpty then s
        else if s.mayMove .ingest ms then (s.storeEnded id).drainStream id n
        else s.waitAt .ingest ms

/-- A new stint: the frames that wait in the port buffers are written (R369). -/
def State.drainFrames (s : State) : State := s.streams.foldl (fun a x => a.drainStream x.id x.ended.length) s

/-- FRAME_END (R359). -/
def execFrameEnd (port vc : Nat) (s : State) : Host.Outcome State Fault Refusal :=
  .next ((s.inputs port vc).foldl (fun t x => t.closeFrame x) (s.corrected port))

/-! ## Output streams (R362, R363) -/

/-- The data type of an output line, by the element's bytes; none for a format that is refused. -/
def outType (f : Fmt) : Option Nat :=
  match f with
  | .lns8 | .pw8 | .lin8 => some 0x2A
  | .lns16 | .lin16 => some 0x2E
  | .lns24 => some 0x24
  | _ => none

/-- STREAM_OUT. -/
def streamOut (q : Req) (s : State) : Verdict :=
  let ps := q.params
  let id := fld ps 0 1
  let port := fld ps 1 1
  let vc := fld ps 2 1
  let mode := fld ps 3 1
  let role := s.portSetting port 0
  if ps.length ≠ 8 ∨ 63 < id ∨ (s.stream id).isSome ∨ port < 8 ∨ 11 < port ∨ (role ≠ 2 ∧ role ≠ 3) ∨ 15 < vc ∨ 1 < mode then
    refuse .badParam s
  else if (role = 3 ∧ vc = 0) ∨ s.streams.any (fun x => x.output && decide (x.port = port) && decide (x.vc = vc)) then
    refuse .badParam s
  else
    match s.tensor (fld ps 4 4) with
    | none => refuse .badParam s
    | some t =>
      let layout := if mode = 0 then decide (t.layout = .blocked) else decide (t.layout = .ring)
      match outType t.f with
      | none => refuse .badParam s
      | some _ =>
        if !layout ∨ t.fmt = none ∨ 16384 < t.cols * (t.f.bits / 8) then refuse .badParam s
        else .accept [] (.streamOut id) none
          { s with streams := s.streams ++ [Stream.new id true port vc 0 t.handle mode q.source q.tag] }

/-- A STREAM_OUT starts. -/
def State.startOutput (s : State) (id : Nat) : State :=
  match s.stream id with
  | some x =>
    let done := match s.tensor x.ring with
      | some t => if x.mode = 1 then some (s.ringCompleted t) else none
      | none => none
    s.setStream { x with state := .running, lastSent := done }
  | none => s

/-- The embedded line of a frame (Table 11.11). -/
def embeddedLine (s : State) (x : Stream) (t : Tensor) : List Byte :=
  leBytes 4 (s.status x.source 0) ++ leBytes 2 x.source ++ leBytes 2 x.id ++ leBytes 8 (x.frames + 1) ++ leBytes 8 s.now
    ++ leBytes 4 (if x.mode = 1 then x.slot else 0xFFFFFFFF) ++ leBytes 4 t.rows

/-- OUTPUT_FRAME_SEND (R362): the next plane, or a slot completed since the last frame; its Frame Start and embedded
line.
(PRESUMED, log entry 46; DESIGN CHOICE, log entry 50.) -/
def execOutputFrameSend (stream : Nat) (s : State) : Host.Outcome State Fault Refusal :=
  match s.stream stream with
  | none => .next s
  | some x =>
    match s.tensor x.ring with
    | none => .next s
    | some t =>
      let last := s.ringLast t
      let ready := x.output && decide (x.state = .running) && !x.sending && !x.stopping
        && (decide (x.mode = 0) || (decide (last < t.planes) && decide (some (s.ringCompleted t) ≠ x.lastSent)))
      if !ready then .next s
      else
        let x1 := { x with frameNo := x.frameNo % 65535 + 1, sending := true, slot := if x.mode = 1 then last else x.slot,
                           lastSent := if x.mode = 1 then some (s.ringCompleted t) else none }
        let s1 := (s.setStream x1).send ⟨x.port, x.vc, 0x00, leBytes 2 x1.frameNo⟩
        .next (s1.send ⟨x.port, x.vc, 0x12, embeddedLine s x1 t⟩)

/-- The plane a frame shows. -/
def Stream.view (x : Stream) (t : Tensor) : Tensor × Nat := if x.mode = 1 then (t.slot x.slot, 0) else (t, x.slot)

/-- One line of a frame: row r in column order, as element bytes. -/
def State.outLine (s : State) (x : Stream) (t : Tensor) (r : Nat) : OutPkt :=
  let v := x.view t
  ⟨x.port, x.vc, (outType t.f).getD 0, (List.range t.cols).flatMap (fun c => leBytes (t.f.bits / 8) (s.code v.1 v.2 r c))⟩

/-- The first line of a frame that meets poison, which is never sent (R185).
(DESIGN CHOICE, log entry 50.) -/
def State.outPoison (s : State) (x : Stream) (t : Tensor) : Option Nat :=
  let v := x.view t
  (List.range t.rows).find? (fun r => (s.regionPoison v.1 v.2 r 1 0 t.cols).isSome)

/-- What the first `n` lines of a frame read, by block rows: charged to INGEST (R362). -/
def Stream.lineMoves (x : Stream) (t : Tensor) (n : Nat) : Moves :=
  let v := x.view t
  if n = 0 then [] else [(false, v.1.blockAddr v.2 0 0, (n + 31) / 32 * v.1.bc * v.1.f.blockBytes)]

/-- `n` lines and the Frame End. -/
def State.sendLines (s : State) (x : Stream) (t : Tensor) (n : Nat) : State :=
  ((List.range n).foldl (fun a r => a.send (s.outLine x t r)) s).send ⟨x.port, x.vc, 0x01, leBytes 2 x.frameNo⟩

/-- OUTPUT_FRAME_DONE (R362): the lines and the Frame End, which wait while INGEST is at its ceiling; the stream ends after its last
plane or STREAM_STOP. A line that meets poison ends the stream (R185).
(PRESUMED, log entry 46; DESIGN CHOICE, log entry 50.) -/
def execOutputFrameDone (stream : Nat) (s : State) : Host.Outcome State Fault Refusal :=
  match s.stream stream with
  | none => .next s
  | some x =>
    match s.tensor x.ring with
    | none => .next s
    | some t =>
      if !x.output ∨ !x.sending then .next s
      else
        match s.outPoison x t with
        | some r =>
          let v := x.view t
          let g := (s.regionPoison v.1 v.2 r 1 0 t.cols).getD (t.base, 1)
          .next (s.moving .ingest (x.lineMoves t r) (fun s =>
            ((s.sendLines x t r).notePoison g.1 g.2).endOutput x .aborted 0x41))
        | none =>
          let x1 := { x with frames := x.frames + 1, sending := false, slot := if x.mode = 0 then x.slot + 1 else x.slot }
          .next (s.moving .ingest (x.lineMoves t t.rows) (fun s =>
            let s1 := ((s.sendLines x t t.rows).count 0x0609 1).setStream x1
            if x1.stopping ∨ (x.mode = 0 ∧ t.planes ≤ x1.slot) then s1.endOutput x1 .complete 0 else s1))

/-- An ABORT of a STREAM_OUT (R362): the current frame is cut short after a line, with its Frame End. Which line was current is
open: a free number.
(DESIGN CHOICE, log entry 50.) -/
def State.abortOutput (s : State) (id : Nat) : State :=
  match s.stream id with
  | none => s
  | some x =>
    match s.tensor x.ring with
    | none => s.endOutput x .aborted 0x04
    | some t =>
      if x.sending then
        let k := s.freeNat
        let n := match k.2.outPoison x t with | some r => min r (k.1 % t.rows + 1) | none => k.1 % t.rows + 1
        ((k.2.charge .ingest (x.lineMoves t n)).sendLines x t n).endOutput x .aborted 0x04
      else s.endOutput x .aborted 0x04

/-! ## Port settings (R335, Table 11.17) -/

/-- The port of a key 0x50xx; none for another key. -/
def keyPort (k : Nat) : Option Nat := if k / 256 = 0x50 ∧ k / 16 % 16 < 12 then some (k / 16 % 16) else none

/-- PORT_SETTINGS_APPLY (R335): the committed settings that are due act. An input stream on a changed port is stopped; an
output stream ends its frame first. -/
def execPortSettingsApply (s : State) : Host.Outcome State Fault Refusal :=
  match s.portQueue with
  | [] => .next s
  | (due, keys) :: rest =>
    let ports := keys.filterMap (fun k => keyPort k.1)
    if s.streams.any (fun x => x.output && x.sending && ports.contains x.port) then .next s
    else
      let s0 := s.reach due
      let s1 : State := { s0 with portQueue := rest,
                                  portSettings := keys.foldl (fun a k => settingPut a k.1 k.2) s.portSettings }
      .next ((s1.streams.filter (fun x => !x.output && ports.contains x.port && decide (x.state = .running))).foldl
        (fun t x => t.setStream { x with state := .mapped, frame := none }) s1)

end Sys2Proof.Machine
end

