-- ==== Sys2Proof/Machine/Run.lean ====
section
/-!
DEFINITION. Operators on the cores: their start (R87, R94, R116, R154, R167, R199, R230), the Loom's chunks and tiles (R43 to R63,
R70 to R77, R83 to R96) and the Finish queue (R129, R130).
-/
namespace Sys2Proof.Machine

/-! ## Records of a command -/

/-- One element of a list changed. -/
def listUpd {α : Type} (xs : List α) (i : Nat) (f : α → α) : List α :=
  match xs[i]? with
  | some x => xs.set i (f x)
  | none => xs

/-- The run of an OP_RUN or GRAPH_RUN changed. -/
def State.mapOps (s : State) (source tag : Nat) (f : OpsRun → OpsRun) : State :=
  { s with cmds := s.cmds.map (fun c =>
      if c.source = source ∧ c.tag = tag then
        match c.body with
        | .ops r => { c with body := .ops (f r) }
        | _ => c
      else c) }

/-- A record changed. -/
def State.mapRec (s : State) (o : OpRef) (f : RecRun → RecRun) : State :=
  s.mapOps o.source o.tag (fun r => { r with recs := listUpd r.recs o.record f })

/-- The command, run and record that an operator reference names, while the command is not to stop. -/
def State.opRec (s : State) (o : OpRef) : Option (Cmd × OpsRun × RecRun) :=
  match s.cmd o.source o.tag with
  | some c =>
    match c.body with
    | .ops r =>
      if r.stop.isSome then none
      else (r.recs[o.record]?).map (fun x => (c, r, x))
    | _ => none
  | none => none

/-- R163: a command is to stop with a cause at a record. -/
def State.stopOps (s : State) (o : OpRef) (cause : Nat) : State :=
  s.mapOps o.source o.tag (fun r =>
    if r.stop.isSome then r else { r with stop := some (cause, if r.graph then o.record else 0) })

/-- R185: a read met poison: it is noted, and the operator is to stop with CAUSE 0x41. -/
def State.poisonStop (s : State) (o : OpRef) (g : Nat × Nat) : State := (s.notePoison g.1 g.2).stopOps o 0x41

/-- Flags ORed into a record's flag word (R41). -/
def State.recFlags (s : State) (o : OpRef) (f : FlagWord) : State :=
  if f = 0 then s else s.mapRec o (fun x => { x with flags := x.flags ||| f })

/-- The network of a run. -/
def State.runNet (s : State) (r : OpsRun) : Net :=
  (s.loadedNet r.net).getD { id := r.net, mode := .log8, seed := 0, cores := [], total := 0, graphs := [] }

/-! ## Tensors as an operator sees them (R199) -/

/-- A tensor as a record reads it: a receive ring is the slot the record has pinned. -/
def State.view (s : State) (x : RecRun) (h : Nat) : Option Tensor :=
  match s.tensor h with
  | some t =>
    if t.layout = .ring then
      match x.pins.find? (fun p => p.1 = h) with
      | some p => some (t.slot p.2)
      | none => some (t.slot 0)
    else some t
  | none => none

/-- The receive rings among the handles a record reads.
(DEDUCED, log entry 101.) -/
def State.ringsOf (s : State) (p : OpP) : List Tensor :=
  let hs : List (Option Nat) :=
    match p with
    | .loom q => some q.a :: some q.b :: q.tills
    | .chain q => q.ins ++ q.tills
    | .rows q => [some q.input, q.offset, q.gain, q.bias]
    | .scatter _ i _ _ _ => [some i]
    | _ => []
  (s.named hs).filter (fun t => decide (t.layout = .ring))

/-! ## The order of starts (R150, R162, R167 to R169, R230) -/

/-- A Loom operator that names a slot. -/
def OpP.usesSlot : OpP → Bool
  | .loom p => decide (p.src = 1) || decide (p.close = 3)
  | _ => false

/-- A record still holds back later operators on a core. -/
def RecRun.holds (x : RecRun) (core : Nat) : Bool :=
  x.open && x.op.cores.contains core && (!x.finished.contains core || x.op.usesSlot)

/-- An earlier command holds back an operator on a core (R150, R167, R169, R394). -/
def Cmd.holdsCore (d : Cmd) (core : Nat) : Bool :=
  match d.body with
  | .ops r => r.recs.any (fun x => x.holds core)
  | .activate _ todo => todo.contains core
  | .fence cs => cs.isEmpty || cs.contains core
  | .selfTest cs _ _ _ => cs.contains core
  | _ => false

/-- A SKIP_IF among the earlier records may still skip record `i`. -/
def skipPending (recs : List RecRun) (i : Nat) : Bool :=
  ((List.range i).zip recs).any (fun y =>
    match y.2.op with
    | .skipIf _ _ _ _ n => y.2.open && decide (i ≤ y.1 + n)
    | _ => false)

/-- R162, R167: the earlier records of its graph let record `i` start. -/
def recReady (recs : List RecRun) (i : Nat) (dep : Bool) : Bool :=
  (!dep || (recs.take i).all (fun y => !y.open)) && !skipPending recs i

/-- A group that runs work: in S0 and not on its way there. -/
def State.groupUp (s : State) (g : Nat) : Bool :=
  decide ((s.groupPower g).state = .s0) && decide ((s.groupPower g).waking = none)

/-- A core is at a command boundary: between two operators (R176). -/
def State.betweenOps (s : State) (core : Nat) : Bool := decide ((s.core core).cur = none)

/-- A REPAIR of a core takes its switch at the core's next command boundary (R459), once the cap lets the spare wake (R460). -/
def State.repairDue (s : State) (core : Nat) : Bool :=
  s.admits s.groupStates && s.cmds.any (fun d => d.acked && decide (d.body = .repair core) && s.mayStart d)

/-- A logical core can run the next operator: its group is up, its spare has taken over where it must, and no REPAIR is due
(R440, R457, R459). -/
def State.coreUp (s : State) (core : Nat) : Bool :=
  s.groupUp (core / 9) && !s.health.takeover.contains core && !s.repairDue core

/-- R439: a group that has been asked into S1 or S2 starts no further command.
(DEDUCED, log entry 78.) -/
def State.askedAway (s : State) (r : OpsRun) (core : Nat) : Bool :=
  (s.groupPower (core / 9)).request.isSome
    && !r.recs.any (fun x => x.started.any (fun d => decide (d / 9 = core / 9)))

/-- R167: record `i` of a command may start on a core, whatever the core's power. -/
def State.turnOf (s : State) (c : Cmd) (r : OpsRun) (i : Nat) (x : RecRun) (core : Nat) : Bool :=
  s.mayStart c && x.open && x.op.cores.contains core && !x.started.contains core && recReady r.recs i x.dep
    && !(r.recs.take i).any (fun y => y.holds core) && !(s.earlier c).any (fun d => d.holdsCore core)
    && decide ((s.core core).cur = none)

/-! ## The Till (R116) and the registers (R154) -/

/-- Element `i` of a vector tensor, in row-major order of its plane 0.
(DEDUCED, log entry 60.) -/
def Tensor.vecIx (t : Tensor) (i : Nat) : Nat × Nat := (i / t.cols, i % t.cols)

/-- A vector tensor as seat values, with the flags of their conversion.
(DEDUCED, log entry 64.) -/
def State.loadVec (s : State) (t : Tensor) : List (LVal × FlagWord) :=
  (List.range (t.rows * t.cols)).map (fun i => let e := t.vecIx i; s.seatAt t 0 e.1 e.2)

/-- The Till vectors of an operator: by index, the tensor. -/
def OpP.tills : OpP → List (Option Nat)
  | .loom p => p.tills
  | .chain p => p.tills
  | .rows p => [p.gain, p.bias]
  | _ => []

/-- The vector of a tensor that the same GRAPH_RUN has loaded, under whatever number it holds it. -/
def tillOf (till : List (Option TillVec)) (no : Nat) (graph : Bool) (h : Nat) : Option TillVec :=
  (till.filterMap id).find? (fun v => graph && decide (v.handle = h) && decide (v.no = no))

/-- The vectors command number `no` leaves in the Till beside the `need` entries its operator names itself: its own under other
numbers that fit in 256 KiB, by rising number.
(DESIGN CHOICE, log entry 138.) -/
def tillRoom (no : Nat) : List (Option Nat × Option TillVec) → Nat → List (Option TillVec)
  | [], _ => []
  | (none, some w) :: ys, need =>
    if w.no = no ∧ 3 * (need + w.entries.length) ≤ 262144 then some w :: tillRoom no ys (need + w.entries.length)
    else none :: tillRoom no ys need
  | _ :: ys, need => none :: tillRoom no ys need

/-- One Till vector made ready for command number `no`: kept where the same GRAPH_RUN loaded the same tensor, loaded otherwise. `till`
is the Till as the operator found it. The poison a load meets is answered beside the state.
(DEDUCED, log entry 64.) -/
def State.loadTill (s : State) (core : Nat) (o : OpRef) (no : Nat) (graph : Bool) (x : RecRun) (till : List (Option TillVec))
    (i h : Nat) : State × Option (Nat × Nat) :=
  let put (a : State) (v : TillVec) : State := a.mapCore core (fun k => { k with till := k.till.set i (some v) })
  match tillOf till no graph h with
  | some v => (put s v, none)
  | none =>
    match s.view x h with
    | none => (s, none)
    | some t =>
      match s.regionPoison t 0 0 t.rows 0 t.cols with
      | some g => (s, some g)
      | none =>
        let v := s.loadVec t
        ((put (s.charge .compute [(false, t.base, t.footprint)]) ⟨h, no, v.map (fun e => e.1)⟩).recFlags o (flagsOr (v.map (fun e => e.2))), none)

/-- The Till vectors an operator names, by number. -/
def OpP.tillNames (p : OpP) : List (Option Nat) := (List.range 4).map (fun i => p.tills.getD i none)

/-- The vectors that the Till loads for an operator, read under the COMPUTE budget (R203). -/
def State.tillMoves (s : State) (core no : Nat) (graph : Bool) (x : RecRun) : Moves :=
  x.op.tills.flatMap (fun y =>
    match y with
    | none => []
    | some h =>
      if (tillOf (s.core core).till no graph h).isSome then []
      else match s.view x h with | none => [] | some t => [(false, t.base, t.footprint)])

/-- The Till vectors of an operator made ready. -/
def State.loadTills (s : State) (core : Nat) (o : OpRef) (no : Nat) (graph : Bool) (x : RecRun) : State :=
  let till := (s.core core).till
  let need := ((s.named x.op.tillNames).map (fun t => t.rows * t.cols)).foldl (· + ·) 0
  let s1 := if x.op.tills.any Option.isSome then
      s.mapCore core (fun k => { k with till := tillRoom no (x.op.tillNames.zip till) need }) else s
  ((List.range 4).zip x.op.tills).foldl (fun a y =>
    match y.2 with
    | none => a
    | some h =>
      match a.loadTill core o no graph x till y.1 h with
      | (b, none) => b
      | (b, some g) => b.poisonStop o g) s1

/-- The scalars an operator's block gives. -/
def OpP.scalars : OpP → List (BitVec 64)
  | .loom p => p.scalars
  | .chain p => p.scalars
  | _ => []

/-- R154: the registers with an operator's scalars in s16 on. -/
def loadScalars (regs ss : List (BitVec 64)) : List (BitVec 64) := regs.take 16 ++ ss ++ regs.drop (16 + ss.length)

/-- R154: the registers as a chain of an operator with `n` scalars reads them: 0 at and above s(16 + n). -/
def readRegs (regs : List (BitVec 64)) (n : Nat) : List (BitVec 64) :=
  regs.take (16 + n) ++ List.replicate (64 - (16 + n)) 0

/-! ## The stack at the start of a record (R226, R230) -/

/-- The bytes of the entries of a stack. -/
def entriesBytes (es : List StackEntry) : Nat := es.foldl (fun a e => a + e.size) 0

/-- R226: which entries, from the top downwards, lie in the window: `n` and `b` are the entries and bytes counted so far. -/
def windowFlags (maxN maxB : Nat) : List StackEntry → Nat → Nat → Bool → List Bool
  | [], _, _, _ => []
  | e :: es, n, b, inside =>
    if e.marker then true :: windowFlags maxN maxB es n b inside
    else
      let ok := decide (n = 0) || (inside && decide (n + 1 ≤ maxN) && decide (b + e.size ≤ maxB))
      ok :: windowFlags maxN maxB es (n + 1) (b + e.size) ok

/-- The entries of a stack, from the bottom upwards, each with whether it is in the window.
(DEDUCED, log entry 70.) -/
def Stack.windowed (k : Stack) : List (StackEntry × Bool) :=
  (k.entries.reverse.zip (windowFlags k.winEntries (k.winMib * 2 ^ 20) k.entries.reverse 0 0 true)).reverse

/-- The entries outside the window. -/
def Stack.outside (k : Stack) : List StackEntry :=
  (k.windowed.filter (fun x => !x.2)).map (fun x => x.1)

/-- R219: entries lie by stamp. -/
def stackInsert : List StackEntry → StackEntry → List StackEntry
  | [], e => [e]
  | x :: xs, e => if x.stamp < e.stamp then x :: stackInsert xs e else e :: x :: xs

/-- The entry a record pushes on a group (R220, R221).
(DEDUCED, log entry 68.) -/
def State.newEntry (s : State) (o : OpRef) (x : RecRun) (g : Nat) : StackEntry :=
  let t := (x.op.valueOut.bind s.tensor).getD ⟨0, none, .blocked, 1, 1, 1, 0, 0, 0, .empty, none⟩
  let ts := s.entryTiles x.op g
  { stamp := x.stamp, groups := groupsOf x.op.cores, marker := decide (x.stack = 2), fmt := t.f, rows := t.rows, cols := t.cols,
    tiles := ts, size := if x.stack = 2 then 0 else tilesBytes t.f ts, state := .pushing,
    place := [], spillOff := 0,
    source := o.source, tag := o.tag }

/-- A record's entry is on a group's stack. -/
def State.hasEntry (s : State) (g stamp : Nat) : Bool := (s.stack g).entries.any (fun e => e.stamp = stamp)

/-- A SAVE record has started on a group and not pushed there. -/
def State.pushDue (s : State) (x : RecRun) (g : Nat) : Bool :=
  decide (x.phase = .running) && decide (x.stack = 1) && x.started.any (fun c => c / 9 = g) && !s.hasEntry g x.stamp

/-- The entries about to be pushed on a group. -/
def State.pushesDue (s : State) (g : Nat) : List StackEntry :=
  s.cmds.flatMap (fun c =>
    match c.body with
    | .ops r =>
      if r.stop.isSome then []
      else ((List.range r.recs.length).zip r.recs).filterMap (fun y =>
        if s.pushDue y.2 g then some (s.newEntry ⟨c.source, c.tag, y.1⟩ y.2 g) else none)
    | _ => [])

/-- A stack with further entries put where their stamps order them. -/
def Stack.adding (k : Stack) (es : List StackEntry) : Stack := { k with entries := es.foldl stackInsert k.entries }

/-- The stamps of a group's entries that lie outside the window once the entries about to be pushed are on top. -/
def State.outsideStamps (s : State) (g : Nat) : List Nat :=
  ((s.stack g).adding (s.pushesDue g)).outside.map StackEntry.stamp

/-- A group's entries changed. -/
def State.mapEntries (s : State) (g : Nat) (f : StackEntry → StackEntry) : State :=
  { s with actStacks := listUpd s.actStacks g (fun k => { k with entries := k.entries.map f }) }

/-- The entry of a stamp changed. -/
def State.setEntry (s : State) (g stamp : Nat) (f : StackEntry → StackEntry) : State :=
  s.mapEntries g (fun e => if e.stamp = stamp then f e else e)

/-- R227, R228: entries that spill and lie in the window again are RESIDENT: their spills are abandoned. -/
def State.reenter (s : State) (g : Nat) : State :=
  let out := s.outsideStamps g
  let back := (s.stack g).entries.filter (fun e => decide (e.state = .spilling) && !out.contains e.stamp)
  (s.mapEntries g (fun e => if e.state = .spilling ∧ !out.contains e.stamp then { e with state := .resident } else e)).count
    0x0326 back.length

/-- The window settings take effect (R225), and with them the window of R226. -/
def State.stackWindow (s : State) (g : Nat) : State :=
  ({ s with actStacks := listUpd s.actStacks g (fun k =>
      { k with winEntries := s.setting 0x3200, winMib := s.setting 0x3201 }) } : State).reenter g

/-- R230: with a new entry on top, and the entries still waiting for room, the stack exceeds its spill region or its
directory. -/
def Stack.full (k : Stack) (due : List StackEntry) (e : StackEntry) : Bool :=
  decide (4096 ≤ k.entries.length + due.length)
    || decide (k.spillSize < entriesBytes (k.adding (due ++ [e])).outside)

/-- R230: a record starts on a group: the test, and the marker of a RECOMPUTE record. `true`: the stack is full.
(DESIGN CHOICE, log entry 126.) -/
def State.stackStart (s : State) (o : OpRef) (x : RecRun) (g : Nat) : State × Bool :=
  let s1 := s.stackWindow g
  let e := s1.newEntry o x g
  if (s1.stack g).full (s1.pushesDue g) e then (s1.count 0x0328 1, true)
  else if x.stack = 2 then
    (({ s1 with actStacks := listUpd s1.actStacks g (fun k => { k with entries := stackInsert k.entries e }) } : State).count 0x0320 1,
     false)
  else (s1, false)

/-! ## OPERATOR_START -/

/-- R87: the columns of a SHIFT PAIR close whose offset is not an integer: true where there is one. -/
def State.pairOffsetBad (s : State) (x : RecRun) (a : Option Nat) (sa : Nat) (col : Option Nat) (n : Nat) : Bool :=
  let la := scaleLog (match a.bind s.tensor with | some t => t.scale | none => sa)
  match col.bind (s.view x) with
  | none => false
  | some v => (List.range n).any (fun j =>
      let e := v.vecIx j
      match (s.logAt v 0 e.1 e.2).1 with
      | .fin _ l => decide ((la + l) % 65536 ≠ 0)
      | _ => false)

/-- R87: the column-scale test of an operator that starts: its close is PAIR in SHIFT mode. -/
def State.pairTest (s : State) (o : OpRef) (x : RecRun) : State :=
  let test (a : Option Nat) (sa : Nat) (col : Option Nat) (n : Nat) : State :=
    match col.bind (s.view x) with
    | none => s
    | some v =>
      match s.regionPoison v 0 0 v.rows 0 v.cols with
      | some g => s.poisonStop o g
      | none => if s.pairOffsetBad x a sa col n then s.stopOps o 0x12 else s
  match x.op with
  | .loom p => if p.close = 1 then test (some p.a) 0 p.colScale p.n else s
  | .close _ c _ _ kind _ sa _ col _ => if kind = 1 then test none sa col c else s
  | _ => s

/-- An OP_RUN or GRAPH_RUN starts: DEVADDR is what it will be for the whole of its run (R416). -/
def State.startOps (s : State) (c : Cmd) : State :=
  if c.running then s
  else (s.startCmd c).mapOps c.source c.tag (fun r => { r with devaddr := s.setting 0x4000 })

/-- R94: the SLOT source is not OPEN. -/
def State.slotMissing (s : State) (x : RecRun) : Bool :=
  match x.op with
  | .loom p => decide (p.src = 1) && decide (((s.core (p.cores.headD 0)).slots.getD p.srcSlot .none).state ≠ .opened)
  | _ => false

/-- The operator occupies a core: its units, its scalars; with no unit there, it has finished on it. -/
def State.enterCore (s : State) (o : OpRef) (x : RecRun) (core : Nat) : State :=
  let us := unitsOn x.op.cores (s.units x.op) core
  let k := s.core core
  let k1 := { k with regs := loadScalars k.regs x.op.scalars }
  let s1 := s.mapRec o (fun y => { y with
    phase := .running, started := y.started ++ [core], finished := if us = [] then y.finished ++ [core] else y.finished })
  s1.setCore core (if us = [] then k1 else { k1 with cur := some o, todo := us, feedA := .empty, feedB := .empty })

/-- A record starts on a core whose turn it is. -/
def State.startRec (s : State) (c : Cmd) (r : OpsRun) (o : OpRef) (x : RecRun) (core : Nat) : State :=
  let first := x.started.isEmpty
  let rings := s.ringsOf x.op
  if first && s.slotMissing x then (s.startOps c).stopOps o 0x11
  else if first && rings.any (fun t => decide (t.planes ≤ s.ringLast t)) then s
  else
    let s1 := s.startOps c
    let x1 := if first then { x with pins := rings.map (fun t => (t.handle, s.ringLast t)) } else x
    let s2 := if first then (s1.mapRec o (fun _ => x1)).pairTest o x1 else s1
    if (s2.opRec o).isNone then s2
    else
      let g := core / 9
      let seen := x.started.any (fun d => d / 9 = g)
      let st : State × Bool := if x.stack = 0 ∨ seen then (s2, false) else s2.stackStart o x1 g
      if st.2 then st.1.stopOps o 0x23
      else (st.1.enterCore o x1 core).loadTills core o c.no r.graph x1

/-- The summary a SKIP_IF tests (R159): that of an earlier record, where it wrote one. -/
def skipTest (recs : List RecRun) (k field : Nat) (t : Cmp) (thresh : Nat) : Bool :=
  match (recs[k]?).bind RecRun.summary with
  | none => false
  | some m =>
    match field with
    | 0 => t.holds (lnsDecode shape24 m.maxCode) (lnsDecode shape24 (thresh % 2 ^ 24))
    | 1 => t.holds (lnsDecode shape24 m.sumCode) (lnsDecode shape24 (thresh % 2 ^ 24))
    | 2 => t.holdsNat m.count thresh
    | _ => t.holdsNat m.flags.toNat thresh

/-- NAN_IN of a SKIP_IF's comparison (R20): the summary value or THRESH is NaN. -/
def skipFlags (recs : List RecRun) (k field thresh : Nat) : FlagWord :=
  match (recs[k]?).bind RecRun.summary with
  | none => 0
  | some m =>
    let th := lnsDecode shape24 (thresh % 2 ^ 24)
    match field with
    | 0 => nanIns [lnsDecode shape24 m.maxCode, th]
    | 1 => nanIns [lnsDecode shape24 m.sumCode, th]
    | _ => 0

/-- Records `i + 1` to `i + n` skipped. -/
def skipRecs (recs : List RecRun) (i n : Nat) : List RecRun :=
  ((List.range recs.length).zip recs).map (fun y =>
    if i < y.1 ∧ y.1 ≤ i + n then { y.2 with phase := .skipped } else y.2)

/-- SKIP_IF starts: the test is made and the records it skips are marked; its own commit point follows. -/
def State.startSkip (s : State) (c : Cmd) (o : OpRef) (k field : Nat) (t : Cmp) (thresh n : Nat) : State :=
  (s.startOps c).mapOps o.source o.tag (fun r =>
    let recs := listUpd r.recs o.record (fun y =>
      { y with phase := .running, flags := y.flags ||| skipFlags r.recs k field thresh })
    { r with recs := if skipTest r.recs k field t thresh then skipRecs recs o.record n else recs })

/-- A record starts on a core, in the core's order (R167). A lost core stops it (R465). A SKIP_IF runs on no core, and a
STACK_POP starts as a whole (STACK_POP). -/
def State.startOperator (s : State) (source tag rec core : Nat) : State :=
  let o : OpRef := ⟨source, tag, rec⟩
  match s.opRec o with
  | none => s
  | some (c, r, x) =>
    match x.op with
    | .pop _ _ _ _ => s
    | .skipIf k f t th n =>
      let ready := s.mayStart c && decide (x.phase = .waiting) && recReady r.recs rec x.dep
        && (match r.recs[k]? with | some y => !y.open | none => true)
      if ready then s.startSkip c o k f t th n else s
    | _ =>
      if !s.turnOf c r rec x core then s
      else if s.lost core then (s.startOps c).stopOps o 0x41
      else if !s.coreUp core || s.askedAway r core then s
      else if !s.mayMove .compute (s.tillMoves core c.no r.graph x) then s.waitAt .compute (s.tillMoves core c.no r.graph x)
      else s.startRec c r o x core

/-! ## Operands of the Loom (R44, R156, R216, R217, Table 6.6) -/

/-- The row and column of the source element of Â[pos, j] of FWD; none where it lies outside the input (R217). -/
def convFwd (g : List Nat) (cin pos j : Nat) : Option (Nat × Nat) :=
  let q := j / cin
  let oy := pos / geoOW g * geo g 3 + q / geo g 2 * geo g 5
  let ox := pos % geoOW g * geo g 4 + q % geo g 2 * geo g 6
  if geo g 7 ≤ oy ∧ oy - geo g 7 < geo g 9 ∧ geo g 8 ≤ ox ∧ ox - geo g 8 < geo g 10 then
    some ((oy - geo g 7) * geo g 10 + (ox - geo g 8), j % cin)
  else none

/-- The row and column of the source element of Â[i, j] of DGRAD. -/
def convGrad (g : List Nat) (cout i j : Nat) : Option (Nat × Nat) :=
  let q := j / cout
  let y := i / geo g 10 + geo g 7
  let x := i % geo g 10 + geo g 8
  let dy := q / geo g 2 * geo g 5
  let dx := q % geo g 2 * geo g 6
  if dy ≤ y ∧ (y - dy) % geo g 3 = 0 ∧ (y - dy) / geo g 3 < geoOH g ∧ dx ≤ x ∧ (x - dx) % geo g 4 = 0
      ∧ (x - dx) / geo g 4 < geoOW g then
    some ((y - dy) / geo g 3 * geoOW g + (x - dx) / geo g 4, j % cout)
  else none

/-- The row and column of element (i, k) of operand A; none for a +0 that no memory holds. -/
def aIndex (p : LoomP) (a : Tensor) (i k : Nat) : Option (Nat × Nat) :=
  let conv (g : List Nat) : Option (Nat × Nat) :=
    match geo g 0 with
    | 0 => convFwd g a.cols i k
    | 1 => convFwd g a.cols k i
    | _ => convGrad g a.cols i k
  match p.kind with
  | .transA => some (k, i)
  | .conv1 g => conv g
  | .conv2 g => conv g
  | _ => some (i, k)

/-- The row and column of element (k, j) of operand B. -/
def bIndex (p : LoomP) (b : Tensor) (k j : Nat) : Nat × Nat :=
  let conv (g : List Nat) : Nat × Nat := if geo g 0 = 2 then (k / b.cols * p.n + j, k % b.cols) else (k, j)
  match p.kind with
  | .transB => (j, k)
  | .conv1 g => conv g
  | .conv2 g => conv g
  | _ => (k, j)

/-- The plane batch item `b` reads or writes. -/
def itemPlane (t : Tensor) (b : Nat) : Nat := if t.planes = 1 then 0 else b

/-- The first poisoned range among elements of a plane. -/
def State.elemsPoison (s : State) (t : Tensor) (p : Nat) (es : List (Nat × Nat)) : Option (Nat × Nat) :=
  if s.clean then none
  else es.findSome? (fun e => if s.elemPoisoned t p e.1 e.2 then some (t.elemRange p e.1 e.2) else none)

/-! ## Chunks -/

/-- What a chunk works on: operator, mode, operands, the batch item, the K indices `k0` to `k0 + n − 1`, the output rows
and columns of the cluster's lanes, and the address part of the logical position. -/
structure ChunkJob where
  p : LoomP
  mode : Mode
  a : Tensor
  b : Tensor
  item : Nat
  k0 : Nat
  n : Nat
  rows : List Nat
  cols : List Nat
  seed : Nat
  devaddr : Nat
  core : Nat
  cluster : Nat
  deriving DecidableEq, Repr

/-- The K indices of a chunk. -/
def ChunkJob.ks (j : ChunkJob) : List Nat := (List.range j.n).map (fun i => j.k0 + i)

/-- The elements of A a chunk reads. -/
def ChunkJob.aElems (j : ChunkJob) : List (Nat × Nat) := j.rows.flatMap (fun i => j.ks.filterMap (aIndex j.p j.a i))
/-- The elements of B a chunk reads. -/
def ChunkJob.bElems (j : ChunkJob) : List (Nat × Nat) := j.cols.flatMap (fun c => j.ks.map (fun k => bIndex j.p j.b k c))

/-- A chunk's lanes in row-major order: each lane's chunk and flags; the work zero skipping removed (R63); the cycles of the
cluster (Table 2.4) and the lane-cycles its faster lanes wait (R63). -/
structure ChunkOut where
  lanes : List (Chunk × FlagWord)
  skipped : Nat
  cycles : Nat
  idle : Nat
  deriving DecidableEq, Repr

/-- Operand A's row `i` in the log number system. -/
def State.aLogs (s : State) (j : ChunkJob) (i : Nat) : List (LVal × FlagWord) :=
  j.ks.map (fun k => match aIndex j.p j.a i k with
    | some e => s.logAt j.a (itemPlane j.a j.item) e.1 e.2
    | none => (.pzero, 0))

/-- Operand B's column `c` in the log number system. -/
def State.bLogs (s : State) (j : ChunkJob) (c : Nat) : List (LVal × FlagWord) :=
  j.ks.map (fun k => let e := bIndex j.p j.b k c; s.logAt j.b (itemPlane j.b j.item) e.1 e.2)

/-- The flags of the operands themselves: NaN operands and invalid BLNS8 blocks (R68). -/
def operandFlags (xs : List (LVal × FlagWord)) : FlagWord := flagsOr (xs.map (fun x => x.2 ||| nanIn x.1))

/-- R48, R71: the lanes of a LOG chunk. `s` holds operand A and `u` operand B. -/
def State.chunkLogJob (s u : State) (j : ChunkJob) : ChunkOut :=
  let as := j.rows.map (s.aLogs j)
  let bs := j.cols.map (u.bLogs j)
  ⟨as.flatMap (fun a => bs.map (fun b =>
    let r := laneLog ((a.map (fun x => x.1)).zip (b.map (fun x => x.1)))
    (r.1, r.2 ||| operandFlags a ||| operandFlags b))), 0, logCycles (max j.a.f.bits j.b.f.bits) j.n, 0⟩

/-- The integer code of a LIN element. -/
def State.linAt (s : State) (t : Tensor) (p r c : Nat) : Int := untwos t.f.bits (s.code t p r c)

/-- R50, R72: the lanes of a SHIFT chunk, and the term slots that absent terms leave (R63). -/
def State.chunkShiftJob (s u : State) (j : ChunkJob) : ChunkOut :=
  let as := j.rows.map (fun i => j.ks.map (fun k => match aIndex j.p j.a i k with
    | some e => s.linAt j.a (itemPlane j.a j.item) e.1 e.2
    | none => 0))
  let codes := j.cols.map (fun c => j.ks.map (fun k =>
    let e := bIndex j.p j.b k c; u.code j.b (itemPlane j.b j.item) e.1 e.2))
  let val (c : Nat) : Int := if j.b.f = .pw8 then pw8Value c else pw4Value c
  let absent := codes.foldl (fun a col => col.foldl (fun a c => a + absentTerms j.b.f c) a) 0
  let present (col : List Nat) : Nat := col.foldl (fun a c => a + presentTerms j.b.f c) 0
  let t := unitTimes (codes.map (fun col => (shiftCycles (decide (j.a.f = .lin16)) j.n (present col), j.rows.length)))
  ⟨as.flatMap (fun a => codes.map (fun b => (laneShift (a.zip (b.map val)), 0))), absent * j.rows.length, t.1, t.2⟩

/-- R55 to R59, R72: the lanes of a STOCH chunk, and the word positions skipped (R63). -/
def State.chunkStochJob (s u : State) (j : ChunkJob) (lg : Nat) : ChunkOut :=
  let len := 2 ^ lg
  let la := scaleLog j.p.scaleA
  let lb := scaleLog j.p.scaleB
  let prep (ls : Int) (xs : List (LVal × FlagWord)) : List StochOp × FlagWord :=
    let ys := xs.map (fun x => stochOp ls x.1)
    (ys.map (fun y => y.1), operandFlags xs ||| flagsOr (ys.map (fun y => y.2)))
  let as := j.rows.map (fun i => prep la (s.aLogs j i))
  let bs := j.cols.map (fun c => prep lb (u.bLogs j c))
  let d := stochDraws j.seed j.devaddr j.core j.cluster (j.p.kbase / 32 + j.k0 / 32) j.n len
  let out := as.flatMap (fun a => bs.map (fun b =>
    let r := laneStoch len (a.1.zip b.1) d.1 d.2
    ((r.1, r.2 ||| a.2 ||| b.2), laneWords len (a.1.zip b.1) d.1 d.2)))
  let t := unitTimes (out.map (fun x => (max 1 x.2, 1)))
  ⟨out.map (fun x => x.1), out.foldl (fun a x => a + (j.n * len / 64 - x.2)) 0, t.1, t.2⟩

/-- The lanes of a chunk: `s` holds operand A and `u` operand B. -/
def State.chunkJob (s u : State) (j : ChunkJob) : ChunkOut :=
  match j.mode with
  | .stoch lg => s.chunkStochJob u j lg
  | .shift4 | .shift8 => s.chunkShiftJob u j
  | _ => s.chunkLogJob u j

/-! ## The feeders (R200, R201) -/

/-- The K indices one panel buffer of 512 KiB holds of an operand's four block rows or block columns.
(DESIGN CHOICE, log entry 110.) -/
def panelK (f : Fmt) : Nat := 32 * (524288 / (4 * f.blockBytes))

/-- The indices of a list that stand for all of it where its elements lie in whole blocks: one in 32 of a plain operand, every
one of a convolution's. -/
def blockReps (p : LoomP) (xs : List Nat) : List Nat :=
  match p.kind with
  | .conv1 _ => xs
  | .conv2 _ => xs
  | _ => xs.filter (fun x => x % 32 = 0)

/-- The blocks that hold elements, each once. -/
def elemBlocks (es : List (Nat × Nat)) : List (Nat × Nat) := (es.map (fun e => (e.1 / 32, e.2 / 32))).eraseDups

/-- The blocks of operand A for tile rows and K indices. -/
def aBlocks (p : LoomP) (a : Tensor) (rows ks : List Nat) : List (Nat × Nat) :=
  elemBlocks ((blockReps p rows).flatMap (fun i => (blockReps p ks).filterMap (aIndex p a i)))

/-- The blocks of operand B for tile columns and K indices. -/
def bBlocks (p : LoomP) (b : Tensor) (cols ks : List Nat) : List (Nat × Nat) :=
  elemBlocks ((blockReps p cols).flatMap (fun c => (blockReps p ks).map (fun k => bIndex p b k c)))

/-- Whole blocks of a plane read, or the first of them that holds poison (R185, R201). -/
def State.readBlocks (s : State) (t : Tensor) (plane : Nat) (bs : List (Nat × Nat)) : Except (Nat × Nat) BlockCopy :=
  let at' (b : Nat × Nat) : Nat := t.blockAddr plane b.1 b.2
  match bs.find? (fun b => s.poisoned (at' b) t.f.blockBytes) with
  | some b => .error (at' b, t.f.blockBytes)
  | none => .ok (bs.map (fun b => (at' b, s.read (at' b) t.f.blockBytes)))

/-- Memory as the blocks of a Turner band show it to the array: what is read of an operand is what the feeder holds. -/
def State.seeing (s : State) (bs : BlockCopy) : State := { s with mem := bs.foldl (fun m b => memWrite m b.1 b.2) [] }

/-- R201: at a tile switch a feeder keeps its panel where the next tile has the same tile row or column and the panel holds
the whole K; the Turner begins anew. -/
def Feeder.switch (f : Feeder) (plane line k : Nat) : Feeder :=
  let keep (q : Panel) : Bool := decide (q.plane = plane) && decide (q.line = line) && decide (q.k0 = 0) && decide (q.kn = k)
  ⟨f.panel.bind (fun q => if keep q then some q else none), []⟩

/-- What a feeder is asked for: the operand's tensor and plane, its tile row or column, the operator's K, the chunk, and the
blocks of a range of K indices. -/
structure FeedReq where
  t : Tensor
  plane : Nat
  line : Nat
  k : Nat
  chunk : Nat
  blocks : List Nat → List (Nat × Nat)

/-- `n` K indices from `k0`. -/
def kRange (k0 n : Nat) : List Nat := (List.range n).map (fun i => k0 + i)

/-- The panel that holds a chunk's K indices: the one in the buffer, or the next band read in its place; `true` where it had to
be read. -/
def State.panelFor (s : State) (f : Feeder) (q : FeedReq) : Except (Nat × Nat) (Panel × Bool) :=
  let cap := panelK q.t.f
  let k0 := 32 * q.chunk / cap * cap
  let kn := min cap (q.k - k0)
  match f.panel with
  | some p => if p.k0 = k0 then .ok (p, false) else read k0 kn
  | none => read k0 kn
where
  /-- The band of `kn` K indices from `k0` read from memory. -/
  read (k0 kn : Nat) : Except (Nat × Nat) (Panel × Bool) :=
    match s.readBlocks q.t q.plane (q.blocks (kRange k0 kn)) with
    | .error g => .error g
    | .ok bs => .ok (⟨q.plane, q.line, k0, kn, bs⟩, true)

/-- A feeder delivers a chunk's band: from the Turner, which then holds it as the newest of at most four, or from the panel.
Answers the feeder, the band, and whether a panel had to be read. -/
def State.feed (s : State) (f : Feeder) (q : FeedReq) : Except (Nat × Nat) (Feeder × BlockCopy × Bool) :=
  match f.turner.find? (fun b => b.1 = q.chunk) with
  | some b => .ok (f, b.2, false)
  | none =>
    match s.panelFor f q with
    | .error g => .error g
    | .ok (p, fresh) =>
      let addrs := (q.blocks (kRange (32 * q.chunk) (min 32 (q.k - 32 * q.chunk)))).map (fun b => q.t.blockAddr q.plane b.1 b.2)
      let band := p.blocks.filter (fun b => addrs.contains b.1)
      .ok (⟨some p, ((q.chunk, band) :: f.turner).take 4⟩, band, fresh)

/-! ## The live tile (R43, R62, R93, R94) -/

/-- The first row and column of a cluster. -/
def clusterAt (cl : Nat) : Nat × Nat := (32 * (cl / 4), 32 * (cl % 4))
/-- R45: a cluster holds lanes of a rows × cols tile. -/
def clusterInside (rows cols cl : Nat) : Bool := decide ((clusterAt cl).1 < rows) && decide ((clusterAt cl).2 < cols)
/-- The rows of a cluster inside a tile. -/
def clusterRows (rows cl : Nat) : List Nat :=
  (List.range (min 32 (rows - (clusterAt cl).1))).map (fun i => (clusterAt cl).1 + i)
/-- The columns of a cluster inside a tile. -/
def clusterCols (cols cl : Nat) : List Nat :=
  (List.range (min 32 (cols - (clusterAt cl).2))).map (fun i => (clusterAt cl).2 + i)

/-- The chunks of an operator. -/
def LoomP.chunks (p : LoomP) : Nat := (p.k + 31) / 32

/-- OPEN slots of a core, but for the SLOT source of the operator that runs. -/
def openSlots (k : Core) (p : LoomP) : Nat :=
  (((List.range 3).zip k.slots).filter (fun x =>
    decide (x.2.state = .opened) && !(decide (p.src = 1) && decide (x.1 = p.srcSlot)))).length

/-- The starting state of a tile (R93): its elements, or the poison its source holds. Elements a smaller parked tile does not
have are fresh.
(DEDUCED, log entry 66.) -/
def State.tileSource (s : State) (k : Core) (p : LoomP) (o : OutTile) : Except (Nat × Nat) (List Tal) :=
  let grid (f : Nat → Nat → Tal) : List Tal :=
    (List.range o.nr).flatMap (fun i => (List.range o.nc).map (fun j => f i j))
  match p.src with
  | 1 =>
    let sl := k.slots.getD p.srcSlot .none
    let arr := sl.tile.toArray
    .ok (grid (fun i j => if i < sl.rows ∧ j < sl.cols then arr.getD (i * sl.cols + j) .fresh else .fresh))
  | 2 =>
    match p.tal.bind s.tensor with
    | some t =>
      match s.regionPoison t (itemPlane t o.plane) o.r0 o.nr o.c0 o.nc with
      | some g => .error g
      | none => .ok (grid (fun i j => s.talAt t (itemPlane t o.plane) (o.r0 + i) (o.c0 + j)))
    | none => .ok (grid (fun _ _ => .fresh))
  | _ => .ok (grid (fun _ _ => .fresh))

/-- The plane of an operand that batch item `b` reads. -/
def State.operandPlane (s : State) (h b : Nat) : Nat :=
  match s.tensor h with
  | some t => if t.inPlanes = 1 then 0 else b
  | none => 0

/-- The blocks of a TAL tensor that a tile is resumed from or exported to. -/
def State.talMoves (s : State) (p : LoomP) (o : OutTile) (write : Bool) : Moves :=
  match p.tal.bind s.tensor with
  | some t => (t.regionRuns (itemPlane t o.plane) o.r0 o.nr o.c0 o.nc).map (fun g => (write, g))
  | none => []

/-- The next tile of the running operator becomes live where a Tally buffer slot is free (Table 2.8), and the feeders switch to
it (R201). -/
def State.openTile (s : State) (core : Nat) (o : OpRef) (p : LoomP) : State :=
  let k := s.core core
  match k.live, k.todo with
  | none, t :: ts =>
    if k.held ≠ [] ∧ 3 ≤ openSlots k p + k.held.length then s
    else
      let out := tileOf p.m p.n t
      match s.tileSource k p out with
      | .error g => s.poisonStop o g
      | .ok bank =>
        let k1 := { k with
          todo := ts, live := some ⟨t, out.nr, out.nc, bank, List.replicate 16 0, [], [], []⟩
          feedA := k.feedA.switch (s.operandPlane p.a out.plane) (out.r0 / 128) p.k
          feedB := k.feedB.switch (s.operandPlane p.b out.plane) (out.c0 / 128) p.k }
        s.moving .compute (if p.src = 2 then s.talMoves p out false else []) (fun s1 =>
          s1.setCore core (if p.src = 0 then k1 else k1.count 0x0215 1))
  | _, _ => s

/-- The Loom operator that runs on a core. -/
def State.loomOn (s : State) (core : Nat) : Option (OpRef × OpsRun × RecRun × LoomP) :=
  match (s.core core).cur with
  | none => none
  | some o =>
    match s.opRec o with
    | some (_, r, x) => match x.op with | .loom p => some (o, r, x, p) | _ => none
    | none => none

/-- R62: chunk `c` is at most two chunks ahead of every cluster. -/
def Live.inStep (l : Live) (c : Nat) : Bool :=
  (List.range 16).all (fun d => !clusterInside l.rows l.cols d || decide (c ≤ l.done.getD d 0 + 2))

/-- R62: a cluster may start its next chunk. -/
def Live.mayStart (l : Live) (chunks cl : Nat) : Bool :=
  let c := l.done.getD cl 0
  clusterInside l.rows l.cols cl && decide (c < chunks) && !l.busy.any (fun b => b.cluster = cl) && l.inStep c

/-- The chunk a cluster starts. The address part of the logical position is the low 20 bits of DEVADDR, whether its valid bit is
set or not.
(DESIGN CHOICE, log entry 28.) -/
def State.jobOf (s : State) (core cl : Nat) (r : OpsRun) (p : LoomP) (a b : Tensor) (l : Live) : ChunkJob :=
  let n := s.runNet r
  let out := tileOf p.m p.n l.tile
  let k0 := 32 * l.done.getD cl 0
  { p := p, mode := n.mode, a := a, b := b, item := out.plane, k0 := k0, n := min 32 (p.k - k0),
    rows := (clusterRows l.rows cl).map (fun i => out.r0 + i), cols := (clusterCols l.cols cl).map (fun j => out.c0 + j),
    seed := n.seed, devaddr := r.devaddr % 2 ^ 20, core := core, cluster := cl }

/-- What the feeders of operands A and B are asked for at a chunk of the live tile. -/
def feedReqs (p : LoomP) (j : ChunkJob) (out : OutTile) (chunk : Nat) : FeedReq × FeedReq :=
  (⟨j.a, itemPlane j.a j.item, out.r0 / 128, p.k, chunk, aBlocks p j.a (kRange out.r0 out.nr)⟩,
   ⟨j.b, itemPlane j.b j.item, out.c0 / 128, p.k, chunk, bBlocks p j.b (kRange out.c0 out.nc)⟩)

/-- What a feeder has read from memory for a chunk. -/
def Feeder.moves (f : Feeder) (fresh : Bool) : Moves :=
  match fresh, f.panel with
  | true, some p => p.blocks.map (fun b => (false, b.1, b.2.length))
  | _, _ => []

/-- A cluster starts a chunk. -/
def Live.begin (l : Live) (ch : InChunk) : Live :=
  { l with busy := l.busy ++ [ch], behind := l.behind.filter (fun d => d ≠ ch.cluster) }

/-- The waits of a cluster at a chunk's start: for the other clusters, where R62 has held it back, and for a panel that has to be
read. How long they are is open.
(DESIGN CHOICE, log entry 12.) -/
def State.feedTimes (s : State) (core : Nat) (ahead fresh : Bool) (lanes : Nat) : State :=
  let a := s.freeNat
  let b := a.2.freeNat
  (b.2.countCore core 0x0202 (if ahead then lanes * a.1 else 0)).countCore core 0x0204 (if fresh then b.1 else 0)

/-- The power cap holds every cluster at its chunk boundary for this part of the stint (R433 action 2).
(DEDUCED, log entry 82.) -/
def State.clustersHeld (s : State) : Bool := s.power.holdClusters && decide (s.now < s.stintStart + s.power.holdUs)

/-- CHUNK_START (R62, R200, R201): a cluster that the power cap does not hold (R433) takes its operands from the feeders and forms its
products. A panel that holds poison where it is read stops the operator (R185); what becomes of memory after that does not reach the
chunk. A panel is read under the COMPUTE budget (R203). -/
def execChunkStart (core cluster : Nat) (s : State) : Host.Outcome State Fault Refusal :=
  match s.loomOn core with
  | none => .next s
  | some (o, r, x, p) =>
    let s1 := if p.k = 0 then s else s.openTile core o p
    let k := s1.core core
    match k.live, s1.view x p.a, s1.view x p.b with
    | some l, some a, some b =>
      if !l.mayStart p.chunks cluster ∨ 15 < cluster ∨ s1.clustersHeld then .next s1
      else
        let j := s1.jobOf core cluster r p a b l
        let q := feedReqs p j (tileOf p.m p.n l.tile) (l.done.getD cluster 0)
        match s1.feed k.feedA q.1, s1.feed k.feedB q.2 with
        | .error g, _ => .next (s1.poisonStop o g)
        | .ok _, .error g => .next (s1.poisonStop o g)
        | .ok fa, .ok fb =>
          let out := (s1.seeing fa.2.1).chunkJob (s1.seeing fb.2.1) j
          let ix := (clusterRows l.rows cluster).flatMap (fun i => (clusterCols l.cols cluster).map (fun c => i * l.cols + c))
          let ch : InChunk := ⟨cluster, j.n, ix.zip (out.lanes.map (fun y => y.1)), flagsOr (out.lanes.map (fun y => y.2)),
            out.cycles, out.idle⟩
          let k1 := { k with feedA := fa.1, feedB := fb.1, live := some (l.begin ch) }
          .next (s1.moving .compute (fa.1.moves fa.2.2 ++ fb.1.moves fb.2.2) (fun s2 =>
            (s2.setCore core (k1.count 0x0206 out.skipped)).feedTimes core (l.behind.contains cluster) (fa.2.2 || fb.2.2)
              ix.length))
    | _, _, _ => .next s1

/-- Chunks promoted into the tally bank (R73 to R77): the bank, the flags and the elements saturated. -/
def promoteAll (tag : Tag) (bank : Array Tal) (lanes : List (Nat × Chunk)) : Array Tal × FlagWord × Nat :=
  lanes.foldl (fun a y =>
    let e := a.1.getD y.1 .fresh
    let t := e.promote tag y.2
    (a.1.setIfInBounds y.1 t.1, a.2.1 ||| t.2, a.2.2 + satSeen t.2)) (bank, 0, 0)

/-- The Loom operator that occupies a core, also one that is to stop: its chunks in progress run to their boundary
(Table 2.8). -/
def State.loomBusy (s : State) (core : Nat) : Option (OpRef × OpsRun × LoomP) :=
  match (s.core core).cur with
  | none => none
  | some o =>
    match s.cmd o.source o.tag with
    | some c =>
      match c.body with
      | .ops r => match (r.recs[o.record]?).map RecRun.op with | some (.loom p) => some (o, r, p) | _ => none
      | _ => none
    | none => none

/-- A chunk leaves its cluster: the bank it was promoted into, the chunks of the tile still in progress, whether R62 now holds the
cluster back, and what the clusters have spent. -/
def Live.finish (l : Live) (chunks : Nat) (bank : List Tal) (ch : InChunk) : Live :=
  let cl := ch.cluster
  let c := l.done.getD cl 0 + 1
  let l1 : Live := { l with
    bank := bank, done := l.done.set cl c, busy := l.busy.filter (fun b => b.cluster ≠ cl),
    spent := (List.range 16).map (fun d => l.spent.getD d 0 + (if d = cl then ch.cycles else 0)) }
  { l1 with behind := if decide (c < chunks) && !l1.inStep c then l1.behind ++ [cl] else l1.behind }

/-- The cycles in which at least one cluster worked, of a time in which the clusters spent these cycles: no less than the busiest
one spent, and no more than all of them did. Cycles that overlap count once, and how many overlap is open.
(DESIGN CHOICE, log entry 12.) -/
def State.activeOf (s : State) (spent : List Nat) : Nat × State :=
  let top := spent.foldl max 0
  let w := s.freeNat
  (top + w.1 % (spent.foldl (· + ·) 0 - top + 1), w.2)

/-- The Loom's counters over a chunk of a tile (R61, R63, R69): its products and the lane-cycles its faster lanes waited; and, as
it leaves no cluster at work, the cycles in which the core was active. Lanes outside the tile count in active cycles (R45). -/
def State.loomTimes (s : State) (core : Nat) (m : Mode) (l : Live) (ch : InChunk) : State :=
  let s1 := (s.countCore core 0x0201 (ch.lanes.length * ch.len)).countCore core 0x0202 ch.idle
  if l.busy = [] then
    let a := s1.activeOf l.spent
    (((a.2.countCore core 0x0200 a.1).countCore core 0x0203 ((16384 - l.rows * l.cols) * a.1)).countCore core 0x0207
      (if m.isStoch then a.1 else 0)).mapCore core (fun k => { k with live := k.live.map (fun y => { y with spent := [] }) })
  else s1

/-- CHUNK_COMPLETE (R71 to R77): a cluster's chunk is promoted. -/
def execChunkComplete (core cluster : Nat) (s : State) : Host.Outcome State Fault Refusal :=
  match s.loomBusy core with
  | none => .next s
  | some (o, r, p) =>
    let k := s.core core
    match k.live with
    | none => .next s
    | some l =>
      match l.busy.find? (fun b => b.cluster = cluster) with
      | none => .next s
      | some ch =>
        let n := s.runNet r
        let q := promoteAll (workTag n.mode r.adopt) l.bank.toArray ch.lanes
        let l1 := l.finish p.chunks q.1.toList ch
        let k1 := ({ k with live := some l1 }.count 0x0210 ch.lanes.length).count 0x0211 q.2.2
        .next (((s.setCore core k1).loomTimes core n.mode l1 ch).recFlags o (ch.flags ||| q.2.1))

/-! ## The end of an operator on a core -/

/-- Nothing of the running operator is left on a core. -/
def Core.idle (k : Core) : Bool :=
  k.todo.isEmpty && k.live.isNone && k.held.isEmpty && k.finish.isEmpty && k.pass.isNone

/-- The close of a tile's elements in columns (R84 to R87): L*, the pair where it is one, and the flags. -/
def closeElem (pair : Bool) (t : Tal) (c : CloseCol) : ClosedElem × FlagWord :=
  let v := t.close c
  if pair then
    if c.bad then (⟨v.1, some ((lnsEncode shape16 .nan), zeroCode .lns16)⟩, v.2)
    else let q := t.closePair c; (⟨v.1, some (q.1, q.2.1)⟩, q.2.2)
  else (⟨v.1, none⟩, v.2)

/-- The close columns of a Loom operator's tile (Table 2.3).
(DEDUCED, log entry 100.) -/
def State.closeCols (s : State) (m : Mode) (x : RecRun) (sa sb : Nat) (col : Option Nat) (c0 nc : Nat) : List CloseCol :=
  (List.range nc).map (fun j =>
    match col.bind (s.view x) with
    | some v => let e := v.vecIx (c0 + j); closeCol m sa sb (s.logAt v 0 e.1 e.2).1
    | none => closeCol m sa sb .pzero)

/-- R100: an element of an operator under ADOPT.
(DEDUCED, log entry 67.) -/
def adoptElem (adopt : Bool) (t : Tal) : Tal := if adopt && t.terms then { t with tag := .mixed } else t

/-- A TAL tile written into a tensor. -/
def State.writeTal (s : State) (t : Tensor) (p r0 nr c0 nc : Nat) (tile : Array Tal) : State :=
  s.putRegion t p r0 nr c0 nc (fun r c => some (tile.getD ((r - r0) * nc + (c - c0)) .fresh).settle.encode)

/-- Every cluster of a live tile has completed its last chunk. -/
def Live.complete (l : Live) (chunks : Nat) : Bool :=
  l.busy.isEmpty && (List.range 16).all (fun d => !clusterInside l.rows l.cols d || decide (chunks ≤ l.done.getD d 0))

/-- A tile leaves the live slot by its close kind. -/
def State.closeTile (s : State) (core : Nat) (o : OpRef) (r : OpsRun) (x : RecRun) (p : LoomP) (l : Live) : State :=
  let n := s.runNet r
  let k := s.core core
  let out := tileOf p.m p.n l.tile
  let k1 := { k with live := none }
  let tile := l.bank.map (adoptElem r.adopt)
  let s1 :=
    match p.exports, p.tal.bind s.tensor with
    | true, some t => (s.writeTal t (itemPlane t out.plane) out.r0 out.nr out.c0 out.nc tile.toArray).setCore core (k1.count 0x0214 1)
    | _, _ => s.setCore core k1
  let k2 := s1.core core
  if p.close = 3 then s1.setCore core { k2 with parking := some ⟨p.closeSlot, l.rows, l.cols, tile⟩ }
  else if p.writesC then
    let sa := if n.mode.isShift then (match s.tensor p.a with | some t => t.scale | none => 0) else p.scaleA
    let cols := (s.closeCols n.mode x sa p.scaleB p.colScale out.c0 out.nc).toArray
    let es := ((List.range l.bank.length).zip l.bank).map (fun y =>
      closeElem (decide (p.close = 1)) y.2 (cols.getD (y.1 % l.cols) .plain))
    let k3 := (k2.count 0x0212 (l.bank.filter Tal.cancels).length).count 0x0213 (l.bank.filter Tal.closesEmpty).length
    let fl := flagsOr (es.map (fun e => e.2))
    (s1.setCore core { k3 with held := k3.held ++ [⟨o, l.tile, l.rows, l.cols, es.map (fun e => e.1), fl, false⟩] }).recFlags o fl
  else s1

/-- The poison the column-scale vector holds where a close reads it. -/
def State.colPoison (s : State) (x : RecRun) (p : LoomP) : Option (Nat × Nat) :=
  if p.writesC then
    match p.colScale.bind (s.view x) with
    | some v => s.regionPoison v 0 0 v.rows 0 v.cols
    | none => none
  else none

/-- The Loom waits for room in the Tally buffer, behind tiles that wait for the Finish queue. -/
def State.finishStalled (s : State) (core : Nat) : Bool :=
  let k := s.core core
  match s.loomOn core with
  | some (_, _, _, p) => k.live.isNone && !k.todo.isEmpty && decide (3 ≤ openSlots k p + k.held.length)
  | none => false

/-- FINISH_ENQUEUE (R130): a closed tile enters the Finish queue once it has room. Where the Loom waited for it, the wait is a
Finish stall of open length (Table 2.8).
(DESIGN CHOICE, log entry 12.) -/
def execFinishEnqueue (core : Nat) (s : State) : Host.Outcome State Fault Refusal :=
  let k := s.core core
  let size (e : FinishEntry) : Nat := if e.body.any (fun y => y.pair.isSome) then 65536 else 49152
  match k.held with
  | [] => .next s
  | e :: es =>
    if k.finish.length < 4 ∧ (k.finish.map size).foldl (· + ·) 0 + size e ≤ 196608 then
      let f := s.freeNat
      .next ((f.2.countCore core 0x0205 (if s.finishStalled core then f.1 else 0)).mapCore core (fun k =>
        { k with held := es, finish := k.finish ++ [{ e with awaited := k.pass.isNone && k.finish.isEmpty }] }))
    else .next s

end Sys2Proof.Machine
end

