-- ==== Sys2Proof/Machine/Passes.lean ====
section
/-!
DEFINITION. The Eight at work: the output stage and its Assay (R105, R117, R118, R132 to R134), the passes of the Finish path and
of CHAIN, TAL_COMBINE, TAL_CLOSE, SCATTER_ADD_TAL and the row operators (R128, R129, R135 to R140, R159, R236), and the close of
tiles and reductions.
-/
namespace Sys2Proof.Machine

/-! ## The Assay (R132, R133) -/

/-- A 32-bit count that stays at all ones. -/
def assaySat (n : Nat) : Nat := min 0xFFFFFFFF n

/-- Two lists of bins added. -/
def binsAdd (a b : List (Nat × Nat)) : List (Nat × Nat) :=
  b.foldl (fun a x => assocPut a x.1 (assaySat (assocGet 0 a x.1 + x.2))) a

/-- Counts brought to a record. -/
def Assay.merge (a b : Assay) : Assay :=
  let r : Assay :=
    { bins := binsAdd a.bins b.bins, zeros := assaySat (a.zeros + b.zeros), infs := assaySat (a.infs + b.infs),
      nans := assaySat (a.nans + b.nans), flushed := assaySat (a.flushed + b.flushed), total := (a.total + b.total) % 2 ^ 64,
      low := a.low || b.low, high := a.high || b.high, saturated := a.saturated || b.saturated }
  let full (n : Nat) : Bool := decide (n = 0xFFFFFFFF)
  { r with saturated := r.saturated || full r.zeros || full r.infs || full r.nans || full r.flushed
      || r.bins.any (fun x => full x.2) }

/-- R132: one element as it was written; `sc` is the scale byte of its BLNS8 row. -/
def assayOf (f : Fmt) (ls : Int) (sc : Nat) (e : Enc) : Assay :=
  let one := { Assay.empty with total := 1 }
  if e.flushed then { one with flushed := 1 }
  else
    match (elemToLog f ls sc e.code).1 with
    | .nan => { one with nans := 1 }
    | .inf _ => { one with infs := 1 }
    | .zero _ => { one with zeros := 1 }
    | .fin _ _ =>
      match elemExp f ls sc e.code with
      | none => { one with zeros := 1 }
      | some x =>
        if x < -64 then { one with bins := [(0, 1)], low := true }
        else if 63 < x then { one with bins := [(127, 1)], high := true }
        else { one with bins := [((x + 64).toNat, 1)] }

/-- The counts of many elements. -/
def assayAll (f : Fmt) (ls : Int) (es : List (Nat × Enc)) : Assay :=
  es.foldl (fun a e => a.merge (assayOf f ls e.1 e.2)) Assay.empty

/-- The counts an operator brings to a tensor, kept until its commit point (R134).
(DEDUCED, log entry 98.) -/
def State.recAssay (s : State) (o : OpRef) (h : Nat) (a : Assay) : State :=
  if a.total = 0 then s
  else s.mapRec o (fun x => { x with assays := assocPut x.assays h ((assocGet Assay.empty x.assays h).merge a) })

/-! ## The output stage (R105, R117, R118) -/

/-- What a write of the output stage gives. -/
structure OutRes where
  s : State
  flags : FlagWord
  assay : Assay
  deriving DecidableEq, Repr

/-- An element as it is written, its flags left out where it is to raise none. -/
def Enc.hush (quiet : Bool) (e : Enc) : Enc := if quiet then { e with flags := 0 } else e

/-- A region written in a format other than BLNS8; none leaves an element as it is. -/
def State.emitPlain (s : State) (t : Tensor) (p r0 nr c0 nc : Nat) (v : Nat → Nat → Option XVal)
    (quiet : Nat → Nat → Bool) : OutRes :=
  let ls := scaleLog t.scale
  let es := (List.range nr).flatMap (fun i => (List.range nc).map (fun j =>
    (v i j).map (fun x => (encodeElem t.f ls x).hush (quiet i j))))
  let arr := es.toArray
  let ws := es.filterMap id
  ⟨s.putRegion t p r0 nr c0 nc (fun r c => (arr.getD ((r - r0) * nc + (c - c0)) none).map Enc.code),
   flagsOr (ws.map Enc.flags), assayAll t.f ls (ws.map (fun e => (0, e)))⟩

/-- R118: one BLNS8 block of a row as it is to be written: none where no element is active; otherwise the elements with
the scale, and the flags. -/
def State.emitBlock8 (s : State) (t : Tensor) (p r c0 : Nat) (v : Nat → Option XVal) (quiet : Nat → Bool) :
    Option (List Enc × Nat × FlagWord) :=
  let cs := (List.range 32).map (fun k => c0 + k)
  if cs.all (fun c => (v c).isNone) then none
  else
    let vals := cs.map (fun c =>
      match v c with
      | some x => (x, (0 : FlagWord))
      | none =>
        if t.cols ≤ c then (.log .pzero, 0)
        else let d := blnsDecode (s.blockScale t p r c) (s.code t p r c); (.log d.1, d.2))
    let e := blnsEncode (vals.map (fun x => x.1))
    let es := (cs.zip e.1).map (fun x => x.2.hush (quiet x.1))
    some (es, e.2.1, flagsOr (es.map Enc.flags) ||| flagsOr (vals.map (fun x => x.2)))

/-- A region of a BLNS8 tensor written in whole blocks. -/
def State.emitRows8 (s : State) (t : Tensor) (p r0 nr c0 nc : Nat) (v : Nat → Nat → Option XVal)
    (quiet : Nat → Nat → Bool) : OutRes :=
  let nb := (nc + 31) / 32
  let blocks := (List.range nr).flatMap (fun i => (List.range nb).map (fun b =>
    s.emitBlock8 t p (r0 + i) (c0 + 32 * b) (fun c => if c < c0 + nc then v i (c - c0) else none)
      (fun c => quiet i (c - c0))))
  let arr := blocks.toArray
  let rows (r bj : Nat) : Option (List Nat × Nat) :=
    (arr.getD ((r - r0) * nb + (bj - c0 / 32)) none).map (fun e => (e.1.map Enc.code, e.2.1))
  let counted := ((List.range blocks.length).zip blocks).flatMap (fun x =>
    match x.2 with
    | none => []
    | some e => (((List.range 32).zip e.1).filter (fun y => decide (c0 + 32 * (x.1 % nb) + y.1 < t.cols))).map
        (fun y => (e.2.1, y.2)))
  ⟨s.putRows8 t p r0 nr c0 nc rows, flagsOr (blocks.filterMap (fun e => e.map (fun x => x.2.2))), assayAll .blns8 0 counted⟩

/-- The output stage: a region of values written in a tensor's format (R105); `quiet` elements raise no flag as they are
written. -/
def State.emitOut (s : State) (t : Tensor) (p r0 nr c0 nc : Nat) (v : Nat → Nat → Option XVal)
    (quiet : Nat → Nat → Bool := fun _ _ => false) : OutRes :=
  if t.f = .blns8 then s.emitRows8 t p r0 nr c0 nc v quiet else s.emitPlain t p r0 nr c0 nc v quiet

/-- R87, R132: compensated pairs written, head and tail; a pair counts once, by its head. -/
def State.emitPairs (s : State) (t : Tensor) (p r0 nr c0 nc : Nat) (v : Nat → Nat → Enc × Nat) : OutRes :=
  let es := (List.range nr).flatMap (fun i => (List.range nc).map (fun j => (v i j).1))
  ⟨s.putRegion t p r0 nr (2 * c0) (2 * nc) (fun r c =>
      let e := v (r - r0) ((c - 2 * c0) / 2)
      some (if c % 2 = 0 then e.1.code else e.2)),
   0, assayAll .lns16 0 (es.map (fun e => (0, e)))⟩

/-! ## Bit streams written (R117) -/

/-- Bits of one row written; none leaves a bit as it is. -/
def State.putBits (s : State) (t : Tensor) (pitch r n : Nat) (bit : Nat → Option Bool) : State :=
  let a := t.base + r * pitch
  let nb := (n + 7) / 8
  let old := s.read a nb
  let get (i k : Nat) : Option Bool := if 8 * i + k < n then bit (8 * i + k) else none
  let bytes := ((List.range nb).zip old).map (fun x =>
    (List.range 8).foldl (fun (y : Byte) k =>
      match get x.1 k with
      | some true => y ||| BitVec.ofNat 8 (2 ^ k)
      | some false => y &&& ~~~(BitVec.ofNat 8 (2 ^ k))
      | none => y) x.2)
  s.writeCover a bytes ((List.range nb).map (fun i => (List.range 8).all (fun k => (get i k).isSome)))

/-- The poison in the mask rows of a pass. -/
def State.maskPoison (s : State) (mask : Option Tensor) (pitch r0 nr n : Nat) : Option (Nat × Nat) :=
  match mask with
  | none => none
  | some t =>
    (List.range nr).findSome? (fun i =>
      let a := t.base + (r0 + i) * pitch
      if s.poisoned a ((n + 7) / 8) then some (a, (n + 7) / 8) else none)

/-- A 32-bit word of a RAW tensor. -/
def State.wordAt (s : State) (t : Tensor) (i : Nat) : Nat := leNat (s.read (t.base + 4 * i) 4)

/-- The poison in words of a RAW tensor. -/
def State.wordsPoison (s : State) (t : Tensor) (i n : Nat) : Option (Nat × Nat) :=
  if s.poisoned (t.base + 4 * i) (4 * n) then some (t.base + 4 * i, 4 * n) else none

/-! ## Reductions (R123 to R127) -/

/-- Which result an element goes into, and its index of R126: of a whole-pass reduction r × VLEN + e. In a Loom operator's Finish
passes VLEN is N and r the row of the item, so that every item of a BATCH has the same indices.
(DEDUCED, log entry 63.) -/
def redPlace (axis vlen r e : Nat) : Nat × Nat :=
  match axis with
  | 1 => (r, e)
  | 2 => (e, r)
  | _ => (0, r * vlen + e)

/-- One element taken into a record's reductions. -/
def redTake (op : RedOp) (tag : Tag) (axis vlen : Nat) (reds : List (Nat × RedAcc)) (r e : Nat) (v : LVal) :
    List (Nat × RedAcc) :=
  let p := redPlace axis vlen r e
  assocPut reds p.1 ((assocGet RedAcc.start reds p.1).add op tag v p.2)

/-- The value a reduction writes in a format: R105, or R84 with a close offset of 0 for a sum. -/
def redValue (y : RedOut) : XVal × FlagWord :=
  match y with
  | .value v => (.log v, 0)
  | .tally t => let c := t.close .plain; (.log c.1, c.2)
  | .index _ => (.log .nan, 0)

/-- What the Tally counters see of a core's work (R101). -/
def State.countSeen (s : State) (core : Nat) (n : TalSeen) : State :=
  ((s.countCore core 0x0211 n.sats).countCore core 0x0212 n.cancels).countCore core 0x0213 n.empties

/-- `n` results of a reduction written into a tensor, with every flag that raises: those of the reduction unit, of the close and
of the output format (R127). A result over no active element raises EMPTY and nothing else, also where it is written in a format that
has no code for its identity (R42, R125). -/
def State.redsOut (s : State) (t : Tensor) (reds : List (Nat × RedAcc)) (adopt : Bool) (op : RedOp) (axis fmt n : Nat) : OutRes :=
  let accs := (List.range n).map (assocGet RedAcc.start reds)
  let res := accs.map (fun a => a.result op)
  let empty := (accs.map (fun a => decide (a.count = 0))).toArray
  let fl := flagsOr (res.map (fun y => y.2))
  let arr := res.toArray
  let at_ (i j : Nat) : RedOut := (arr.getD (if axis = 1 then i else j) (.index 0, 0)).1
  let nr := if axis = 1 then n else 1
  let nc := if axis = 1 then 1 else n
  match op with
  | .argmax | .argmin | .count =>
    let words := res.flatMap (fun y => match y.1 with | .index k => leBytes 4 k | _ => leBytes 4 0)
    ⟨s.write t.base words, fl, Assay.empty⟩
  | _ =>
    if fmt = 0x10 then
      let tals := res.map (fun y => match y.1 with | .tally z => adoptElem adopt z | _ => .fresh)
      ⟨s.writeTal t 0 0 nr 0 nc tals.toArray, fl, Assay.empty⟩
    else
      let w := s.emitOut t 0 0 nr 0 nc (fun i j => some (redValue (at_ i j)).1)
        (fun i j => empty.getD (if axis = 1 then i else j) false)
      { w with flags := fl ||| w.flags ||| flagsOr (res.map (fun y => (redValue y.1).2)) }

/-- The close of a record's reductions: `n` results written into the output tensor. -/
def State.writeReds (s : State) (o : OpRef) (x : RecRun) (adopt : Bool) (op : RedOp) (axis fmt n : Nat) (h : Nat)
    (counts : Bool) : State :=
  match s.tensor h with
  | none => s
  | some t =>
    let w := s.redsOut t x.reds adopt op axis fmt n
    let s1 := w.s.recFlags o w.flags
    if counts then s1.recAssay o h w.assay else s1

/-- The results of a reduction over rows × cols. -/
def redCount (axis rows cols : Nat) : Nat := match axis with | 1 => rows | 2 => cols | _ => 1

/-- What the Tally counters see of the close of `n` results of a record. -/
def redsSeen (x : RecRun) (op : RedOp) (fmt n : Nat) : TalSeen :=
  ((List.range n).map (fun i => (assocGet RedAcc.start x.reds i).seen op (decide (fmt = 0x10)))).foldl TalSeen.plus .zero

/-- The reductions of a record close when every core has finished it; the core that is the last to finish counts them.
(DEDUCED, log entry 100.) -/
def State.closeReds (s : State) (core : Nat) (o : OpRef) (r : OpsRun) (x : RecRun) : State :=
  let close (c : Chain) (red : Option Nat) (fmt rows cols : Nat) (counts : Bool) : State :=
    match RedOp.ofCode c.redOp, red with
    | some op, some h =>
      let n := redCount c.redAxis rows cols
      (s.writeReds o x r.adopt op c.redAxis fmt n h counts).countSeen core (redsSeen x op fmt n)
    | _, _ => s
  match x.op with
  | .loom p => if p.writesC then close p.chain p.red p.redFmt p.m p.n false else s
  | .chain p => close p.chain p.red p.redFmt p.nrows p.vlen true
  | _ => s

/-! ## The end of an operator on a core -/

/-- A core that has nothing left of its operator has finished it; with the last core, the reductions close.
(DEDUCED, log entry 100.) -/
def State.settleCore (s : State) (core : Nat) (o : OpRef) : State :=
  let k := s.core core
  match s.opRec o with
  | none => s
  | some (_, r, _) =>
    if k.cur = some o ∧ k.idle then
      let s1 := (s.setCore core { k with cur := none }).mapRec o (fun x => { x with finished := x.finished ++ [core] })
      match s1.opRec o with
      | some (_, _, x) => if x.op.cores.all (fun c => x.finished.contains c) then s1.closeReds core o r x else s1
      | none => s1
    else s

/-- TILE_CLOSE (R83 to R87, R129): a tile whose clusters have completed their last chunk is closed. A tile with no chunk
opens here. -/
def execTileClose (core : Nat) (s : State) : Host.Outcome State Fault Refusal :=
  match s.loomOn core with
  | none => .next s
  | some (o, r, x, p) =>
    let s1 := if p.k = 0 then s.openTile core o p else s
    match (s1.core core).live with
    | none => .next s1
    | some l =>
      if !l.complete p.chunks then .next s1
      else
        match s1.colPoison x p with
        | some g => .next (s1.poisonStop o g)
        | none =>
          let ms := if p.exports then s1.talMoves p (tileOf p.m p.n l.tile) true else []
          .next (s1.moving .compute ms (fun s2 => (s2.closeTile core o r x p l).settleCore core o))

/-! ## PASS_START (R102) -/

/-- R229: a SAVE record's entry has been pushed on a core's group. -/
def State.pushed (s : State) (x : RecRun) (core : Nat) : Bool :=
  decide (x.stack ≠ 1) || (s.stack (core / 9)).entries.any (fun e => decide (e.stamp = x.stamp) && decide (e.state = .pushing))

/-- NROWS and VLEN of unit `t` of a standalone operator: the rows and columns it runs over; TAL_COMBINE runs over one row of COUNT
elements.
(DEDUCED, log entry 100.) -/
def State.passSize (s : State) (p : OpP) (t : Nat) : Nat × Nat :=
  match p with
  | .chain q => (q.nrows, q.vlen)
  | .rows _ => let b := s.outTile p t; (b.nr, b.nc)
  | .combine n _ _ _ => (1, n)
  | .close r c _ _ _ _ _ _ _ _ => (r, c)
  | .scatter r _ _ out _ => (r, match s.tensor out with | some o => min 128 (o.cols - 128 * t) | none => 0)
  | _ => (0, 0)

/-- PASS_START: the Eight takes the next Finish entry, or the next unit of a standalone operator, and latches the
registers. -/
def execPassStart (core : Nat) (s : State) : Host.Outcome State Fault Refusal :=
  let k := s.core core
  match k.pass, k.finish with
  | some _, _ => .next s
  | none, e :: es =>
    match s.opRec e.op with
    | none => .next s
    | some (_, _, x) =>
      if !s.pushed x core then .next s
      else
        let k1 := { k with finish := es, nrows := e.rows, vlen := e.cols,
                           pass := some ⟨e.op, some e, e.tile, e.rows, e.cols, readRegs k.regs x.op.scalars.length⟩ }
        .next (s.setCore core (k1.count 0x0224 1))
  | none, [] =>
    match k.cur, k.todo with
    | some o, t :: ts =>
      match s.opRec o with
      | none => .next s
      | some (_, _, x) =>
        match x.op with
        | .loom _ => .next s
        | _ =>
          if !s.pushed x core then .next s
          else
            let z := s.passSize x.op t
            .next (s.setCore core { k with todo := ts, nrows := z.1, vlen := z.2,
                                           pass := some ⟨o, none, t, z.1, z.2, readRegs k.regs x.op.scalars.length⟩ })
    | _, _ => .next s

/-! ## What a pass computes -/

/-- What the elements of a chain's pass gave: the outputs of active elements in row-major order, the reductions, the summary's
accumulators, the flags, what the close unit saw of a TAL stream, and how many were active. -/
structure ChainRes where
  outs : List (Option (XVal × Bool))
  reds : List (Nat × RedAcc)
  top : RedAcc
  all : RedAcc
  flags : FlagWord
  seen : TalSeen
  active : Nat
  deriving DecidableEq, Repr

/-- One element of a chain's pass: `direct` is the value that is written without passing a seat (R129). -/
def chainOne (ch : Chain) (tag : Tag) (vlen r e : Nat) (direct : Option LVal) (x : ElemIn) (a : ChainRes) : ChainRes :=
  let y := chainElem ch x
  let fl := match direct with
    | some _ => if ch.redSrc = 0 then 0 else (chainSrc x [] ch.redSrc).2
    | none => y.flags
  let out : XVal := .log (match direct with | some v => v | none => y.out.value)
  let reds := match RedOp.ofCode ch.redOp with
    | some op => redTake op tag ch.redAxis vlen a.reds r e y.red
    | none => a.reds
  { outs := (some (out, y.pred)) :: a.outs, reds := reds,
    top := if ch.summary.isSome then a.top.add .max tag y.red 0 else a.top,
    all := if ch.summary.isSome then a.all.add .sum tag y.red 0 else a.all,
    flags := a.flags ||| fl, seen := a.seen, active := a.active + 1 }

/-- The reductions as a pass begins: what it raises and counts is its own (R128). -/
def redsQuiet (reds : List (Nat × RedAcc)) : List (Nat × RedAcc) := reds.map (fun y => (y.1, y.2.quiet))

/-- What the reduction unit raised in a pass that began with `redsQuiet`. -/
def redsFlags (reds : List (Nat × RedAcc)) : FlagWord := flagsOr (reds.map (fun y => y.2.flags))

/-- The saturations of a pass that began with `redsQuiet`. -/
def redsSats (reds : List (Nat × RedAcc)) : Nat := reds.foldl (fun a y => a + y.2.sats) 0

/-- The reductions after a pass, with what earlier passes raised. -/
def redsJoin (before after : List (Nat × RedAcc)) : List (Nat × RedAcc) :=
  after.map (fun y => (y.1, { y.2 with flags := y.2.flags ||| (assocGet RedAcc.start before y.1).flags }))

/-- The elements of a chain's pass in order; an inactive element gives nothing. `reds` are the reductions as the pass begins. -/
def chainPass (ch : Chain) (tag : Tag) (vlen nr nc r0 c0 : Nat) (active : Nat → Nat → Bool)
    (inp : Nat → Nat → Option LVal × ElemIn) (reds : List (Nat × RedAcc)) : ChainRes :=
  let start : ChainRes := ⟨[], redsQuiet reds, RedAcc.start, RedAcc.start, 0, .zero, 0⟩
  let r := (List.range nr).foldl (fun a i => (List.range nc).foldl (fun a j =>
    if active i j then let x := inp i j; chainOne ch tag vlen (r0 + i) (c0 + j) x.1 x.2 a
    else { a with outs := none :: a.outs }) a) start
  { r with outs := r.outs.reverse }

/-- What a pass's summary raises (R41, R42, R125): NAN_IN of its MAX and COUNT, the flags of its SUM and of the SUM's close, and
EMPTY where no element was active. None where the chain asks for no summary.
(DEDUCED, log entry 65.) -/
def ChainRes.summaryFlags (c : ChainRes) (ch : Chain) : FlagWord :=
  match ch.summary with
  | none => 0
  | some _ =>
    if c.active = 0 then flagEmpty
    else (c.top.result .max).2 ||| c.all.flags ||| (c.all.tal.closeSeat .plain).2

/-- What the Tally counters see of a pass's summary. -/
def ChainRes.summarySeen (c : ChainRes) (ch : Chain) : TalSeen :=
  match ch.summary with
  | none => .zero
  | some _ => (⟨c.all.sats, 0, 0⟩ : TalSeen).plus c.all.tal.closeSeen

/-- The flags of a pass beside those of its output: its seats, its reductions and its summary. -/
def ChainRes.ownFlags (c : ChainRes) (ch : Chain) : FlagWord := c.flags ||| redsFlags c.reds ||| c.summaryFlags ch

/-- The summary of a pass (R128, Table 4.7); `flags` is the pass's own flag word.
(DEDUCED, log entry 65.) -/
def ChainRes.summary (c : ChainRes) (flags : FlagWord) : Summary :=
  let top := match (c.top.result .max).1 with | .value v => v | _ => .nan
  let all := if c.active = 0 then LVal.pzero else (c.all.tal.closeSeat .plain).1
  ⟨(lnsEncode shape24 top).code, (lnsEncode shape24 all).code, c.active, flags⟩

/-- Registers s(d) to s(d + 3) of a summary. -/
def summaryRegs (regs : List (BitVec 64)) (d : Nat) (m : Summary) : List (BitVec 64) :=
  (((regs.set d (BitVec.ofNat 64 m.maxCode)).set (d + 1) (BitVec.ofNat 64 m.sumCode)).set (d + 2) (BitVec.ofNat 64 m.count)).set
    (d + 3) (BitVec.ofNat 64 m.flags.toNat)

/-- The passes over the rows of a unit of work, as R142 counts them: the element groups processed, and the elements that were
active and those a mask made inactive, over all of its passes. -/
structure EightWork where
  groups : Nat
  active : Nat
  masked : Nat
  deriving DecidableEq, Repr

/-- `passes` passes over `rows` rows of `cols` elements, `active` of which are active. -/
def EightWork.of (passes rows cols active : Nat) : EightWork :=
  ⟨passes * rows * ((cols + 127) / 128), passes * active, passes * (rows * cols - active)⟩

/-- The Eight's counters over passes (R121, R142): one cycle for each element group, and those that G > 1 adds, whose number is
open.
(DESIGN CHOICE, log entry 12.) -/
def State.eightTimes (s : State) (core : Nat) (w : EightWork) : State :=
  let a := s.freeNat
  (((a.2.countCore core 0x0220 (w.groups + a.1)).countCore core 0x0223 a.1).countCore core 0x0221 w.active).countCore core 0x0222
    w.masked

/-- The Till entries a core's chain reads. -/
def Core.tillEntries (k : Core) (named : List (Option Nat)) : List (List LVal) :=
  ((List.range 4).zip named).map (fun x =>
    match x.2, k.till.getD x.1 none with
    | some _, some v => v.entries
    | _, _ => [])

/-- R128: the summary registers are written where the chain asks for them.
(DEDUCED, log entry 65.) -/
def State.putSummary (s : State) (core : Nat) (o : OpRef) (ch : Chain) (m : Summary) : State :=
  match ch.summary with
  | none => s
  | some d =>
    let k := s.core core
    (s.setCore core ({ k with regs := summaryRegs k.regs d m }.count 0x0226 1)).mapRec o (fun x => { x with summary := some m })

/-! ## The stack entry of a pass (R220) -/

/-- The pieces of `n` bytes of a place, from byte `off` of it. -/
def placePart : List (Nat × Nat) → Nat → Nat → List (Nat × Nat)
  | [], _, _ => []
  | p :: ps, off, n =>
    let k := min (p.2 - off) n
    (if k = 0 then [] else [(p.1 + off, k)]) ++ placePart ps (off - p.2) (n - k)

/-- The bytes at pieces of memory, one after another. -/
def State.readPieces (s : State) (ps : List (Nat × Nat)) : List Byte := ps.flatMap (fun p => s.read p.1 p.2)

/-- Bytes written to pieces of memory, one after another. -/
def State.writePieces : List (Nat × Nat) → List Byte → State → State
  | [], _, s => s
  | p :: ps, bs, s => State.writePieces ps (bs.drop p.2) (s.write p.1 (bs.take p.2))

/-- The offset of a tile in an entry. -/
def tileOffset (f : Fmt) (ts : List OutTile) (tile : Nat) : Nat := tilesBytes f (ts.takeWhile (fun o => o.tile ≠ tile))

/-- The bytes of the blocks of a tile of a tensor. -/
def State.tileBlocks (s : State) (t : Tensor) (o : OutTile) : List Byte :=
  (blocksOf o.r0 o.nr o.c0 o.nc).flatMap (fun b => s.read (t.blockAddr o.plane b.1 b.2) t.f.blockBytes)

/-- Where a SAVE record's output tile goes: its tensor, and the pieces of the group's entry. -/
def State.savePlaces (s : State) (x : RecRun) (core : Nat) (o : OutTile) : Option (Tensor × List (Nat × Nat)) :=
  if x.stack ≠ 1 then none
  else
    match x.op.valueOut.bind s.tensor, (s.stack (core / 9)).entries.find? (fun e =>
        decide (e.stamp = x.stamp) && decide (e.state = .pushing)) with
    | some t, some e =>
      some (t, placePart e.place (tileOffset t.f e.tiles o.tile) ((blocksOf o.r0 o.nr o.c0 o.nc).length * t.f.blockBytes))
    | _, _ => none

/-- R220: a SAVE record's output tile goes into the group's entry as it is written, charged to STACK.
(DEDUCED, log entry 68.) -/
def State.saveTile (s : State) (x : RecRun) (core : Nat) (o : OutTile) : State :=
  match s.savePlaces x core o with
  | none => s
  | some (t, ps) => (State.writePieces ps (s.tileBlocks t o) s).charge .stack (ps.map (fun p => (true, p.1, p.2)))

/-! ## Passes of a Finish chain and of CHAIN -/

/-- A pass ends: the Eight is free. -/
def State.dropPass (s : State) (core : Nat) : State :=
  let k := s.core core
  s.setCore core { k with pass := none }

/-- R84, R119: what the close unit raises where it rounds a tile's elements to the LNS24 of stream 0, or of the value it gives the
reduction unit: with a chain, a reduction or a summary, whether or not anything reads it. -/
def seatFlags (ch : Chain) (body : List ClosedElem) : FlagWord :=
  if ch.seats.isEmpty && decide (ch.redOp = 0) && ch.summary.isNone then 0 else flagsOr (body.map (fun e => (seat e.v).2))

/-- The Finish pass of a tile (R128, R129): its own flag word is that of its seats, its output, the reduction unit, and the close
unit for this tile. Where the Eight has waited for the entry of a Finish chain, how long is open (R142).
(DESIGN CHOICE, log entry 12; DEDUCED, log entry 63.) -/
def State.finishPass (s : State) (core : Nat) (o : OpRef) (r : OpsRun) (x : RecRun) (p : LoomP) (a : Pass)
    (e : FinishEntry) : State :=
  match p.c.bind s.tensor with
  | none => s
  | some t =>
    let out := tileOf p.m p.n e.tile
    let arr := e.body.toArray
    let el (i j : Nat) : ClosedElem := arr.getD (i * e.cols + j) ⟨.nan, none⟩
    let tills := (s.core core).tillEntries p.tills
    let plain := p.chain.seats.isEmpty
    let inp (i j : Nat) : Option LVal × ElemIn :=
      let v := (el i j).v
      (if plain then some v else none, ⟨[seat v], tills, out.c0 + j, out.r0 + i, a.regs⟩)
    let c := chainPass p.chain (workTag (s.runNet r).mode r.adopt) p.n e.rows e.cols out.r0 out.c0 (fun _ _ => true) inp x.reds
    let vals := c.outs.toArray
    let w : OutRes :=
      if p.close = 1 then
        s.emitPairs t out.plane out.r0 e.rows out.c0 e.cols (fun i j => ((el i j).pair).getD (⟨0, 0, false⟩, 0))
      else s.emitOut t out.plane out.r0 e.rows out.c0 e.cols (fun i j => (vals.getD (i * e.cols + j) none).map (fun y => y.1))
    let fl := c.ownFlags p.chain ||| w.flags ||| e.flags ||| seatFlags p.chain e.body
    let s1 := ((w.s.recFlags o fl).recAssay o t.handle w.assay).mapRec o (fun y => { y with reds := redsJoin x.reds c.reds })
    let s2 := (s1.countCore core 0x0211 (redsSats c.reds)).countSeen core (c.summarySeen p.chain)
    let f := if e.awaited && !plain then s2.freeNat else (0, s2)
    (((f.2.putSummary core o p.chain (c.summary fl)).saveTile x core (s.outTile x.op e.tile)).countCore core 0x0225 f.1).eightTimes
      core (.of 1 e.rows e.cols (e.rows * e.cols))

/-- The first poison among the active elements of a CHAIN's streams and its mask. -/
def State.chainPoison (s : State) (x : RecRun) (p : ChainP) (active : Nat → Nat → Bool) : Option (Nat × Nat) :=
  if s.clean then none
  else
    let es := ((List.range p.nrows).flatMap (fun i => (List.range p.vlen).map (fun j => (i, j)))).filter (fun e => active e.1 e.2)
    p.chain.reads.findSome? (fun i =>
      match (p.ins.getD i none).bind (s.view x) with
      | some t => s.elemsPoison t 0 es
      | none => none)

/-- What the close unit sees of a TAL stream 0: each active element closes (R129). -/
def State.streamSeen (s : State) (t : Option Tensor) (nr nc : Nat) (active : Nat → Nat → Bool) : TalSeen :=
  match t with
  | some t =>
    if t.f = .tal then closesSeen ((List.range nr).flatMap (fun i =>
      ((List.range nc).filter (fun j => active i j)).map (s.talAt t 0 i)))
    else .zero
  | none => .zero

/-- An element of stream `i`: TAL through the close unit, anything else by R104. -/
def State.streamElem (s : State) (t : Tensor) (r e : Nat) : LVal × FlagWord :=
  if t.f = .tal then (s.talAt t 0 r e).closeSeat .plain else s.seatAt t 0 r e

/-- The standalone pass of CHAIN (R158); the poison it meets stops it. Its own flag word holds what writing its output and its
reduction result raises (R128). -/
def State.chainRun (s : State) (core : Nat) (o : OpRef) (r : OpsRun) (x : RecRun) (p : ChainP) (a : Pass) : State :=
  let mask := p.mask.bind s.tensor
  match s.maskPoison mask p.pitch 0 p.nrows p.vlen with
  | some g => s.poisonStop o g
  | none =>
    let active (i j : Nat) : Bool := s.activeBit mask p.pitch p.chain.invert i j
    match s.chainPoison x p active with
    | some g => s.poisonStop o g
    | none =>
      let reads := p.chain.reads
      let views := (List.range 4).map (fun i => if reads.contains i then (p.ins.getD i none).bind (s.view x) else none)
      let tills := (s.core core).tillEntries p.tills
      let inp (i j : Nat) : Option LVal × ElemIn :=
        (none, ⟨views.map (fun v => match v with | some t => s.streamElem t i j | none => (.nan, 0)), tills, j, i, a.regs⟩)
      let tag := workTag (s.runNet r).mode r.adopt
      let c := chainPass p.chain tag p.vlen p.nrows p.vlen 0 0 active inp x.reds
      let vals := c.outs.toArray
      let w : OutRes :=
        match p.out.bind s.tensor with
        | some t => s.emitOut t 0 0 p.nrows 0 p.vlen (fun i j => (vals.getD (i * p.vlen + j) none).map (fun y => y.1))
        | none => ⟨s, 0, Assay.empty⟩
      let s1 :=
        match p.pred.bind s.tensor with
        | some t => (List.range p.nrows).foldl (fun (b : State) i =>
            b.putBits t p.pitch i p.vlen (fun j => (vals.getD (i * p.vlen + j) none).map (fun (y : XVal × Bool) => y.2))) w.s
        | none => w.s
      let res : FlagWord :=
        match RedOp.ofCode p.chain.redOp, p.red.bind s1.tensor with
        | some op, some t =>
          (s1.redsOut t c.reds r.adopt op p.chain.redAxis p.redFmt (redCount p.chain.redAxis p.nrows p.vlen)).flags
        | _, _ => 0
      let fl := c.ownFlags p.chain ||| w.flags
      let s2 := (s1.recFlags o fl).mapRec o (fun y => { y with reds := redsJoin x.reds c.reds })
      let s3 := match p.out with | some h => s2.recAssay o h w.assay | none => s2
      let seen := (s.streamSeen (views.getD 0 none) p.nrows p.vlen active).plus (c.summarySeen p.chain)
      let s4 := (((s3.countCore core 0x0211 (redsSats c.reds)).countSeen core seen).putSummary core o p.chain
        (c.summary (fl ||| res)))
      let s5 :=
        match p.sumOut.bind s.tensor, p.chain.summary with
        | some t, some d => s4.write t.base (((((s4.core core).regs.drop d).take 4)).flatMap (fun (z : BitVec 64) => leBytes 8 z.toNat))
        | _, _ => s4
      (s5.saveTile x core (s.outTile x.op 0)).eightTimes core (.of 1 p.nrows p.vlen c.active)

/-! ## TAL_COMBINE, TAL_CLOSE and SCATTER_ADD_TAL -/

/-- The plane, row and column of element `i` of a tensor, row after row and plane after plane. -/
def Tensor.elemIx (t : Tensor) (i : Nat) : Nat × Nat × Nat := (i / (t.rows * t.cols), i / t.cols % t.rows, i % t.cols)

/-- Element `i` of a TAL tensor.
(DEDUCED, log entry 99.) -/
def State.talElem (s : State) (t : Tensor) (i : Nat) : Tal := let e := t.elemIx i; s.talAt t e.1 e.2.1 e.2.2

/-- The poison among the first `n` elements of a tensor. -/
def State.firstPoison (s : State) (t : Tensor) (n : Nat) : Option (Nat × Nat) :=
  if s.clean then none
  else (List.range n).findSome? (fun i =>
    let e := t.elemIx i
    if s.elemPoisoned t e.1 e.2.1 e.2.2 then some (t.elemRange e.1 e.2.1 e.2.2) else none)

/-- R81: the combination of elements of several tensors, with its flags and the saturations of its steps (R75, R101).
(DEDUCED, log entry 99.) -/
def State.combineAt (s : State) (ts : List Tensor) (i : Nat) : Tal × FlagWord × Nat :=
  match ts with
  | [] => (.fresh, 0, 0)
  | t :: us => us.foldl (fun a u => let c := a.1.combine (s.talElem u i); (c.1, a.2.1 ||| c.2, a.2.2 + satSeen c.2))
      ((s.talElem t i).settle, 0, 0)

/-- TAL_COMBINE (R159). -/
def State.combineRun (s : State) (core : Nat) (o : OpRef) (r : OpsRun) (n : Nat) (ins : List Nat) (out : Nat) : State :=
  let ts := ins.filterMap s.tensor
  match ts.findSome? (fun t => s.firstPoison t n), s.tensor out with
  | some g, _ => s.poisonStop o g
  | none, none => s
  | none, some t =>
    let res := (List.range n).map (s.combineAt ts)
    let arr := res.toArray
    let s1 := (List.range t.planes).foldl (fun a p => a.putRegion t p 0 t.rows 0 t.cols (fun row c =>
      let i := (p * t.rows + row) * t.cols + c
      if i < n then some (adoptElem r.adopt (arr.getD i (.fresh, 0, 0)).1).settle.encode else none)) s
    ((s1.recFlags o (flagsOr (res.map (fun y => y.2.1)))).countCore core 0x0211 (res.foldl (fun a y => a + y.2.2) 0)).eightTimes core
      (.of 1 1 n n)

/-- TAL_CLOSE (R159): every element closed by ROUND or PAIR. -/
def State.closeRun (s : State) (core : Nat) (o : OpRef) (r : OpsRun) (x : RecRun) (rows cols input out kind sa sb : Nat)
    (col : Option Nat) : State :=
  match s.tensor input, s.tensor out with
  | some t, some u =>
    let colp := match col.bind s.tensor with | some v => s.regionPoison v 0 0 v.rows 0 v.cols | none => none
    match s.regionPoison t 0 0 rows 0 cols, colp with
    | some g, _ => s.poisonStop o g
    | none, some g => s.poisonStop o g
    | none, none =>
      let cs := (s.closeCols (s.runNet r).mode x sa sb col 0 cols).toArray
      let tals := (List.range rows).flatMap (fun i => (List.range cols).map (fun j => s.talAt t 0 i j))
      let es := ((List.range tals.length).zip tals).map (fun y => closeElem (decide (kind = 1)) y.2 (cs.getD (y.1 % cols) .plain))
      let arr := (es.map (fun e => e.1)).toArray
      let el (i j : Nat) : ClosedElem := arr.getD (i * cols + j) ⟨.nan, none⟩
      let w : OutRes :=
        if kind = 1 then s.emitPairs u 0 0 rows 0 cols (fun i j => ((el i j).pair).getD (⟨0, 0, false⟩, 0))
        else s.emitOut u 0 0 rows 0 cols (fun i j => some (.log (el i j).v))
      let s1 := (w.s.recFlags o (w.flags ||| flagsOr (es.map (fun e => e.2)))).recAssay o out w.assay
      (s1.countSeen core (closesSeen tals)).eightTimes core (.of 1 rows cols (rows * cols))
  | _, _ => s

/-- R236: the terms row `idx` of the destination receives in one column, with the flags and the additions that saturated. -/
def State.scatterElem (s : State) (i o : Tensor) (tag : Tag) (adopt : Bool) (idx col : Nat) (rows : List Nat) :
    Tal × FlagWord × Nat :=
  let r := rows.foldl (fun a k =>
    let v := s.logAt i 0 k col
    let t := a.1.addTerm tag v.1
    (t.1, a.2.1 ||| t.2 ||| v.2 ||| nanIn v.1, a.2.2 + satSeen t.2)) ((s.talAt o 0 idx col), (0 : FlagWord), 0)
  (adoptElem adopt r.1, r.2)

/-- SCATTER_ADD_TAL's column band (R236). -/
def State.scatterRun (s : State) (core : Nat) (op : OpRef) (r : OpsRun) (x : RecRun) (rows input index out band : Nat) : State :=
  match s.view x input, s.tensor index, s.tensor out with
  | some i, some w, some o =>
    let c0 := 128 * band
    let nc := min 128 (o.cols - c0)
    let idx := (List.range rows).map (s.wordAt w)
    let used := (idx.filter (fun k => k < o.rows)).eraseDups
    let poison :=
      match s.wordsPoison w 0 rows, s.regionPoison i 0 0 rows c0 nc with
      | some g, _ => some g
      | none, some g => some g
      | none, none => used.findSome? (fun k => s.regionPoison o 0 k 1 c0 nc)
    match poison with
    | some g => s.poisonStop op g
    | none =>
      let tag := workTag (s.runNet r).mode r.adopt
      let s1 := used.foldl (fun a k =>
        let from_ := ((List.range rows).zip idx).filterMap (fun y => if y.2 = k then some y.1 else none)
        let es := ((List.range nc).map (fun j => s.scatterElem i o tag r.adopt k (c0 + j) from_))
        ((a.writeTal o 0 k 1 c0 nc (es.map (fun e => e.1)).toArray).recFlags op (flagsOr (es.map (fun e => e.2.1)))).countCore core
          0x0211 (es.foldl (fun n e => n + e.2.2) 0)) s
      (s1.recFlags op (flagIf (idx.any (fun k => o.rows ≤ k)) flagInvalid)).eightTimes core (.of 1 rows nc (rows * nc))
  | _, _, _ => s

/-! ## Row operators (R135 to R140) -/

/-- What one row gives: its output elements, its Tally sum, its statistics, the flags, what the Tally counters see, the passes
it takes and its active elements. -/
structure RowRes where
  outs : List LVal
  den : Option Tal
  stats : List LVal
  flags : FlagWord
  seen : TalSeen
  passes : Nat
  active : Nat
  deriving DecidableEq, Repr

/-- One operation of the Eight on values. -/
def vop (op : EOp) (a b c : LVal) : LVal × FlagWord :=
  let r := eightOp op (.val a) (.val b) (.val c) 0 .lns24
  (r.1.value, r.2)

/-- A reduction of a list of values. -/
def redList (op : RedOp) (tag : Tag) (vs : List LVal) : RedAcc :=
  ((List.range vs.length).zip vs).foldl (fun a x => a.add op tag x.2 x.1) RedAcc.start

/-- SOFTMAX's `EXP(MUL(SUB(x, m), BETA))` (R136). -/
def softExp (m beta x : LVal) : LVal × FlagWord :=
  let a := vop .sub x m .pzero
  let b := vop .mul a.1 beta .pzero
  let c := vop (.trans .exp) b.1 .pzero .pzero
  (c.1, a.2 ||| b.2 ||| c.2)

/-- One row of SOFTMAX: the row with which elements are active, its offset where given, and the denominator of MODE 2. -/
def softRow (tag : Tag) (mode : Nat) (beta : LVal) (xs : List ((LVal × FlagWord) × Bool)) (off : Option (LVal × FlagWord))
    (den : Option Tal) : RowRes :=
  let act := (xs.filter (fun x => x.2)).map (fun x => x.1)
  let top := (redList .max tag (act.map (fun x => x.1))).result .max
  let m : LVal × FlagWord :=
    match off with
    | some o => o
    | none => (match top.1 with | .value v => v | _ => .nan, top.2)
  let es := xs.map (fun x => if x.2 then softExp m.1 beta x.1.1 else (.pzero, 0))
  let live := ((es.zip xs).filter (fun y => y.2.2)).map (fun y => y.1)
  let acc := redList .sum tag (live.map (fun e => e.1))
  let sum := acc.result .sum
  let t : Tal := match den with | some d => d | none => (match sum.1 with | .tally z => z | _ => .fresh)
  let base := m.2 ||| flagsOr (act.map (fun x => x.2)) ||| flagsOr (live.map (fun e => e.2))
    ||| (match den with | some _ => 0 | none => sum.2)
  let sats : TalSeen := ⟨match den with | some _ => 0 | none => acc.sats, 0, 0⟩
  let passes := (if off.isNone then 1 else 0) + (if mode = 2 then 0 else 1) + (if mode = 1 then 0 else 1)
  if mode = 1 then ⟨[], some t, [], base, sats, passes, act.length⟩
  else
    let d := t.closeSeat .plain
    let ys := (es.zip xs).map (fun y => if y.2.2 then vop .div y.1.1 d.1 .pzero else (.pzero, 0))
    ⟨ys.map (fun y => y.1), some t, [], base ||| d.2 ||| flagsOr (ys.map (fun y => y.2)), sats.plus t.closeSeen, passes, act.length⟩

/-- One row of LAYERNORM (R137). -/
def layerRow (tag : Tag) (eps : LVal) (gain bias : Nat → LVal × FlagWord) (xs : List (LVal × FlagWord)) : RowRes :=
  let n := xs.length
  let s1 := redList .sum tag (xs.map (fun x => x.1))
  let mu := s1.tal.closeMean n
  let ds := xs.map (fun x => vop .sub x.1 mu.1 .pzero)
  let s2 := redList .sumsq tag (ds.map (fun d => d.1))
  let v := s2.tal.closeMean n
  let w := vop .add v.1 eps .pzero
  let r := vop .rsqrt w.1 .pzero .pzero
  let ys := ((List.range n).zip ds).map (fun d =>
    let p := vop .mul d.2.1 r.1 .pzero
    let g := gain d.1
    let b := bias d.1
    let y := vop .mulAdd p.1 g.1 b.1
    (y.1, p.2 ||| g.2 ||| b.2 ||| y.2))
  ⟨ys.map (fun y => y.1), none, [mu.1, r.1],
   flagsOr (xs.map (fun x => x.2)) ||| s1.flags ||| mu.2 ||| flagsOr (ds.map (fun d => d.2)) ||| s2.flags ||| v.2 ||| w.2 ||| r.2
     ||| flagsOr (ys.map (fun y => y.2)),
   ((⟨s1.sats + s2.sats, 0, 0⟩ : TalSeen).plus s1.tal.closeSeen).plus s2.tal.closeSeen, 3, n⟩

/-- One row of RMSNORM (R138). -/
def rmsRow (tag : Tag) (eps : LVal) (gain : Nat → LVal × FlagWord) (xs : List (LVal × FlagWord)) : RowRes :=
  let n := xs.length
  let s2 := redList .sumsq tag (xs.map (fun x => x.1))
  let v := s2.tal.closeMean n
  let w := vop .add v.1 eps .pzero
  let r := vop .rsqrt w.1 .pzero .pzero
  let ys := ((List.range n).zip xs).map (fun x =>
    let p := vop .mul x.2.1 r.1 .pzero
    let g := gain x.1
    let y := vop .mul p.1 g.1 .pzero
    (y.1, p.2 ||| g.2 ||| y.2))
  ⟨ys.map (fun y => y.1), none, [r.1],
   flagsOr (xs.map (fun x => x.2)) ||| s2.flags ||| v.2 ||| w.2 ||| r.2 ||| flagsOr (ys.map (fun y => y.2)),
   (⟨s2.sats, 0, 0⟩ : TalSeen).plus s2.tal.closeSeen, 2, n⟩

/-- One row of CONVERT (R139). -/
def convertRow (n : Int) (xs : List (LVal × FlagWord)) : RowRes :=
  let ys := xs.map (fun x =>
    let y := eightOp .scale (.val x.1) (.val .pzero) (.val .pzero) n .lns24
    (y.1.value, x.2 ||| y.2))
  ⟨ys.map (fun y => y.1), none, [], flagsOr (ys.map (fun y => y.2)), .zero, 1, xs.length⟩

/-- A gain or bias element: the Till's, or the constant where no vector is named. -/
def tillOr (named : Option Nat) (k : Core) (i : Nat) (d : LVal) (c : Nat) : LVal × FlagWord :=
  match named with
  | none => (d, 0)
  | some _ => tillRead ((k.till.getD i none).elim [] TillVec.entries) c

/-- Row (plane, row) of a row operator. A NaN that GATHER_ROWS copies raises no NAN_IN.
(DESIGN CHOICE, log entry 129.) -/
def State.rowOf (s : State) (core : Nat) (r : OpsRun) (x : RecRun) (p : RowP) (i : Tensor) (plane row : Nat) : RowRes :=
  let tag := workTag (s.runNet r).mode r.adopt
  let k := s.core core
  let xs (pl rw : Nat) : List (LVal × FlagWord) := (List.range i.cols).map (fun c => s.seatAt i pl rw c)
  let eps := lnsDecode shape24 p.eps
  match p.kind with
  | .softmax =>
    let mask := p.mask.bind s.tensor
    let u := plane * i.rows + row
    let act := ((List.range i.cols).zip (xs plane row)).map (fun y => (y.2, s.activeBit mask p.pitch false u y.1))
    let off := (p.offset.bind (s.view x)).map (fun t => s.seatAt t plane row 0)
    let den := if p.mode = 2 then (p.den.bind s.tensor).map (fun t => s.talAt t plane row 0) else none
    softRow tag p.mode (lnsDecode shape24 p.beta) act off den
  | .layernorm => layerRow tag eps (tillOr p.gain k 0 .one) (tillOr p.bias k 1 .pzero) (xs plane row)
  | .rmsnorm => rmsRow tag eps (tillOr p.gain k 0 .one) (xs plane row)
  | .convert => convertRow p.shift (xs plane row)
  | .gather =>
    let idx := match p.index.bind s.tensor with | some w => s.wordAt w row | none => 0
    if idx < i.rows then let v := xs 0 idx; ⟨v.map (fun y => y.1), none, [], flagsOr (v.map (fun y => y.2)), .zero, 1, i.cols⟩
    else ⟨List.replicate i.cols .nan, none, [], flagInvalid, .zero, 1, i.cols⟩

/-- The poison a band of a row operator meets. -/
def State.bandPoison (s : State) (x : RecRun) (p : RowP) (i : Tensor) (b : OutTile) : Option (Nat × Nat) :=
  if s.clean then none
  else
    let reg (h : Option Nat) (nc : Nat) : Option (Nat × Nat) :=
      match h.bind (s.view x) with
      | some t => s.regionPoison t b.plane b.r0 b.nr 0 nc
      | none => none
    match p.kind with
    | .gather =>
      match p.index.bind s.tensor with
      | none => none
      | some w =>
        match s.wordsPoison w b.r0 b.nr with
        | some g => some g
        | none => (List.range b.nr).findSome? (fun k =>
            let idx := s.wordAt w (b.r0 + k)
            if idx < i.rows then s.regionPoison i 0 idx 1 0 i.cols else none)
    | _ =>
      match s.maskPoison (p.mask.bind s.tensor) p.pitch (b.plane * i.rows + b.r0) b.nr i.cols with
      | some g => some g
      | none =>
        match s.regionPoison i b.plane b.r0 b.nr 0 i.cols, reg p.offset 1, reg (if p.mode = 2 then p.den else none) 1 with
        | some g, _, _ => some g
        | none, some g, _ => some g
        | none, none, y => y

/-- A band of a row operator (R135): its rows are read, and then written. A GATHER_ROWS in place therefore finds the table as it
was before the band.
(DESIGN CHOICE, log entry 111.) -/
def State.rowRun (s : State) (core : Nat) (o : OpRef) (r : OpsRun) (x : RecRun) (p : RowP) (band : Nat) : State :=
  match s.view x p.input with
  | none => s
  | some i =>
    let b := s.outTile x.op band
    match s.bandPoison x p i b with
    | some g => s.poisonStop o g
    | none =>
      let rows := (List.range b.nr).map (fun k => s.rowOf core r x p i b.plane (b.r0 + k))
      let arr := (rows.map (fun y => y.outs.toArray)).toArray
      let w : OutRes :=
        match p.out.bind s.tensor with
        | some t => s.emitOut t b.plane b.r0 b.nr 0 b.nc (fun a c => some (.log ((arr.getD a #[]).getD c .nan)))
        | none => ⟨s, 0, Assay.empty⟩
      let s1 := w.s.recFlags o (w.flags ||| flagsOr (rows.map (fun y => y.flags)))
      let s2 := match p.out with | some h => s1.recAssay o h w.assay | none => s1
      let s3 :=
        match p.den.bind s.tensor with
        | some t =>
          if p.mode = 2 then s2
          else s2.writeTal t b.plane b.r0 b.nr 0 1 (rows.map (fun (y : RowRes) => adoptElem r.adopt (y.den.getD .fresh))).toArray
        | none => s2
      let s4 :=
        match p.stats.bind s.tensor with
        | some t =>
          let nc := if p.kind = RowKind.layernorm then 2 else 1
          let st := (rows.map (fun (y : RowRes) => y.stats.toArray)).toArray
          let q := s3.emitOut t b.plane b.r0 b.nr 0 nc (fun a c => some (.log ((st.getD a #[]).getD c .nan)))
          (q.s.recFlags o q.flags).recAssay o t.handle q.assay
        | none => s3
      let cols := (s.rowShape p).2.1
      rows.foldl (fun a y => (a.countSeen core y.seen).eightTimes core (.of y.passes 1 cols y.active)) (s4.saveTile x core b)

/-! ## PASS_END -/

/-- What the pass of an operator does. -/
def State.runPass (s : State) (core : Nat) (o : OpRef) (r : OpsRun) (x : RecRun) (a : Pass) : State :=
  match x.op with
  | .loom p => match a.entry with | some e => s.finishPass core o r x p a e | none => s
  | .chain p => s.chainRun core o r x p a
  | .rows p => s.rowRun core o r x p a.unit
  | .combine n ins out _ => s.combineRun core o r n ins out
  | .close rows cols i out kind _ sa sb col _ => s.closeRun core o r x rows cols i out kind sa sb col
  | .scatter rows i idx out _ => s.scatterRun core o r x rows i idx out a.unit
  | _ => s

/-- The tensors an operator writes. -/
def OpP.writes : OpP → List Nat
  | .loom p => (if p.exports then optList p.tal else []) ++ (if p.writesC then optList p.c ++ optList p.red else [])
  | .chain p => optList p.out ++ optList p.pred ++ optList p.red ++ optList p.sumOut
  | .rows p => optList p.out ++ (if p.mode = 2 then [] else optList p.den) ++ optList p.stats
  | .combine _ _ out _ => [out]
  | .close _ _ _ out _ _ _ _ _ _ => [out]
  | .scatter _ _ _ out _ => [out]
  | .skipIf _ _ _ _ _ => []
  | .pop _ out discard _ => if discard then [] else optList out

/-- The streams an operator's passes read. -/
def OpP.streams : OpP → List Nat
  | .chain p => p.ins.filterMap id ++ optList p.mask
  | .rows p => [p.input] ++ optList p.mask ++ optList p.offset ++ optList p.index
  | .combine _ ins _ _ => ins
  | .close _ _ i _ _ _ _ _ _ _ => [i]
  | .scatter _ i idx _ _ => [i, idx]
  | _ => []

/-- What a unit of an operator moves of a tensor: the blocks of its region, or all of a tensor that has no blocks or that the unit
takes whole. -/
def State.unitRuns (s : State) (x : RecRun) (o : OutTile) (h : Nat) : List (Nat × Nat) :=
  match s.view x h with
  | none => []
  | some t =>
    if t.layout = .raw ∨ o.nr = 0 then [(t.base, t.footprint)]
    else t.regionRuns (itemPlane t o.plane) o.r0 (min o.nr (t.rows - o.r0)) o.c0 (min o.nc (t.cols - o.c0))

/-- What a pass moves under the COMPUTE budget (R203).
(DESIGN CHOICE, log entry 113.) -/
def State.passMoves (s : State) (x : RecRun) (u : Nat) : Moves :=
  let o := s.outTile x.op u
  (((x.op.streams ++ (match x.op with | .scatter _ _ _ out _ => [out] | _ => [])).flatMap (s.unitRuns x o)).map (fun g => (false, g)))
    ++ (((match x.op with
        | .loom p => if p.writesC then optList p.c ++ optList p.red else []
        | op => op.writes).flatMap (s.unitRuns x o)).map (fun g => (true, g)))

/-- What a pass saves under the STACK budget (R220). -/
def State.saveMoves (s : State) (x : RecRun) (core u : Nat) : Moves :=
  match s.savePlaces x core (s.outTile x.op u) with
  | none => []
  | some y => y.2.map (fun p => (true, p.1, p.2))

/-- PASS_END (R128): the pass completes, and waits while COMPUTE, or STACK for what it saves, is at a ceiling where it moves data
(R208). -/
def execPassEnd (core : Nat) (s : State) : Host.Outcome State Fault Refusal :=
  match (s.core core).pass with
  | none => .next s
  | some a =>
    match s.opRec a.op with
    | none => .next s
    | some (_, r, x) =>
      if !s.mayMove .stack (s.saveMoves x core a.unit) then .next (s.waitAt .stack (s.saveMoves x core a.unit))
      else .next (s.moving .compute (s.passMoves x a.unit) (fun t => ((t.dropPass core).runPass core a.op r x a).settleCore core a.op))

end Sys2Proof.Machine
end

