-- ==== Sys2Proof/Machine/Stacks.lean ====
section
/-!
DEFINITION. The activation stacks (R218 to R234): STACK_CONFIG, pushes, spills, fills and pops.
-/
namespace Sys2Proof.Machine

/-! ## STACK_CONFIG (R222 to R224) -/

/-- A record that pushes or pops is not terminal on one of these groups. -/
def RecRun.stackOn (x : RecRun) (groups : List Nat) : Bool :=
  let stacked := match x.op with | .pop _ _ _ _ => true | _ => decide (x.stack ≠ 0)
  x.open && stacked && (groupsOf x.op.cores).any (fun g => groups.contains g)

/-- A command holds a record that pushes or pops on one of these groups and is not terminal. -/
def Cmd.stackOn (c : Cmd) (groups : List Nat) : Bool :=
  match c.body with
  | .ops r => r.recs.any (fun x => x.stackOn groups)
  | _ => false

/-- The fields of Table 7.5. -/
structure StackParams where
  action : Nat
  groups : List Nat
  sramOffset : Nat
  sramSize : Nat
  spillBase : Nat
  spillSize : Nat
  deriving DecidableEq, Repr

/-- Table 7.5 read from a parameter block. -/
def stackParams (ps : List Byte) : StackParams :=
  ⟨fld ps 0 1, (List.range 16).filter (fun g => (fld ps 2 2).testBit g), fld ps 4 4, fld ps 8 4, fld ps 12 8, fld ps 20 8⟩

/-- Table 7.5: the fields of a CONFIGURE keep their ranges. -/
def StackParams.rangesOk (p : StackParams) : Bool :=
  decide (p.sramOffset % 32 = 0) && decide (p.sramSize % 32 = 0) && decide (2 ^ 24 ≤ p.sramSize) && decide (p.sramSize ≤ 2 ^ 30)
    && decide (p.spillBase % 256 = 0) && decide (p.spillBase < 2 ^ 44) && decide (p.spillSize % 256 = 0)

/-- R223: the spill regions of a CONFIGURE, beside the groups they go to. -/
def StackParams.spills (p : StackParams) : List (Nat × Nat) :=
  (List.range p.groups.length).map (fun k => (p.groups.getD k 0, p.spillBase + k * p.spillSize))

/-- R223: the areas of a CONFIGURE lie where they may.
(DEDUCED, log entry 69.) -/
def State.stackAreasOk (s : State) (p : StackParams) : Bool :=
  decide (p.sramOffset + p.sramSize ≤ groupBytes) &&
  (decide (p.spillSize = 0) || p.spills.all (fun x =>
    inLpddr x.2 p.spillSize && !s.hitsPartner x.2 p.spillSize
      && !s.tensors.any (fun t => overlaps x.2 p.spillSize t.base t.footprint)
      && !((List.range 16).zip s.actStacks).any (fun y =>
        y.2.configured && !p.groups.contains y.1 && overlaps x.2 p.spillSize y.2.spillBase y.2.spillSize)))

/-- STACK_CONFIG CONFIGURE on one group. -/
def StackParams.configure (p : StackParams) (base : Nat) (k : Stack) : Stack :=
  { k with configured := true, sramOffset := p.sramOffset, sramSize := p.sramSize, spillBase := base, spillSize := p.spillSize }

/-- An entry has an SRAM copy (Table 7.8). -/
def StackEntry.inSram (e : StackEntry) : Bool :=
  match e.state with | .resident | .spilling | .both => true | _ => false

/-- An entry has a complete spill copy (Table 7.8). -/
def StackEntry.isSpilled (e : StackEntry) : Bool :=
  match e.state with | .both | .spilled | .filling => true | _ => false

/-- Table 7.6: the query record of a stack.
(DESIGN CHOICE, log entry 124.) -/
def Stack.record (k : Stack) : List Byte :=
  leBytes 2 k.entries.length ++ leBytes 1 (if k.configured then 1 else 0) ++ leBytes 1 0
    ++ leBytes 4 (match k.entries.getLast? with | some e => e.stamp | none => 0xFFFFFFFF)
    ++ leBytes 8 (entriesBytes k.entries) ++ leBytes 8 (entriesBytes (k.entries.filter StackEntry.inSram))
    ++ leBytes 8 (entriesBytes (k.entries.filter StackEntry.isSpilled))

/-- STACK_CONFIG (R222, R223).
(DEDUCED, log entry 51.) -/
def stackConfig (q : Req) (s : State) : Verdict :=
  let p := stackParams q.params
  let busy := s.cmds.any (fun c => c.acked && c.stackOn p.groups)
  if q.params.length ≠ 28 ∨ 2 < p.action then refuse .badParam s
  else if p.action = 2 then okReply (s.actStacks.flatMap Stack.record) s
  else if p.groups = [] ∨ busy then refuse .badParam s
  else if p.action = 1 then
    okReply [] { s with actStacks := p.groups.foldl (fun a g => listUpd a g (fun k => { k with entries := [] })) s.actStacks }
  else if !p.rangesOk ∨ p.groups.any (fun g => (s.stack g).entries ≠ []) ∨ p.sramSize < s.setting 0x3201 * 2 ^ 20 then
    refuse .badParam s
  else if !s.stackAreasOk p then refuse .memoryRange s
  else okReply [] { s with actStacks := p.spills.foldl (fun a x => listUpd a x.1 (p.configure x.2)) s.actStacks }

/-! ## Room in the SRAM area (R229) -/

/-- The bytes an area holds: SRAM copies, those being written included.
(DEDUCED, log entry 69.) -/
def Stack.used (k : Stack) : Nat := entriesBytes (k.entries.filter (fun e => decide (e.state ≠ .spilled)))

/-- The SRAM copies of BOTH entries outside the window are evicted, deepest first, until `size` bytes are free. -/
def evictFor (outside : List Nat) (room size : Nat) : List StackEntry → Nat → List StackEntry
  | [], _ => []
  | e :: es, used =>
    if used + size ≤ room then e :: es
    else if e.state = .both ∧ outside.contains e.stamp then
      { e with state := .spilled, place := [] } :: evictFor outside room size es (used - e.size)
    else e :: evictFor outside room size es used

/-- Room made for `size` bytes on a group.
(DEDUCED, log entry 69.) -/
def State.makeRoom (s : State) (g size : Nat) : State :=
  let out := s.outsideStamps g
  { s with actStacks := listUpd s.actStacks g (fun k => { k with entries := evictFor out k.sramSize size k.entries k.used }) }

/-- A piece put into a list of pieces by rising address. -/
def pieceInsert (p : Nat × Nat) : List (Nat × Nat) → List (Nat × Nat)
  | [] => [p]
  | q :: qs => if p.1 < q.1 then p :: q :: qs else q :: pieceInsert p qs

/-- The gaps that pieces, by rising address, leave between two addresses. -/
def gapsOf (lo hi : Nat) : List (Nat × Nat) → List (Nat × Nat)
  | [] => if lo < hi then [(lo, hi - lo)] else []
  | p :: ps => (if lo < min p.1 hi then [(lo, min p.1 hi - lo)] else []) ++ gapsOf (max lo (p.1 + p.2)) hi ps

/-- The pieces an entry of `size` bytes takes in a group's SRAM area: the device chooses where the search for room starts, a free
number; from there upwards, and round the end, what no copy takes is taken.
(DESIGN CHOICE, log entry 103.) -/
def State.placeFor (s : State) (g size : Nat) : List (Nat × Nat) × State :=
  let k := s.stack g
  let lo := g * groupBytes + k.sramOffset
  let hi := lo + k.sramSize
  let w := s.freeNat
  let at_ := lo + w.1 % (k.sramSize / 32) * 32
  let used := (k.entries.flatMap StackEntry.place).foldr pieceInsert []
  (placePart (gapsOf at_ hi used ++ gapsOf lo at_ used) 0 size, w.2)

/-! ## Spill copies (R226, R228) -/

/-- Bytes of the entries below a stamp. -/
def Stack.below (k : Stack) (stamp : Nat) : Nat := entriesBytes (k.entries.filter (fun e => decide (e.stamp < stamp)))

/-- Copies inside the device, one after another: source, destination, length. Poison is noted and goes with the bytes (R185). -/
def State.copyRuns (s : State) (rs : List (Nat × Nat × Nat)) : State :=
  rs.foldl (fun a r => (a.noteRead r.1 r.2.2).copy r.1 r.2.1 r.2.2) s

/-- The copies that bring the bytes of pieces to a range of memory. -/
def runsOut : List (Nat × Nat) → Nat → List (Nat × Nat × Nat)
  | [], _ => []
  | p :: ps, a => (p.1, a, p.2) :: runsOut ps (a + p.2)

/-- What copies move. -/
def runMoves (rs : List (Nat × Nat × Nat)) : Moves := rs.flatMap (fun r => [(false, r.1, r.2.2), (true, r.2.1, r.2.2)])

/-- The copies that bring a range of memory into pieces. -/
def runsIn : List (Nat × Nat) → Nat → List (Nat × Nat × Nat)
  | [], _ => []
  | p :: ps, a => (a, p.1, p.2) :: runsIn ps (a + p.2)

/-- R226: an entry's spill offset becomes the bytes of the entries now below it, and a complete spill copy moves there with it, so
that it stays valid (R228). A copy for which the region has no such place stays where it is.
(DEDUCED, log entry 112.) -/
def State.settleEntry (s : State) (g : Nat) (e : StackEntry) : State :=
  let k := s.stack g
  let off := k.below e.stamp
  if off = e.spillOff ∨ k.spillSize < off + e.size ∨ !(e.isSpilled || decide (e.state = .spilling)) then s
  else
    let s1 := if e.isSpilled then s.copyRuns [(k.spillBase + e.spillOff, k.spillBase + off, e.size)] else s
    s1.setEntry g e.stamp (fun x => { x with spillOff := off })

/-- The spill offsets of a group after entries have come or gone: those that rise from the top downwards, then those that fall from
the bottom upwards, so that no copy lands on one that has not moved. -/
def State.settleSpills (s : State) (g : Nat) : State :=
  let k := s.stack g
  let rising := k.entries.filter (fun e => decide (e.spillOff < k.below e.stamp))
  let falling := k.entries.filter (fun e => decide (k.below e.stamp < e.spillOff))
  falling.foldl (fun a e => a.settleEntry g e) (rising.foldr (fun e a => a.settleEntry g e) s)

/-! ## STACK_PUSH (R220, R229) -/

/-- The push of a record waits on a group for room (R229), or a pop for a fill; what it waits for its class alone is not
counted (R237). -/
def State.pushWaits (s : State) (o : OpRef) (g : Nat) : State :=
  s.mapRec o (fun y => { y with waited := if y.waited.contains g then y.waited else y.waited ++ [g] })

/-- One group's push of a SAVE record, once its size is free; it waits while STACK is at its ceiling (R234).
(DESIGN CHOICE, log entry 12; DEDUCED, log entry 68; DESIGN CHOICE, log entry 126.) -/
def State.pushOn (s : State) (o : OpRef) (x : RecRun) (g : Nat) : State :=
  if !(s.pushDue x g && s.groupUp g) then s
  else if !s.belowCeiling .stack 3 g then s.atCeiling .stack 3 g
  else
    let e := s.newEntry o x g
    let s1 := s.makeRoom g e.size
    if (s1.stack g).used + e.size ≤ (s1.stack g).sramSize then
      let pl := s1.placeFor g e.size
      let s2 := { pl.2 with actStacks := listUpd pl.2.actStacks g (fun k =>
        { k with entries := stackInsert k.entries { e with place := pl.1 } }) }
      let w := if x.waited.contains g then s2.freeNat else (0, s2)
      ((w.2.count 0x0320 1).count 0x0324 w.1).settleSpills g
    else s1.pushWaits o g

/-- STACK_PUSH (R229): the pushes of a record that find room. -/
def execStackPush (source tag rec : Nat) (s : State) : Host.Outcome State Fault Refusal :=
  let o : OpRef := ⟨source, tag, rec⟩
  match s.opRec o with
  | none => .next s
  | some (_, _, x) => .next ((groupsOf x.op.cores).foldl (fun a g => a.pushOn o x g) s)

/-! ## Spills and fills (R226 to R229) -/

/-- SPILL_START (R228): the deepest RESIDENT entry outside the window, one at a time per group.
(DEDUCED, log entry 69.) -/
def execSpillStart (group : Nat) (s : State) : Host.Outcome State Fault Refusal :=
  let k := s.stack group
  let out := s.outsideStamps group
  if !s.groupUp group ∨ k.entries.any (fun e => e.state = .spilling) then .next s
  else
    match k.entries.find? (fun e => decide (e.state = .resident) && !e.marker && out.contains e.stamp) with
    | none => .next s
    | some e => .next (s.setEntry group e.stamp (fun x => { x with state := .spilling, spillOff := k.below e.stamp }))

/-- A group's entry of a stamp in a state. -/
def State.entryIn (s : State) (g stamp : Nat) (st : EntryState) : Option StackEntry :=
  (s.stack g).entries.find? (fun e => decide (e.stamp = stamp) && decide (e.state = st))

/-- SPILL_COMPLETE (Table 7.8): the spill copy is written, with its poison (R185). -/
def execSpillComplete (group stamp : Nat) (s : State) : Host.Outcome State Fault Refusal :=
  if !s.groupUp group then .next s
  else
    match s.entryIn group stamp .spilling with
    | none => .next s
    | some e =>
      let rs := runsOut e.place ((s.stack group).spillBase + e.spillOff)
      .next (s.moving .stack (runMoves rs) (fun s =>
        ((s.copyRuns rs).setEntry group stamp (fun x => { x with state := .both })).count 0x0322 e.size))

/-- FILL_START (R229): the topmost SPILLED entry in the window, once room is made. -/
def execFillStart (group : Nat) (s : State) : Host.Outcome State Fault Refusal :=
  let out := s.outsideStamps group
  if !s.groupUp group then .next s
  else
    match (s.stack group).entries.reverse.find? (fun e => decide (e.state = .spilled) && !out.contains e.stamp) with
    | none => .next s
    | some e =>
      let s1 := s.makeRoom group e.size
      if (s1.stack group).used + e.size ≤ (s1.stack group).sramSize then
        let pl := s1.placeFor group e.size
        .next (pl.2.setEntry group e.stamp (fun x => { x with state := .filling, place := pl.1 }))
      else .next s1

/-- FILL_COMPLETE (Table 7.8): the SRAM copy is written again, with the poison of the spill copy (R185). -/
def execFillComplete (group stamp : Nat) (s : State) : Host.Outcome State Fault Refusal :=
  if !s.groupUp group then .next s
  else
    match s.entryIn group stamp .filling with
    | none => .next s
    | some e =>
      let rs := runsIn e.place ((s.stack group).spillBase + e.spillOff)
      .next (s.moving .stack (runMoves rs) (fun s =>
        ((s.copyRuns rs).setEntry group stamp (fun x => { x with state := .both })).count 0x0323 e.size))

/-! ## STACK_POP (R231 to R233) -/

/-- R232: every earlier record that pushes or pops on these groups is terminal. -/
def State.stackTurn (s : State) (c : Cmd) (r : OpsRun) (i : Nat) (groups : List Nat) : Bool :=
  !(s.earlier c).any (fun d => d.stackOn groups) && !(r.recs.take i).any (fun x => x.stackOn groups)

/-- R232: the check of one group. -/
def State.popOk (s : State) (groups : List Nat) (expect : Nat) (out : Option Nat) (discard : Bool) (g : Nat) : Bool :=
  match (s.stack g).entries.getLast? with
  | none => false
  | some e =>
    decide (e.stamp = expect) && decide (e.groups = groups) &&
      (discard || match out.bind s.tensor with
        | some t => decide (t.f = e.fmt) && decide (t.rows = e.rows) && decide (t.cols = e.cols)
        | none => false)

/-- A pop's tile written at its position, from the bytes of the entry. A plane the destination does not have is left out.
(DEDUCED, log entry 70.) -/
def State.popTile (s : State) (t : Tensor) (e : StackEntry) (data : List Byte) (o : OutTile) : State :=
  if t.planes ≤ o.plane then s
  else
    let off := tileOffset e.fmt e.tiles o.tile
    let bs := blocksOf o.r0 o.nr o.c0 o.nc
    ((List.range bs.length).zip bs).foldl (fun a x =>
      a.write (t.blockAddr o.plane x.2.1 x.2.2) ((data.drop (off + x.1 * e.fmt.blockBytes)).take e.fmt.blockBytes)) s

/-- A group's entry written to OUT from its SRAM copy. -/
def State.popEntry (s : State) (t : Tensor) (e : StackEntry) : State :=
  if e.marker then s
  else
    let data := s.readPieces e.place
    e.tiles.foldl (fun a o => a.popTile t e data o) s

/-- The entries a pop is for, one in each of its groups: those of its stamp. -/
def State.popEntries (s : State) (expect : Nat) (gs : List Nat) : List StackEntry :=
  gs.filterMap (fun g => (s.stack g).entries.find? (fun e => e.stamp = expect))

/-- What the pop of entries into a tensor moves: their SRAM copies, and the blocks of their tiles. -/
def popMoves (t : Tensor) (es : List StackEntry) : Moves :=
  es.flatMap (fun e => e.place.map (fun p => (false, p.1, p.2))
    ++ e.tiles.flatMap (fun o => (t.regionRuns o.plane o.r0 o.nr o.c0 o.nc).map (fun r => (true, r.1, r.2))))

/-- A pop that has passed its check: it waits for the SRAM copies and for its class, and then writes. `late`: it has waited for a
fill.
(DESIGN CHOICE, log entry 12; DEDUCED, log entry 70.) -/
def State.popRun (s : State) (o : OpRef) (expect : Nat) (out : Option Nat) (discard : Bool) (cores : List Nat) (late : Bool) :
    State :=
  let es := s.popEntries expect (groupsOf cores)
  if es.any (fun e => !e.inSram) then s.pushWaits o ((groupsOf cores).headD 0)
  else
    let done (a : State) : State :=
      let w := if late then a.freeNat else (0, a)
      (w.2.count 0x0325 w.1).mapRec o (fun x => { x with finished := cores })
    if discard then done s
    else
      match (es.flatMap StackEntry.place).find? (fun p => s.poisoned p.1 p.2) with
      | some p => s.poisonStop o p
      | none =>
        match out.bind s.tensor with
        | none => done s
        | some t => s.moving .stack (popMoves t es) (fun s => done (es.foldl (fun a e => a.popEntry t e) s))

/-- The window settings take effect on the groups of a pop (R225). -/
def State.stackWindows (s : State) (gs : List Nat) : State := gs.foldl State.stackWindow s

/-- STACK_POP (R232, R233): the pop starts on all its cores as a whole, checks each group, and writes once it can. A lost core
stops it (R465). -/
def execStackPop (source tag rec : Nat) (s : State) : Host.Outcome State Fault Refusal :=
  let o : OpRef := ⟨source, tag, rec⟩
  match s.opRec o with
  | none => .next s
  | some (c, r, x) =>
    match x.op with
    | .pop expect out discard cores =>
      let gs := groupsOf cores
      if x.phase = .running then
        .next (if x.finished = [] ∧ gs.all s.groupUp then s.popRun o expect out discard cores (!x.waited.isEmpty) else s)
      else if !cores.all (s.turnOf c r rec x) ∨ !s.stackTurn c r rec gs then .next s
      else if cores.any s.lost then .next ((s.startOps c).stopOps o 0x41)
      else if !cores.all s.coreUp then .next s
      else
        let s1 := (s.startOps c).stackWindows gs
        if !gs.all (s1.popOk gs expect out discard) then .next ((s1.count 0x0327 1).stopOps o 0x22)
        else
          let s2 := s1.mapRec o (fun y => { y with phase := .running, started := cores })
          .next (s2.popRun o expect out discard cores false)
    | _ => .next s

/-- The entries a pop removes at its commit point (R233), counted. -/
def State.popCommit (s : State) (expect : Nat) (cores : List Nat) : State :=
  (groupsOf cores).foldl (fun a g =>
    match (a.stack g).entries.find? (fun e => e.stamp = expect) with
    | none => a
    | some e =>
      let a1 := { a with actStacks := listUpd a.actStacks g (fun k =>
        { k with entries := k.entries.filter (fun d => d.stamp ≠ expect) }) }
      (((a1.count 0x0321 1).count 0x0326 (if e.state = .spilling then 1 else 0)).reenter g).settleSpills g) s

/-- The entries a SAVE or RECOMPUTE record has pushed become RESIDENT at its commit point (Table 7.8). -/
def State.pushCommit (s : State) (x : RecRun) : State :=
  if x.stack = 0 then s
  else (groupsOf x.op.cores).foldl (fun a g => a.setEntry g x.stamp (fun e =>
    if e.state = .pushing then { e with state := .resident } else e)) s

/-- The entries a record has pushed are removed (Table 7.10). -/
def State.pushDrop (s : State) (x : RecRun) : State :=
  if x.stack = 0 then s
  else (groupsOf x.op.cores).foldl (fun a g =>
    (({ a with actStacks := listUpd a.actStacks g (fun k => { k with entries := k.entries.filter (fun e =>
      !(decide (e.stamp = x.stamp) && decide (e.state = .pushing))) }) } : State).reenter g).settleSpills g) s

/-- The record has pushed on all its groups. -/
def State.pushedAll (s : State) (x : RecRun) : Bool :=
  decide (x.stack = 0) || (groupsOf x.op.cores).all (fun g => s.hasEntry g x.stamp)

end Sys2Proof.Machine
end

