-- ==== Sys2Proof/Machine/Commit.lean ====
section
/-!
DEFINITION. The end of operators: commit points and completions (R94, R99, R134, R162 to R165, R192, Table 3.6) and stops (R163,
R166, R173); and what orders cores: networks (R146 to R151, R390) and fences (R169).
-/
namespace Sys2Proof.Machine

/-! ## Completions (Table 5.10) -/

/-- The flag words of the committed records, ORed (R162). -/
def OpsRun.flags (r : OpsRun) : FlagWord := flagsOr ((r.recs.filter (fun x => x.phase = .committed)).map RecRun.flags)

/-- The block of Table 5.10.
(DEDUCED, log entry 72.) -/
def opsBlock (r : OpsRun) (cause record run : Nat) : List Byte :=
  leBytes 1 r.flags.toNat ++ leBytes 1 cause ++ leBytes 2 record
    ++ leBytes 2 (r.recs.filter (fun x => x.phase = .committed)).length
    ++ leBytes 2 (r.recs.filter (fun x => x.phase = .skipped)).length ++ leBytes 4 run ++ leBytes 4 0

/-- RECORD of a command that stops: the first record not ended; 0 in an OP_RUN. -/
def OpsRun.stopIndex (r : OpsRun) : Nat :=
  if r.graph then
    match r.recs.findIdx? RecRun.open with
    | some i => i
    | none => r.recs.length - 1
  else 0

/-- The cores of a command's records. -/
def OpsRun.cores (r : OpsRun) : List Nat := r.recs.flatMap (fun x => x.op.cores)

/-- The idle time of groups starts now (R439), under the idle timers as they are set now.
(DEDUCED, log entry 78.) -/
def State.touchGroups (s : State) (gs : List Nat) : State :=
  { s with power := { s.power with groups := ((List.range s.power.groups.length).zip s.power.groups).map (fun x =>
      if gs.contains x.1 then { x.2 with idleSince := s.now, light := s.setting 0x1004, deep := s.setting 0x1005 }
      else x.2) } }

/-! ## OPERATOR_COMMIT -/

/-- R94: the slots of a Loom operator at its commit point: the SLOT source is EMPTY, and the slot parked into OPEN with its tile
tag. -/
def State.commitSlots (s : State) (p : OpP) : State :=
  match p with
  | .loom q =>
    let core := q.cores.headD 0
    let k := s.core core
    let k1 := if q.src = 1 then { k with slots := k.slots.set q.srcSlot .none } else k
    let k2 :=
      match q.close, k1.parking with
      | 3, some g => { k1 with slots := k1.slots.set g.slot ⟨.opened, tagOf g.tile, g.rows, g.cols, g.tile⟩, parking := none }
      | _, _ => k1
    if p.usesSlot then s.setCore core k2 else s
  | _ => s

/-- The tensors an operator may write TAL tiles to. -/
def OpP.talOuts : OpP → List Nat
  | .loom p => (if p.exports then optList p.tal else []) ++ (if p.writesC then optList p.red else [])
  | .chain p => optList p.red
  | .rows p => if p.mode = 2 then [] else optList p.den
  | .combine _ _ out _ => [out]
  | .scatter _ _ _ out _ => [out]
  | _ => []

/-- R134: the Assay counts of an operator reach their tensors.
(DEDUCED, log entry 98.) -/
def State.commitAssays (s : State) (x : RecRun) : State :=
  x.assays.foldl (fun a y =>
    match a.tensor y.1 with
    | some t => a.setTensor { t with assay := t.assay.merge y.2 }
    | none => a) s

/-- The entries a STACK_POP removes. -/
def State.commitPop (s : State) (p : OpP) : State :=
  match p with
  | .pop expect _ _ cores => s.popCommit expect cores
  | _ => s

/-- What the commit point of a record does beside its phase. -/
def State.commitRec (s : State) (x : RecRun) : State :=
  ((((x.op.talOuts.foldl State.retag s).commitSlots x.op).commitAssays x).pushCommit x).commitPop x.op

/-- R162 to R165: with no record left to commit or to skip, the command reaches its terminal state.
(DEDUCED, log entry 72.) -/
def State.endOps (s : State) (source tag rec : Nat) : State :=
  match s.cmd source tag with
  | none => s
  | some c =>
    match c.body with
    | .ops r =>
      if r.recs.any RecRun.open then s
      else (s.complete c (doneRes r.flags) (opsBlock r 0 (if r.graph then rec else 0) (s.runUs c))).touchGroups
        (groupsOf r.cores)
    | _ => s

/-- A record has done all its work. -/
def State.recDone (s : State) (x : RecRun) : Bool :=
  decide (x.phase = .running) && x.op.cores.all (fun c => x.finished.contains c) && s.pushedAll x

/-- The commit point of a record whose outputs, exports, parked tiles, Assay counts and flags are written (R164). -/
def State.commitOperator (s : State) (source tag rec : Nat) : State :=
  let o : OpRef := ⟨source, tag, rec⟩
  match s.opRec o with
  | none => s
  | some (_, _, x) =>
    if s.recDone x then
      ((s.commitRec x).mapRec o (fun y => { y with phase := .committed, pins := [] })).endOps source tag rec
    else s

/-! ## OPERATOR_STOP -/

/-- A command's work leaves a core. -/
def Core.dropCmd (k : Core) (source tag : Nat) : Core :=
  let mine (o : OpRef) : Bool := decide (o.source = source) && decide (o.tag = tag)
  let run := match k.cur with | some o => mine o | none => false
  { k with
    cur := if run then none else k.cur
    todo := if run then [] else k.todo
    live := if run then none else k.live
    held := k.held.filter (fun e => !mine e.op)
    finish := k.finish.filter (fun e => !mine e.op)
    pass := match k.pass with | some p => if mine p.op then none else some p | none => none }

/-- A slot made INVALID, and how many that were (TALLY_SLOTS_INVALIDATED). -/
def Core.spoilSlot (k : Core) (i : Nat) : Core :=
  if (k.slots.getD i .none).state = .invalid then k
  else { k with slots := k.slots.set i ⟨.invalid, none, 0, 0, []⟩ }.count 0x0216 1

/-- Table 3.6: the slots of an operator stopped before its commit point.
(DEDUCED, log entry 71.) -/
def State.spoilSlots (s : State) (p : OpP) : State :=
  match p with
  | .loom q =>
    let core := q.cores.headD 0
    let k := s.core core
    let k1 := if q.src = 1 then k.spoilSlot q.srcSlot else k
    let k2 := if q.close = 3 then { k1.spoilSlot q.closeSlot with parking := none } else k1
    if p.usesSlot then s.setCore core k2 else s
  | _ => s

/-- R96, R166, R173, Table 3.6, Table 7.10: a record stopped before its commit point. An ABORT reaches every record not
committed, whatever else stops a command those that have started.
(DEDUCED, log entry 71.) -/
def State.stopRec (s : State) (abort : Bool) (x : RecRun) : State :=
  if x.open && (abort || !x.started.isEmpty) then
    ((x.op.writes.foldl State.scramble s).spoilSlots x.op).pushDrop x
  else s

/-- A chunk of a command is in progress on a core. -/
def Core.chunksOf (k : Core) (source tag : Nat) : Bool :=
  (match k.cur with | some o => decide (o.source = source) && decide (o.tag = tag) | none => false)
    && (match k.live with | some l => !l.busy.isEmpty | none => false)

/-- A pass that is cut short at an element-group boundary (R141): the groups it has processed, a free part of it, count (R142). A row
operator makes up to three passes over its rows.
(DESIGN CHOICE, log entry 12.) -/
def State.cutPass (s : State) (core : Nat) (a : Pass) : State :=
  let per := (a.vlen + 127) / 128
  let n := a.nrows * per
  let passes := match s.opRec a.op with | some (_, _, x) => (match x.op with | .rows _ => 3 | _ => 1) | none => 1
  let g := s.freeNat
  let k := g.2.freeNat
  let groups := g.1 % (passes * n + 1)
  let elems := groups / n * (a.nrows * a.vlen) + groups % n / per * a.vlen + min a.vlen (128 * (groups % n % per))
  k.2.eightTimes core ⟨groups, k.1 % (elems + 1), elems - k.1 % (elems + 1)⟩

/-- A command's work leaves every core. -/
def State.leaveCores (s : State) (source tag : Nat) : State :=
  let cuts := ((List.range s.cores.length).zip s.cores).filterMap (fun y =>
    match y.2.pass with
    | some p => if p.op.source = source ∧ p.op.tag = tag then some (y.1, p) else none
    | none => none)
  cuts.foldl (fun a y => a.cutPass y.1 y.2) { s with cores := s.cores.map (fun (k : Core) => k.dropCmd source tag) }

/-- OPERATOR_STOP (R173): a command that is to stop leaves its cores and completes ABORTED, once the chunks in progress have reached
their boundaries (Table 2.8). -/
def execOperatorStop (source tag : Nat) (s : State) : Host.Outcome State Fault Refusal :=
  match s.cmd source tag with
  | none => .next s
  | some c =>
    match c.body with
    | .ops r =>
      match r.stop with
      | none => .next s
      | some (cause, record) =>
        if s.cores.any (fun k => k.chunksOf source tag) then .next s
        else
        let s1 := s.leaveCores source tag
        let s2 := r.recs.foldl (fun a x => a.stopRec (decide (cause = 0x04)) x) s1
        .next ((s2.complete c .aborted (opsBlock r cause record (s2.runUs c))).touchGroups (groupsOf r.cores))
    | _ => .next s

/-! ## Networks (R147 to R151, R390) -/

/-- NETWORK_LOAD: TOTAL; the descriptor follows as bulk data.
(DEDUCED, log entry 76.) -/
def networkLoad (q : Req) (s : State) : Verdict :=
  let n := fld q.params 0 4
  if q.params.length ≠ 4 ∨ n = 0 ∨ 2 ^ 20 < n then .done .badParam (leBytes 2 0xFFFF ++ leBytes 2 0xFFFF) s .nothing
  else .await n s

/-- NETWORK_LOAD with its descriptor (R147, R390): the result, the parameter bytes of the reply, and the state. -/
def State.networkDone (s : State) (bs : List Byte) : Res × List Byte × State :=
  let fault (g r : Nat) : Res × List Byte × State := (.badParam, leBytes 2 g ++ leBytes 2 r, s)
  match parseNet bs with
  | .error f => fault f.1 f.2
  | .ok n =>
    if (s.loadedNet n.id).isSome ∨ 16 ≤ s.nets.length ∨ 2 ^ 23 < (s.nets.map Net.total).foldl (· + ·) 0 + n.total then
      fault 0xFFFF 0xFFFF
    else (.ok, [], { s with nets := s.nets ++ [n] })

/-- NETWORK_ACTIVATE: its checks (R390, R465). -/
def networkActivate (q : Req) (s : State) : Verdict :=
  if q.params.length ≠ 4 then refuse .badParam s
  else
    match s.loadedNet (fld q.params 0 2) with
    | none => refuse .badParam s
    | some n => if n.cores.any s.lost then refuse .badParam s else .accept [] (.activate n.id n.cores) none s

/-- R148: a network is named by a command that is not terminal. -/
def Cmd.namesNet (c : Cmd) (id : Nat) : Bool :=
  match c.body with
  | .ops r => decide (r.net = id)
  | .activate n _ => decide (n = id)
  | _ => false

/-- NETWORK_UNLOAD (R148). -/
def networkUnload (q : Req) (s : State) : Verdict :=
  let id := fld q.params 0 2
  let used := s.cores.any (fun k => decide (k.net = some id)) || s.cmds.any (fun c => c.acked && c.namesNet id)
  if q.params.length ≠ 4 ∨ (s.loadedNet id).isNone ∨ used then refuse .badParam s
  else okReply [] { s with nets := s.nets.filter (fun n => n.id ≠ id) }

/-- Every operator accepted before a command on a core is finished there, and no fence holds the core (R150, R169). -/
def State.coreTurn (s : State) (c : Cmd) (core : Nat) : Bool :=
  !(s.earlier c).any (fun d => d.holdsCore core) && decide ((s.core core).cur = none)

/-- NETWORK_SWITCH (R150): a core that has finished the earlier operators changes its network; with the last, the command
completes. A lost core ends the command (R465).
(DEDUCED, log entry 75.) -/
def execNetworkSwitch (source tag core : Nat) (s : State) : Host.Outcome State Fault Refusal :=
  match s.cmd source tag with
  | none => .next s
  | some c =>
    match c.body with
    | .activate n todo =>
      if !s.mayStart c || !todo.contains core || !s.coreTurn c core then .next s
      else if s.lost core then .next ((s.startCmd c).completeGeneric c .aborted 0 0x41 0)
      else
        let s1 := (s.startCmd c).setCore core { s.core core with net := some n }
        let rest := todo.filter (fun x => x ≠ core)
        match s1.cmd source tag with
        | none => .next s1
        | some d =>
          if rest = [] then .next (s1.completeGeneric d .complete 0 0 0)
          else .next (s1.setCmd { d with body := .activate n rest })
    | _ => .next s

/-! ## FENCE (R169) -/

/-- FENCE: its core set; an empty one names the whole device. -/
def fence (q : Req) (s : State) : Verdict :=
  let cs := coreSet q.params 0
  if q.params.length ≠ 18 ∨ cs.any s.lost then refuse .badParam s else .accept [] (.fence cs) none s

/-- An earlier command that a FENCE waits for: one with an operator on a core of the set, which is terminal with its whole command.
(DEDUCED, log entry 75; DESIGN CHOICE, log entry 121.) -/
def Cmd.fenced (d : Cmd) (cores : List Nat) : Bool :=
  match d.body with
  | .ops r => r.cores.any (fun c => cores.isEmpty || cores.contains c)
  | .selfTest _ _ _ _ => (coreSet d.params 0).any (fun c => cores.isEmpty || cores.contains c)
  | _ => false

/-- FENCE_COMPLETE (R169): every earlier operator on the set, or on any core where it is empty, is terminal. A core lost since
acceptance ends it (R465).
(DEDUCED, log entry 75.) -/
def execFenceComplete (source tag : Nat) (s : State) : Host.Outcome State Fault Refusal :=
  match s.cmd source tag with
  | none => .next s
  | some c =>
    match c.body with
    | .fence cores =>
      if !s.mayStart c || (s.earlier c).any (fun d => d.fenced cores) then .next s
      else if cores.any s.lost then .next ((s.startCmd c).completeGeneric c .aborted 0 0x41 0)
      else .next ((s.startCmd c).completeGeneric c .complete 0 0 0)
    | _ => .next s

end Sys2Proof.Machine
end

