-- ==== Sys2Proof/Machine/Trust.lean ====
section
/-!
DEFINITION. Identity, attestation, the audit export and firmware (R392, R395 to R398, R420 to R429).
-/
namespace Sys2Proof.Machine

/-! ## The spare map (Table 12.7) -/

/-- TINKER[q]: 2 retired, 1 it also serves its neighbour's quarter, 0 it serves its own. -/
def State.tinkerCode (s : State) (q : Nat) : Nat :=
  if s.health.tinkerRetired.getD q false then 2
  else if s.health.tinkerRetired.getD (q ^^^ 1) false then 1 else 0

/-- GROUP[g]: 2 where a logical core of the group is lost, 1 where its spare is in use or retired (R465). -/
def State.groupCode (s : State) (g : Nat) : Nat :=
  if (List.range 9).any (fun k => s.lost (9 * g + k)) then 2
  else if s.health.spareFree.getD g false then 0 else 1

/-- Bytes 0 to 171 of SPARE_STATUS: MAP, GROUP, TINKER and LINK_SPARE. -/
def spareHead (s : State) : List Byte :=
  ((List.range 144).flatMap (fun c => leBytes 1 ((s.health.map.getD c none).getD 0xFF)))
    ++ ((List.range 16).flatMap (fun g => leBytes 1 (s.groupCode g)))
    ++ ((List.range 4).flatMap (fun q => leBytes 1 (s.tinkerCode q)))
    ++ leBytes 8 ((List.range 64).foldl (fun a i => if (s.link i).spareUsed then a + 2 ^ i else a) 0)

/-! ## IDENTITY_GET and ATTEST (R395, R396, R428, R429) -/

/-- PART. -/
def partNumber : Nat := 0x9613A000

/-- VERSION of the stage-1 image of a slot; all ones where it is empty. -/
def slotVersion (xs : List (Option FwStage)) : Nat :=
  match xs.head? with
  | some (some st) => st.version.toNat
  | _ => 2 ^ 64 - 1

/-- IDENTITY_GET. -/
def identityGet (_q : Req) (s : State) : Verdict :=
  let f := s.trust.firmware
  okReply (leBytes 4 partNumber ++ serialBytes ++ leBytes 8 (slotVersion f.slotA) ++ leBytes 8 (slotVersion f.slotB)
    ++ leBytes 1 (if f.runningB then 1 else 0) ++ leBytes 1 0 ++ leBytes 2 f.rollback
    ++ (List.range keyBytes).map Config.akPub) s

/-- The assigned keys of 0x1xxx to 0x7xxx and 0xExxx, ascending (R429). -/
def digestKeys : List Nat :=
  [0x1000, 0x1001, 0x1002, 0x1003, 0x1004, 0x1005, 0x2100, 0x2101]
    ++ (List.range 7).flatMap (fun cls => (List.range 8).map (fun i => 0x2200 + 16 * cls + i))
    ++ [0x3100, 0x3101, 0x3200, 0x3201, 0x4000, 0x4001, 0x4002, 0x4003, 0x4004, 0x4005]
    ++ (List.range 12).flatMap (fun p => (List.range 8).map (fun i => 0x5000 + 16 * p + i))
    ++ [0x5100, 0x5101, 0x6000, 0x6001, 0x6002, 0x6010, 0x6011, 0x6020, 0x6021, 0x7000, 0x7001, 0x7002, 0xE000]

/-- SETTINGS_DIGEST (R429). -/
def settingsDigest (s : State) : List Byte :=
  sha3_512 (digestKeys.flatMap (fun k => leBytes 2 k ++ leBytes 8 (s.setting k)))

/-- The ASCII bytes of a string of hexadecimal codes. -/
def ascii (xs : List Nat) : List Byte := xs.map (BitVec.ofNat 8)

/-- "SV9613-ATTEST". -/
def attestContext : List Byte := ascii [0x53, 0x56, 0x39, 0x36, 0x31, 0x33, 0x2D, 0x41, 0x54, 0x54, 0x45, 0x53, 0x54]
/-- "SV9613-AUDIT". -/
def auditContext : List Byte := ascii [0x53, 0x56, 0x39, 0x36, 0x31, 0x33, 0x2D, 0x41, 0x55, 0x44, 0x49, 0x54]
/-- "SV9613-FW". -/
def fwContext : List Byte := ascii [0x53, 0x56, 0x39, 0x36, 0x31, 0x33, 0x2D, 0x46, 0x57]

/-- A signature by the attestation key (R427). -/
def attestSignature (context message : List Byte) : List Byte := (List.range sigBytes).map (Config.attestSign context message)

/-- Bytes 0 to 543 of the attestation report (Table 13.10). -/
def reportBody (s : State) (nonce : List Byte) : List Byte :=
  let f := s.trust.firmware
  leBytes 1 1 ++ leBytes 1 s.stateCode ++ leBytes 1 (if f.runningB then 1 else 0) ++ leBytes 1 0
    ++ leBytes 4 partNumber ++ serialBytes ++ padTo 32 nonce ++ leBytes 8 s.now ++ leBytes 4 f.bootCount
    ++ leBytes 2 f.rollback ++ leBytes 2 0 ++ leBytes 8 s.fwActive.toNat
    ++ ((List.range 4).flatMap (fun i => padTo 64 (f.measures.getD i [])))
    ++ sha3_512 (spareHead s) ++ settingsDigest s ++ leBytes 8 (s.trust.audit.next - 1) ++ s.trust.audit.head
    ++ leBytes 4 (s.setting 0x4000) ++ leBytes 4 0

/-- ATTEST: its checks; the report follows its acceptance. -/
def attest (q : Req) (s : State) : Verdict :=
  if q.params.length ≠ 32 then refuse .badParam s else .accept [] .plain none s

/-- The report sent, and the completion. -/
def State.finishAttest (s : State) (c : Cmd) : State :=
  let b := reportBody s c.params
  (s.sendData c [] (b ++ attestSignature attestContext b)).completeGeneric c .complete 0 0 0

/-! ## AUDIT_READ (R398, R420, R421) -/

/-- AUDIT_READ: its checks. -/
def auditRead (q : Req) (s : State) : Verdict :=
  let n := fld q.params 8 4
  if q.params.length ≠ 12 ∨ n = 0 ∨ 65536 < n ∨ s.trust.audit.next ≤ fld q.params 0 8 then refuse .badParam s
  else .accept [] .plain none s

/-- The hash before the record a list of records starts with.
(DEDUCED, log entry 26.) -/
def hashBefore (a : AuditLog) (first : Nat) : List Byte :=
  match a.records.find? (fun r => r.seq + 1 = first) with
  | some r => r.hash
  | none => a.anchor.getD auditSeed

/-- The export from a first sequence number, up to its signature (Table 13.8).
(DEDUCED, log entry 26.) -/
def exportBody (a : AuditLog) (first : Nat) (rs : List AuditRec) : List Byte :=
  serialBytes ++ leBytes 8 first ++ leBytes 4 rs.length ++ leBytes 4 0 ++ hashBefore a first
    ++ rs.flatMap (fun r => r.body ++ r.hash)

/-- The records sent, the export mark moved, and the completion. An export stops before a record whose read from flash is poisoned,
raises FAULT and completes with FAULT (Table 13.11).
(DEDUCED, log entry 26; DESIGN CHOICE, log entry 122.) -/
def State.finishAudit (s : State) (c : Cmd) : State :=
  let a := s.trust.audit
  let asked := (a.records.filter (fun r => fld c.params 0 8 ≤ r.seq)).take (fld c.params 8 4)
  let rs := asked.takeWhile (fun r => !Config.recordBad s.trust.firmware.bootCount r.seq)
  let first := match asked with | r :: _ => r.seq | [] => a.next
  let b := exportBody a first rs
  let s1 := s.sendData c (leBytes 8 first) (b ++ attestSignature auditContext b)
  let top := rs.foldl (fun m r => max m r.seq) s1.trust.audit.exported
  let s2 : State := { s1 with trust := { s1.trust with audit := { s1.trust.audit with exported := top } } }
  if rs.length < asked.length then (s2.raiseFault (6 * 4096)).completeGeneric c .fault 0 0x41 0
  else s2.completeGeneric c .complete 0 0 0

/-! ## Firmware (R397, R422 to R426) -/

/-- FW_STAGE: its checks; the image follows as bulk data. -/
def fwStage (q : Req) (s : State) : Verdict :=
  let st := fld q.params 0 1
  let n := fld q.params 4 4
  if q.params.length ≠ 8 ∨ st = 0 ∨ 4 < st ∨ n = 0 ∨ 2 ^ 26 < n then refuse .badParam s
  else .accept [] .plain (some n) s

/-- The slot that is not running, and its replacement. -/
def Firmware.idleSlot (f : Firmware) : List (Option FwStage) := if f.runningB then f.slotA else f.slotB
/-- The idle slot with one stage changed. -/
def Firmware.setIdle (f : Firmware) (stage : Nat) (x : Option FwStage) : Firmware :=
  if f.runningB then { f with slotA := f.slotA.set (stage - 1) x } else { f with slotB := f.slotB.set (stage - 1) x }

/-- R423: the checks of an image, in their order.
(DEDUCED, log entry 24.) -/
def imageResult (s : State) (stage : Nat) (img : List Byte) : Res :=
  let body := fld img 16 4
  let key := fld img 4 1
  let svn := fld img 2 2
  if fld img 0 1 ≠ stage ∨ fld img 1 1 ≠ 1 ∨ img.length ≠ 7347 + body ∨ 256 < svn ∨ key < 4 ∨ 7 < key then .badParam
  else
    let signed := img.take (128 + body)
    let pub := (img.drop (128 + body)).take keyBytes
    let sig := (img.drop (128 + body + keyBytes)).take sigBytes
    if sha3_512 pub ≠ fusedDigest key ∨ !Config.verify pub fwContext signed sig
        ∨ sha3_512 ((img.drop 128).take body) ≠ (img.drop 24).take 64 then .sigInvalid
    else if svn < s.trust.firmware.rollback then .rollbackRefused
    else .complete

/-- The stage of the idle slot left unusable, with the version of the image that stands in it. -/
def State.spoilStage (s : State) (stage : Nat) (version : BitVec 64) : State :=
  let f := s.trust.firmware.setIdle stage (some ⟨version, 0, [], false⟩)
  { s with trust := { s.trust with firmware := { f with staged := false } } }

/-- An image that was not written whole leaves the stage undefined and unusable (R401): its version is open. -/
def State.dropStage (s : State) (stage : Nat) : State :=
  let w := s.freeNat
  w.2.spoilStage stage (BitVec.ofNat 64 w.1)

/-- What FW_STAGE leaves of an image that passes checks 1 and 2 of R423. -/
def stagedImage (img : List Byte) : FwStage := ⟨BitVec.ofNat 64 (fld img 8 8), fld img 2 2, sha3_512 img, true⟩

/-- The stage of the idle slot that check 3 refuses: its SVN keeps it unusable. -/
def State.refuseStage (s : State) (stage : Nat) (img : List Byte) : State :=
  let f := s.trust.firmware.setIdle stage (some (stagedImage img))
  { s with trust := { s.trust with firmware := { f with staged := false } } }

/-- FW_STAGE with its image complete (R423).
(DEDUCED, log entry 24.) -/
def State.finishFwStage (s : State) (c : Cmd) (img : List Byte) : State :=
  let stage := fld c.params 0 1
  let r := imageResult s stage img
  if r = .complete ∧ s.trust.flashFault then
    ((s.spoilStage stage (stagedImage img).version).raiseFault (6 * 4096)).completeGeneric c .aborted 0 0x41 0
  else if r = .complete then
    let st := stagedImage img
    let slot := if s.trust.firmware.runningB then 0 else 1
    let f := s.trust.firmware.setIdle stage (some st)
    let s1 := ({ s with trust := { s.trust with firmware := { f with staged := true } } }).raiseAttn attnService
    let s2 := s1.audit { s1.actor 0x09 c.source with
      detail := leBytes 1 stage ++ leBytes 1 slot ++ leBytes 2 st.svn ++ leBytes 8 st.version.toNat }
    s2.completeGeneric c .complete 0 0 0
  else if r = .rollbackRefused then (s.refuseStage stage img).completeGeneric c r 0 0 0
  else (s.spoilStage stage (stagedImage img).version).completeGeneric c r 0 0 0

/-- The result of the checks of a slot's stages (R397): the first stage that fails decides. -/
def slotResult (rollback : Nat) (xs : List (Option FwStage)) : Res :=
  if xs.any (fun x => decide (x = none)) then .badParam
  else
    match xs.findSome? (fun x =>
      match x with
      | some st => if !st.usable then some Res.sigInvalid else if st.svn < rollback then some .rollbackRefused else none
      | none => none) with
    | some r => r
    | none => .ok

/-- FW_ACTIVATE (R397, R424): the slot is preferred on trial, and the module resets after the reply. -/
def fwActivate (q : Req) (s : State) : Verdict :=
  let slot := fld q.params 0 1
  let f := s.trust.firmware
  if q.params.length ≠ 4 ∨ 1 < slot then refuse .badParam s
  else
    match slotResult f.rollback (if slot = 1 then f.slotB else f.slotA) with
    | .ok =>
      if s.trust.flashFault then refuse .fault (s.raiseFault (6 * 4096))
      else
      let s1 := { s with trust := { s.trust with firmware :=
        { f with preferB := decide (slot = 1), trial := true, tries := 0
                 staged := f.staged && decide (f.runningB = decide (slot = 1)) } } }
      .done .ok [] (s1.audit { s1.actor 0x0A q.source with detail := leBytes 1 0 ++ leBytes 1 slot }) .coldStart
    | r => refuse r s

end Sys2Proof.Machine
end

