-- ==== Sys2Proof/Machine/Abort.lean ====
section
/-!
DEFINITION. ABORT (R171 to R174), and what ends a command of any kind before its commit point: a bulk failure (R345), a CORES
reset (R381) or a thermal trip (R435).
-/
namespace Sys2Proof.Machine

/-! ## What an aborted command leaves undefined (R345, R401) -/

/-- Free bytes written over a range.
(DESIGN CHOICE, log entry 11.) -/
def State.freeRange (s : State) (a n : Nat) : State := let x := s.freeBytes n; x.2.write a x.1

/-- The destination of a TENSOR_WRITE left undefined: its bytes, or the elements of its region. -/
def State.spoilWrite (s : State) (c : Cmd) : State :=
  let a := accessOf c.params
  match s.tensor a.handle with
  | none => s
  | some t =>
    if a.mode = 0 then
      let x := s.freeBytes a.len
      (x.2.write (t.base + a.offset) (if t.fmt = some .tal then talReserved a.offset x.1 else x.1)).untag a.handle
    else
      let x := s.freeBytes (a.regionBytes t.f)
      (if t.f = .blns8 then (x.2.writeRegion8 t a t.f x.1).1 else (x.2.writeRegion t a t.f x.1).1).untag a.handle

/-- The destination of a TENSOR_COPY or TENSOR_FILL left undefined. -/
def State.spoilPlanes (s : State) (h p0 np : Nat) : State :=
  match s.tensor h with
  | none => s
  | some t =>
    match t.layout with
    | .raw => s.freeRange t.base t.footprint
    | .ring => s.freeRange (t.planeAddr p0) t.planeBytes
    | .blocked => (s.freeRange (t.planeAddr p0) ((if np = 0 then t.planes - p0 else np) * t.planeBytes)).untag h

/-- The destination of a data command or of FW_STAGE left undefined (R401).
(DEDUCED, log entry 74.) -/
def State.spoilData (s : State) (c : Cmd) : State :=
  match c.op with
  | .tensorWrite => s.spoilWrite c
  | .tensorCopy => s.spoilPlanes (fld c.params 4 4) (fld c.params 8 2) (fld c.params 10 2)
  | .tensorFill => s.spoilPlanes (fld c.params 0 4) (fld c.params 8 2) (fld c.params 10 2)
  | .fwStage => s.dropStage (fld c.params 0 1)
  | _ => s

/-! ## Ending a command of any kind -/

/-- R345: a command already acknowledged whose bulk data fails: ABORTED with CAUSE 0x14, and what it wrote undefined. -/
def State.failBulk (s : State) (c : Cmd) : State := (s.spoilData c).completeGeneric c .aborted 0 0x14 0

/-- A CANCEL to every other member of a collective (R299). -/
def State.sendCancels (s : State) (r : CollRun) : State :=
  (r.members.filter (fun a => decide (s.devAddr ≠ some a))).foldl (fun t a =>
    t.sendFlit a 1 r.crew 0 ((List.range 236).map (Config.crewByte true r.cid)) []) s

/-- The completion block of SELF_TEST (R394). -/
def selfTestBlock (flags : FlagWord) (cause run : Nat) (cores tinkers : List Nat) : List Byte :=
  leBytes 1 flags.toNat ++ leBytes 1 cause ++ leBytes 2 0 ++ leBytes 4 run ++ coreSetBytes cores
    ++ leBytes 1 (tinkers.foldl (fun a q => a ||| 2 ^ q) 0) ++ leBytes 5 0

/-- A command whose run is a list of records stops at once with a cause.
(DEDUCED, log entry 71; DEDUCED, log entry 72.) -/
def State.killOps (s : State) (c : Cmd) (r : OpsRun) (cause : Nat) : State :=
  let s1 := s.leaveCores c.source c.tag
  let s2 := r.recs.foldl (fun a x => a.stopRec false x) s1
  let st := match r.stop with | some y => y | none => (cause, r.stopIndex)
  (s2.complete c .aborted (opsBlock r st.1 st.2 (s2.runUs c))).touchGroups (groupsOf r.cores)

/-- A command ends ABORTED with a cause that is no ABORT, in the completion block its kind has. -/
def State.killCmd (s : State) (c : Cmd) (cause : Nat) : State :=
  match c.body with
  | .ops r => s.killOps c r cause
  | .update r => s.endUpdate c r cause
  | .secure r => s.abortSecure c r cause
  | .serve r => s.endServe c r cause
  | .coll _ => s.failColl c cause 0
  | .streamOut id =>
    match s.stream id with
    | some x => s.endOutput x .aborted cause
    | none => s.completeGeneric c .aborted 0 cause 0
  | .selfTest _ f _ g => s.complete c .aborted (selfTestBlock 0 cause (s.runUs c) f g)
  | _ => s.completeGeneric c .aborted 0 cause 0

/-! ## ABORT -/

/-- R171, Table 12.10: the commands whose chapters define an abort. -/
def Op.abortable : Op → Bool
  | .opRun | .graphRun | .updateRun | .paramWrite | .secure | .restoreServe | .collectiveRun | .streamOut
  | .tensorWrite | .tensorRead | .tensorCopy | .tensorFill | .fwStage => true
  | _ => false

/-- R265: an ABORT of an UPDATE_RUN: before the norms it ends at once; in pass 2 each Tinker ends at its entry. -/
def State.abortUpdate (s : State) (c : Cmd) (r : UpdRun) : State :=
  if r.normed then s.setCmd { c with body := .update { r with stop := some 0x04 } }
  else
    let s1 := match r.norm with | some x => s.sendCancels x | none => s
    s1.endUpdate c r 0x04

/-- R323: an ABORT of a SECURE, which tells the holder. -/
def State.abortSecuring (s : State) (c : Cmd) (r : SecureRun) : State :=
  let s1 := match s.pair.holder with | some h => s.sendFlit h 6 0 r.id (pairMsg 0x14 0 0 0 []) [] | none => s
  s1.abortSecure c r 0x04

/-- R330: an ABORT of a serve leaves the target range undefined; it is this device's own where it serves itself. -/
def State.abortServe (s : State) (c : Cmd) (r : ServeRun) : State :=
  let s1 :=
    if (if c.running then r.src else s.devAddr) = some r.target then
      (s.dropServe r.target (c.source * 2 ^ 16 + c.tag)).spoilServed r.handle [(r.to_, r.bytes)]
    else s
  s1.endServe c r 0x04

/-- R173: an ABORT of a command that is queued or running. The completion follows the ABORT's reply (R174): an operator's
at OPERATOR_STOP.
(DEDUCED, log entry 71; DEDUCED, log entry 74.) -/
def State.abortCmd (s : State) (c : Cmd) : State :=
  match c.body with
  | .ops r =>
    s.setCmd { c with body := .ops { r with stop := some (0x04, r.stopIndex) } }
  | .update r => s.abortUpdate c r
  | .secure r => s.abortSecuring c r
  | .serve r => s.abortServe c r
  | .coll r => (s.sendCancels r).failColl c 0x04 0
  | .streamOut id => s.abortOutput id
  | _ => (s.spoilData c).completeGeneric c .aborted 0 0x04 0

/-- A command that is already to stop (R172: an abort of it has been decided). -/
def Cmd.stopping (c : Cmd) : Bool :=
  match c.body with
  | .ops r => r.stop.isSome
  | .update r => r.stop.isSome
  | _ => false

/-- An ABORT's reply: the result and OUTCOME. -/
def abortReply (r : Res) (outcome : Nat) (s : State) (after : After) : Verdict := .done r (leBytes 1 outcome) s after

/-- R172: the target's entry in the tag table, where it holds no slot. -/
def State.abortEntry (s : State) (source tag : Nat) : Verdict :=
  match (s.source source).bind (fun x => x.tags.find? (fun e => e.tag = tag)) with
  | none => abortReply .tagUnknown 0 s .nothing
  | some e => if e.op.abortable then abortReply .alreadyDone e.outcome.code s .nothing else refuse .badParam s

/-- ABORT (R171, R172). A command that runs answers OK, also where later commands of its source have pushed it out of the tag table.
(DESIGN CHOICE, log entry 137.) -/
def abort (q : Req) (s : State) : Verdict :=
  let source := fld q.params 0 2
  let tag := fld q.params 2 2
  if q.params.length ≠ 4 then refuse .badParam s
  else if q.role = .operator ∧ source ≠ q.source then refuse .noRight s
  else
    match s.cmd source tag with
    | none => s.abortEntry source tag
    | some c =>
      if !c.acked then s.abortEntry source tag
      else if !c.op.abortable then refuse .badParam s
      else if c.stopping then abortReply .alreadyDone 0x04 s .nothing
      else abortReply .ok 0x04 s (.abort source tag)

end Sys2Proof.Machine
end

