-- ==== Sys2Proof/Machine/Health.lean ====
section
/-!
DEFINITION. Spares, wear and health (chapter 15): hard faults and the spares that take over, REPAIR and SELF_TEST, memory repair,
wear proposals, SPARE_STATUS and COUNTERS_READ.
-/
namespace Sys2Proof.Machine

/-! ## Cores lost and retired (R457, R460, R465) -/

/-- OPEN slots INVALID and the Till lost (Tables 3.6 and 4.11).
(DESIGN CHOICE, log entry 1.) -/
def Core.loseWork (k : Core) : Core :=
  let spoil (k : Core) (i : Nat) : Core := if (k.slots.getD i .none).state = .opened then k.spoilSlot i else k
  { [0, 1, 2].foldl spoil k with till := List.replicate 4 none, parking := none }

/-- A physical core of a group is retired; its monitor's rating and proposal go with it. -/
def State.retireCore (s : State) (g phys : Nat) : State :=
  ({ s with health := { s.health with retiredCores := s.health.retiredCores ++ [(g, phys)] } }).count 0x0740 1

/-- The rating and the proposal of a logical core's unit are dropped.
(DEDUCED, log entry 88.) -/
def State.forgetWear (s : State) (core : Nat) : State :=
  { s with health := { s.health with
    wear := assocDel s.health.wear core, proposals := s.health.proposals.filter (fun u => u ≠ core) } }

/-- A group's spare is gone from the pool (R453). -/
def State.takeSpare (s : State) (g : Nat) : State :=
  { s with health := { s.health with spareFree := s.health.spareFree.set g false } }

/-- R465: a logical core has no physical core any more. -/
def State.loseCore (s : State) (core : Nat) : State :=
  let s1 : State := { s with health := { s.health with
    map := s.health.map.set core none, takeover := s.health.takeover.filter (fun c => c ≠ core) } }
  (s1.setCore core (s1.core core).loseWork).degradeCheck s.degraded

/-- R166: the operators that run and have a core in their core set complete ABORTED with CAUSE 0x41.
(DEDUCED, log entry 88.) -/
def State.faultOps (s : State) (core : Nat) : State :=
  s.cmds.foldl (fun a c =>
    match c.body with
    | .ops r =>
      if r.recs.any (fun x => decide (x.phase = .running) && x.op.cores.contains core) then a.killOps c r 0x41 else a
    | _ => a) s

/-- The spare of a core's group is called on for it. -/
def State.callSpare (s : State) (core : Nat) : State :=
  { s with health := { s.health with
    takeover := s.health.takeover ++ [core], calledAt := assocPut s.health.calledAt (core / 9) s.now } }

/-- The core of a group that the spare is called on for. -/
def State.callerOf (s : State) (g : Nat) : Option Nat := s.health.takeover.find? (fun c => c / 9 = g)

/-- A hard fault of a logical core (R457, R460): the physical core is retired; the spare is to take over, where it is free and
not already called on, and the core is lost otherwise. A lower core whose fault comes at the same moment of the timer takes the
spare from a higher one. A fault while the spare takes over is the spare's.
(DEDUCED, log entry 88.) -/
def State.coreFault (s : State) (core : Nat) : State :=
  match s.health.map.getD core none with
  | none => s
  | some phys =>
    let g := core / 9
    let switching := s.health.takeover.contains core
    let s1 := ((s.faultOps core).retireCore g (if switching then 9 else phys)).forgetWear core
    let s2 := (s1.raiseFault core).spareEvent
    if switching then (s2.takeSpare g).loseCore core
    else if !s2.health.spareFree.getD g false then s2.loseCore core
    else
      match s2.callerOf g with
      | none => s2.callSpare core
      | some c =>
        if core < c ∧ assocGet 0 s2.health.calledAt g = s2.now then (s2.loseCore c).callSpare core else s2.loseCore core

/-- CORE_HARD_FAULT (R456, R457). -/
def execCoreHardFault (core : Nat) (s : State) : Host.Outcome State Fault Refusal := .next (s.coreFault core)

/-- A logical core moves to its group's spare. -/
def State.toSpare (s : State) (core : Nat) : State :=
  let s1 := (s.takeSpare (core / 9)).forgetWear core
  { s1 with health := { s1.health with
    map := s1.health.map.set core (some 9), takeover := s1.health.takeover.filter (fun c => c ≠ core) } }

/-- The REPAIRs accepted for a unit complete with a result and CAUSE 0x00. -/
def State.endRepairs (s : State) (unit : Nat) (res : Res) : State :=
  s.cmds.foldl (fun a c =>
    match c.body with
    | .repair u => if c.acked ∧ u = unit then a.completeGeneric c res 0 0 0 else a
    | _ => a) s

/-- SPARE_TAKEOVER (R457, R460): the spare has woken and run its self-test, once the cap lets it wake (R434). One that fails it is
retired, which is reported (R1).
(DEDUCED, log entry 88.) -/
def execSpareTakeover (core : Nat) (passed : Bool) (s : State) : Host.Outcome State Fault Refusal :=
  if !s.health.takeover.contains core || !s.admits s.groupStates then .next s
  else if passed then
    let s1 := s.setCore core (s.core core).loseWork
    .next ((s1.toSpare core).endRepairs core .complete)
  else
    let g := core / 9
    .next ((((s.retireCore g 9).takeSpare g).spareEvent).loseCore core)

/-! ## REPAIR (R393, R459) -/

/-- The spare of a core's group can take it. -/
def State.spareReady (s : State) (core : Nat) : Bool :=
  s.health.spareFree.getD (core / 9) false && !s.health.takeover.any (fun c => decide (c / 9 = core / 9))

/-- REPAIR: its checks (R393). -/
def repair (q : Req) (s : State) : Verdict :=
  let unit := fld q.params 0 4 % 65536
  let kind := unit / 4096
  let ix := unit % 4096
  if q.params.length ≠ 8 then refuse .badParam s
  else if kind = 0 ∧ ix < 144 then
    if s.lost ix then refuse .badParam s
    else if !s.health.spareFree.getD (ix / 9) false then refuse .sparesExhausted s
    else .accept [] (.repair unit) none s
  else if kind = 2 ∧ ix < 4 then
    if s.health.tinkerRetired.getD ix true then refuse .badParam s
    else if s.health.tinkerRetired.getD (neighbour ix) true then refuse .sparesExhausted s
    else .accept [] (.repair unit) none s
  else refuse .badParam s

/-- A Tinker runs no command now. -/
def State.tinkerIdle (s : State) (t : Nat) : Bool := !(s.serves t).any s.tinkerRuns

/-- A REPAIR of a logical core at its command boundary (R459): it waits for the group's wake, and for the cap as a wake does (R460).
(DEDUCED, log entry 75.) -/
def State.switchCore (s : State) (c : Cmd) (core : Nat) (passed : Bool) : State :=
  let g := core / 9
  if s.health.takeover.contains core then s
  else if s.lost core || !s.spareReady core then (s.startCmd c).completeGeneric c .sparesExhausted 0 0 0
  else if !s.groupUp g || !s.betweenOps core || !s.admits s.groupStates then s
  else
    let s1 := s.startCmd c
    if passed then
      let s2 := s1.retireCore g ((s.health.map.getD core none).getD 0)
      ((((s2.toSpare core).spareEvent).count 0x0741 1).completeGeneric c .complete 0 0 0)
    else
      ((((s1.retireCore g 9).takeSpare g).count 0x0747 1).spareEvent).completeGeneric c .sparesExhausted 0 0x41 0

/-- A REPAIR of a Tinker: it fails over to its neighbour between Tinker commands (R268). -/
def State.switchTinker (s : State) (c : Cmd) (t : Nat) : State :=
  if s.health.tinkerRetired.getD t true then (s.startCmd c).completeGeneric c .complete 0 0 0
  else if s.health.tinkerRetired.getD (neighbour t) true then (s.startCmd c).completeGeneric c .sparesExhausted 0 0 0
  else if !s.tinkerIdle t then s
  else (((s.startCmd c).retireTinker t).count 0x0741 1).completeGeneric c .complete 0 0 0

/-- REPAIR_SWITCH (R459, R460): the switch of the earliest REPAIR of a unit. `passed`: the spare's self-test. -/
def execRepairSwitch (core : Nat) (passed : Bool) (s : State) : Host.Outcome State Fault Refusal :=
  match s.cmds.find? (fun c => c.acked && decide (c.body = .repair core)) with
  | none => .next s
  | some c =>
    if !s.mayStart c then .next s
    else if core < 144 then .next (s.switchCore c core passed)
    else .next (s.switchTinker c (core % 4096))

/-- A period of so many hours has passed since a moment. -/
def State.hoursPassed (s : State) (since hours : Nat) : Bool := decide (since + hours * 3600000000 ≤ s.now)

/-- SPARE_SELF_TEST (R458): an idle spare runs its test, 24 hours after the last; one that fails it is retired.
(DEDUCED, log entry 127.) -/
def execSpareSelfTest (group : Nat) (passed : Bool) (s : State) : Host.Outcome State Fault Refusal :=
  if !s.spareReady (9 * group) || !s.hoursPassed (assocGet 0 s.health.tested group) 24 then .next s
  else
    let s1 : State := { s with health := { s.health with tested := assocPut s.health.tested group s.now } }
    if passed then .next s1 else .next ((((s1.retireCore group 9).takeSpare group).count 0x0747 1).spareEvent)

/-! ## SELF_TEST (R394) -/

/-- SELF_TEST: its checks. -/
def selfTest (q : Req) (s : State) : Verdict :=
  let cs := coreSet q.params 0
  let ts := (List.range 4).filter (fun t => (fld q.params 18 1).testBit t)
  if q.params.length ≠ 20 ∨ (cs = [] ∧ ts = []) ∨ cs.any s.lost ∨ ts.any (fun t => s.health.tinkerRetired.getD t true) then
    refuse .badParam s
  else .accept [] (.selfTest cs [] ts []) none s

/-- The outcome of a self-test of a unit: free. `true`: it fails.
(DEDUCED, log entry 88.) -/
def State.testFails (s : State) : Bool × State := let x := s.freeNat; (decide (x.1 % 2 = 1), x.2)

/-- A core of a SELF_TEST runs its test in the core's order.
(DEDUCED, log entry 75.) -/
def State.testCore (s : State) (c : Cmd) (cs f ts g : List Nat) (core : Nat) : State :=
  if !cs.contains core || !s.mayStart c || !s.coreTurn c core then s
  else if s.lost core then (s.startCmd c).killCmd c 0x41
  else if !s.coreUp core || ((s.groupPower (core / 9)).request.isSome && !c.running) then s
  else
    let s1 := s.startCmd c
    let x := s1.testFails
    let f1 := if x.1 then f ++ [core] else f
    match x.2.cmd c.source c.tag with
    | none => x.2
    | some d =>
      let s2 := x.2.setCmd { d with body := .selfTest (cs.filter (fun y => y ≠ core)) f1 ts g }
      let s3 := s2.touchGroups [core / 9]
      if x.1 then s3.coreFault core else s3

/-- OPERATOR_START (R167, R394): an operator, a record of a graph, or the test of a SELF_TEST starts on a core. -/
def execOperatorStart (source tag rec core : Nat) (s : State) : Host.Outcome State Fault Refusal :=
  match s.cmd source tag with
  | none => .next s
  | some c =>
    match c.body with
    | .selfTest cs f ts g => .next (s.testCore c cs f ts g core)
    | _ => .next (s.startOperator source tag rec core)

/-- A Tinker of a SELF_TEST tested between Tinker commands; one that has failed since acceptance counts as failed. -/
def State.testTinker (s : State) (t : Nat) : Bool × State :=
  if s.health.tinkerRetired.getD t true then (true, s)
  else
    let x := s.testFails
    if x.1 then (true, (x.2.raiseFault (2 * 4096 + t)).retireTinker t) else (false, x.2)

/-- The Tinkers of a SELF_TEST that are idle tested: those still to test, those that failed, the state. -/
def testTinkers : List Nat → State → List Nat → List Nat → List Nat × List Nat × State
  | [], s, left, bad => (left, bad, s)
  | t :: ts, s, left, bad =>
    if s.tinkerIdle t then
      let x := s.testTinker t
      testTinkers ts x.2 left (if x.1 then bad ++ [t] else bad)
    else testTinkers ts s (left ++ [t]) bad

/-- The end of a SELF_TEST whose cores have run: its Tinkers, and its completion. -/
def State.endTest (s : State) (c : Cmd) (f ts g : List Nat) : State :=
  if !s.mayStart c then s
  else
    let x := testTinkers ts (s.startCmd c) [] g
    match x.2.2.cmd c.source c.tag with
    | none => x.2.2
    | some d =>
      if x.1 ≠ [] then x.2.2.setCmd { d with body := .selfTest [] f x.1 x.2.1 }
      else
        let ok := f.isEmpty && x.2.1.isEmpty
        x.2.2.complete d (if ok then .complete else .fault)
          (selfTestBlock 0 (if ok then 0 else 0x41) (x.2.2.runUs d) f x.2.1)

/-- OPERATOR_COMMIT (R164, R394): the commit point of a record, or the end of a SELF_TEST. -/
def execOperatorCommit (source tag rec : Nat) (s : State) : Host.Outcome State Fault Refusal :=
  match s.cmd source tag with
  | none => .next s
  | some c =>
    match c.body with
    | .selfTest [] f ts g => .next (s.endTest c f ts g)
    | .selfTest (_ :: _) _ _ _ => .next s
    | _ => .next (s.commitOperator source tag rec)

/-! ## Memory repair (R180, R182, R461 to R463) -/

/-- The members of a list that occur in it at least `n` times, each once. -/
def frequent (n : Nat) (xs : List Nat) : List Nat :=
  (xs.foldl (fun (a : List Nat) x => if a.contains x then a else a ++ [x]) []).filter (fun x => decide (n ≤ xs.count x))

/-- A failing row or bank of group SRAM for which nothing is left: it stays in service. -/
def State.unspared (s : State) : State :=
  let s1 : State := { s with health := { s.health with rowUnspared := true } }
  s1.spareEvent.degradeCheck s.degraded

/-- A bank is replaced by a spare bank of its group, which brings its own spare rows. -/
def State.spareBank (s : State) (bank : Nat) : State :=
  let g := bank / 65536
  let n := assocGet 0 s.health.sramBanks g
  if n < 2 then
    let s1 : State := { s with health := { s.health with
      sramBanks := assocPut s.health.sramBanks g (n + 1), sramSpares := assocDel s.health.sramSpares bank } }
    (s1.count 0x0743 1).spareEvent
  else s.unspared

/-- A row is replaced by a spare row of its bank, or its bank where it needs a 17th. -/
def State.spareRow (s : State) (bank : Nat) : State :=
  let n := assocGet 0 s.health.sramSpares bank
  if n < 16 then
    let s1 : State := { s with health := { s.health with sramSpares := assocPut s.health.sramSpares bank (n + 1) } }
    (s1.count 0x0742 1).spareEvent
  else s.spareBank bank

/-- The row of an SRAM word, with its group: that of its 32-byte granule (R179).
(DESIGN CHOICE, log entry 89.) -/
def sramRowOf (a : Nat) : Nat := a / groupBytes * 2 ^ 32 + Config.sramRow (a / 32) % 2 ^ 32
/-- The bank of a row: its group times 65,536, plus its number.
(DESIGN CHOICE, log entry 89.) -/
def sramBankOf (row : Nat) : Nat := row / 2 ^ 32 * 65536 + Config.sramBank row % 65536

/-- The LPDDR5X row of a block, with its package (R181).
(DESIGN CHOICE, log entry 89.) -/
def lpddrRowOf (a : Nat) : Nat := packageOf a * 2 ^ 32 + Config.lpddrRow (a / 64) % 2 ^ 32

/-- SCRUB_PASS (R180, R461): a scrub period ends. `fixed` are the words corrected in it, by the scrubber or on an ordinary read,
`bad` the words found uncorrectable, `banks` the banks that show a fault spanning rows.
(DEDUCED, log entry 90; DESIGN CHOICE, log entry 116.) -/
def execScrubPass (fixed bad banks : List Nat) (s : State) : Host.Outcome State Fault Refusal :=
  if !s.hoursPassed s.health.scrubbed (s.setting 0x3100) then .next s
  else .next (s.moving .maint [(false, 0, sramEnd)] (fun s =>
    let fx := fixed.filter (fun a => decide (a < sramEnd))
    let us := frequent 1 ((bad.filter (fun a => decide (a < sramEnd))).map (fun a => a / 8 * 8))
    let fresh := us.filter (fun u => !s.poison.contains u)
    let s0 : State := { s with health := { s.health with scrubbed := s.now } }
    let s1 := ((s0.poisonUnits us).count 0x0300 fx.length).count 0x0301 fresh.length
    let rows := frequent 1 (us.map sramRowOf ++ frequent 8 (fx.map sramRowOf))
    let s2 := rows.foldl (fun (a : State) r => a.spareRow (sramBankOf r)) s1
    banks.foldl State.spareBank s2))

/-- PATROL_SCRUB (R182, R462): a patrol period ends. `fixed` are the blocks corrected in it, by the patrol or on an ordinary read,
`bad` those found uncorrectable; their rows are marked for repair.
(DEDUCED, log entry 90; DESIGN CHOICE, log entry 116.) -/
def execPatrolScrub (fixed bad : List Nat) (s : State) : Host.Outcome State Fault Refusal :=
  if !s.hoursPassed s.health.patrolled (s.setting 0x3101) then .next s
  else .next (s.moving .maint [(false, lpddrBase, lpddrEnd - lpddrBase)] (fun s =>
    let inside (a : Nat) : Bool := decide (lpddrBase ≤ a) && decide (a < lpddrEnd)
    let fx := fixed.filter inside
    let us := frequent 1 ((bad.filter inside).map (fun a => a / 64 * 64))
    let fresh := us.filter (fun u => !s.poison.contains u)
    let s1 := ((s.poisonUnits us).count 0x0302 fx.length).count 0x0303 fresh.length
    let rows := us.map lpddrRowOf ++ frequent 4 (fx.map lpddrRowOf)
    { s1 with health := { s1.health with
      patrolled := s.now
      lpddrMarks := rows.foldl (fun (a : List Nat) r => if a.contains r then a else a ++ [r]) s1.health.lpddrMarks } }))

/-- LPDDR_RETRAIN (R183): a retraining pause of a package, at most one in a stint; it takes what the package could have moved in
up to 2 µs, which is charged to MAINT.
(DESIGN CHOICE, log entry 113.) -/
def execLpddrRetrain (package : Nat) (s : State) : Host.Outcome State Fault Refusal :=
  if 8 ≤ package ∨ s.power.retrained.any (fun x => x.1 = package) then .next s
  else
    let w := s.freeNat
    .next (({ w.2 with power := { w.2.power with
      retrained := assocPut w.2.power.retrained package (w.1 % (2 * kindRate 0) + 1) } } : State).count 0x0306 1)

/-- LPDDR_CONTROLLER_FAULT (R448, R463): a package fails, running or in its training at a cold start. -/
def execLpddrControllerFault (package : Nat) (s : State) : Host.Outcome State Fault Refusal :=
  if 8 ≤ package ∨ s.health.failedPackages.contains package then .next s
  else
    let q := package / 2
    let served := s.serves q
    let s1 := s.cmds.foldl (fun (a : State) c => a.tinkerFailCmd served c) s
    let s2 : State := { s1 with health := { s1.health with failedPackages := s1.health.failedPackages ++ [package] } }
    .next ((s2.raiseFault (4 * 4096 + package)).degradeCheck s.degraded)

/-! ## Wear (R454, R455) -/

/-- A unit of a proposal or REPAIR is out of service; the physical core of a logical core that waits for its spare is retired. -/
def State.unitRetired (s : State) (u : Nat) : Bool :=
  if u < 4096 then s.lost u || s.health.takeover.contains u
  else if u / 4096 = 2 then s.health.tinkerRetired.getD (u % 4096) true
  else false

/-- One unit's WEAR re-evaluated. -/
def State.rate (s : State) (u w : Nat) : State :=
  if s.unitRetired u then s
  else
    let s1 : State := { s with health := { s.health with wear := assocPut s.health.wear u (min 255 w) } }
    let listed := s.health.proposals.contains u
    if 80 ≤ w ∧ !listed then
      ({ s1 with health := { s1.health with proposals := s1.health.proposals ++ [u] } }).spareEvent
    else if w < 75 ∧ listed then
      { s1 with health := { s1.health with proposals := s1.health.proposals.filter (fun x => x ≠ u) } }
    else s1

/-- A monitored unit is powered: in S3 none is, and the cores of a group in S2 are power-gated (R438). -/
def State.unitPowered (s : State) (u : Nat) : Bool :=
  decide (s.power.sleep ≠ .housed) && (decide (4096 ≤ u) || decide ((s.groupPower (u / 9)).state ≠ .s2))

/-- WEAR_EVALUATION (R454): the ratings of the units that are powered, 60 s after the last.
(DEDUCED, log entry 127.) -/
def execWearEvaluation (wear : List (Nat × Nat)) (s : State) : Host.Outcome State Fault Refusal :=
  if s.now < s.health.rated + 60000000 then .next s
  else
    let s1 : State := { s with health := { s.health with rated := s.now } }
    .next ((wear.filter (fun x => s.unitPowered x.1)).foldl (fun (a : State) x => a.rate x.1 x.2) s1)

/-- Insert into a list by falling WEAR, then rising UNIT.
(DESIGN CHOICE, log entry 92.) -/
def rankInsert (s : State) (u : Nat) : List Nat → List Nat
  | [] => [u]
  | x :: xs =>
    let wu := assocGet 0 s.health.wear u
    let wx := assocGet 0 s.health.wear x
    if wx < wu ∨ (wx = wu ∧ u < x) then u :: x :: xs else x :: rankInsert s u xs

/-- The proposals listed: at most 32.
(DESIGN CHOICE, log entry 92.) -/
def State.listedProposals (s : State) : List Nat := (s.health.proposals.foldr (rankInsert s) []).take 32

/-! ## SPARE_STATUS (R392) -/

/-- GROUP of Table 12.7. -/
def State.spareOf (s : State) (g : Nat) : Nat :=
  if (List.range 9).any (fun i => s.lost (9 * g + i)) then 2
  else if s.health.spareFree.getD g false then 0 else 1

/-- TINKER of Table 12.7. -/
def State.tinkerOf (s : State) (t : Nat) : Nat :=
  if s.health.tinkerRetired.getD t true then 2
  else if s.health.tinkerRetired.getD (neighbour t) true then 1 else 0

/-- The map, as SPARE_STATUS reports it (R464). -/
def State.mapBytes (s : State) : List Byte := s.health.map.flatMap (fun m => leBytes 1 (m.getD 0xFF))

/-- SPARE_STATUS. -/
def spareStatus (_q : Req) (s : State) : Verdict :=
  let ps := s.listedProposals
  let spares := ((List.range 64).zip s.net9.links).foldl (fun a x => if x.2.spareUsed then a ||| 2 ^ x.1 else a) 0
  okReply (s.mapBytes ++ (List.range 16).flatMap (fun g => leBytes 1 (s.spareOf g))
    ++ (List.range 4).flatMap (fun t => leBytes 1 (s.tinkerOf t)) ++ leBytes 8 spares ++ leBytes 1 ps.length ++ leBytes 3 0
    ++ ps.flatMap (fun u => leBytes 4 u ++ leBytes 1 (assocGet 0 s.health.wear u) ++ leBytes 3 0)) s

/-! ## COUNTERS_READ (R391, R452, R467) -/

/-- The counter IDs the manual's tables assign. -/
def counterAssigned (i : Nat) : Bool :=
  let within (a b : Nat) : Bool := decide (a ≤ i) && decide (i ≤ b)
  within 0x0200 0x0207 || within 0x0210 0x0216 || within 0x0220 0x0226 || within 0x02F0 0x02F1
    || within 0x0300 0x0306 || within 0x0320 0x0329 || within 0x0340 0x0349 || within 0x0380 0x0388
    || (within 0x0400 0x046F) || within 0x0500 0x050C || within 0x0600 0x060B || within 0x0700 0x0708
    || within 0x0720 0x072F || within 0x0740 0x0747 || within 0x0750 0x076D

/-- The cores that are not lost. -/
def State.keptCores (s : State) : List Nat := (List.range 144).filter (fun c => !s.lost c)

/-- The largest of a list of readings; none of an empty one. -/
def maxReading : List Int → Option Int
  | [] => none
  | x :: xs => some (xs.foldl max x)

/-- A per-core reading: of one core, or the largest over the cores that are not lost; open where every core is lost.
(DEDUCED, log entry 91.) -/
def State.coreReading (s : State) (core : Nat) (f : Nat → Int) : Int :=
  if core = 0xFFFF then (maxReading (s.keptCores.map f)).getD (Config.freeNat s.free) else f core

/-- A reading of Tables 14.6, 15.3 and 15.4; none for an ID that counts. -/
def State.reading (s : State) (core i : Nat) : Option Int :=
  let h := s.health
  if i = 0x02F0 then some (s.coreReading core (fun c => (assocGet 0 h.wear c : Nat)))
  else if i = 0x02F1 then some (s.coreReading core (fun c => h.coreTemps.getD c 0))
  else if i = 0x0708 then some (s.power.energy / 1000 : Nat)
  else if 0x0720 ≤ i ∧ i ≤ 0x072F then some ((s.groupPower (i - 0x0720)).advice : Nat)
  else if i = 0x0745 then some (h.lpddrMarks.length : Nat)
  else if i = 0x0746 then some (h.unrepairable.length : Nat)
  else if 0x0750 ≤ i ∧ i ≤ 0x075F then maxReading ((List.range 9).map (fun c => h.coreTemps.getD (9 * (i - 0x0750) + c) 0))
  else if 0x0760 ≤ i ∧ i ≤ 0x0763 then some (h.tinkerTemps.getD (i - 0x0760) 0)
  else if 0x0764 ≤ i ∧ i ≤ 0x076B then some (h.packageTemps.getD (i - 0x0764) 0)
  else if i = 0x076C then some h.inlet
  else if i = 0x076D then some h.outlet
  else none

/-- The 64-bit value COUNTERS_READ returns for an ID. -/
def State.counterValue (s : State) (core i : Nat) : Nat :=
  match s.reading core i with
  | some x => twos 64 x
  | none =>
    if i / 256 = 2 then
      if core = 0xFFFF then (s.cores.foldl (fun (a : Count64) (k : Core) => a + k.ctr i) 0).toNat else ((s.core core).ctr i).toNat
    else (s.ctr i).toNat

/-- COUNTERS_READ.
(DEDUCED, log entry 91.) -/
def countersRead (q : Req) (s : State) : Verdict :=
  let core := fld q.params 0 2
  let n := fld q.params 2 2
  let ids := (List.range n).map (fun i => fld q.params (4 + 2 * i) 2)
  if q.params.length ≠ 4 + 2 * n ∨ n = 0 ∨ 255 < n ∨ (143 < core ∧ core ≠ 0xFFFF) ∨ ids.any (fun i => !counterAssigned i) then
    refuse .badParam s
  else okReply (ids.flatMap (fun i => leBytes 8 (s.counterValue core i))) (if s.keptCores = [] then s.fresh.2 else s)

end Sys2Proof.Machine
end

