-- ==== Sys2Proof/Machine/Power.lean ====
section
/-!
DEFINITION. Power states and their command (R380, R434, R438 to R442, R445, R446), the cap and thermal loops (R433, R435, R443,
R444, R480), feeds and the reference clock (R431, R472, R475).
-/
namespace Sys2Proof.Machine

/-! ## The groups -/

/-- How deep a state is. -/
def GState.depth : GState → Nat
  | .s0 => 0 | .s1 => 1 | .s2 => 2

/-- The state a STATE byte names (R380); S3 is none of them. -/
def GState.ofCode (c : Nat) : GState := match c with | 0 => .s0 | 1 => .s1 | _ => .s2

/-- A group's power changed. -/
def State.setGroup (s : State) (g : Nat) (x : GroupPower) : State :=
  { s with power := { s.power with groups := s.power.groups.set g x } }

/-- Every group is in S2. -/
def State.allDeep (s : State) : Bool := s.power.groups.all (fun g => decide (g.state = .s2))

/-- A Tinker command, a copy, a serve or a collective runs: power requests are taken between them (Tables 8.20, 9.14, 10.10).
(DEDUCED, log entry 78.) -/
def State.sharedBusy (s : State) : Bool :=
  s.cmds.any (fun c => c.running && (c.op.usesShared || decide (c.op = .restoreServe)))

/-- The groups in which a command has started operators. -/
def Cmd.onGroup (c : Cmd) (g : Nat) : Bool :=
  match c.body with
  | .ops r => r.recs.any (fun x => x.started.any (fun d => decide (d / 9 = g)))
  | .selfTest _ _ _ _ => c.running && (coreSet c.params 0).any (fun d => decide (d / 9 = g))
  | _ => false

/-- R439: a group is at a command boundary.
(DEDUCED, log entry 78.) -/
def State.atBoundary (s : State) (g : Nat) : Bool := !s.cmds.any (fun c => c.onGroup g) && !s.sharedBusy

/-- Table 11.17: a request for S2 or S3 stops the input streams whose ring lies in one of the groups, and ends the output
streams after their frame.
(DEDUCED, log entry 79.) -/
def State.stopForPower (s : State) (gs : List Nat) : State :=
  s.streams.foldl (fun a x =>
    if x.output then (if x.state = .running then a.stopStream x else a)
    else
      match a.tensor x.ring with
      | some t => if x.state = .running ∧ gs.contains (groupOfAddr t.base) then
          a.setStream { x with state := .stoppedPower, frame := none } else a
      | none => a) s

/-- An output stream is still sending. -/
def State.outputRuns (s : State) : Bool := s.streams.any (fun x => x.output && decide (x.state = .running))

/-! ## SET_POWER_STATE (R380, R439) -/

/-- The groups a SET_POWER_STATE names. -/
def powerGroups (params : List Byte) : List Nat :=
  let m := fld params 2 2
  (List.range 16).filter (fun g => decide (m = 0) || m.testBit g)

/-- A command is a SET_POWER_STATE that is not terminal. -/
def Cmd.isPower (c : Cmd) : Bool := c.acked && decide (c.op = .setPowerState)

/-- The group states that an accepted SET_POWER_STATE leaves. -/
def powerLeaves (params : List Byte) (gs : List GState) : List GState :=
  if fld params 0 1 = 3 then List.replicate 16 .s2
  else (powerGroups params).foldl (fun a g => a.set g (GState.ofCode (fld params 0 1))) gs

/-- The group states that the SET_POWER_STATEs accepted so far will leave (R380).
(DEDUCED, log entry 77.) -/
def State.foreseen (s : State) : List GState :=
  (s.cmds.filter Cmd.isPower).foldl (fun a c => powerLeaves c.params a) s.groupStates

/-- R380, R434: the group states that a request would leave are not admitted; nor is a request for S0 or S1 where even every group
in S2 exceeds the cap.
(DEDUCED, log entry 77.) -/
def State.overCap (s : State) (params : List Byte) : Bool :=
  let t := GState.ofCode (fld params 0 1)
  let deepTooMuch := !decide (padm2 s.linksUp (List.replicate 16 .s2) ≤ 2 * s.setting 0x1000)
  !s.admits (powerLeaves params s.foreseen) || (decide (t ≠ .s2) && deepTooMuch)

/-- SET_POWER_STATE: its checks.
(DEDUCED, log entry 51.) -/
def setPowerState (q : Req) (s : State) : Verdict :=
  let t := fld q.params 0 1
  if q.params.length ≠ 4 ∨ 3 < t then refuse .badParam s
  else if t = 3 then .accept [] (.power 3 []) none (s.stopForPower (List.range 16))
  else if s.overCap q.params then refuse .powerLimit s
  else
    let gs := powerGroups q.params
    .accept [] (.power t gs) none (if t = 2 then s.stopForPower gs else s)

/-- A group has reached a state. -/
def State.reached (s : State) (t : GState) (g : Nat) : Bool :=
  decide ((s.groupPower g).state = t) && decide ((s.groupPower g).waking = none)

/-- A group is asked into a state: deeper at its next command boundary, shallower by a wake. -/
def State.ask (s : State) (t : GState) (g : Nat) : State :=
  let p := s.groupPower g
  let d := (p.waking.getD p.state).depth
  if d < t.depth then s.setGroup g { p with request := some t }
  else if t.depth < d then s.setGroup g { p with waking := some t, request := none }
  else s.setGroup g { p with request := none }

/-- A running SET_POWER_STATE drops the groups that have reached their state, and completes with the last. -/
def State.powerProgress (s : State) : State :=
  s.cmds.foldl (fun a c =>
    match c.body with
    | .power t gs =>
      if !c.running ∨ t = 3 then a
      else
        let left := gs.filter (fun g => !a.reached (GState.ofCode t) g)
        if left = [] then a.completeGeneric c .complete 0 0 0 else a.setCmd { c with body := .power t left }
    | _ => a) s

/-- The SECURE_CANCELs of a holder that enters S3 with a FILLING slot, which returns to FREE (R328).
(DEDUCED, log entry 81.) -/
def State.cancelFilling (s : State) : State :=
  let s1 := s.pair.slots.foldl (fun (a : State) x =>
    match s.pair.ward with
    | some w => if x.state = .filling then a.sendFlit w 6 0 x.xfer (pairMsg 0x14 0 0 0 []) [] else a
    | none => a) s
  s1.dropFilling

/-- A SET_POWER_STATE may begin: no earlier one is waiting, and one for S3 comes after every command before it (R439, R451). -/
def State.powerReady (s : State) (c : Cmd) : Bool :=
  match c.body with
  | .power t _ => c.acked && !c.running && s.mayStart c && !(s.earlier c).any Cmd.isPower
      && (decide (t ≠ 3) || (s.earlier c).isEmpty)
  | _ => false

/-- A SET_POWER_STATE begins. -/
def State.powerBegin (s : State) (c : Cmd) : State :=
  match c.body with
  | .power t gs =>
    let s1 := s.startCmd c
    if t = 3 then
      let s2 := s1.cancelFilling
      { s2 with power := { s2.power with sleep := .entering } }
    else (gs.foldl (fun (a : State) g => a.ask (GState.ofCode t) g) s1).powerProgress
  | _ => s

/-- The SET_POWER_STATEs that are ready begin, in order. -/
def State.powerNext : Nat → State → State
  | 0, s => s
  | n + 1, s =>
    match s.cmds.find? (fun c => s.powerReady c) with
    | some c => State.powerNext n (s.powerBegin c)
    | none => s

/-- Power commands move on after a change. -/
def State.powerMove (s : State) : State := s.powerProgress.powerNext s.cmds.length

/-! ## Entering and leaving states (R438 to R441) -/

/-- A change of the cores of a group. -/
def State.mapGroup (s : State) (g : Nat) (f : Core → Core) : State :=
  (List.range 9).foldl (fun (a : State) i => a.setCore (9 * g + i) (f (a.core (9 * g + i)))) s

/-- The shared units and the links take the behaviour of S2 where every group is in it (R438). -/
def State.sharedFollow (s : State) : State :=
  { s with power := { s.power with sharedS2 := s.allDeep, linksS2 := s.allDeep } }

/-- GROUP_STATE_ENTRY (R439): a group enters S1 or S2 at its command boundary. S2 costs it its OPEN slots and its Tills. -/
def execGroupStateEntry (group : Nat) (s : State) : Host.Outcome State Fault Refusal :=
  let p := s.groupPower group
  match p.request with
  | none => .next s
  | some t =>
    if 16 ≤ group ∨ p.waking ≠ none ∨ !s.atBoundary group ∨ !decide (s.power.sleep = .awake ∨ s.power.sleep = .entering) then
      .next s
    else
      let s1 := if t = .s2 then s.stopForPower [group] else s
      if t = .s2 ∧ s1.outputRuns then .next s1
      else
        let s2 := s1.setGroup group { p with state := t, request := none }
        let s3 := if t = .s2 then s2.mapGroup group Core.loseWork else s2
        .next (s3.sharedFollow).powerMove

/-- An operator or SELF_TEST of a group is queued or running (R439).
(DEDUCED, log entry 78.) -/
def State.groupInUse (s : State) (g : Nat) : Bool :=
  s.cmds.any (fun c => c.acked &&
    match c.body with
    | .ops r => r.cores.any (fun d => decide (d / 9 = g))
    | .selfTest _ _ _ _ => (coreSet c.params 0).any (fun d => decide (d / 9 = g))
    | _ => false)

/-- An idle timer of a group fires. -/
def State.autoDeeper (s : State) (g at_ : Nat) (t : GState) : State :=
  let p := s.groupPower g
  if 16 ≤ g ∨ t.depth ≤ p.state.depth ∨ p.waking ≠ none ∨ p.request = some .s2 ∨ s.groupInUse g
      ∨ s.power.sleep ≠ .awake ∨ s.power.phase ≠ .ready ∨ s.power.failed then s
  else
    let s1 := (s.reach at_).setGroup g { p with request := some t }
    if t = .s2 then s1.stopForPower [g] else s1

/-- AUTO_LIGHT_TIMEOUT (R439). -/
def execAutoLightTimeout (group : Nat) (s : State) : Host.Outcome State Fault Refusal :=
  let p := s.groupPower group
  .next (if p.light = 0 then s else s.autoDeeper group (p.idleSince + p.light) .s1)

/-- AUTO_DEEP_TIMEOUT (R439). -/
def execAutoDeepTimeout (group : Nat) (s : State) : Host.Outcome State Fault Refusal :=
  let p := s.groupPower group
  .next (if p.deep = 0 then s else s.autoDeeper group (p.idleSince + 1000 * p.deep) .s2)

/-- The PEER_KEEPALIVEs of a STATE sent to every watched peer, and every waiting link flit with them, before the links stop
(R328, R332).
(DEDUCED, log entry 81.) -/
def State.lastKeepalives (s : State) (st : Nat) : State :=
  let s1 := s.watched.foldl (fun (a : State) d => a.sendPeerKeepalive d st) s
  (List.range 64).foldl (fun (a : State) i =>
    let l := a.link i
    if l.state = .up then (l.ctrl.foldl (fun (b : State) x => b.emit i x) a).setLink i { l with ctrl := [] } else a) s1

/-- Every link that is not DISABLED goes DOWN.
(DEDUCED, log entry 81.) -/
def State.stopLinks (s : State) : State :=
  (List.range 64).foldl (fun (a : State) i => if (a.link i).state = .disabled then a else a.linkTo i .down) s

/-- What the module loses in S3 (Tables 3.6, 4.11, 6.2, 7.10, R263).
(DESIGN CHOICE, log entry 125.) -/
def State.loseAsleep (s : State) : State :=
  let lost := (s.actStacks.map (fun k => k.entries.length)).foldl (· + ·) 0
  ({ s with
    mem := s.mem.filter (fun c => decide (sramEnd ≤ c.1))
    poison := s.poison.filter (fun u => decide (sramEnd ≤ u))
    cores := s.cores.map Core.loseWork
    actStacks := s.actStacks.map (fun k => { k with entries := [] })
    programs := []
    freezes := s.freezes.map (fun f => { f with lost := true }) } : State).count 0x0329 lost

/-- The module is in S3. -/
def State.housed (s : State) : State :=
  { s with power := { s.power with
    sleep := .housed, sharedS2 := true, linksS2 := true
    groups := s.power.groups.map (fun (g : GroupPower) => { g with state := .s2, request := none, waking := none }) } }

/-- A SECURE_CANCEL of this device still waits for a link (R328). -/
def State.cancelQueued (s : State) : Bool :=
  let mine (f : Flit) : Bool := decide (s.devAddr = some f.src) && decide (f.tc = 6) && decide (f.msg = 0x14)
  s.net9.waiting.any mine || s.net9.links.any (fun l => l.queue.any mine)

/-- S3_ENTRY (R439): a SET_POWER_STATE for S3 with every earlier command terminal and no stream sending. A slot that a late piece
filled on the way is FREE again, and the SECURE_CANCEL goes out before the links stop (R328).
(DEDUCED, log entry 81.) -/
def execS3Entry (s : State) : Host.Outcome State Fault Refusal :=
  let s0 := s.powerMove
  match s0.cmds.find? (fun c => c.running && (match c.body with | .power t _ => decide (t = 3) | _ => false)) with
  | none => .next s0
  | some c =>
    let s1 := (s0.stopForPower (List.range 16)).cancelFilling
    if s1.outputRuns ∨ s1.cancelQueued then .next s1
    else
      let s2 := (s1.lastKeepalives 1).stopLinks.loseAsleep.housed
      .next ((s2.completeGeneric c .complete 0 0 0).powerMove)

/-- The module wakes from S3 (R441): every group to S2, the links train again.
(DEDUCED, log entry 80.) -/
def State.wakeModule (s : State) : State :=
  if s.power.sleep ≠ .housed then s
  else
    let s1 := { s with power := { s.power with sleep := .waking } }
    (List.range 64).foldl (fun (a : State) i =>
      if (a.link i).state = .down ∧ a.linkEnabled i ∧ a.power.refclk then a.retrain i else a) s1

/-- R441: a command that has been taken in S3 and is not served there wakes the module.
(DEDUCED, log entry 80.) -/
def State.wakeFor (s : State) (o : Op) (params : List Byte) (masks : Bool) : State :=
  if o.servedAsleep params masks then s else s.wakeModule

/-- MODULE_WAKE (R439, R441): a command held through the entry to S3 wakes the module. -/
def execModuleWake (s : State) : Host.Outcome State Fault Refusal :=
  .next (if s.cmds.any (fun c => c.acked && !s.asleepOk c) then s.wakeModule else s)

/-- A core reinitialised: it keeps its active network (Table 14.5b). -/
def Core.reinit (k : Core) : Core := { Core.reset with net := k.net }

/-- The cores of a group that a CORES reset met asleep reinitialise at its wake (R451).
(DEDUCED, log entry 85.) -/
def State.reinitGroup (s : State) (g : Nat) : State :=
  if s.power.reinit.contains g then
    ({ s with power := { s.power with reinit := s.power.reinit.filter (fun x => x ≠ g) } } : State).mapGroup g Core.reinit
  else s

/-- WAKE_COMPLETE (R438): the module, or a group, reaches the state it wakes to.
(DEDUCED, log entry 80.) -/
def execWakeComplete (group : Nat) (s : State) : Host.Outcome State Fault Refusal :=
  if s.power.sleep = .waking then
    .next ((({ s with power := { s.power with sleep := .awake } }).count 0x0707 1).powerMove)
  else
    let p := s.groupPower group
    match p.waking with
    | none => .next s
    | some t =>
      if 16 ≤ group then .next s
      else
        let s1 := (s.setGroup group { p with state := t, waking := none }).count (if p.state = .s1 then 0x0705 else 0x0706) 1
        .next (((s1.reinitGroup group).sharedFollow).touchGroups [group]).powerMove

/-! ## WAKE_ON_DEMAND (R434, R440) -/

/-- The sleeping groups that a command which is due needs in S0. -/
def State.wakeGroups (s : State) (c : Cmd) : List Nat :=
  let sleeping (g : Nat) : Bool :=
    let p := s.groupPower g
    decide (p.state ≠ .s0) && decide (p.waking = none) && decide (p.request = none)
  let due : List Nat :=
    match c.body with
    | .ops r =>
      ((List.range r.recs.length).zip r.recs).flatMap (fun y =>
        y.2.op.cores.filter (fun k => s.turnOf c r y.1 y.2 k && !s.lost k))
    | .selfTest cs _ _ _ => if s.mayStart c then cs.filter (fun k => s.coreTurn c k && !s.lost k) else []
    | _ => []
  (List.range 16).filter (fun g => due.any (fun k => decide (k / 9 = g)) && sleeping g)

/-- A command that is due needs the shared units out of S2 behaviour. -/
def State.wakesShared (s : State) (c : Cmd) : Bool :=
  c.op.usesShared && !s.sharedAwake && s.fenceOk c && s.sleepOk c && !s.power.coresReset

/-- The POWER/THERMAL bit, once for a command whose wake is not admitted. -/
def State.noteWait (s : State) (c : Cmd) : State :=
  if c.waited then s else (s.setCmd { c with waited := true }).raiseAttn attnPower

/-- WAKE_ON_DEMAND: a command wakes the groups or the shared units it needs, or waits for the cap. -/
def execWakeOnDemand (source tag : Nat) (s : State) : Host.Outcome State Fault Refusal :=
  match s.cmd source tag with
  | none => .next s
  | some c =>
    if s.wakesShared c then
      if padm2 s.linksUp s.groupStates ≤ 2 * s.setting 0x1000 then
        .next { s with power := { s.power with sharedS2 := false, linksS2 := false, lastData := s.now } }
      else .next (s.noteWait c)
    else
      let gs := s.wakeGroups c
      if gs = [] then .next s
      else if s.admits (gs.foldl (fun (a : List GState) g => a.set g .s0) s.groupStates) then
        .next (gs.foldl (fun (a : State) g => a.setGroup g { a.groupPower g with waking := some .s0 }) s)
      else .next (s.noteWait c)

/-- LINK_S2_IDLE_TIMEOUT (R446): 10 ms without a DATA flit, every group in S2. -/
def execLinkS2IdleTimeout (s : State) : Host.Outcome State Fault Refusal :=
  if s.allDeep && !(s.power.sharedS2 && s.power.linksS2) && !s.sharedBusy then
    let s1 := s.reach (s.power.lastData + 10000)
    .next { s1 with power := { s1.power with sharedS2 := true, linksS2 := true } }
  else .next s

/-! ## The cap loop (R433, R434) -/

/-- A throttle event: THROTTLES, and the POWER/THERMAL bit for the first since a READ_ATTENTION.
(DEDUCED, log entry 83.) -/
def State.throttle (s : State) : State :=
  let s1 := { s with attention := { s.attention with throttles := satAdd 16 s.attention.throttles 1 } }
  if s1.power.throttled then s1
  else ({ s1 with power := { s1.power with throttled := true } }).raiseAttn attnPower

/-- R434: where even all groups in S2 exceed the cap, the bit once for each change of the cap or of the links UP. -/
def State.lookAtCap (s : State) : State :=
  let key := (s.setting 0x1000, s.linksUp)
  if key = s.power.capSeen then s
  else
    let s1 := { s with power := { s.power with capSeen := key } }
    if padm2 s.linksUp (List.replicate 16 .s2) ≤ 2 * s.setting 0x1000 then s1 else s1.raiseAttn attnPower

/-- The next action of the cap loop: the ceiling, then the clusters, then the grants. For how much of the stint the clusters are
held is free.
(DEDUCED, log entry 82.) -/
def State.capDown (s : State) : State :=
  let p := s.power
  let c := min p.capCeiling (s.setting 0x1001)
  if 400 < c then { s with power := { p with capCeiling := max 400 (c - 25) } }
  else if !p.holdClusters then
    let w := s.freeNat
    { w.2 with power := { p with holdClusters := true, holdUs := w.1 % (s.stintActing 0x2100 + 1) } }
  else { s with power := { p with withhold := true } }

/-- The last action undone.
(DEDUCED, log entry 82.) -/
def State.capUp (s : State) : State :=
  let p := s.power
  if p.withhold then { s with power := { p with withhold := false } }
  else if p.holdClusters then { s with power := { p with holdClusters := false } }
  else { s with power := { p with capCeiling := min 1300 (p.capCeiling + 25) } }

/-- POWER_SAMPLE (R433): the input power of 10 µs.
(DEDUCED, log entry 82.) -/
def execPowerSample (watts : Nat) (s : State) : Host.Outcome State Fault Refusal :=
  if s.power.phase = .off then .fault .noPower
  else
    let xs := (watts :: s.power.samples).take 100
    let sum := xs.foldl (· + ·) 0
    let cap := s.setting 0x1000
    let drawn := (s.power.stintDrawn.1 + watts, s.power.stintDrawn.2 + 1)
    let s1 := ({ s with power := { s.power with
      samples := xs, stintDrawn := drawn, energy := s.power.energy + 10 * watts } }).lookAtCap
    let s2 :=
      if 102 * cap * xs.length < 100 * sum then s1.capDown.throttle
      else if sum < cap * xs.length then s1.capUp else s1
    .next (s2.count 0x0702 (if s2.power.holdClusters ∨ s2.power.withhold then 10 else 0))

/-! ## The thermal loop (R435) -/

/-- The readings of the cores' sensors, hottest first in a group. -/
def State.hottest (s : State) (g : Nat) : Int :=
  ((List.range 9).map (fun c => s.health.coreTemps.getD (9 * g + c) 0)).foldl max (-128)

/-- A new reading of sensor `i`, unless it is powered down (R467): a core's while its group is in S2 and in S3, a Tinker's in S3.
(DEDUCED, log entry 84.) -/
def State.sensed (s : State) (temps : List Int) (i : Nat) (old : Int) : Int :=
  if i < 148 ∧ s.power.phase = .ready ∧ !s.power.failed ∧ !s.unitPowered (if i < 144 then i else 4096) then old
  else temps.getD i old

/-- The sensors sampled: 144 cores, 4 Tinkers, 8 packages, inlet, outlet.
(DEDUCED, log entry 10.) -/
def State.sense (s : State) (temps : List Int) : State :=
  let h := s.health
  let upd (base : Nat) (xs : List Int) : List Int :=
    ((List.range xs.length).zip xs).map (fun x => s.sensed temps (base + x.1) x.2)
  let h1 := { h with
    coreTemps := upd 0 h.coreTemps, tinkerTemps := upd 144 h.tinkerTemps, packageTemps := upd 148 h.packageTemps
    inlet := temps.getD 156 h.inlet, outlet := temps.getD 157 h.outlet }
  { s with health := h1, attention := { s.attention with tempMax := h1.coreTemps.foldl max s.attention.tempMax } }

/-- The sensors of Tables 15.3 and 15.4. -/
def State.sensors (s : State) : List Int :=
  s.health.coreTemps ++ s.health.tinkerTemps ++ s.health.packageTemps ++ [s.health.inlet, s.health.outlet]

/-- One sample of a group's thermal ceiling.
(DEDUCED, log entry 83.) -/
def State.thermalGroup (s : State) (g : Nat) : State :=
  let p := s.groupPower g
  let thr : Int := (s.setting 0x1002 : Nat)
  let top := s.setting 0x1001
  let hot := s.hottest g
  let up := if top ≤ p.thermal + 25 then 1300 else p.thermal + 25
  if s.power.hot then s.setGroup g { p with thermal := 400, lowering := true }
  else if thr ≤ hot ∨ (p.lowering ∧ thr - 2 < hot) then
    let s1 := s.setGroup g { p with thermal := max 400 (min p.thermal top - 25), lowering := true }
    if p.lowering then s1 else s1.throttle
  else if p.thermal < 1300 then s.setGroup g { p with thermal := up, lowering := false }
  else s.setGroup g { p with lowering := false }

/-- A form-I command that waits in its slot ends ABORTED (R435): in its source's tag table, and in its reply.
(DEDUCED, log entry 140.) -/
def State.killHeld (s : State) (c : Cmd) : State :=
  ((s.dropCmd c).recordTag c.source ⟨c.tag, c.op, .aborted⟩).reply c.op .ack c.source c.tag .aborted []

/-- THERMAL_TRIP (R435): the clocks stop, every command ends with CAUSE 0x41, and the device is FAILED; a cold start that was under way
ends there.
(DEDUCED, log entry 140.) -/
def State.thermalTrip (s : State) : State :=
  let s1 := ({ s with power := { s.power with failed := true, tripLow := true, phase := .ready } }).stopLinks
  let s2 := s1.cmds.foldl (fun (a : State) c => if c.acked then a.killCmd c 0x41 else a.killHeld c) s1
  { s2 with cmds := [], commits := [], ledger := if s2.commits.isEmpty then s2.ledger else none }

/-- The limit of 105 °C (R435): it holds from a core that reads so until all read THERM_THROTTLE_C − 2 °C or less. -/
def State.hotLimit (s : State) : State :=
  let thr : Int := (s.setting 0x1002 : Nat)
  if s.health.coreTemps.any (fun t => decide (105 ≤ t)) then
    if s.power.hot then s
    else (({ s with power := { s.power with hot := true } }).throttle).raiseAttn attnPower
  else if s.health.coreTemps.all (fun t => decide (t ≤ thr - 2)) then { s with power := { s.power with hot := false } }
  else s

/-- The clocks run that R435 throttles and stops: from RESET_N release on, until a trip. -/
def State.clocked (s : State) : Bool :=
  !s.power.failed && decide (s.power.phase = .boot ∨ s.power.phase = .ready)

/-- TEMP_SAMPLE (R435, R467, R480): every sensor is read, the module trips at 115 °C, and the ceilings move. -/
def execTempSample (temps : List Int) (s : State) : Host.Outcome State Fault Refusal :=
  if s.power.phase = .off then .fault .noPower
  else
    let s1 := s.sense temps
    if !s1.clocked then .next s1
    else
      let s2 := s1.lookAtInlet.hotLimit
      if s2.sensors.any (fun t => decide (115 ≤ t)) then .next s2.thermalTrip
      else
        let s3 := (List.range 16).foldl State.thermalGroup s2
        let low := s3.power.groups.any (fun g => decide (g.thermal < s3.setting 0x1001))
        .next (s3.count 0x0703 (if low then 100 else 0))

/-- The lowest of the ceilings of a core's frequency (R443). -/
def State.vfGoal (s : State) (core : Nat) : Nat :=
  min (s.setting 0x1001) (min s.power.capCeiling (s.groupPower (core / 9)).thermal)

/-- What a step of a core's loop does. -/
inductive VfMove where
  | to (mhz mv : Nat)
  | retire
  deriving DecidableEq, Repr

/-- R443: one step of the loop from a frequency and a voltage, where the frequency needs `need` millivolts and the next one up
`next`: 25 MHz or 5 mV, the voltage first on the way up and the frequency first on the way down. A core that needs more than
the highest voltage slows down, and is retired where it does so at 400 MHz.
(DESIGN CHOICE, log entry 139.) -/
def vfMove (goal top f v need next : Nat) : VfMove :=
  if goal < f then .to (max goal (f - 25)) v
  else if v < need then
    if v + 5 ≤ top then .to f (v + 5)
    else if 400 < f then .to (max 400 (f - 25)) v else .retire
  else if f < goal then
    if next ≤ v then .to (min goal (f + 25)) v
    else if v + 5 ≤ top then .to f (v + 5) else .to f v
  else if need + 5 ≤ v then .to f (v - 5) else .to f v

/-- VF_LOOP_STEP (R443): a core's frequency and voltage move towards the lowest of its ceilings. What voltages its margins need, and
how many cycles it stretched, is free.
(DESIGN CHOICE, log entry 12; DESIGN CHOICE, log entry 139.) -/
def execVfLoopStep (core : Nat) (s : State) : Host.Outcome State Fault Refusal :=
  if 144 ≤ core ∨ (s.groupPower (core / 9)).state ≠ .s0 ∨ s.power.failed then .next s
  else
    let n := s.freeNat
    let a := n.2.freeNat
    let b := a.2.freeNat
    let s1 := b.2.count 0x0704 n.1
    match vfMove (s.vfGoal core) Config.topMv (s.power.coreMhz.getD core 400) (s.power.coreMv.getD core Config.startMv) a.1 b.1 with
    | .to f v => .next { s1 with power := { s1.power with
        coreMhz := s1.power.coreMhz.set core f, coreMv := s1.power.coreMv.set core v } }
    | .retire => .next (s1.coreFault core)

/-- THERMAL_PLACEMENT (R444): the ratings published. -/
def execThermalPlacement (advice : List Nat) (s : State) : Host.Outcome State Fault Refusal :=
  .next { s with power := { s.power with groups :=
    ((List.range s.power.groups.length).zip s.power.groups).map (fun x =>
      { x.2 with advice := min 2 (advice.getD x.1 x.2.advice) }) } }

/-- INLET_EXCURSION (R480): a reading of INLET_C. -/
def execInletExcursion (inlet : Int) (s : State) : Host.Outcome State Fault Refusal :=
  .next ({ s with health := { s.health with inlet := inlet } } : State).lookAtInlet

/-! ## Stints (R207, R211, R214) -/

/-- The stint settings as committed. -/
def State.committedStint (s : State) : List (Nat × Nat) := s.settings.filter (fun x => decide (x.1 / 256 = 0x21 ∨ x.1 / 256 = 0x22))

/-! ## Feeds and the reference clock (R431, R475) -/

/-- A feed is in its range. -/
def State.feedIn (s : State) (feed : Nat) : Bool := if feed = 0 then s.power.feedA else if feed = 1 then s.power.feedB else true

/-- A feed is set in or out of its range. -/
def State.setFeed (s : State) (feed : Nat) (b : Bool) : State :=
  { s with power := { s.power with
    feedA := if feed = 0 then b else s.power.feedA, feedB := if feed = 1 then b else s.power.feedB } }

/-- FEED_RESTORE: a feed is back in range for 10 ms, or arrives; before the rails are in regulation it counts as no restoration
(R476). -/
def execFeedRestore (feed : Nat) (s : State) : Host.Outcome State Fault Refusal :=
  if s.power.phase = .off ∨ s.feedIn feed then .next s
  else if s.power.phase = .rising then .next (s.setFeed feed true)
  else .next ((s.setFeed feed true).raiseAttn attnPower)

/-- REFCLK_LOSS: every link leaves UP for DOWN. -/
def execRefclkLoss (s : State) : Host.Outcome State Fault Refusal :=
  let s1 := { s with power := { s.power with refclk := false } }
  .next (((List.range 64).foldl (fun (a : State) i => if (a.link i).state = .up then a.linkTo i .down else a) s1).raiseAttn
    attnLink)

/-- REFCLK_RETURN: the links retrain at their next retry. -/
def execRefclkReturn (s : State) : Host.Outcome State Fault Refusal :=
  .next { s with power := { s.power with refclk := true } }

end Sys2Proof.Machine
end

