-- ==== Sys2Proof/Machine/Reset.lean ====
section
/-!
DEFINITION. Resets and start-up: RESET (R381), the cold start and READY (R424 to R426, R447 to R450), the CORES reset, power-up and
the sideband pins (R431, R470 to R478).
-/
namespace Sys2Proof.Machine

/-! ## RESET (R381) -/

/-- RESET: its checks; the reset follows the reply. -/
def reset (q : Req) (s : State) : Verdict :=
  let k := fld q.params 0 1
  if q.params.length ≠ 4 ∨ k = 0 ∨ 2 < k then refuse .badParam s
  else if k = 1 then .done .ok [] s .coresReset
  else if q.role = .installer ∨ q.role = .maker then .done .ok [] s .coldStart
  else refuse .noRight s

/-- The commands that use a core or a Tinker (R381).
(DEDUCED, log entry 85.) -/
def Cmd.usesUnits (c : Cmd) : Bool :=
  match c.op with
  | .opRun | .graphRun | .selfTest | .updateRun | .paramWrite => c.acked
  | _ => false

/-- The groups that sleep, or wait for their wake. -/
def State.asleepGroups (s : State) : List Nat := (List.range 16).filter (fun g => decide ((s.groupPower g).state ≠ .s0))

/-- A CORES reset (R381, R449, Table 14.5b): the commands that use a core or a Tinker end, every core and stack entry is
cleared, and each core keeps its network; the cores of a group that sleeps reinitialise at its wake (R451). Commands start again at
CORES_RESET_DONE.
(DEDUCED, log entry 85.) -/
def State.coresReset (s : State) : State :=
  let s1 := s.cmds.foldl (fun (a : State) c => if c.usesUnits then a.killCmd c 0x41 else a) s
  let later := s1.asleepGroups
  { s1 with
    cores := ((List.range 144).zip s1.cores).map (fun x => if later.contains (x.1 / 9) then x.2 else x.2.reinit)
    actStacks := s1.actStacks.map (fun k => { k with entries := [] })
    power := { s1.power with coresReset := true, reinit := later } }

/-- CORES_RESET_DONE (R449). -/
def execCoresResetDone (s : State) : Host.Outcome State Fault Refusal :=
  if s.power.coresReset then .next ({ s with power := { s.power with coresReset := false } }).powerMove else .next s

/-! ## The cold start (R447, Table 14.5b) -/

/-- A link as a reset leaves it until the boot: its lanes as they were spared (R453), powered down.
(DEDUCED, log entry 86.) -/
def Link.coldStart (l : Link) : Link :=
  { Link.reset with state := .disabled, failed := l.failed, active := l.active, spareUsed := l.spareUsed, half := l.half }

/-- Table 14.5b: what a cold start clears and keeps.
(DEDUCED, log entry 14; DEDUCED, log entry 59; DEDUCED, log entry 86.) -/
def State.wiped (s : State) : State :=
  let p := s.power
  { State.reset with
    pending := s.pending
    out := s.out
    settings := s.settings
    portSettings := s.settings.filter (fun x => decide (x.1 / 4096 = 5))
    stintSettings := s.committedStint
    trust := { s.trust with fails := [], nextChallenge := 1 }
    health := { s.health with failedPackages := [], scrubbed := 0, patrolled := 0, rated := 0, tested := [] }
    net9 := { Net9.reset with links := s.net9.links.map Link.coldStart, wire := s.net9.wire }
    power := { Power.reset with
      phase := .held, stage := 0, feedA := p.feedA, feedB := p.feedB, powerOk := p.powerOk, tripLow := p.tripLow,
      resetLow := p.resetLow, selfHold := p.selfHold, hotHold := p.hotHold, refclk := p.refclk, straps := p.straps }
    free := s.free }

/-- A slot of firmware whose four stages pass verification (R424). -/
def Firmware.slotOk (f : Firmware) (b : Bool) : Bool := decide (slotResult f.rollback (if b then f.slotB else f.slotA) = .ok)

/-- R424: the slot a boot runs; none where both fail.
(DEDUCED, log entry 86.) -/
def Firmware.choose (f : Firmware) : Option Firmware :=
  let p := f.preferB
  if f.slotOk p ∧ !(f.trial && decide (3 ≤ f.tries)) then
    some { f with runningB := p, tries := if f.trial then f.tries + 1 else 0, fellBack := false }
  else if f.slotOk (!p) then
    some { f with preferB := !p, runningB := !p, trial := false, tries := 0, fellBack := true }
  else none

/-- R426: the measurements of the slot that runs. -/
def Firmware.measured (f : Firmware) : Firmware :=
  { f with measures := (if f.runningB then f.slotB else f.slotA).map (fun x => match x with | some st => st.digest | none => []) }

/-- Table 13.11: keys whose read from flash is poisoned are treated as empty, with FAULT raised.
(DESIGN CHOICE, log entry 122.) -/
def State.readKeys (s : State) : State :=
  let ks := s.trust.keys.filter (fun k => !Config.keyBad s.trust.firmware.bootCount k.role.code k.index)
  if ks.length < s.trust.keys.length then
    ({ s with trust := { s.trust with keys := ks } } : State).raiseFault (6 * 4096)
  else s

/-- The enabled links start to train (R273, R447). -/
def State.trainLinks (s : State) : State :=
  { s with net9 := { s.net9 with links := ((List.range 64).zip s.net9.links).map (fun x =>
    { x.2 with state := if s.linkEnabled x.1 then .training else .disabled }) } }

/-- ID_STRAP[3:0] sampled (R470): what the carrier wires then is open.
(DESIGN CHOICE, log entry 7.) -/
def State.sampleStraps (s : State) : State :=
  let w := s.freeNat
  { w.2 with power := { w.2.power with straps := w.1 % 16 } }

/-- The boot (Table 14.4, steps 1 and 2): link training starts, and the ROM chooses a slot, whose stages are then verified (stage 0).
Where both slots fail, the ROM runs the recovery path (R368).
(DESIGN CHOICE, log entry 4; DEDUCED, log entry 86.) -/
def State.boot (s : State) : State :=
  let s0 := s.readKeys
  let s1 : State := ({ s0 with
    now := 0
    power := { s0.power with selfHold := false, hotHold := false, tripLow := false } } : State).trainLinks
  let flash := Config.flashFault s1.trust.firmware.bootCount
  match s1.trust.firmware.choose with
  | none =>
    ({ s1 with power := { s1.power with phase := .ready, stage := 0, recovery := true }
               trust := { s1.trust with flashFault := flash } } : State).raiseService 2
  | some f =>
    let s2 : State := { s1 with
      trust := { s1.trust with firmware := f.measured, flashFault := flash }, power := { s1.power with phase := .boot, stage := 0 } }
    if f.fellBack then s2.raiseFault (6 * 4096) else s2

/-- The boot goes on while nothing is commanded (Table 14.4, steps 3 to 5): stage-1, then the Boathouse, whose ports answer from
stage 2 on.
(DESIGN CHOICE, log entry 4.) -/
def State.bootTick (s : State) : State :=
  if s.power.phase = .boot ∧ s.power.stage < 2 then { s with power := { s.power with stage := s.power.stage + 1 } } else s

/-- R478: a tripped module with a sensor at 100 °C or more stays in reset.
(DEDUCED, log entry 87.) -/
def State.tooHot (s : State) : Bool := s.power.tripLow && s.sensors.any (fun t => decide (100 ≤ t))

/-- A reset of the whole module by RESET_N: STATE 2 goes to the peers (R332), and everything is cleared. -/
def State.moduleReset (s : State) : State :=
  let s1 := if s.power.phase = .ready ∧ !s.power.failed then s.lastKeepalives 2 else s
  let hot := s.tooHot
  let w := s1.wiped
  { w with power := { w.power with hotHold := hot, tripLow := hot } }

/-- A cold start that a command asks for (R412): the rollback record first; the boot follows unless the module is too hot.
(DEDUCED, log entry 87.) -/
def State.coldStart (s : State) : State :=
  let s1 := match s.ledger with
    | some l => s.rollback .reset (s.actor 0x02 l.owner)
    | none => s
  let s2 := s1.moduleReset
  if s2.power.hotHold then s2 else s2.boot

/-- R462: a marked row is repaired as its package trains, and is marked no more; or it finds no repair row, which is open, and stays
marked and in service. A repair is reported (R1).
(DESIGN CHOICE, log entry 89.) -/
def State.repairRow (s : State) (row : Nat) : State :=
  let w := s.freeNat
  let h := w.2.health
  if w.1 % 2 = 0 then
    (({ w.2 with health := { h with lpddrMarks := h.lpddrMarks.filter (fun r => r ≠ row) } } : State).count 0x0744 1).spareEvent
  else { w.2 with health := { h with unrepairable := h.unrepairable ++ [row] } }

/-- R462: the repairs of a cold start. -/
def State.repairRows (s : State) : State :=
  (s.health.lpddrMarks.filter (fun r => !s.health.unrepairable.contains r)).foldl State.repairRow s

/-- R425: the anti-rollback counter rises to the smallest SVN of the slot that runs. -/
def State.raiseRollback (s : State) : State :=
  let f := s.trust.firmware
  let svns := (if f.runningB then f.slotB else f.slotA).filterMap (fun x => x.map FwStage.svn)
  let m := svns.foldl min 256
  if f.rollback < m ∧ svns ≠ [] ∧ !s.trust.flashFault then
    let s1 : State := { s with trust := { s.trust with firmware := { f with rollback := m } } }
    s1.audit { AuditEvent.device 0x0C with old := f.rollback, new := m }
  else s

/-- R447: the groups take READY_STATE in ascending order while R434 admits them. -/
def State.placeGroups (s : State) : State :=
  let t := GState.ofCode (s.setting 0x1003)
  ((List.range 16).foldl (fun (a : State) g =>
    if a.admits (a.groupStates.set g t) then a.setGroup g { a.groupPower g with state := t } else a) s).touchGroups (List.range 16)

/-- READY (R447).
(DEDUCED, log entry 86.) -/
def execReady (s : State) : Host.Outcome State Fault Refusal :=
  if s.power.phase ≠ .boot then .next s
  else
    let f := s.trust.firmware
    let s1 := s.repairRows
    let s2 := s1.audit { AuditEvent.device 0x0B with
      detail := leBytes 1 0 ++ leBytes 1 (if f.runningB then 1 else 0) ++ leBytes 1 (if f.fellBack then 1 else 0) }
    let s3 := s2.raiseRollback
    let g := s3.trust.firmware
    let s4 : State := { s3 with
      trust := { s3.trust with firmware := { g with bootCount := g.bootCount + 1, trial := false, tries := 0 } }
      power := { s3.power with phase := .ready, stage := 3, capSeen := (0, 0) } }
    .next (s4.placeGroups.sharedFollow.lookAtCap).powerMove

/-! ## Power and pins (R431, R472, R473, R476, R478) -/

/-- The module is without power: POWER_OK is low, and nothing that is not in flash remains (R472).
(DEDUCED, log entry 14.) -/
def State.powerGone (s : State) : State :=
  let w := s.wiped
  { w with power := { w.power with
    phase := .off, feedA := false, feedB := false, powerOk := false, selfHold := false, hotHold := false, tripLow := false } }

/-- BOTH_FEEDS_LOST (R472). -/
def execBothFeedsLost (s : State) : Host.Outcome State Fault Refusal := .next s.powerGone

/-- FEED_LOSS (R431): feed A (0) or B (1) is lost. With the second, both have been out of range for 100 µs (R472). -/
def execFeedLoss (feed : Nat) (s : State) : Host.Outcome State Fault Refusal :=
  if 1 < feed ∨ !s.feedIn feed then .next s
  else if !s.feedIn (1 - feed) then .next s.powerGone
  else .next (((s.setFeed feed false).count (if feed = 0 then 0x0700 else 0x0701) 1).raiseAttn attnPower)

/-- POWER_UP (R476): feed A (0) or B (1) enters its range first. -/
def execPowerUp (feed : Nat) (s : State) : Host.Outcome State Fault Refusal :=
  if s.power.phase ≠ .off then .next s
  else .next { s with power := { s.power with phase := .rising, feedA := decide (feed = 0), feedB := decide (feed ≠ 0) } }

/-- RAILS_IN_REGULATION (R476, R478): POWER_OK and THERM_TRIP_N are released. A module whose RESET_N is already high holds
itself in reset. -/
def execRailsInRegulation (s : State) : Host.Outcome State Fault Refusal :=
  if s.power.phase ≠ .rising then .next s
  else .next { s with power := { s.power with
    phase := .held, powerOk := true, tripLow := false, selfHold := !s.power.resetLow } }

/-- RESET_HOLD_RELEASE (R476): 1 ms after the rails are in regulation. -/
def execResetHoldRelease (s : State) : Host.Outcome State Fault Refusal :=
  if s.power.phase = .held ∧ s.power.selfHold ∧ !s.power.resetLow then .next s.sampleStraps.boot else .next s

/-- RESET_N_ASSERT (R473, R478): a low pulse of 10 µs or more. -/
def execResetNAssert (s : State) : Host.Outcome State Fault Refusal :=
  let s1 : State := { s with power := { s.power with resetLow := true } }
  if s.power.phase = .off ∨ s.power.phase = .rising then .next s1
  else
    let s2 := s1.moduleReset
    .next { s2 with power := { s2.power with selfHold := false } }

/-- RESET_N_RELEASE (R447, R470, R478): the straps are sampled and the cold start begins, unless the module must first cool. -/
def execResetNRelease (s : State) : Host.Outcome State Fault Refusal :=
  if !s.power.resetLow then .next s
  else
    let s1 : State := { s with power := { s.power with resetLow := false } }
    if s.power.phase ≠ .held then .next s1
    else if s.power.hotHold then .next s1.sampleStraps
    else .next s1.sampleStraps.boot

/-- THERMAL_TRIP_RECOVERY (R478): every sensor has read below 100 °C for 1 s.
(DEDUCED, log entry 87.) -/
def execThermalTripRecovery (s : State) : Host.Outcome State Fault Refusal :=
  if s.power.phase = .held ∧ s.power.hotHold ∧ !s.power.resetLow ∧ s.sensors.all (fun t => decide (t < 100)) then .next s.boot
  else .next s

end Sys2Proof.Machine
end

