-- ==== Sys2Proof/Machine/Host.lean ====
section
/-!
DEFINITION. The host's side: command packets and the order of their checks (R339 to R350, R374, R375), the reply forms (R371), the
start of commands held back (R168), and bulk data (R344, R345).
-/
namespace Sys2Proof.Machine

/-! ## Ports and replies -/

/-- The single reply of a command that is not accepted, to the port its packet came on. -/
def State.answerTo (s : State) (port opcode source tag : Nat) (r : Res) (params : List Byte) : State :=
  s.replyOn port opcode .ack source tag r.code params

/-- R347: a SEQ_GAP reply is counted. -/
def State.countGap (s : State) : State :=
  ({ s with attention := { s.attention with seqGaps := satAdd 32 s.attention.seqGaps 1 } }).count 0x0606 1

/-! ## The checks of R350 and R374 -/

/-- R350: what a source that has not logged in may send; in recovery, R368. -/
def State.loginFree (s : State) (op : Option Op) : Bool :=
  match op with
  | some .getStatus | some .identityGet => true
  | some .loginChallenge | some .loginResponse => !s.power.recovery
  | some .fwStage | some .fwActivate => s.power.recovery
  | _ => false

/-- R374: the state refuses a command with LOCKED.
(DEDUCED, log entry 52; DEDUCED, log entry 53.) -/
def State.lockedOut (s : State) (op : Option Op) : Bool :=
  match s.stateCode with
  | 0 => (match op with | some .getStatus | some .identityGet => false | _ => true)
  | 7 =>
    (match op with
     | some .getStatus | some .readAttention | some .identityGet | some .auditRead | some .countersRead | some .reset => false
     | _ => true)
  | _ => false

/-- Table 12.2: the roles that may send a command, beyond what its own rule says. -/
def State.mayRole (s : State) (op : Op) (r : Role) : Bool :=
  match op with
  | .getStatus | .loginChallenge | .loginResponse | .identityGet => true
  | .fwStage | .fwActivate => decide (r = .installer) || decide (r = .maker) || s.power.recovery
  | .selfTest | .auditRead | .keyEnrol => decide (r = .installer) || decide (r = .maker)
  | _ => decide (r ≠ .none)

/-- A command's own checks, and what it does at once. -/
def handle (q : Req) (s : State) : Verdict :=
  match q.op with
  | .nop => nop q s
  | .getStatus => getStatus q s
  | .readAttention => readAttention q s
  | .loginChallenge => loginChallenge q s
  | .loginResponse => loginResponse q s
  | .logout => logout q s
  | .setPowerState => setPowerState q s
  | .reset => reset q s
  | .ledgerBegin => ledgerBegin q s
  | .ledgerSet => ledgerSet q s
  | .ledgerCommit => ledgerCommit q s
  | .ledgerRollback => ledgerRollback q s
  | .settingGet => settingGet q s
  | .settingSet => settingSet q s
  | .tensorWrite => tensorWrite q s
  | .tensorRead => tensorRead q s
  | .tensorCopy => tensorCopy q s
  | .tensorFill => tensorFill q s
  | .tensorDefine => tensorDefine q s
  | .assayRead => assayRead q s
  | .networkLoad => networkLoad q s
  | .networkActivate => networkActivate q s
  | .opRun => opRun q s
  | .graphRun => graphRun q s
  | .abort => abort q s
  | .fence => fence q s
  | .networkUnload => networkUnload q s
  | .stackConfig => stackConfig q s
  | .updateProgramLoad => updateProgramLoad q s
  | .updateRun => updateRun q s
  | .freezeSet => freezeSet q s
  | .paramWrite => paramWrite q s
  | .pairSet => pairSet q s
  | .secure => secure q s
  | .restoreServe => restoreServe q s
  | .linkStatus => linkStatus q s
  | .routeLoad => routeLoad q s
  | .crewListSet => crewListSet q s
  | .collectiveRun => collectiveRun q s
  | .streamMap => streamMap q s
  | .streamStart => streamStart q s
  | .streamStop => streamStop q s
  | .streamOut => streamOut q s
  | .countersRead => countersRead q s
  | .spareStatus => spareStatus q s
  | .repair => repair q s
  | .selfTest => selfTest q s
  | .identityGet => identityGet q s
  | .attest => attest q s
  | .fwStage => fwStage q s
  | .fwActivate => fwActivate q s
  | .auditRead => auditRead q s
  | .keyEnrol => keyEnrol q s

/-! ## What follows a verdict -/

/-- What happens after a reply has left.
(DEDUCED, log entry 102.) -/
def State.afterReply (s : State) (source : Nat) : After → State
  | .nothing => s
  | .logout => s.afterCmd source
  | .revoke r i => s.endLogins r i
  | .coresReset => s.coresReset
  | .coldStart => s.coldStart
  | .abort src tag => match s.cmd src tag with | some c => s.abortCmd c | none => s

/-- A command that may start does at once what no row of its own does; the others wait for their rows. -/
def State.begin (s : State) (c : Cmd) : State :=
  if c.op = .setPowerState then s.powerMove
  else if !s.mayStart c || c.running then s
  else
    match c.op, c.body with
    | .attest, _ => s.finishAttest c
    | .auditRead, _ => s.finishAudit c
    | .fwStage, _ => s.finishFwStage { c with running := true, startedAt := s.now } (match c.bulk with | some b => b.data | none => [])
    | .pairSet, _ => s.bindStart c
    | .streamOut, .streamOut id => (s.startCmd c).startOutput id
    | .tensorRead, .plain => s.startRead c
    | .tensorWrite, _ | .tensorRead, _ | .tensorCopy, _ | .tensorFill, _ | .restoreServe, _ | .settingSet, _ | .ledgerCommit, _ =>
      s.startCmd c
    | _, _ => s

/-- A command with its slot.
(DESIGN CHOICE, log entry 97.) -/
def Req.cmd (q : Req) (no now : Nat) (acked : Bool) (bulk : Option Nat) (body : Body) : Cmd :=
  { no := no, source := q.source, tag := q.tag, op := q.op, flags := q.flags, seq := q.seq, params := q.params, acked := acked,
    running := false, startedAt := 0, waited := false, bulk := bulk.map (fun n => ⟨n, [], now⟩), body := body }

/-- A command takes a slot.
(DESIGN CHOICE, log entry 97.) -/
def State.addCmd (s : State) (c : Cmd) : State := { s with cmds := s.cmds ++ [c], nextNo := s.nextNo + 1 }

/-- A single reply leaves (form I, form X, or a refusal): the outcome of form I is recorded (R175). -/
def State.single (s : State) (q : Req) (r : Res) (params : List Byte) (after : After) : State :=
  let s1 := if r = .ok ∧ !q.op.exempt then s.recordTag q.source ⟨q.tag, q.op, .ok⟩ else s
  (s1.answerTo q.port q.op.code q.source q.tag r params).afterReply q.source after

/-- A command is accepted (forms A and D): it takes its slot and its entry in the tag table, the ACK leaves, and it begins where it
may. -/
def State.accepted (s : State) (q : Req) (params : List Byte) (body : Body) (bulk : Option Nat) : State :=
  let c := q.cmd s.nextNo s.now true bulk body
  let s1 := ((s.addCmd c).recordTag q.source ⟨q.tag, q.op, .accepted⟩).answerTo q.port q.op.code q.source q.tag .accepted params
  (c.watches.foldl State.watchPeer s1).begin c

/-- What a verdict makes of the state.
(DEDUCED, log entry 102.) -/
def conclude (q : Req) : Verdict → State
  | .done r params s after => s.single q r params after
  | .accept params body bulk s => s.accepted q params body bulk
  | .await total s => s.addCmd (q.cmd s.nextNo s.now false (some total) (.held q.port q.role q.keyIndex))

/-- A verdict is no refusal. -/
def Verdict.taken : Verdict → Bool
  | .done r _ _ _ => decide (r = .ok)
  | _ => true

/-- A verdict with a change of its state. -/
def Verdict.mapState (f : State → State) : Verdict → Verdict
  | .done r p s a => .done r p (f s) a
  | .accept p b n s => .accept p b n (f s)
  | .await n s => .await n (f s)

/-- A command's checks, and what wakes the module for it (R441). -/
def State.verdict (s : State) (q : Req) : Verdict :=
  let masks := match s.ledger with | some l => !l.masks.isEmpty | none => false
  let v := handle q s
  if v.taken then v.mapState (fun t => t.wakeFor q.op q.params masks) else v

/-- A command is served: its checks, and the reply. -/
def State.serve (s : State) (q : Req) : State := conclude q (s.verdict q)

/-- What a verdict makes of the state where the command's source is no longer bound: no reply leaves (Table 14.5b). -/
def concludeMute (q : Req) : Verdict → State
  | .done _ _ s after => s.afterReply q.source after
  | .accept _ _ _ s => s
  | .await _ s => s

/-- The commands of form I (Table 12.1). -/
def Op.immediate (o : Op) (params : List Byte) : Bool :=
  match o with
  | .setPowerState | .ledgerCommit | .settingSet | .tensorWrite | .tensorRead | .tensorCopy | .tensorFill
  | .networkActivate | .opRun | .graphRun | .fence | .updateRun | .paramWrite | .secure | .restoreServe | .collectiveRun
  | .streamOut | .repair | .selfTest | .attest | .fwStage | .auditRead => false
  | .pairSet => decide (fld params 0 1 ≠ 0)
  | .getStatus | .readAttention | .abort => false
  | _ => true

/-- A form-I command that other commands hold back (R168, R169): it waits in a slot for its start. One with bulk data takes that in
meanwhile (R344).
(DEDUCED, log entry 56.) -/
def State.hold (s : State) (q : Req) : State :=
  let held : Body := .held q.port q.role q.keyIndex
  match q.op, handle q s with
  | .networkLoad, .await n _ => s.addCmd (q.cmd s.nextNo s.now false (some n) held)
  | .crewListSet, .await n _ => s.addCmd (q.cmd s.nextNo s.now false (some n) held)
  | _, _ => s.addCmd (q.cmd s.nextNo s.now false none held)

/-- A form-I command must wait: it has FENCE_BEFORE and a command is not terminal (R168), or it uses no core and a FENCE over the
whole device is not complete (R169).
(DEDUCED, log entry 56.) -/
def State.mustHold (s : State) (q : Req) : Bool :=
  q.op.immediate q.params
    && ((fenceBefore q.flags && s.cmds.any (fun c => c.acked))
      || (!q.op.usesCores && s.cmds.any (fun c => c.acked && decide (c.body = .fence []))))

/-- The request of a packet's command.
(DEDUCED, log entry 52.) -/
def State.request (s : State) (op : Op) (p : Packet) (params : List Byte) : Req :=
  match s.source p.source with
  | some x => ⟨op, p.port, p.source, p.tag, p.flags, p.seq, x.role, x.keyIndex, params⟩
  | none => ⟨op, p.port, p.source, p.tag, p.flags, p.seq, .none, 0xFF, params⟩

/-- The checks of R350 from its step 4 on, with R374: the command of a packet that is bound and in sequence.
(DEDUCED, log entry 52.) -/
def State.dispatch (s : State) (opcode : Nat) (p : Packet) (params : List Byte) : State :=
  let say (t : State) (r : Res) : State := t.answerTo p.port opcode p.source p.tag r []
  let op := Op.ofCode opcode
  let exempt := match op with | some o => o.exempt | none => false
  if s.lockedOut op then say s .locked
  else if decide (s.roleOf p.source = .none) && !s.loginFree op then say s .noRight
  else if !exempt && decide (s.credits p.source = 0) then say ((s.count 0x0605 1).overrun 1) .noCredit
  else
    match op with
    | none => say s .badOpcode
    | some o =>
      let q := s.request o p params
      if exempt && fenceBefore p.flags then say s .badParam
      else if (s.cmd p.source p.tag).isSome then say s .badParam
      else if !s.mayRole o q.role then say s .noRight
      else if s.mustHold q then s.hold q
      else s.serve q

/-! ## Packets (R339, R343, R346, R347) -/

/-- A source's record changed. -/
def State.onSource (s : State) (n : Nat) (f : Source → Source) : State :=
  match s.source n with
  | some x => s.setSource (f x)
  | none => s

/-- A new source, bound to the port of its first packet (R346).
(DEDUCED, log entry 54.) -/
def State.bindSource (s : State) (p : Packet) : State :=
  { s with sources := s.sources ++ [⟨p.source, p.port, none, .none, 0xFF, none, none, [], false, s.now⟩] }

/-- R343: a packet with another tag, or another opcode, ends an open continuation with BAD_PARAM.
(DEDUCED, log entry 55.) -/
def State.endContin (s : State) (opcode : Nat) (p : Packet) : State :=
  match (s.source p.source).bind Source.cont with
  | none => s
  | some k =>
    if k.tag = p.tag ∧ k.opcode = opcode then s
    else (s.onSource p.source (fun x => { x with cont := none })).answerTo p.port k.opcode p.source k.tag .badParam []

/-- The parameter block gathered before a packet (R343). -/
def State.gathered (s : State) (source : Nat) : List Byte :=
  match (s.source source).bind Source.cont with
  | some k => k.params
  | none => []

/-- R343: a packet of a bound source that is in sequence: it goes on with a parameter block, or ends it.
(DEDUCED, log entry 55.) -/
def State.gather (s : State) (opcode : Nat) (p : Packet) : State :=
  let block := s.gathered p.source ++ p.params
  let s1 := s.onSource p.source (fun x => { x with cont := none })
  if 65536 < block.length then s1.answerTo p.port opcode p.source p.tag .badParam []
  else if continued p.flags then s1.onSource p.source (fun x => { x with cont := some ⟨opcode, p.tag, p.flags, block⟩ })
  else s1.dispatch opcode p block

/-- R347: the sequence check of a packet of a bound source.
(DEDUCED, log entry 54; DEDUCED, log entry 55.) -/
def State.inSequence (s : State) (opcode : Nat) (p : Packet) : State :=
  let exempt := match Op.ofCode opcode with | some o => o.exempt | none => false
  if exempt then s.gather opcode p
  else
    let want := match (s.source p.source).bind Source.seq with | some e => e | none => p.seq
    let s1 := s.onSource p.source (fun x => { x with seq := some ((p.seq + 1) % 2 ^ 32) })
    if p.seq = want then s1.gather opcode p
    else
      ((s1.onSource p.source (fun x => { x with cont := none })).countGap).answerTo p.port opcode p.source p.tag .seqGap
        (leBytes 4 want ++ leBytes 4 p.seq)

/-- Bytes of the packets that wait in the buffer of a port. -/
def State.bufferedOn (s : State) (port : Nat) : Nat :=
  ((s.power.buffered.filter (fun b => b.port = port)).map (fun b => 16 + b.data.length)).foldl (· + ·) 0

/-- The 256 KiB receive buffer of a port has no room for a packet (R349). -/
def State.portFull (s : State) (port n : Nat) : Bool := decide (port ≠ 12) && decide (262144 < s.bufferedOn port + n)

/-- A command packet (R339, R346): one that finds its port's buffer full is dropped (R349). Its source is bound, or becomes so; a 257th
source gets NO_CREDIT, but for a command of form X (R373).
(DEDUCED, log entry 57.) -/
def State.takePacket (s : State) (opcode : Nat) (p : Packet) : State :=
  if !s.answers p.port then s
  else if 4080 < p.params.length then s.count 0x0603 1
  else if s.portFull p.port (16 + p.params.length) then (s.count 0x0605 1).overrun 1
  else
    let s1 := s.count 0x0600 1
    match s1.source p.source with
    | some x => if x.port ≠ p.port then s1.count 0x0607 1 else (s1.endContin opcode p).inSequence opcode p
    | none =>
      if s1.sources.length < 256 then (s1.bindSource p).inSequence opcode p
      else if (match Op.ofCode opcode with | some o => o.exempt | none => false) then
        (if continued p.flags then s1 else s1.dispatch opcode p p.params)
      else s1.answerTo p.port opcode p.source p.tag .noCredit []

/-- A packet arrives; nothing is defined while the module is without power (R431, R472). -/
def recvPacket (opcode : Nat) (p : Packet) (s : State) : Host.Outcome State Fault Refusal :=
  if s.power.phase = .off then .fault .noPower else .next ((s.corrected p.port).takePacket opcode p)

/-- A packet of a command's last packet. -/
def recvCommand (op : Op) (p : Packet) (s : State) : Host.Outcome State Fault Refusal := recvPacket op.code p s

/-- COMMAND_CONTINUATION (R343): a packet with CONTINUATION set. -/
def execCommandContinuation (opcode : Nat) (p : Packet) (s : State) : Host.Outcome State Fault Refusal :=
  recvPacket opcode { p with flags := p.flags ||| 4 } s

/-- PACKET_DROPPED (R337, R339): counted, and nothing else.
(DESIGN CHOICE, log entry 19.) -/
def execPacketDropped (port : Nat) (s : State) : Host.Outcome State Fault Refusal :=
  if s.power.phase = .off then .fault .noPower else .next (if s.listens port then (s.corrected port).count 0x0603 1 else s)

/-- PACKET_IGNORED (R337, R338): counted, and nothing else.
(DESIGN CHOICE, log entry 19.) -/
def execPacketIgnored (port : Nat) (s : State) : Host.Outcome State Fault Refusal :=
  if s.power.phase = .off then .fault .noPower else .next (if s.listens port then (s.corrected port).count 0x0607 1 else s)

/-! ## Commands that waited (R168) -/

/-- The request of a form-I command that waited, with the port, role and key it arrived under (R402). -/
def Cmd.req (c : Cmd) : Req :=
  match c.body with
  | .held port role key => ⟨c.op, port, c.source, c.tag, c.flags, c.seq, role, key, c.params⟩
  | _ => ⟨c.op, 12, c.source, c.tag, c.flags, c.seq, .none, 0xFF, c.params⟩

/-- The verdict on a form-I command that waited, from the state without it. -/
def State.waitVerdict (s : State) (c : Cmd) : Verdict :=
  let data := match c.bulk with | some b => b.data | none => []
  match c.op, c.bulk with
  | .networkLoad, some _ => let r := s.networkDone data; .done r.1 r.2.1 r.2.2 .nothing
  | .crewListSet, some _ => let r := s.crewListDone c.params data; .done r.1 [] r.2 .nothing
  | _, _ => s.verdict c.req

/-- A form-I command that waited for its bulk data or for a fence runs, whatever has become of its source's role (R402); its reply
leaves where the source is still bound.
(DEDUCED, log entry 56.) -/
def State.finishWaiting (s : State) (c : Cmd) : State :=
  let v := (s.dropCmd c).waitVerdict c
  if (s.source c.source).isSome then (conclude c.req v).afterCmd c.source else concludeMute c.req v

/-- COMMAND_START (R168, R169): a command that was held back starts. -/
def execCommandStart (source tag : Nat) (s : State) : Host.Outcome State Fault Refusal :=
  match s.cmd source tag with
  | none => .next s
  | some c =>
    if c.acked then .next (s.begin c)
    else
      let whole := match c.bulk with | some b => decide (b.data.length = b.total) | none => true
      .next (if whole && s.fenceOk c then s.finishWaiting c else s)

/-! ## Bulk data (R344, R345) -/

/-- A command's bulk data is still to arrive. -/
def Cmd.wantsBulk (c : Cmd) : Bool :=
  match c.bulk with
  | some b => decide (b.data.length < b.total)
  | none => false

/-- A command's bulk packets have begun and not ended. -/
def Cmd.bulkOpen (c : Cmd) : Bool := c.wantsBulk && (match c.bulk with | some b => !b.data.isEmpty | none => false)

/-- R344: four commands of a source have bulk data open, and a command is none of them. -/
def State.fifthBulk (s : State) (c : Cmd) : Bool :=
  !c.bulkOpen && decide (4 ≤ (s.cmds.filter (fun d => decide (d.source = c.source) && d.bulkOpen)).length)

/-- R345: a command's bulk data fails. -/
def State.bulkFails (s : State) (c : Cmd) : State :=
  if c.acked then s.failBulk c
  else
    match s.source c.source with
    | none => s.dropCmd c
    | some x =>
      let at_ := match c.bulk with | some b => b.data.length | none => 0
      ((((s.dropCmd c).countGap).answerTo x.port c.op.code c.source c.tag .seqGap
        (leBytes 4 (x.seq.getD 0) ++ leBytes 4 c.seq ++ leBytes 8 at_))).afterCmd c.source

/-- A command's bulk data goes on, or is complete. -/
def State.bulkGoes (s : State) (c : Cmd) (b : BulkIn) (data : List Byte) : State :=
  let c1 := { c with bulk := some { b with data := b.data ++ data, lastAt := s.now } }
  let s1 := (s.setCmd c1).count 0x0601 data.length
  if c1.wantsBulk then s1
  else if c1.acked then s1.begin c1
  else if !s1.fenceOk c1 then s1
  else s1.finishWaiting c1

/-- A bulk packet of a source that is bound to its port. -/
def State.takeBulk (s : State) (source tag offset : Nat) (data : List Byte) : State :=
  match s.cmd source tag with
  | none => s.count 0x0607 1
  | some c =>
    match c.bulk with
    | none => s.count 0x0607 1
    | some b =>
      if !c.wantsBulk || s.fifthBulk c then s.count 0x0607 1
      else if offset ≠ b.data.length ∨ b.total < b.data.length + data.length then s.bulkFails c
      else s.bulkGoes c b data

/-- A bulk packet out of its port.
(DEDUCED, log entry 57.) -/
def State.bulkIn (s : State) (b : PortBulk) : State :=
  match s.source b.source with
  | none => s.count 0x0607 1
  | some x =>
    if x.port ≠ b.port ∨ b.data = [] ∨ 16384 < b.data.length then s.count 0x0607 1
    else s.takeBulk b.source b.tag b.offset b.data

/-- What the data of a command's bulk is written to. -/
def State.bulkMoves (s : State) (source tag : Nat) : Moves :=
  match s.cmd source tag with
  | some c => if c.op = .tensorWrite then (s.dataMoves c).2 else []
  | none => []

/-- A bulk packet goes on, or waits in the buffer of its port: behind another, or while INGEST is at a ceiling (R369).
(DESIGN CHOICE, log entry 123.) -/
def State.offerBulk (s : State) (b : PortBulk) : State :=
  let ms := s.bulkMoves b.source b.tag
  if s.power.buffered.any (fun x => x.port = b.port) ∨ !s.mayMove .ingest ms then
    let s1 := s.waitAt .ingest ms
    { s1 with power := { s1.power with buffered := s1.power.buffered ++ [b] } }
  else s.bulkIn b

/-- A bulk packet arrives on a port; one that finds the buffer full is dropped (R349). -/
def State.recvBulk (s : State) (port source tag offset : Nat) (data : List Byte) : State :=
  if !s.answers port then s
  else if s.portFull port (16 + data.length) then (s.count 0x0605 1).overrun 1
  else s.offerBulk ⟨port, source, tag, offset, data⟩

/-- The packets that waited in the port buffers, in the order they came. -/
def State.drainPorts (s : State) : State :=
  s.power.buffered.foldl State.offerBulk { s with power := { s.power with buffered := [] } }

/-- BULK_PACKET. -/
def execBulkPacket (port source tag offset : Nat) (data : List Byte) (s : State) : Host.Outcome State Fault Refusal :=
  if s.power.phase = .off then .fault .noPower else .next ((s.corrected port).recvBulk port source tag offset data)

/-- The power of the stint that ends here becomes POWER_W (R376); a stint without a sample leaves the last average.
(DEDUCED, log entry 82.) -/
def State.stintPower (s : State) : State :=
  let d := s.power.stintDrawn
  { s with power := { s.power with
    stintDrawn := (0, 0), stintWatts := if d.2 = 0 then s.power.stintWatts else d.1 / d.2 } }

/-- For how much of a stint the clusters are held, while they are (R433).
(DEDUCED, log entry 82.) -/
def State.redrawHold (s : State) : State :=
  if s.power.holdClusters then
    let w := s.freeNat
    { w.2 with power := { w.2.power with holdUs := w.1 % (w.2.stintActing 0x2100 + 1) } }
  else s

/-- STINT_BOUNDARY (R207 to R211): the stint's grants are made and counted, the committed settings act, and what waited in the port
buffers goes on (R369). -/
def execStintBoundary (s : State) : Host.Outcome State Fault Refusal :=
  let len := assocGet 100 s.stintSettings 0x2100
  let s1 := s.reach (s.stintStart + len)
  let s2 : State := { s1.settleStint with stintStart := s1.now, stintSettings := s.committedStint }
  .next s2.stintPower.redrawHold.drainFlits.drainFrames.drainPorts

/-- BULK_GAP_TIMEOUT (R345): BULK_GAP_MS have passed with no bulk packet of a command that still wants some. -/
def execBulkGapTimeout (source tag : Nat) (s : State) : Host.Outcome State Fault Refusal :=
  match s.cmd source tag with
  | none => .next s
  | some c =>
    match c.bulk with
    | some b =>
      if c.wantsBulk ∧ !s.power.buffered.any (fun x => x.source = source && x.tag = tag) then
        .next ((s.reach (b.lastAt + 1000 * s.acting 0x5101)).bulkFails c)
      else .next s
    | none => .next s

/-! ## One row for each command of the host -/

/-- NOP (R379). -/
def execNop (p : Packet) (s : State) : Host.Outcome State Fault Refusal := recvCommand .nop p s
/-- GET_STATUS (R376). -/
def execGetStatus (p : Packet) (s : State) : Host.Outcome State Fault Refusal := recvCommand .getStatus p s
/-- READ_ATTENTION (R353). -/
def execReadAttention (p : Packet) (s : State) : Host.Outcome State Fault Refusal := recvCommand .readAttention p s
/-- LOGIN_CHALLENGE (R377). -/
def execLoginChallenge (p : Packet) (s : State) : Host.Outcome State Fault Refusal := recvCommand .loginChallenge p s
/-- LOGIN_RESPONSE (R378). -/
def execLoginResponse (p : Packet) (s : State) : Host.Outcome State Fault Refusal := recvCommand .loginResponse p s
/-- LOGOUT (R379). -/
def execLogout (p : Packet) (s : State) : Host.Outcome State Fault Refusal := recvCommand .logout p s
/-- SET_POWER_STATE (R380). -/
def execSetPowerState (p : Packet) (s : State) : Host.Outcome State Fault Refusal := recvCommand .setPowerState p s
/-- RESET_CORES (R381). -/
def execResetCores (p : Packet) (s : State) : Host.Outcome State Fault Refusal := recvCommand .reset p s
/-- RESET_MODULE (R381).
(DESIGN CHOICE, log entry 15; DEDUCED, log entry 59.) -/
def execResetModule (p : Packet) (s : State) : Host.Outcome State Fault Refusal := recvCommand .reset p s
/-- LEDGER_BEGIN (R411). -/
def execLedgerBegin (p : Packet) (s : State) : Host.Outcome State Fault Refusal := recvCommand .ledgerBegin p s
/-- LEDGER_SET (R383). -/
def execLedgerSet (p : Packet) (s : State) : Host.Outcome State Fault Refusal := recvCommand .ledgerSet p s
/-- LEDGER_COMMIT (R413). -/
def execLedgerCommit (p : Packet) (s : State) : Host.Outcome State Fault Refusal := recvCommand .ledgerCommit p s
/-- LEDGER_ROLLBACK (R412). -/
def execLedgerRollback (p : Packet) (s : State) : Host.Outcome State Fault Refusal := recvCommand .ledgerRollback p s
/-- SETTING_GET (R384). -/
def execSettingGet (p : Packet) (s : State) : Host.Outcome State Fault Refusal := recvCommand .settingGet p s
/-- SETTING_SET (R417). -/
def execSettingSet (p : Packet) (s : State) : Host.Outcome State Fault Refusal := recvCommand .settingSet p s
/-- TENSOR_WRITE (R385). -/
def execTensorWrite (p : Packet) (s : State) : Host.Outcome State Fault Refusal := recvCommand .tensorWrite p s
/-- TENSOR_READ (R385). -/
def execTensorRead (p : Packet) (s : State) : Host.Outcome State Fault Refusal := recvCommand .tensorRead p s
/-- TENSOR_COPY (R387). -/
def execTensorCopy (p : Packet) (s : State) : Host.Outcome State Fault Refusal := recvCommand .tensorCopy p s
/-- TENSOR_FILL (R388). -/
def execTensorFill (p : Packet) (s : State) : Host.Outcome State Fault Refusal := recvCommand .tensorFill p s
/-- TENSOR_DEFINE (R191). -/
def execTensorDefine (p : Packet) (s : State) : Host.Outcome State Fault Refusal := recvCommand .tensorDefine p s
/-- TENSOR_RELEASE (R191).
(DESIGN CHOICE, log entry 15.) -/
def execTensorRelease (p : Packet) (s : State) : Host.Outcome State Fault Refusal := recvCommand .tensorDefine p s
/-- ASSAY_READ (R389). -/
def execAssayRead (p : Packet) (s : State) : Host.Outcome State Fault Refusal := recvCommand .assayRead p s
/-- NETWORK_LOAD (R147). -/
def execNetworkLoad (p : Packet) (s : State) : Host.Outcome State Fault Refusal := recvCommand .networkLoad p s
/-- NETWORK_ACTIVATE (R150). -/
def execNetworkActivate (p : Packet) (s : State) : Host.Outcome State Fault Refusal := recvCommand .networkActivate p s
/-- NETWORK_UNLOAD (R148). -/
def execNetworkUnload (p : Packet) (s : State) : Host.Outcome State Fault Refusal := recvCommand .networkUnload p s
/-- OP_RUN (R160). -/
def execOpRun (p : Packet) (s : State) : Host.Outcome State Fault Refusal := recvCommand .opRun p s
/-- GRAPH_RUN (R160). -/
def execGraphRun (p : Packet) (s : State) : Host.Outcome State Fault Refusal := recvCommand .graphRun p s
/-- ABORT (R172). -/
def execAbort (p : Packet) (s : State) : Host.Outcome State Fault Refusal := recvCommand .abort p s
/-- FENCE (R169). -/
def execFence (p : Packet) (s : State) : Host.Outcome State Fault Refusal := recvCommand .fence p s
/-- STACK_CONFIGURE (R223). -/
def execStackConfigure (p : Packet) (s : State) : Host.Outcome State Fault Refusal := recvCommand .stackConfig p s
/-- STACK_CLEAR (R222).
(DESIGN CHOICE, log entry 15.) -/
def execStackClear (p : Packet) (s : State) : Host.Outcome State Fault Refusal := recvCommand .stackConfig p s
/-- STACK_QUERY (R222). -/
def execStackQuery (p : Packet) (s : State) : Host.Outcome State Fault Refusal := recvCommand .stackConfig p s
/-- UPDATE_PROGRAM_LOAD (R240). -/
def execUpdateProgramLoad (p : Packet) (s : State) : Host.Outcome State Fault Refusal := recvCommand .updateProgramLoad p s
/-- UPDATE_PROGRAM_UNLOAD (R240). -/
def execUpdateProgramUnload (p : Packet) (s : State) : Host.Outcome State Fault Refusal := recvCommand .updateProgramLoad p s
/-- UPDATE_RUN (R246). -/
def execUpdateRun (p : Packet) (s : State) : Host.Outcome State Fault Refusal := recvCommand .updateRun p s
/-- FREEZE_SET (R258). -/
def execFreezeSet (p : Packet) (s : State) : Host.Outcome State Fault Refusal := recvCommand .freezeSet p s
/-- PARAM_WRITE (R262). -/
def execParamWrite (p : Packet) (s : State) : Host.Outcome State Fault Refusal := recvCommand .paramWrite p s
/-- PAIR_SET_BIND (R314).
(DESIGN CHOICE, log entry 15.) -/
def execPairSetBind (p : Packet) (s : State) : Host.Outcome State Fault Refusal := recvCommand .pairSet p s
/-- PAIR_SET_UNBIND (R316). -/
def execPairSetUnbind (p : Packet) (s : State) : Host.Outcome State Fault Refusal := recvCommand .pairSet p s
/-- PAIR_SET_RELEASE (R316). -/
def execPairSetRelease (p : Packet) (s : State) : Host.Outcome State Fault Refusal := recvCommand .pairSet p s
/-- PAIR_SET_QUERY (R325). -/
def execPairSetQuery (p : Packet) (s : State) : Host.Outcome State Fault Refusal := recvCommand .pairSet p s
/-- SECURE (R318). -/
def execSecure (p : Packet) (s : State) : Host.Outcome State Fault Refusal := recvCommand .secure p s
/-- RESTORE_SERVE (R329). -/
def execRestoreServe (p : Packet) (s : State) : Host.Outcome State Fault Refusal := recvCommand .restoreServe p s
/-- LINK_STATUS (R292). -/
def execLinkStatus (p : Packet) (s : State) : Host.Outcome State Fault Refusal := recvCommand .linkStatus p s
/-- ROUTE_LOAD (R290). -/
def execRouteLoad (p : Packet) (s : State) : Host.Outcome State Fault Refusal := recvCommand .routeLoad p s
/-- CREW_LIST_SET (R304). -/
def execCrewListSet (p : Packet) (s : State) : Host.Outcome State Fault Refusal := recvCommand .crewListSet p s
/-- COLLECTIVE_RUN (R293). -/
def execCollectiveRun (p : Packet) (s : State) : Host.Outcome State Fault Refusal := recvCommand .collectiveRun p s
/-- STREAM_MAP (R356). -/
def execStreamMap (p : Packet) (s : State) : Host.Outcome State Fault Refusal := recvCommand .streamMap p s
/-- STREAM_UNMAP (R356). -/
def execStreamUnmap (p : Packet) (s : State) : Host.Outcome State Fault Refusal := recvCommand .streamMap p s
/-- STREAM_QUERY (R356). -/
def execStreamQuery (p : Packet) (s : State) : Host.Outcome State Fault Refusal := recvCommand .streamMap p s
/-- STREAM_START (R361). -/
def execStreamStart (p : Packet) (s : State) : Host.Outcome State Fault Refusal := recvCommand .streamStart p s
/-- STREAM_STOP (R361). -/
def execStreamStop (p : Packet) (s : State) : Host.Outcome State Fault Refusal := recvCommand .streamStop p s
/-- STREAM_OUT (R362). -/
def execStreamOut (p : Packet) (s : State) : Host.Outcome State Fault Refusal := recvCommand .streamOut p s
/-- COUNTERS_READ (R391). -/
def execCountersRead (p : Packet) (s : State) : Host.Outcome State Fault Refusal := recvCommand .countersRead p s
/-- SPARE_STATUS (R392). -/
def execSpareStatus (p : Packet) (s : State) : Host.Outcome State Fault Refusal := recvCommand .spareStatus p s
/-- REPAIR (R393). -/
def execRepair (p : Packet) (s : State) : Host.Outcome State Fault Refusal := recvCommand .repair p s
/-- SELF_TEST (R394). -/
def execSelfTest (p : Packet) (s : State) : Host.Outcome State Fault Refusal := recvCommand .selfTest p s
/-- IDENTITY_GET (R395). -/
def execIdentityGet (p : Packet) (s : State) : Host.Outcome State Fault Refusal := recvCommand .identityGet p s
/-- ATTEST (R428). -/
def execAttest (p : Packet) (s : State) : Host.Outcome State Fault Refusal := recvCommand .attest p s
/-- FW_STAGE (R423). -/
def execFwStage (p : Packet) (s : State) : Host.Outcome State Fault Refusal := recvCommand .fwStage p s
/-- FW_ACTIVATE (R397). -/
def execFwActivate (p : Packet) (s : State) : Host.Outcome State Fault Refusal := recvCommand .fwActivate p s
/-- AUDIT_READ (R421). -/
def execAuditRead (p : Packet) (s : State) : Host.Outcome State Fault Refusal := recvCommand .auditRead p s
/-- KEY_ENROL (R404). -/
def execKeyEnrol (p : Packet) (s : State) : Host.Outcome State Fault Refusal := recvCommand .keyEnrol p s
/-- KEY_REVOKE (R399).
(DESIGN CHOICE, log entry 15.) -/
def execKeyRevoke (p : Packet) (s : State) : Host.Outcome State Fault Refusal := recvCommand .keyEnrol p s

end Sys2Proof.Machine
end

