-- ==== Sys2Proof/Machine/I3c.lean ====
section
/-!
DEFINITION. The I3C target and the mailbox (R364 to R369): the register window, the common command codes, and the packets that come
and go through it.
-/
namespace Sys2Proof.Machine

/-! ## Reading the window (R366, Tables 11.13 to 11.16) -/

/-- STATUS: the status word as the mailbox's last source would receive it. -/
def State.windowStatus (s : State) : Nat := s.status s.i3c.lastSource 0

/-- BOOT (Table 11.14). -/
def State.bootWord (s : State) : Nat :=
  s.power.stage + (if s.power.recovery then 2 ^ 4 else 0) + (if s.trust.firmware.runningB then 2 ^ 8 else 0)

/-- The packet placed in MBX_OUT. -/
def State.placed (s : State) : Option OutPkt := if s.i3c.outReady then s.i3c.mbxOut.head? else none

/-- IN_BUSY: the device has not taken the submitted packet, which waits for INGEST (R367, R369). -/
def State.inBusy (s : State) : Bool := s.power.buffered.any (fun b => b.port = 12)

/-- MBX_STATUS (Table 11.16).
(DEDUCED, log entry 58.) -/
def State.mbxStatus (s : State) : Nat :=
  (if s.inBusy then 1 else 0) + (match s.placed with
   | some k => 2 + (if k.dt = 0x31 then 8 else 0) + k.bytes.length % 2 ^ 13 * 2 ^ 16
   | none => 0) + (if s.i3c.outDrop then 4 else 0)

/-- A byte of the register window as a private read returns it.
(DEDUCED, log entry 58.) -/
def State.windowByte (s : State) (a : Nat) : Byte :=
  let at_ (x i : Nat) : Byte := BitVec.ofNat 8 (x / 256 ^ i)
  if a < 0x0004 then at_ s.windowStatus a
  else if a < 0x0008 then at_ 0x9613A000 (a - 0x0004)
  else if a < 0x000C then at_ s.bootWord (a - 0x0008)
  else if 0x0014 ≤ a ∧ a < 0x0018 then at_ s.mbxStatus (a - 0x0014)
  else if 0x2000 ≤ a ∧ a < 0x3000 then
    match s.placed with
    | some k => k.bytes.getD (a - 0x2000) 0
    | none => 0
  else 0

/-! ## The mailbox (R367) -/

/-- The I3C target answers: from RESET_N release on, in every power state (R364). -/
def State.i3cUp (s : State) : Bool := decide (s.power.phase = .boot) || decide (s.power.phase = .ready)

/-- A packet of MBX_IN taken as a command packet (R339). -/
def State.mailCommand (s : State) (bs : List Byte) : State :=
  let source := fld bs 4 2
  let s1 := { s with i3c := { s.i3c with lastSource := source } }
  if fld bs 3 1 ≠ 1 ∨ fld bs 12 4 + 16 ≠ bs.length then s1.count 0x0603 1
  else s1.takePacket (fld bs 0 2) ⟨12, fld bs 2 1, source, fld bs 6 2, fld bs 8 4, bs.drop 16⟩

/-- A packet of MBX_IN taken as a bulk packet (R344). -/
def State.mailBulk (s : State) (bs : List Byte) : State :=
  let source := fld bs 0 2
  let s1 := { s with i3c := { s.i3c with lastSource := source } }
  s1.recvBulk 12 source (fld bs 2 2) (fld bs 8 8) (bs.drop 16)

/-- A write of MBX_CTRL with RELEASE 0: the first `len` bytes of MBX_IN are a packet; while IN_BUSY is set it is an overrun. -/
def State.submit (s : State) (bulk : Bool) (len : Nat) : State :=
  if !s.answers 12 then s
  else if s.inBusy then (s.count 0x0605 1).overrun 1
  else if len < 16 ∨ 4096 < len then s.count 0x0603 1
  else
    let bs := padTo len s.i3c.mbxIn
    if bulk then s.mailBulk bs else s.mailCommand bs

/-- A write of MBX_CTRL with RELEASE 1: the next packet is placed. -/
def State.release (s : State) : State :=
  let rest := s.i3c.mbxOut.drop 1
  { s with i3c := { s.i3c with mbxOut := rest, outReady := !rest.isEmpty } }

/-- OUT_DROP cleared by writing 1. -/
def State.clearDrop (s : State) : State := { s with i3c := { s.i3c with outDrop := false } }

/-- MBX_SUBMIT. -/
def execMbxSubmit (bulk : Bool) (len : Nat) (s : State) : Host.Outcome State Fault Refusal :=
  if s.power.phase = .off then .fault .noPower else .next (s.submit bulk len)

/-- MBX_RELEASE. -/
def execMbxRelease (s : State) : Host.Outcome State Fault Refusal :=
  if s.power.phase = .off then .fault .noPower else .next s.release

/-- MBX_OUT_DROP_CLEAR. -/
def execMbxOutDropClear (s : State) : Host.Outcome State Fault Refusal :=
  if s.power.phase = .off then .fault .noPower else .next s.clearDrop

/-- One byte written to a position of MBX_IN. -/
def setByte (bs : List Byte) (i : Nat) (b : Byte) : List Byte := (bs ++ List.replicate (i + 1 - bs.length) 0).set i b

/-- The bytes of a private write that fall into MBX_IN (R366). -/
def writeIn : Nat → List Byte → List Byte → List Byte
  | _, [], m => m
  | a, b :: bs, m => writeIn (a + 1) bs (if 0x1000 ≤ a ∧ a < 0x2000 then setByte m (a - 0x1000) b else m)

/-- The number in the `n` bytes at window address `w`, where a write of `bs` at `a` covers them all.
(DEDUCED, log entry 58.) -/
def covered (a : Nat) (bs : List Byte) (w n : Nat) : Option Nat :=
  if a ≤ w ∧ w + n ≤ a + bs.length then some (fld bs (w - a) n) else none

/-- A private write: the window address it names, and its bytes at ascending addresses: those of MBX_CTRL act first, then the byte of
OUT_DROP, then MBX_IN takes its own. Other registers are read-only. -/
def State.windowWrite (s : State) (a : Nat) (bs : List Byte) : State :=
  let w := a % 65536
  let s1 := { s with i3c := { s.i3c with window := w } }
  let s2 :=
    match covered w bs 0x0010 4 with
    | some v => if v.testBit 31 then s1.release else s1.submit (v.testBit 16) (v % 8192)
    | none => s1
  let s3 :=
    match covered w bs 0x0014 1 with
    | some v => if v.testBit 2 then s2.clearDrop else s2
    | none => s2
  { s3 with i3c := { s3.i3c with mbxIn := writeIn w bs s3.i3c.mbxIn } }

/-- What a private read of `n` bytes returns (R366): from the window address that the last write named, ascending, up to the maximum
read length. The table has no row for it: it changes nothing. -/
def State.windowRead (s : State) (n : Nat) : List Byte :=
  (List.range (min n s.i3c.mrl)).map (fun i => s.windowByte (s.i3c.window + i))

/-- I3C_PRIVATE_WRITE (R366): bytes beyond the maximum write length, of which the address takes two, are NACKed. -/
def execI3cPrivateWrite (addr : Nat) (data : List Byte) (s : State) : Host.Outcome State Fault Refusal :=
  if s.power.phase = .off then .fault .noPower
  else .next (if s.i3cUp then s.windowWrite addr (data.take (s.i3c.mwl - 2)) else s)

/-! ## Common command codes (R364, R365) -/

/-- An answer to a common command code; a target in reset does not answer. -/
def ccc (s : State) (f : State → State) (a : Option (List Byte)) : Host.Outcome State Fault Refusal :=
  if s.power.phase = .off then .fault .noPower
  else if s.i3cUp then
    let t := f s
    .next { t with i3c := { t.i3c with answer := a } }
  else .next { s with i3c := { s.i3c with answer := none } }

/-- The bytes of a number, the most significant first.
(DEDUCED, log entry 58.) -/
def beBytes (n x : Nat) : List Byte := (leBytes n x).reverse

/-- The target takes a dynamic address, where it has none. -/
def State.assign (s : State) (a : Nat) : State :=
  match s.i3c.addr with
  | some _ => s
  | none => { s with i3c := { s.i3c with addr := some (a % 128) } }

/-- ENTDAA. -/
def execEntdaa (addr : Nat) (s : State) : Host.Outcome State Fault Refusal := ccc s (fun t => t.assign addr) (some [])
/-- SETDASA. -/
def execSetdasa (addr : Nat) (s : State) : Host.Outcome State Fault Refusal := ccc s (fun t => t.assign addr) (some [])
/-- RSTDAA. -/
def execRstdaa (s : State) : Host.Outcome State Fault Refusal :=
  ccc s (fun t => { t with i3c := { t.i3c with addr := none } }) (some [])

/-- The static address (R470). -/
def State.staticAddr (s : State) : Nat := 0x40 + s.power.straps % 16

/-- The provisional ID (R365). -/
def State.provisionalId (s : State) : Nat := 0x2B6D * 2 ^ 33 + 0x9613 * 2 ^ 16 + s.power.straps % 16 * 2 ^ 12 + 0x0A0

/-- GETPID. -/
def execGetpid (s : State) : Host.Outcome State Fault Refusal := ccc s id (some (beBytes 6 s.provisionalId))
/-- GETBCR. -/
def execGetbcr (s : State) : Host.Outcome State Fault Refusal := ccc s id (some [0x20])
/-- GETDCR. -/
def execGetdcr (s : State) : Host.Outcome State Fault Refusal := ccc s id (some [0x00])
/-- GETSTATUS.
(DEDUCED, log entry 142.) -/
def execGetstatus (s : State) : Host.Outcome State Fault Refusal := ccc s id (some [s.attention.attn, 0])
/-- GETMWL. -/
def execGetmwl (s : State) : Host.Outcome State Fault Refusal := ccc s id (some (beBytes 2 s.i3c.mwl))
/-- GETMRL. -/
def execGetmrl (s : State) : Host.Outcome State Fault Refusal := ccc s id (some (beBytes 2 s.i3c.mrl))

/-- A maximum length within the target's limits (Table 11.12). -/
def lengthOk (n : Nat) : Bool := decide (16 ≤ n) && decide (n ≤ 4096)

/-- SETMWL: a length outside 16 to 4,096 changes nothing.
(DEDUCED, log entry 58.) -/
def execSetmwl (len : Nat) (s : State) : Host.Outcome State Fault Refusal :=
  ccc s (fun t => if lengthOk len then { t with i3c := { t.i3c with mwl := len } } else t) (some [])
/-- SETMRL: a length outside 16 to 4,096 changes nothing. -/
def execSetmrl (len : Nat) (s : State) : Host.Outcome State Fault Refusal :=
  ccc s (fun t => if lengthOk len then { t with i3c := { t.i3c with mrl := len } } else t) (some [])
/-- ENEC: accepted with no effect. -/
def execEnec (_events : Nat) (s : State) : Host.Outcome State Fault Refusal := ccc s id (some [])
/-- DISEC: accepted with no effect. -/
def execDisec (_events : Nat) (s : State) : Host.Outcome State Fault Refusal := ccc s id (some [])
/-- A common command code outside Table 11.12 is NACKed. -/
def execUnsupportedCcc (_code : Nat) (s : State) : Host.Outcome State Fault Refusal := ccc s id none

/-! ## RSTACT (R365, R369, R449) -/

/-- RSTACT 0x00: no reset. -/
def execRstactNone (s : State) : Host.Outcome State Fault Refusal := ccc s id (some [])

/-- The reset of the target and the mailbox: the mailbox is emptied and its sources are unbound; their commands stay.
(DEDUCED, log entry 58.) -/
def State.i3cReset (s : State) : State :=
  let s1 := (s.sources.filter (fun x => decide (x.port = 12))).foldl (fun (a : State) x => (a.endRole x.num).unbind x.num) s
  { s1 with i3c := .reset, power := { s1.power with buffered := s1.power.buffered.filter (fun b => b.port ≠ 12) } }

/-- RSTACT 0x01. -/
def execRstactI3cReset (s : State) : Host.Outcome State Fault Refusal := ccc s State.i3cReset (some [])

/-- RSTACT 0x02: the reset of the module that RESET_N gives. -/
def execRstactModuleReset (s : State) : Host.Outcome State Fault Refusal := ccc s State.coldStart (some [])

end Sys2Proof.Machine
end

