-- ==== Sys2Proof/Machine/Dispatch.lean ====
section
/-! DEFINITION. The dispatch of a command to its meaning: one arm per row of the command table. -/

namespace Sys2Proof.Machine

def exec (i : Instr) (s : State) : Host.Outcome State Fault Refusal :=
  match i with
  | .nop p => Sys2Proof.Machine.execNop p s
  | .getStatus p => Sys2Proof.Machine.execGetStatus p s
  | .readAttention p => Sys2Proof.Machine.execReadAttention p s
  | .loginChallenge p => Sys2Proof.Machine.execLoginChallenge p s
  | .loginResponse p => Sys2Proof.Machine.execLoginResponse p s
  | .logout p => Sys2Proof.Machine.execLogout p s
  | .setPowerState p => Sys2Proof.Machine.execSetPowerState p s
  | .resetCores p => Sys2Proof.Machine.execResetCores p s
  | .resetModule p => Sys2Proof.Machine.execResetModule p s
  | .ledgerBegin p => Sys2Proof.Machine.execLedgerBegin p s
  | .ledgerSet p => Sys2Proof.Machine.execLedgerSet p s
  | .ledgerCommit p => Sys2Proof.Machine.execLedgerCommit p s
  | .ledgerRollback p => Sys2Proof.Machine.execLedgerRollback p s
  | .settingGet p => Sys2Proof.Machine.execSettingGet p s
  | .settingSet p => Sys2Proof.Machine.execSettingSet p s
  | .tensorWrite p => Sys2Proof.Machine.execTensorWrite p s
  | .tensorRead p => Sys2Proof.Machine.execTensorRead p s
  | .tensorCopy p => Sys2Proof.Machine.execTensorCopy p s
  | .tensorFill p => Sys2Proof.Machine.execTensorFill p s
  | .tensorDefine p => Sys2Proof.Machine.execTensorDefine p s
  | .tensorRelease p => Sys2Proof.Machine.execTensorRelease p s
  | .assayRead p => Sys2Proof.Machine.execAssayRead p s
  | .networkLoad p => Sys2Proof.Machine.execNetworkLoad p s
  | .networkActivate p => Sys2Proof.Machine.execNetworkActivate p s
  | .networkUnload p => Sys2Proof.Machine.execNetworkUnload p s
  | .opRun p => Sys2Proof.Machine.execOpRun p s
  | .graphRun p => Sys2Proof.Machine.execGraphRun p s
  | .abort p => Sys2Proof.Machine.execAbort p s
  | .fence p => Sys2Proof.Machine.execFence p s
  | .stackConfigure p => Sys2Proof.Machine.execStackConfigure p s
  | .stackClear p => Sys2Proof.Machine.execStackClear p s
  | .stackQuery p => Sys2Proof.Machine.execStackQuery p s
  | .updateProgramLoad p => Sys2Proof.Machine.execUpdateProgramLoad p s
  | .updateProgramUnload p => Sys2Proof.Machine.execUpdateProgramUnload p s
  | .updateRun p => Sys2Proof.Machine.execUpdateRun p s
  | .freezeSet p => Sys2Proof.Machine.execFreezeSet p s
  | .paramWrite p => Sys2Proof.Machine.execParamWrite p s
  | .pairSetBind p => Sys2Proof.Machine.execPairSetBind p s
  | .pairSetUnbind p => Sys2Proof.Machine.execPairSetUnbind p s
  | .pairSetRelease p => Sys2Proof.Machine.execPairSetRelease p s
  | .pairSetQuery p => Sys2Proof.Machine.execPairSetQuery p s
  | .secure p => Sys2Proof.Machine.execSecure p s
  | .restoreServe p => Sys2Proof.Machine.execRestoreServe p s
  | .linkStatus p => Sys2Proof.Machine.execLinkStatus p s
  | .routeLoad p => Sys2Proof.Machine.execRouteLoad p s
  | .crewListSet p => Sys2Proof.Machine.execCrewListSet p s
  | .collectiveRun p => Sys2Proof.Machine.execCollectiveRun p s
  | .streamMap p => Sys2Proof.Machine.execStreamMap p s
  | .streamUnmap p => Sys2Proof.Machine.execStreamUnmap p s
  | .streamQuery p => Sys2Proof.Machine.execStreamQuery p s
  | .streamStart p => Sys2Proof.Machine.execStreamStart p s
  | .streamStop p => Sys2Proof.Machine.execStreamStop p s
  | .streamOut p => Sys2Proof.Machine.execStreamOut p s
  | .countersRead p => Sys2Proof.Machine.execCountersRead p s
  | .spareStatus p => Sys2Proof.Machine.execSpareStatus p s
  | .repair p => Sys2Proof.Machine.execRepair p s
  | .selfTest p => Sys2Proof.Machine.execSelfTest p s
  | .identityGet p => Sys2Proof.Machine.execIdentityGet p s
  | .attest p => Sys2Proof.Machine.execAttest p s
  | .fwStage p => Sys2Proof.Machine.execFwStage p s
  | .fwActivate p => Sys2Proof.Machine.execFwActivate p s
  | .auditRead p => Sys2Proof.Machine.execAuditRead p s
  | .keyEnrol p => Sys2Proof.Machine.execKeyEnrol p s
  | .keyRevoke p => Sys2Proof.Machine.execKeyRevoke p s
  | .commandContinuation opcode p => Sys2Proof.Machine.execCommandContinuation opcode p s
  | .packetDropped port => Sys2Proof.Machine.execPacketDropped port s
  | .packetIgnored port => Sys2Proof.Machine.execPacketIgnored port s
  | .bulkPacket port source tag offset data => Sys2Proof.Machine.execBulkPacket port source tag offset data s
  | .bulkGapTimeout source tag => Sys2Proof.Machine.execBulkGapTimeout source tag s
  | .sourceExpiry source => Sys2Proof.Machine.execSourceExpiry source s
  | .challengeExpiry source => Sys2Proof.Machine.execChallengeExpiry source s
  | .lockoutExpiry role index => Sys2Proof.Machine.execLockoutExpiry role index s
  | .ledgerIdleTimeout => Sys2Proof.Machine.execLedgerIdleTimeout s
  | .ledgerApply => Sys2Proof.Machine.execLedgerApply s
  | .ledgerCommitTimeout => Sys2Proof.Machine.execLedgerCommitTimeout s
  | .portSettingsApply => Sys2Proof.Machine.execPortSettingsApply s
  | .mbxSubmit bulk len => Sys2Proof.Machine.execMbxSubmit bulk len s
  | .mbxRelease => Sys2Proof.Machine.execMbxRelease s
  | .mbxOutDropClear => Sys2Proof.Machine.execMbxOutDropClear s
  | .i3cPrivateWrite addr data => Sys2Proof.Machine.execI3cPrivateWrite addr data s
  | .entdaa addr => Sys2Proof.Machine.execEntdaa addr s
  | .setdasa addr => Sys2Proof.Machine.execSetdasa addr s
  | .rstdaa => Sys2Proof.Machine.execRstdaa s
  | .getpid => Sys2Proof.Machine.execGetpid s
  | .getbcr => Sys2Proof.Machine.execGetbcr s
  | .getdcr => Sys2Proof.Machine.execGetdcr s
  | .getstatus => Sys2Proof.Machine.execGetstatus s
  | .getmwl => Sys2Proof.Machine.execGetmwl s
  | .getmrl => Sys2Proof.Machine.execGetmrl s
  | .setmwl len => Sys2Proof.Machine.execSetmwl len s
  | .setmrl len => Sys2Proof.Machine.execSetmrl len s
  | .enec events => Sys2Proof.Machine.execEnec events s
  | .disec events => Sys2Proof.Machine.execDisec events s
  | .rstactNone => Sys2Proof.Machine.execRstactNone s
  | .rstactI3cReset => Sys2Proof.Machine.execRstactI3cReset s
  | .rstactModuleReset => Sys2Proof.Machine.execRstactModuleReset s
  | .unsupportedCcc code => Sys2Proof.Machine.execUnsupportedCcc code s
  | .frameStart port vc => Sys2Proof.Machine.execFrameStart port vc s
  | .sensorLine port vc dt data crcOk fits => Sys2Proof.Machine.execSensorLine port vc dt data crcOk fits s
  | .frameEnd port vc => Sys2Proof.Machine.execFrameEnd port vc s
  | .outputFrameSend stream => Sys2Proof.Machine.execOutputFrameSend stream s
  | .outputFrameDone stream => Sys2Proof.Machine.execOutputFrameDone stream s
  | .commandStart source tag => Sys2Proof.Machine.execCommandStart source tag s
  | .operatorStart source tag rec core => Sys2Proof.Machine.execOperatorStart source tag rec core s
  | .networkSwitch source tag core => Sys2Proof.Machine.execNetworkSwitch source tag core s
  | .fenceComplete source tag => Sys2Proof.Machine.execFenceComplete source tag s
  | .chunkStart core cluster => Sys2Proof.Machine.execChunkStart core cluster s
  | .chunkComplete core cluster => Sys2Proof.Machine.execChunkComplete core cluster s
  | .tileClose core => Sys2Proof.Machine.execTileClose core s
  | .finishEnqueue core => Sys2Proof.Machine.execFinishEnqueue core s
  | .passStart core => Sys2Proof.Machine.execPassStart core s
  | .passEnd core => Sys2Proof.Machine.execPassEnd core s
  | .operatorCommit source tag rec => Sys2Proof.Machine.execOperatorCommit source tag rec s
  | .operatorStop source tag => Sys2Proof.Machine.execOperatorStop source tag s
  | .stackPush source tag rec => Sys2Proof.Machine.execStackPush source tag rec s
  | .spillStart group => Sys2Proof.Machine.execSpillStart group s
  | .spillComplete group stamp => Sys2Proof.Machine.execSpillComplete group stamp s
  | .fillStart group => Sys2Proof.Machine.execFillStart group s
  | .fillComplete group stamp => Sys2Proof.Machine.execFillComplete group stamp s
  | .stackPop source tag rec => Sys2Proof.Machine.execStackPop source tag rec s
  | .updatePass1Start source tag tinker => Sys2Proof.Machine.execUpdatePass1Start source tag tinker s
  | .updatePass1End source tag tinker => Sys2Proof.Machine.execUpdatePass1End source tag tinker s
  | .updateNorms source tag => Sys2Proof.Machine.execUpdateNorms source tag s
  | .updateEntry source tag tinker => Sys2Proof.Machine.execUpdateEntry source tag tinker s
  | .updateRunCommit source tag => Sys2Proof.Machine.execUpdateRunCommit source tag s
  | .paramWriteStart source tag => Sys2Proof.Machine.execParamWriteStart source tag s
  | .copyBeforeWrite tensor piece => Sys2Proof.Machine.execCopyBeforeWrite tensor piece s
  | .tinkerHardFault tinker => Sys2Proof.Machine.execTinkerHardFault tinker s
  | .secureCut source tag => Sys2Proof.Machine.execSecureCut source tag s
  | .securePieceSend source tag => Sys2Proof.Machine.execSecurePieceSend source tag s
  | .pairReq f => Sys2Proof.Machine.execPairReq f s
  | .pairAck f => Sys2Proof.Machine.execPairAck f s
  | .bindTimeout source tag => Sys2Proof.Machine.execBindTimeout source tag s
  | .unbind f => Sys2Proof.Machine.execUnbind f s
  | .feedUpdate f => Sys2Proof.Machine.execFeedUpdate f s
  | .slotBegin f => Sys2Proof.Machine.execSlotBegin f s
  | .piece f => Sys2Proof.Machine.execPiece f s
  | .slotEnd f => Sys2Proof.Machine.execSlotEnd f s
  | .secured f => Sys2Proof.Machine.execSecured f s
  | .secureCancel f => Sys2Proof.Machine.execSecureCancel f s
  | .restoreData f => Sys2Proof.Machine.execRestoreData f s
  | .restoreEnd f => Sys2Proof.Machine.execRestoreEnd f s
  | .restoreAck f => Sys2Proof.Machine.execRestoreAck f s
  | .peerKeepaliveSend => Sys2Proof.Machine.execPeerKeepaliveSend s
  | .peerKeepalive f => Sys2Proof.Machine.execPeerKeepalive f s
  | .peerLossTimeout peer => Sys2Proof.Machine.execPeerLossTimeout peer s
  | .linkTrainingDone link ok => Sys2Proof.Machine.execLinkTrainingDone link ok s
  | .linkRetryTimer link => Sys2Proof.Machine.execLinkRetryTimer link s
  | .dataFlit link lseq f => Sys2Proof.Machine.execDataFlit link lseq f s
  | .badFlit link codeword data => Sys2Proof.Machine.execBadFlit link codeword data s
  | .ackFlit link lseq => Sys2Proof.Machine.execAckFlit link lseq s
  | .nakFlit link lseq => Sys2Proof.Machine.execNakFlit link lseq s
  | .creditFlit link payload => Sys2Proof.Machine.execCreditFlit link payload s
  | .keepaliveFlit link addr peerLink crew state => Sys2Proof.Machine.execKeepaliveFlit link addr peerLink crew state s
  | .idleFlit link => Sys2Proof.Machine.execIdleFlit link s
  | .laneCtrl link lane => Sys2Proof.Machine.execLaneCtrl link lane s
  | .flitSend link => Sys2Proof.Machine.execFlitSend link s
  | .ackTimer link => Sys2Proof.Machine.execAckTimer link s
  | .keepaliveSend link => Sys2Proof.Machine.execKeepaliveSend link s
  | .linkSilenceTimeout link => Sys2Proof.Machine.execLinkSilenceTimeout link s
  | .serWindow link errors total => Sys2Proof.Machine.execSerWindow link errors total s
  | .laneLossOfLock link lane => Sys2Proof.Machine.execLaneLossOfLock link lane s
  | .collectiveStart source tag => Sys2Proof.Machine.execCollectiveStart source tag s
  | .collectiveFlit f => Sys2Proof.Machine.execCollectiveFlit f s
  | .cancel f => Sys2Proof.Machine.execCancel f s
  | .staleNotice f => Sys2Proof.Machine.execStaleNotice f s
  | .collectiveCommit source tag => Sys2Proof.Machine.execCollectiveCommit source tag s
  | .collectiveStallTimeout source tag => Sys2Proof.Machine.execCollectiveStallTimeout source tag s
  | .linkEngineFault engine => Sys2Proof.Machine.execLinkEngineFault engine s
  | .refclkLoss => Sys2Proof.Machine.execRefclkLoss s
  | .refclkReturn => Sys2Proof.Machine.execRefclkReturn s
  | .stintBoundary => Sys2Proof.Machine.execStintBoundary s
  | .scrubPass fixed bad banks => Sys2Proof.Machine.execScrubPass fixed bad banks s
  | .patrolScrub fixed bad => Sys2Proof.Machine.execPatrolScrub fixed bad s
  | .lpddrRetrain package => Sys2Proof.Machine.execLpddrRetrain package s
  | .lpddrControllerFault package => Sys2Proof.Machine.execLpddrControllerFault package s
  | .coreHardFault core => Sys2Proof.Machine.execCoreHardFault core s
  | .spareTakeover core passed => Sys2Proof.Machine.execSpareTakeover core passed s
  | .repairSwitch core passed => Sys2Proof.Machine.execRepairSwitch core passed s
  | .spareSelfTest group passed => Sys2Proof.Machine.execSpareSelfTest group passed s
  | .wearEvaluation wear => Sys2Proof.Machine.execWearEvaluation wear s
  | .feedLoss feed => Sys2Proof.Machine.execFeedLoss feed s
  | .feedRestore feed => Sys2Proof.Machine.execFeedRestore feed s
  | .bothFeedsLost => Sys2Proof.Machine.execBothFeedsLost s
  | .powerUp feed => Sys2Proof.Machine.execPowerUp feed s
  | .railsInRegulation => Sys2Proof.Machine.execRailsInRegulation s
  | .resetNAssert => Sys2Proof.Machine.execResetNAssert s
  | .resetNRelease => Sys2Proof.Machine.execResetNRelease s
  | .ready => Sys2Proof.Machine.execReady s
  | .coresResetDone => Sys2Proof.Machine.execCoresResetDone s
  | .powerSample watts => Sys2Proof.Machine.execPowerSample watts s
  | .tempSample temps => Sys2Proof.Machine.execTempSample temps s
  | .thermalTripRecovery => Sys2Proof.Machine.execThermalTripRecovery s
  | .vfLoopStep core => Sys2Proof.Machine.execVfLoopStep core s
  | .thermalPlacement advice => Sys2Proof.Machine.execThermalPlacement advice s
  | .inletExcursion inlet => Sys2Proof.Machine.execInletExcursion inlet s
  | .autoLightTimeout group => Sys2Proof.Machine.execAutoLightTimeout group s
  | .autoDeepTimeout group => Sys2Proof.Machine.execAutoDeepTimeout group s
  | .groupStateEntry group => Sys2Proof.Machine.execGroupStateEntry group s
  | .s3Entry => Sys2Proof.Machine.execS3Entry s
  | .wakeOnDemand source tag => Sys2Proof.Machine.execWakeOnDemand source tag s
  | .wakeComplete group => Sys2Proof.Machine.execWakeComplete group s
  | .moduleWake => Sys2Proof.Machine.execModuleWake s
  | .linkS2IdleTimeout => Sys2Proof.Machine.execLinkS2IdleTimeout s
  | .tensorCommandDone source tag => Sys2Proof.Machine.execTensorCommandDone source tag s
  | .restoreDataSend source tag => Sys2Proof.Machine.execRestoreDataSend source tag s
  | .restoreTargetSilent source tag => Sys2Proof.Machine.execRestoreTargetSilent source tag s
  | .resetHoldRelease => Sys2Proof.Machine.execResetHoldRelease s

end Sys2Proof.Machine
end

