-- ==== Sys2Proof/Machine/Step.lean ====
section
/-!
DEFINITION. One step: the command at the front of the queue, or, on an empty queue, one microsecond of the local timer.
-/
namespace Sys2Proof.Machine

/-- A block with nothing to do: its timer counts on (R437), and a boot goes on (R447). DESIGN CHOICE: an empty queue is one
microsecond, and one stage of a boot. -/
def idle (s : State) : State := ({ s with now := s.now + 1 } : State).bootTick

/-- One step of the block. -/
def step (s : State) : Host.Outcome State Fault Refusal :=
  match s.pending with
  | [] => .next (idle s)
  | c :: rest => exec c { s with pending := rest }

/-- The state with the command a word spells at the front of its queue.
(DESIGN CHOICE, log entry 4.) -/
def State.withFetchWord (s : State) (nbits w : Nat) : State :=
  match decodeTableWord nbits w with
  | some c => { s with pending := c :: s.pending }
  | none => s

end Sys2Proof.Machine
end

