-- ==== Sys2Proof/Safety.lean ====
section
/-!
DEFINITION. What counts as a sound block: the bounds and the forms the manual gives the state, kept by every step, and what a
run that never stops is.
-/
namespace Sys2Proof.Machine

/-- Every value of a settings list lies in its key's range (R383, R384). -/
def settingsOk (xs : List (Nat × Nat)) : Prop := ∀ x ∈ xs, keyValueOk x.1 x.2 = true

/-- The tensor table names each handle once, in rising order (R187). -/
def tensorsOk (ts : List Tensor) : Prop := ts.Pairwise (fun a b => a.handle < b.handle)

/-- A block in the forms and bounds the manual gives it, with at most `n` commands holding a slot. -/
structure Sound (n : Nat) (s : State) : Prop where
  /-- Memory is in its canonical form. -/
  mem : memWf s.mem = true
  /-- Each poisoned unit is named once (R184). -/
  poison : s.poison.Pairwise (· < ·)
  /-- One descriptor per handle (R187). -/
  tensors : tensorsOk s.tensors
  /-- 144 cores, 16 groups with a stack each, 64 links, and the core map. -/
  cores : s.cores.length = 144
  actStacks : s.actStacks.length = 16
  groups : s.power.groups.length = 16
  links : s.net9.links.length = 64
  map : s.health.map.length = 144
  /-- At most 256 live sources (R346). -/
  sources : s.sources.length ≤ 256
  /-- The slots of the shared queue (R348). -/
  cmds : s.cmds.length ≤ n
  /-- The audit log holds at most 65,536 records (R420). -/
  audit : s.trust.audit.records.length ≤ 65536
  /-- Every setting, staged or committed, is in its range (R383). -/
  settings : settingsOk s.settings
  ledger : ∀ l, s.ledger = some l → settingsOk l.keys
  commits : ∀ c ∈ s.commits, settingsOk c.keys

/-- The invariant of the block: sound, with at most the 1,024 slots of R348. -/
def Inv (s : State) : Prop := Sound 1024 s

/-- What no command undoes, a reset or a loss of power least of all: the queue of waiting commands is the step's alone; the
sequence numbers of the audit log (R418) and its export mark, the anti-rollback counter (R425), BOOT_COUNT (R447) and the
model's own counter of free values never go back. -/
structure Onward (r s : State) : Prop where
  pending : s.pending = r.pending
  free : r.free ≤ s.free
  next : r.trust.audit.next ≤ s.trust.audit.next
  exported : r.trust.audit.exported ≤ s.trust.audit.exported
  rollback : r.trust.firmware.rollback ≤ s.trust.firmware.rollback
  boots : r.trust.firmware.bootCount ≤ s.trust.firmware.bootCount

/-- A run of `k` steps that never stops. -/
def RunsFor : Nat → State → Prop
  | 0, _ => True
  | k + 1, s => ∃ t, step s = .next t ∧ RunsFor k t

/-- The commands of which the manual defines nothing while the module is without power (R431, R472): the packets and the I3C
transfers of the host, and the samples of power and temperature. -/
def needsPower : Instr → Bool
  | .nop _ | .getStatus _ | .readAttention _ | .loginChallenge _ | .loginResponse _ | .logout _ | .setPowerState _
  | .resetCores _ | .resetModule _ | .ledgerBegin _ | .ledgerSet _ | .ledgerCommit _ | .ledgerRollback _ | .settingGet _
  | .settingSet _ | .tensorWrite _ | .tensorRead _ | .tensorCopy _ | .tensorFill _ | .tensorDefine _ | .tensorRelease _
  | .assayRead _ | .networkLoad _ | .networkActivate _ | .networkUnload _ | .opRun _ | .graphRun _ | .abort _ | .fence _
  | .stackConfigure _ | .stackClear _ | .stackQuery _ | .updateProgramLoad _ | .updateProgramUnload _ | .updateRun _
  | .freezeSet _ | .paramWrite _ | .pairSetBind _ | .pairSetUnbind _ | .pairSetRelease _ | .pairSetQuery _ | .secure _
  | .restoreServe _ | .linkStatus _ | .routeLoad _ | .crewListSet _ | .collectiveRun _ | .streamMap _ | .streamUnmap _
  | .streamQuery _ | .streamStart _ | .streamStop _ | .streamOut _ | .countersRead _ | .spareStatus _ | .repair _
  | .selfTest _ | .identityGet _ | .attest _ | .fwStage _ | .fwActivate _ | .auditRead _ | .keyEnrol _ | .keyRevoke _
  | .commandContinuation _ _ | .packetDropped _ | .packetIgnored _ | .bulkPacket _ _ _ _ _ | .mbxSubmit _ _ | .mbxRelease
  | .mbxOutDropClear | .i3cPrivateWrite _ _ | .entdaa _ | .setdasa _ | .rstdaa | .getpid | .getbcr | .getdcr | .getstatus
  | .getmwl | .getmrl | .setmwl _ | .setmrl _ | .enec _ | .disec _ | .rstactNone | .rstactI3cReset | .rstactModuleReset
  | .unsupportedCcc _ | .powerSample _ | .tempSample _ => true
  | _ => false

/-! ## A command that reaches its own checks -/

/-- The command and the packet that a row of the host carries; none for every other row. -/
def carried : Instr → Option (Op × Packet)
  | .nop p => some (.nop, p)
  | .getStatus p => some (.getStatus, p)
  | .readAttention p => some (.readAttention, p)
  | .loginChallenge p => some (.loginChallenge, p)
  | .loginResponse p => some (.loginResponse, p)
  | .logout p => some (.logout, p)
  | .setPowerState p => some (.setPowerState, p)
  | .resetCores p => some (.reset, p)
  | .resetModule p => some (.reset, p)
  | .ledgerBegin p => some (.ledgerBegin, p)
  | .ledgerSet p => some (.ledgerSet, p)
  | .ledgerCommit p => some (.ledgerCommit, p)
  | .ledgerRollback p => some (.ledgerRollback, p)
  | .settingGet p => some (.settingGet, p)
  | .settingSet p => some (.settingSet, p)
  | .tensorWrite p => some (.tensorWrite, p)
  | .tensorRead p => some (.tensorRead, p)
  | .tensorCopy p => some (.tensorCopy, p)
  | .tensorFill p => some (.tensorFill, p)
  | .tensorDefine p => some (.tensorDefine, p)
  | .tensorRelease p => some (.tensorDefine, p)
  | .assayRead p => some (.assayRead, p)
  | .networkLoad p => some (.networkLoad, p)
  | .networkActivate p => some (.networkActivate, p)
  | .networkUnload p => some (.networkUnload, p)
  | .opRun p => some (.opRun, p)
  | .graphRun p => some (.graphRun, p)
  | .abort p => some (.abort, p)
  | .fence p => some (.fence, p)
  | .stackConfigure p => some (.stackConfig, p)
  | .stackClear p => some (.stackConfig, p)
  | .stackQuery p => some (.stackConfig, p)
  | .updateProgramLoad p => some (.updateProgramLoad, p)
  | .updateProgramUnload p => some (.updateProgramLoad, p)
  | .updateRun p => some (.updateRun, p)
  | .freezeSet p => some (.freezeSet, p)
  | .paramWrite p => some (.paramWrite, p)
  | .pairSetBind p => some (.pairSet, p)
  | .pairSetUnbind p => some (.pairSet, p)
  | .pairSetRelease p => some (.pairSet, p)
  | .pairSetQuery p => some (.pairSet, p)
  | .secure p => some (.secure, p)
  | .restoreServe p => some (.restoreServe, p)
  | .linkStatus p => some (.linkStatus, p)
  | .routeLoad p => some (.routeLoad, p)
  | .crewListSet p => some (.crewListSet, p)
  | .collectiveRun p => some (.collectiveRun, p)
  | .streamMap p => some (.streamMap, p)
  | .streamUnmap p => some (.streamMap, p)
  | .streamQuery p => some (.streamMap, p)
  | .streamStart p => some (.streamStart, p)
  | .streamStop p => some (.streamStop, p)
  | .streamOut p => some (.streamOut, p)
  | .countersRead p => some (.countersRead, p)
  | .spareStatus p => some (.spareStatus, p)
  | .repair p => some (.repair, p)
  | .selfTest p => some (.selfTest, p)
  | .identityGet p => some (.identityGet, p)
  | .attest p => some (.attest, p)
  | .fwStage p => some (.fwStage, p)
  | .fwActivate p => some (.fwActivate, p)
  | .auditRead p => some (.auditRead, p)
  | .keyEnrol p => some (.keyEnrol, p)
  | .keyRevoke p => some (.keyEnrol, p)
  | _ => none

/-- The parameter bytes of a source's open continuation (R343). -/
def Source.gathered (x : Source) : List Byte :=
  match x.cont with
  | some k => k.params
  | none => []

/-- A command `op` that R343, R346, R347, R350, R374 and R375 let through to the checks of the command itself: `last` is its last
packet and `p` the same packet with the whole parameter block, which any open continuation of the source begins. The module is READY
and awake, the source `x` is bound to the packet's port, whose buffer has room, and the packet is in sequence, with a free credit, an
unused tag, and a role that may send the command. Where it asks for a fence, it is a command that queues, or nothing is before it; a
form-I command that uses no core finds no FENCE of the whole device before it (R169). -/
structure Session (s : State) (op : Op) (p last : Packet) (x : Source) : Prop where
  ready : s.power.phase = .ready
  awake : s.power.sleep = .awake
  running : s.power.failed = false
  port : s.answers p.port = true
  short : last.params.length ≤ 4080
  room : s.portFull p.port (16 + last.params.length) = false
  whole : continued last.flags = false
  block : p = { last with params := x.gathered ++ last.params }
  small : p.params.length ≤ 65536
  opened : ∀ k, x.cont = some k → k.tag = last.tag ∧ k.opcode = op.code
  unheld : fenceBefore p.flags = true → op.exempt = false ∧ (op.immediate p.params = false ∨ ∀ c ∈ s.cmds, c.acked = false)
  unfenced : op.immediate p.params = true → op.usesCores = false → ∀ c ∈ s.cmds, c.acked = true → c.body ≠ .fence []
  bound : s.source p.source = some x
  samePort : x.port = p.port
  inSeq : op.exempt = true ∨ x.seq = none ∨ x.seq = some p.seq
  credit : op.exempt = true ∨ s.credits p.source ≠ 0
  tag : s.cmd p.source p.tag = none
  role : s.mayRole op x.role = true
  login : x.role ≠ .none ∨ s.loginFree (some op) = true

/-- A source whose packet has been taken: its expected SEQ is the next (R347), and no continuation is open. -/
def Source.taken (x : Source) (op : Op) (p : Packet) : Source :=
  { x with seq := if op.exempt then x.seq else some ((p.seq + 1) % 2 ^ 32), cont := none }

/-- A packet is in: a header bit may have been corrected (R337), and it is counted. -/
def State.received (s : State) (port : Nat) : State := (s.corrected port).count 0x0600 1

/-- The state in which the command's own checks are made: the packet is counted and its source has moved on. -/
def State.admitted (s : State) (op : Op) (p : Packet) : State :=
  (s.received p.port).onSource p.source (fun x => x.taken op p)

/-- The command of a source as its handler sees it. -/
def Source.req (x : Source) (op : Op) (p : Packet) : Req :=
  ⟨op, p.port, p.source, p.tag, p.flags, p.seq, x.role, x.keyIndex, p.params⟩

end Sys2Proof.Machine
end

