-- ==== Sys2Proof/Certificates/Slice0/Obligations.lean ====
section
/-!
DEFINITION. The statements about the block for the provers.
-/
open Sys2Proof Sys2Proof.Machine

/-! ## The whole machine -/

/-- The machine after reset is sound: memory in canonical form, every setting in its range (R384), at most 256 sources (R346) and
1,024 slots (R348), one descriptor per handle (R187). -/
def Obligations.ResetIsSound : Prop := Inv State.reset

/-- Every step keeps the block sound, from every sound state, whatever command is in front. -/
def Obligations.StepKeepsSoundness : Prop := ∀ s t : State, Inv s → step s = .next t → Inv t

/-- No command undoes what none may undo: from every sound state a step leaves the rest of the queue as it was, and the audit
sequence number (R418), the export mark, the anti-rollback counter (R425), BOOT_COUNT (R447) and the model's own counter of free
values never go back, not even in a cold start or a loss of power.
The model's choices it rests on: log entry 11. -/
def Obligations.StepNeverGoesBack : Prop :=
  ∀ s t : State, Inv s → step s = .next t →
    t.pending = s.pending.tail ∧ s.free ≤ t.free ∧ s.trust.audit.next ≤ t.trust.audit.next
      ∧ s.trust.audit.exported ≤ t.trust.audit.exported ∧ s.trust.firmware.rollback ≤ t.trust.firmware.rollback
      ∧ s.trust.firmware.bootCount ≤ t.trust.firmware.bootCount

/-- A step runs the command at the front of the queue on the state with the rest of the queue. -/
def Obligations.StepRunsTheFrontCommand : Prop :=
  ∀ (s : State) (c : Instr) (rest : List Instr), step { s with pending := c :: rest } = exec c { s with pending := rest }

/-- The model's choices (log entries 2 and 4): with no command waiting, one microsecond of the local timer passes, and with it a
boot in its stages 0 and 1 goes on to the next stage (Table 14.4); nothing else happens. -/
def Obligations.IdleStepCountsTheTimer : Prop :=
  ∀ s : State, s.pending = [] →
    let t : State := { s with now := s.now + 1 }
    (s.power.phase ≠ .boot ∨ 2 ≤ s.power.stage → step s = .next t)
    ∧ (s.power.phase = .boot → s.power.stage < 2 →
        step s = .next { t with power := { s.power with stage := s.power.stage + 1 } })

/-- A module with power never stops: every command, whatever its operands, well formed or not, answers a next state.
The model's choices it rests on: log entry 3. -/
def Obligations.PoweredModuleNeverStops : Prop :=
  ∀ (i : Instr) (s : State), s.power.phase ≠ .off → ∃ t, exec i s = .next t

/-- R431, R472: with both feeds lost, and until the power-up, the packets and the I3C transfers of the host and the samples of
power and temperature, and these alone, end in the fault that says that nothing is defined; everything else answers a next
state.
The model's choices it rests on: log entry 14. -/
def Obligations.UnpoweredModuleDefinesNothing : Prop :=
  ∀ (i : Instr) (s : State), s.power.phase = .off →
    (needsPower i = true → exec i s = .fault .noPower) ∧ (needsPower i = false → ∃ t, exec i s = .next t)

/-! ## Memory -/

/-- What a write leaves: every byte of the range holds the byte written, but for those of a failed quarter, which discards writes
(R463); every other byte is as it was. A poisoned unit stays poisoned unless the write covers all of it (R184). -/
def Obligations.WriteChangesItsBytesAlone : Prop :=
  ∀ (s : State) (a : Nat) (bs : List Byte), memWf s.mem = true →
    (∀ x, memGet (s.write a bs).mem x
      = if a ≤ x ∧ x < a + bs.length ∧ s.addrFailed x = false then bs.getD (x - a) 0 else memGet s.mem x)
      ∧ (∀ u, u ∈ (s.write a bs).poison ↔ u ∈ s.poison ∧ ¬ (a ≤ u ∧ u + unitSize u ≤ a + bs.length))
      ∧ ∃ m p w, s.write a bs = { s with mem := m, poison := p, written := w }

/-! ## Packets and replies -/

/-- Tables 11.4b and 11.4c: where a reply carries what it says, for every opcode, KIND, source, tag, result and parameter block,
in every state of the block. -/
def Obligations.ReplyLayout : Prop :=
  (∀ (opcode source tag status : Nat) (k : Kind) (ps : List Byte), opcode < 2 ^ 16 → source < 2 ^ 16 → tag < 2 ^ 16 →
      status < 2 ^ 32 → ps.length < 2 ^ 32 →
    let b := replyBytes opcode k source tag status ps
    b.length = 16 + ps.length ∧ fld b 0 2 = opcode ∧ fld b 2 1 = k.code ∧ fld b 3 1 = 1 ∧ fld b 4 2 = source
      ∧ fld b 6 2 = tag ∧ fld b 8 4 = status ∧ fld b 12 4 = ps.length ∧ b.drop 16 = ps)
    ∧ ∀ (s : State) (source res : Nat), res < 256 →
      let w := s.status source res
      w < 2 ^ 32 ∧ w % 2 ^ 8 = res ∧ w / 2 ^ 8 % 2 ^ 8 = s.attention.attn.toNat ∧ w / 2 ^ 16 % 2 ^ 8 = s.credits source
        ∧ w / 2 ^ 24 % 2 ^ 4 = s.stateCode ∧ w / 2 ^ 28 % 2 ^ 3 = (s.roleOf source).code
        ∧ w / 2 ^ 31 = (if s.ledger.isSome then 1 else 0)

/-- R334, R339, R346: what a command packet does that never reaches its command, for every row of the host: a port that takes no
commands ignores it; one with more than 4,080 parameter bytes is dropped and counted in PORT_CRC_ERRORS; one that finds the 256 KiB
buffer of its port full is dropped, counted in PORT_OVERRUNS and raises BUDGET; one that names a source bound to another port is
counted in PORT_IGNORED; one of a 257th source gets NO_CREDIT, but for a command of form X (R373), which goes on to the checks of R350.
The model's choices it rests on: log entries 19, 57 and 123. -/
def Obligations.PacketsTurnedAway : Prop :=
  ∀ (i : Instr) (op : Op) (p : Packet) (s : State), carried i = some (op, p) → s.power.phase ≠ .off →
    let full := s.portFull p.port (16 + p.params.length)
    (s.answers p.port = false → exec i s = .next (s.corrected p.port))
      ∧ (s.answers p.port = true → 4080 < p.params.length → exec i s = .next ((s.corrected p.port).count 0x0603 1))
      ∧ (s.answers p.port = true → p.params.length ≤ 4080 → full = true →
          exec i s = .next (((s.corrected p.port).count 0x0605 1).overrun 1))
      ∧ (s.answers p.port = true → p.params.length ≤ 4080 → full = false → (∃ x, s.source p.source = some x ∧ x.port ≠ p.port) →
          exec i s = .next ((s.received p.port).count 0x0607 1))
      ∧ (s.answers p.port = true → p.params.length ≤ 4080 → full = false → s.source p.source = none → 256 ≤ s.sources.length →
          (op.exempt = false → exec i s = .next ((s.received p.port).answerTo p.port op.code p.source p.tag .noCredit []))
          ∧ (op.exempt = true → continued p.flags = false →
              exec i s = .next ((s.received p.port).dispatch op.code p p.params)))

/-- R347, R343: the sequence of a source, for every row of the host whose packet comes on a port that takes it. A new source's first
packet sets what is expected next; a packet out of sequence is refused with SEQ_GAP, whose 8 parameter bytes are the SEQ expected
and the SEQ received, ends an open continuation, and the next expected is the one after the one received, modulo 2^32;
GET_STATUS, READ_ATTENTION and ABORT leave it alone. A packet with another tag or opcode than the open continuation's ends that
command with BAD_PARAM and is then handled on its own; the last packet of a block brings the whole block to its command.
The model's choices it rests on: log entries 54 and 55. -/
def Obligations.SequenceOfASource : Prop :=
  ∀ (i : Instr) (op : Op) (p : Packet) (s : State), carried i = some (op, p) → s.power.phase ≠ .off →
    s.answers p.port = true → p.params.length ≤ 4080 → s.portFull p.port (16 + p.params.length) = false →
    (∀ x, s.source p.source = some x → x.port = p.port → (∀ k, x.cont = some k → k.tag = p.tag ∧ k.opcode = op.code) →
      (∀ e, x.seq = some e → op.exempt = false → p.seq ≠ e →
        exec i s = .next (((((s.received p.port).setSource
          { x with seq := some ((p.seq + 1) % 2 ^ 32), cont := none }).countGap).answerTo
            p.port op.code p.source p.tag .seqGap (leBytes 4 e ++ leBytes 4 p.seq))))
      ∧ (continued p.flags = false → (op.exempt = true ∨ x.seq = none ∨ x.seq = some p.seq) →
          (x.gathered ++ p.params).length ≤ 65536 →
          exec i s = .next ((s.admitted op p).dispatch op.code p (x.gathered ++ p.params))
            ∧ (s.admitted op p).source p.source
                = some { x with seq := if op.exempt then x.seq else some ((p.seq + 1) % 2 ^ 32), cont := none }))
      ∧ (∀ x k, s.source p.source = some x → x.port = p.port → x.cont = some k → ¬ (k.tag = p.tag ∧ k.opcode = op.code) →
          exec i s = .next ((((s.received p.port).setSource { x with cont := none }).answerTo
            p.port k.opcode p.source k.tag .badParam []).inSequence op.code p))
      ∧ (s.source p.source = none → s.sources.length < 256 → continued p.flags = false →
          exec i s = .next ((((s.received p.port).bindSource p).onSource p.source (fun x => x.taken op p)).dispatch op.code p
            p.params))

/-- R350, R374, R349, R373, R175, R170: the order of the checks that stand before a command's own, for a packet in sequence: LOCKED in
BOOT and in FAILED, then NO_RIGHT without a login, then NO_CREDIT (counted in PORT_OVERRUNS, with BUDGET raised), then BAD_PARAM
for FENCE_BEFORE on a command that never queues and for a tag in use, then NO_RIGHT for a role Table 12.2 does not list. An opcode
that Table 12.2 does not list (R373) gets NO_RIGHT without a login and BAD_OPCODE with one. The refusal is the only thing that
happens. A form-I command with FENCE_BEFORE that finds accepted commands before it waits in a slot (R168), and so does one that uses no
core behind a FENCE of the whole device (R169); one with bulk data takes it in meanwhile (R344).
The model's choices it rests on: log entries 52, 53 and 56. -/
def Obligations.ChecksInOrder : Prop :=
  ∀ (op : Op) (p : Packet) (ps : List Byte) (s : State) (x : Source), s.source p.source = some x →
    let say (t : State) (r : Res) : State := t.answerTo p.port op.code p.source p.tag r []
    let t := s.dispatch op.code p ps
    (s.lockedOut (some op) = true → t = say s .locked)
      ∧ (s.lockedOut (some op) = false → x.role = .none → s.loginFree (some op) = false → t = say s .noRight)
      ∧ (s.lockedOut (some op) = false → (x.role ≠ .none ∨ s.loginFree (some op) = true) → op.exempt = false →
          s.credits p.source = 0 → t = say ((s.count 0x0605 1).overrun 1) .noCredit)
      ∧ (s.lockedOut (some op) = false → (x.role ≠ .none ∨ s.loginFree (some op) = true) → op.exempt = true →
          fenceBefore p.flags = true → t = say s .badParam)
      ∧ (s.lockedOut (some op) = false → (x.role ≠ .none ∨ s.loginFree (some op) = true) →
          (op.exempt = true ∨ s.credits p.source ≠ 0) → (s.cmd p.source p.tag).isSome = true → t = say s .badParam)
      ∧ (s.lockedOut (some op) = false → (x.role ≠ .none ∨ s.loginFree (some op) = true) →
          (op.exempt = true ∧ fenceBefore p.flags = false ∨ op.exempt = false ∧ s.credits p.source ≠ 0) →
          s.cmd p.source p.tag = none → s.mayRole op x.role = false → t = say s .noRight)
      ∧ (s.lockedOut (some op) = false → (x.role ≠ .none ∨ s.loginFree (some op) = true) → op.exempt = false →
          s.credits p.source ≠ 0 → s.cmd p.source p.tag = none → s.mayRole op x.role = true → op.immediate ps = true →
          (fenceBefore p.flags = true ∧ (∃ c ∈ s.cmds, c.acked = true)
            ∨ op.usesCores = false ∧ (∃ c ∈ s.cmds, c.acked = true ∧ c.body = .fence [])) →
          let bulk : Option Nat :=
            if op = .networkLoad ∧ ps.length = 4 ∧ 1 ≤ fld ps 0 4 ∧ fld ps 0 4 ≤ 2 ^ 20 then some (fld ps 0 4)
            else if op = .crewListSet ∧ ps.length = 16 ∧ 1 ≤ fld ps 4 4 ∧ fld ps 4 4 ≤ 65536 then some (4 * fld ps 4 4)
            else none
          t = s.addCmd ((x.req op { p with params := ps }).cmd s.nextNo s.now false bulk (.held p.port x.role x.keyIndex)))
      ∧ (∀ opcode, Op.ofCode opcode = none → s.lockedOut none = false →
          let other (t : State) (r : Res) : State := t.answerTo p.port opcode p.source p.tag r []
          (x.role = .none → s.dispatch opcode p ps = other s .noRight)
          ∧ (x.role ≠ .none → s.credits p.source ≠ 0 → s.dispatch opcode p ps = other s .badOpcode))

/-- R343: a packet with CONTINUATION set is kept: the source's parameter block is what was gathered with the packet's parameters
behind it, nothing is answered and no command runs; a block of more than 65,536 bytes is refused with BAD_PARAM. A packet that
names another tag or opcode first ends the open block, whose command is refused with BAD_PARAM.
The model's choices it rests on: log entry 55. -/
def Obligations.ContinuedBlock : Prop :=
  ∀ (opcode : Nat) (p : Packet) (s : State) (x : Source), s.power.phase ≠ .off → s.answers p.port = true →
    p.params.length ≤ 4080 → s.portFull p.port (16 + p.params.length) = false → s.source p.source = some x → x.port = p.port →
    let exempt := (Op.ofCode opcode).any Op.exempt
    (exempt = true ∨ x.seq = none ∨ x.seq = some p.seq) →
    let next : Option Nat := if exempt then x.seq else some ((p.seq + 1) % 2 ^ 32)
    (∀ k, x.cont = some k → k.tag = p.tag → k.opcode = opcode → (k.params ++ p.params).length ≤ 65536 →
        exec (.commandContinuation opcode p) s = .next ((s.received p.port).setSource
          { x with seq := next, cont := some ⟨opcode, p.tag, p.flags ||| 4, k.params ++ p.params⟩ }))
      ∧ (x.cont = none → exec (.commandContinuation opcode p) s = .next ((s.received p.port).setSource
          { x with seq := next, cont := some ⟨opcode, p.tag, p.flags ||| 4, p.params⟩ }))
      ∧ (∀ k, x.cont = some k → k.tag = p.tag → k.opcode = opcode → 65536 < (k.params ++ p.params).length →
        exec (.commandContinuation opcode p) s = .next (((s.received p.port).setSource { x with seq := next, cont := none }).answerTo
          p.port opcode p.source p.tag .badParam []))
      ∧ (∀ k, x.cont = some k → ¬ (k.tag = p.tag ∧ k.opcode = opcode) →
        exec (.commandContinuation opcode p) s = .next ((((s.received p.port).setSource { x with cont := none }).answerTo
            p.port k.opcode p.source k.tag .badParam []).setSource
          { x with seq := next, cont := some ⟨opcode, p.tag, p.flags ||| 4, p.params⟩ }))

/-! ## The commands of the host that reach their own checks

Each statement is about the last packet of a command that `Session` admits, `p` with the whole parameter block (R343): the module READY
and awake, the source bound, in sequence, with a credit, a free tag and a role that may send the command. The reply or the acceptance
and the change of the state are given whole: what the next state is, is what an equation says. -/

/-- The single reply OK of form I or X, with what the tag table keeps of it (R175), in a state. -/
def okTo (op : Op) (p : Packet) (x : Source) (t : State) (params : List Byte) (after : After := .nothing) : State :=
  t.single ((x.taken op p).req op p) .ok params after

/-- The acceptance of form A or D in a state: the command takes its slot, the ACK leaves, and it begins where it may. -/
def acceptTo (op : Op) (p : Packet) (x : Source) (t : State) (params : List Byte) (body : Body) (bulk : Option Nat) : State :=
  t.accepted ((x.taken op p).req op p) params body bulk

/-- R376, R379, R353: NOP changes nothing; GET_STATUS and READ_ATTENTION answer with their blocks, the second clearing the record and
the ATTN bits in the same step; LOGOUT ends the role, and the source stays bound only while it holds a command.
The model's choices it rests on: log entries 10 and 102. -/
def Obligations.SessionCommands : Prop :=
  ∀ (s : State) (p last : Packet) (x : Source),
    (Session s .nop p last x → exec (.nop last) s = .next (okTo .nop p x (s.admitted .nop p) []))
    ∧ (Session s .getStatus p last x → exec (.getStatus last) s
        = .next (okTo .getStatus p x (s.admitted .getStatus p) (statusBlock (s.admitted .getStatus p))))
    ∧ (Session s .readAttention p last x →
        let a := s.admitted .readAttention p
        exec (.readAttention last) s = .next (okTo .readAttention p x
          { a with attention := .clear (s.attention.recordNo + 1) (s.health.coreTemps.foldl max (-128)),
                   power := { s.power with throttled := false } } (attentionBlock a)))
    ∧ (Session s .logout p last x →
        let b := (s.admitted .logout p).endRole p.source
        exec (.logout last) s = .next (okTo .logout p x (b.onSource p.source (fun y => { y with leaving := true })) [] .logout)
          ∧ ∃ t, exec (.logout last) s = .next t
            ∧ (s.slotsHeld p.source = 0 → t.source p.source = none)
            ∧ (s.slotsHeld p.source ≠ 0 → ∃ y, t.source p.source = some y ∧ y.role = .none ∧ y.leaving = true))

/-- R377, R378, R406 to R408: LOGIN_CHALLENGE gives a fresh nonce and challenge, which the source holds in place of any other until
10 s have passed; LOGIN_RESPONSE to it, of the right length, closes it and gives the role where the signature verifies, and counts
a failure where it does not; where the flash takes no record, a login that would succeed gets FAULT and no role (R419).
The model's choices it rests on: log entries 7 and 122. -/
def Obligations.LoginCommands : Prop :=
  ∀ (s : State) (p last : Packet) (x : Source),
    (∀ r, Session s .loginChallenge p last x → p.params.length = 4 → Role.ofCode (fld p.params 0 1) = some r →
        s.challengeable r (fld p.params 1 1) = true →
        let a := s.admitted .loginChallenge p
        let nonce := (List.range 32).map (Config.nonceByte s.trust.nextNonce)
        let c : Challenge := ⟨s.trust.nextChallenge % 2 ^ 32, nonce, r, fld p.params 1 1, s.now + 10000000⟩
        exec (.loginChallenge last) s = .next (okTo .loginChallenge p x
          { a.setSource { x.taken .loginChallenge p with challenge := some c } with
            trust := { s.trust with nextChallenge := s.trust.nextChallenge + 1, nextNonce := s.trust.nextNonce + 1 } }
          (nonce ++ leBytes 4 c.id ++ leBytes 4 10000)))
    ∧ (∀ c, Session s .loginResponse p last x →
        let claim := (fld p.params 6 1).testBit 0
        let long := claim || decide (fld p.params 4 1 = 3)
        let a := s.admitted .loginResponse p
        let b := a.closeChallenge p.source
        let carried := (p.params.drop (8 + sigBytes)).take keyBytes
        let pub : List Byte :=
          if long then carried else match s.key c.role c.index with | some k => k.pub | none => []
        p.params.length = 8 + sigBytes + (if long then keyBytes else 0) → x.challenge = some c →
        c.id = fld p.params 0 4 → c.role.code = fld p.params 4 1 → c.index = fld p.params 5 1 →
        (claim = true → c.role = .installer ∧ s.claimOpen = true) →
        (s.keyLocked c.role c.index = true → exec (.loginResponse last) s = .next ((b.loginFailed p.source c true).single
            ((x.taken .loginResponse p).req .loginResponse p) .locked [] .nothing))
        ∧ (s.keyLocked c.role c.index = false → exec (.loginResponse last) s = .next (
            if (long || (s.key c.role c.index).isSome)
                && (decide (c.role ≠ .maker) || decide (sha3_512 carried = fusedDigest c.index))
                && Config.verify pub loginContext (loginMessage c p.source) ((p.params.drop 8).take sigBytes)
            then if s.trust.flashFault
              then (b.raiseFault (6 * 4096)).single ((x.taken .loginResponse p).req .loginResponse p) .fault [] .nothing
              else okTo .loginResponse p x (b.loginOk p.source c (if claim then some carried else none)) []
            else ((b.loginFailed p.source c false).countFail p.source c).single
              ((x.taken .loginResponse p).req .loginResponse p) .sigInvalid [] .nothing)))

/-- R399, R404: an installer enrols and revokes operator keys, a maker installer keys: an ENROL at an empty index puts the key
there, a REVOKE takes it away and ends every login made with it; both are recorded in the audit log. An ENROL at an occupied index or
of another length gets BAD_PARAM, whatever the flash does; where the flash takes no record, one that R404 lets through gets FAULT and
changes no key (R419).
The model's choices it rests on: log entries 6, 102 and 122. -/
def Obligations.KeyCommands : Prop :=
  ∀ (s : State) (p last : Packet) (x : Source) (r : Role),
    Session s .keyEnrol p last x → 8 ≤ p.params.length → Role.ofCode (fld p.params 1 1) = some r →
    ((x.role = .installer ∧ r = .operator) ∨ (x.role = .maker ∧ r = .installer)) → fld p.params 2 1 < keyLimit r →
    let i := fld p.params 2 1
    let a := s.admitted .keyEnrol p
    let record (kind : Nat) (pub : List Byte) : AuditEvent :=
      { a.actor kind p.source with subject := r.code * 256 + i, detail := keyDetail pub false }
    let faulted := (a.raiseFault (6 * 4096)).single ((x.taken .keyEnrol p).req .keyEnrol p) .fault [] .nothing
    (fld p.params 0 1 = 0 → p.params.length ≠ 8 + keyBytes ∨ (s.key r i).isSome = true →
        exec (.keyEnrol last) s = .next (a.single ((x.taken .keyEnrol p).req .keyEnrol p) .badParam [] .nothing))
    ∧ (s.trust.flashFault = true → fld p.params 0 1 = 0 → p.params.length = 8 + keyBytes → s.key r i = none →
        exec (.keyEnrol last) s = .next faulted)
    ∧ (s.trust.flashFault = true → fld p.params 0 1 = 1 → (s.key r i).isSome = true → exec (.keyRevoke last) s = .next faulted)
    ∧ (s.trust.flashFault = false → fld p.params 0 1 = 0 → p.params.length = 8 + keyBytes → s.key r i = none →
        exec (.keyEnrol last) s = .next (okTo .keyEnrol p x
          (({ a with trust := { s.trust with keys := s.trust.keys ++ [(⟨r, i, p.params.drop 8⟩ : KeySlot)] } }).audit
            (record 0x06 (p.params.drop 8))) []))
    ∧ (∀ k, s.trust.flashFault = false → fld p.params 0 1 = 1 → s.key r i = some k →
        exec (.keyRevoke last) s = .next (okTo .keyEnrol p x
          (({ a with trust := { s.trust with keys := s.trust.keys.filter (fun z => !(z.role = r && z.index = i)) } }).audit
            (record 0x07 k.pub)) [] (.revoke r i)))

/-- R411 to R413, R383: the commands of the Ledger: BEGIN opens one where none is open; its owner stages a writable key in range with
SET, discards it with ROLLBACK, which is recorded (one whose record cannot be written gets FAULT and leaves it open, R419), or asks
with COMMIT for what it stages to be applied.
The model's choices it rests on: log entry 122. -/
def Obligations.LedgerCommands : Prop :=
  ∀ (s : State) (p last : Packet) (x : Source),
    (Session s .ledgerBegin p last x → s.ledger = none →
        exec (.ledgerBegin last) s = .next (okTo .ledgerBegin p x
          { s.admitted .ledgerBegin p with ledger := some ⟨s.nextLedger, p.source, s.now, false, [], []⟩,
                                           nextLedger := (s.nextLedger + 1) % 2 ^ 32 } (leBytes 4 s.nextLedger)))
    ∧ (∀ l, s.ledger = some l → l.committing = false → l.owner = p.source → l.id = fld p.params 0 4 →
        (Session s .ledgerSet p last x → p.params.length = 16 → keyRefusal x.role (fld p.params 4 2) (fld p.params 8 8) = none →
          (l.keys.length < 256 ∨ l.keys.any (fun z => z.1 = fld p.params 4 2) = true) →
          exec (.ledgerSet last) s = .next (okTo .ledgerSet p x
            { s.admitted .ledgerSet p with
              ledger := some { l with keys := assocPut l.keys (fld p.params 4 2) (fld p.params 8 8), lastAt := s.now } } []))
        ∧ (Session s .ledgerRollback p last x →
          let a := s.admitted .ledgerRollback p
          (s.trust.flashFault = false → exec (.ledgerRollback last) s = .next (okTo .ledgerRollback p x
            (({ a with ledger := none }).audit (rollRecord (a.actor 0x02 p.source) l.id .request 0)) []))
          ∧ (s.trust.flashFault = true → exec (.ledgerRollback last) s = .next
            ((a.raiseFault (6 * 4096)).single ((x.taken .ledgerRollback p).req .ledgerRollback p) .fault [] .nothing)))
        ∧ (Session s .ledgerCommit p last x →
          let a := s.admitted .ledgerCommit p
          exec (.ledgerCommit last) s = .next (acceptTo .ledgerCommit p x
            { a with
              ledger := some { l with committing := true, lastAt := s.now }
              commits := s.commits ++ [⟨p.source, p.tag, l.id, x.role, x.keyIndex, l.keys, l.masks, s.now + 50000,
                (s.checkKeys l.keys).map (fun z => z.1)⟩] } [] .plain none)))

/-- R384, R417: SETTING_GET returns the committed values of up to 255 readable keys, 8 bytes each, and changes nothing; SETTING_SET of a
writable key in range, not staged in the open Ledger, with no check against it, is accepted as a commit of that key. -/
def Obligations.SettingCommands : Prop :=
  ∀ (s : State) (p last : Packet) (x : Source),
    (let n := fld p.params 0 2
     let ks := (List.range n).map (fun i => fld p.params (4 + 2 * i) 2)
     Session s .settingGet p last x → 1 ≤ n → n ≤ 255 → p.params.length = 4 + 2 * n → (∀ k ∈ ks, keyInfo k ≠ none) →
        (∀ k ∈ ks, keyReadable x.role k = true) →
        exec (.settingGet last) s = .next (okTo .settingGet p x (s.admitted .settingGet p)
          (ks.flatMap (fun k => leBytes 8 (s.keyValue k)))))
    ∧ (let k := fld p.params 0 2
       let v := fld p.params 8 8
       Session s .settingSet p last x → p.params.length = 16 → keyRefusal x.role k v = none →
        (∀ l, s.ledger = some l → l.keys.any (fun z => z.1 = k) = false) → s.checkKeys [(k, v)] = none →
        exec (.settingSet last) s = .next (acceptTo .settingSet p x
          { s.admitted .settingSet p with commits := s.commits ++
            [⟨p.source, p.tag, 0, x.role, x.keyIndex, [(k, v)], [], s.now + 50000, none⟩] } [] .plain none))

/-- R189 to R191, R224, R389: TENSOR_DEFINE puts the descriptor of a free handle into the table, in the place of any it replaces, with
an empty Assay record and no tag; its ACTION 1 takes a live handle out; neither writes memory. ASSAY_READ returns the record and, with
its CLEAR bit, empties it in the same step.
The model's choices it rests on: log entry 51. -/
def Obligations.TensorTableCommands : Prop :=
  ∀ (s : State) (p last : Packet) (x : Source),
    (Session s .tensorDefine p last x → p.params.length = 40 → s.handleBusy (fld p.params 8 4) = false →
        s.freezeOf (fld p.params 8 4) = none →
        (∀ t, fld p.params 0 1 = 0 → tensorOf (p.params.drop 8) = some t → s.badRange t = false →
            (s.tensors.length < 65536 ∨ s.tensor (fld p.params 8 4) ≠ none) →
            exec (.tensorDefine last) s = .next (okTo .tensorDefine p x
              { s.admitted .tensorDefine p with tensors := tensorPut s.tensors t } [])
            ∧ t.assay = .empty ∧ t.tag = none)
        ∧ (∀ t, fld p.params 0 1 = 1 → s.tensor (fld p.params 8 4) = some t →
            exec (.tensorRelease last) s = .next (okTo .tensorDefine p x
              { s.admitted .tensorDefine p with tensors := s.tensors.filter (fun u => u.handle ≠ t.handle) } [])))
    ∧ (∀ t f, Session s .assayRead p last x → p.params.length = 8 → s.tensor (fld p.params 0 4) = some t → t.fmt = some f →
        exec (.assayRead last) s = .next (okTo .assayRead p x
          (if (fld p.params 4 1).testBit 0 then (s.admitted .assayRead p).setTensor { t with assay := .empty }
            else s.admitted .assayRead p) (assayBytes t.assay f)))

/-- R385 to R388: the data commands that their checks let through are accepted: TENSOR_WRITE with as many bytes of bulk data as its
access takes, TENSOR_READ, TENSOR_COPY between tensors of one shape that do not overlap, and TENSOR_FILL. Nothing is written before
TENSOR_COMMAND_DONE. A TENSOR_READ of a receive ring that starts at once pins the slot that is LAST (R199).
The model's choices it rests on: log entries 51 and 114. -/
def Obligations.DataCommandsAccepted : Prop :=
  ∀ (s : State) (p last : Packet) (x : Source) (t : Tensor),
    (∀ n, Session s .tensorWrite p last x → p.params.length = 40 → s.tensor (accessOf p.params).handle = some t →
        s.receiveRing (accessOf p.params).handle = false → (accessOf p.params).bulkLen t false = some n →
        exec (.tensorWrite last) s = .next (acceptTo .tensorWrite p x (s.admitted .tensorWrite p) [] .plain (some n)))
    ∧ (∀ n, Session s .tensorRead p last x → p.params.length = 40 → s.tensor (accessOf p.params).handle = some t →
        (accessOf p.params).bulkLen t (s.receiveRing (accessOf p.params).handle) = some n →
        let q := (x.taken .tensorRead p).req .tensorRead p
        let a := s.admitted .tensorRead p
        ((s.receiveRing (accessOf p.params).handle = false ∨ t.planes ≤ s.ringLast t ∨ a.startsNow q = false) →
          exec (.tensorRead last) s = .next (acceptTo .tensorRead p x a [] .plain none))
        ∧ (s.receiveRing (accessOf p.params).handle = true → s.ringLast t < t.planes → a.startsNow q = true →
          exec (.tensorRead last) s
            = .next (acceptTo .tensorRead p x a [] (.read (accessOf p.params).handle (s.ringLast t)) none)))
    ∧ (∀ u, Session s .tensorCopy p last x → p.params.length = 12 → s.tensor (fld p.params 0 4) = some t →
        s.tensor (fld p.params 4 4) = some u → t.fmt = u.fmt → t.layout = u.layout → t.rows = u.rows → t.cols = u.cols →
        overlaps t.base t.footprint u.base u.footprint = false → s.receiveRing u.handle = false →
        (t.layout = .blocked ∧ (if fld p.params 10 2 = 0 then fld p.params 8 2 < min t.planes u.planes
            else fld p.params 8 2 + fld p.params 10 2 ≤ min t.planes u.planes)
          ∨ t.layout = .ring ∧ fld p.params 10 2 ≤ 1 ∧ fld p.params 8 2 < u.planes
          ∨ t.layout = .raw ∧ t.pitch = u.pitch ∧ fld p.params 8 2 = 0 ∧ fld p.params 10 2 ≤ 1) →
        exec (.tensorCopy last) s = .next (acceptTo .tensorCopy p x (s.admitted .tensorCopy p) [] .plain none))
    ∧ (∀ r, Session s .tensorFill p last x → p.params.length = 12 → s.tensor (fld p.params 0 4) = some t →
        fillPlanes t (fld p.params 8 2) (fld p.params 10 2) = some r → fillValueOk t (fld p.params 4 4) = true →
        s.receiveRing t.handle = false →
        exec (.tensorFill last) s = .next (acceptTo .tensorFill p x (s.admitted .tensorFill p) [] .plain none))

/-- R147 to R150, R390, R169: NETWORK_LOAD waits in a slot for the descriptor its TOTAL announces; NETWORK_ACTIVATE of a loaded network
none of whose cores is lost and FENCE of a set with no lost core are accepted; NETWORK_UNLOAD takes away a network that no core runs
and no accepted command names.
The model's choices it rests on: log entry 51. -/
def Obligations.NetworkCommands : Prop :=
  ∀ (s : State) (p last : Packet) (x : Source),
    (Session s .networkLoad p last x → p.params.length = 4 → 1 ≤ fld p.params 0 4 → fld p.params 0 4 ≤ 2 ^ 20 →
        exec (.networkLoad last) s = .next ((s.admitted .networkLoad p).addCmd
          (((x.taken .networkLoad p).req .networkLoad p).cmd s.nextNo s.now false (some (fld p.params 0 4))
            (.held p.port x.role x.keyIndex))))
    ∧ (∀ n, Session s .networkActivate p last x → p.params.length = 4 → s.loadedNet (fld p.params 0 2) = some n →
        (∀ c ∈ n.cores, s.lost c = false) →
        exec (.networkActivate last) s = .next (acceptTo .networkActivate p x (s.admitted .networkActivate p) []
          (.activate n.id n.cores) none))
    ∧ (Session s .networkUnload p last x → p.params.length = 4 → s.loadedNet (fld p.params 0 2) ≠ none →
        (∀ k ∈ s.cores, k.net ≠ some (fld p.params 0 2)) →
        (∀ c ∈ s.cmds, c.acked = true → c.namesNet (fld p.params 0 2) = false) →
        exec (.networkUnload last) s = .next (okTo .networkUnload p x
          { s.admitted .networkUnload p with nets := s.nets.filter (fun n => n.id ≠ fld p.params 0 2) } []))
    ∧ (Session s .fence p last x → p.params.length = 18 → (∀ c ∈ coreSet p.params 0, s.lost c = false) →
        exec (.fence last) s = .next (acceptTo .fence p x (s.admitted .fence p) [] (.fence (coreSet p.params 0)) none))

/-- R160, R161, R219: an OP_RUN, or a GRAPH_RUN of a stored graph, all of whose records bind and pass their checks against the state
their cores will have, is accepted. The ACK carries the stamp of its first SAVE or RECOMPUTE record, all ones where it has none; the
stamp counter moves on by what the records take; the records wait for their cores.
The model's choices it rests on: log entry 67. -/
def Obligations.OperatorsAccepted : Prop :=
  ∀ (s : State) (p last : Packet) (x : Source) (n : Net) (xs : List RecRun) (hs : List Nat) (st : Nat),
    s.loadedNet (fld p.params 0 2) = some n → 8 ≤ p.params.length →
    let stamp (rs : List NetRec) : List Byte := leBytes 4 (if rs.any (fun r => r.stack ≠ 0) then s.stampCounter else 0xFFFFFFFF)
    (let rs : List NetRec := [⟨fld p.params 2 2, false, fld p.params 4 1, p.params.drop 8⟩]
     let a := s.admitted .opRun p
     Session s .opRun p last x → a.bindAll n false (adoptFlag p.flags) [] rs [] s.stampCounter = .ok (xs, hs, st) →
        exec (.opRun last) s = .next (acceptTo .opRun p x { a with stampCounter := st } (stamp rs)
          (.ops ⟨n.id, false, adoptFlag p.flags, xs, hs, 0, none⟩) none))
    ∧ (∀ g, let binds := (List.range (fld p.params 4 2)).map (fun i => fld p.params (8 + 4 * i) 4)
        let a := s.admitted .graphRun p
        Session s .graphRun p last x → fld p.params 4 2 ≤ 256 → p.params.length = 8 + 4 * fld p.params 4 2 →
        n.graphs.find? (fun g => g.id = fld p.params 2 2) = some g →
        a.bindAll n true (adoptFlag p.flags) binds g.recs [] s.stampCounter = .ok (xs, hs, st) →
        exec (.graphRun last) s = .next (acceptTo .graphRun p x { a with stampCounter := st } (stamp g.recs)
          (.ops ⟨n.id, true, adoptFlag p.flags, xs, hs ++ binds, 0, none⟩) none))

/-- R171, R172: ABORT of a command that holds its tag, is not stopping and may be aborted, sent by its own source or by an installer or a
maker, answers OK with OUTCOME 0x04, and what the command runs is then stopped.
The model's choices it rests on: log entry 71. -/
def Obligations.AbortCommand : Prop :=
  ∀ (s : State) (p last : Packet) (x : Source) (c : Cmd), Session s .abort p last x → p.params.length = 4 →
    (x.role = .operator → fld p.params 0 2 = p.source) → s.cmd (fld p.params 0 2) (fld p.params 2 2) = some c →
    c.acked = true → c.op.abortable = true → c.stopping = false →
    exec (.abort last) s = .next (okTo .abort p x (s.admitted .abort p) (leBytes 1 0x04)
        (.abort (fld p.params 0 2) (fld p.params 2 2)))
      ∧ okTo .abort p x (s.admitted .abort p) (leBytes 1 0x04) (.abort (fld p.params 0 2) (fld p.params 2 2))
        = ((s.admitted .abort p).answerTo p.port 0x0304 p.source p.tag .ok (leBytes 1 0x04)).abortCmd c

/-- R222, R223, R225: STACK_CONFIG: ACTION 0 gives the stacks of the selected groups, all empty, their areas; ACTION 1 discards every entry of
the selected stacks and keeps their regions; ACTION 2 returns a record for each of the 16 groups and changes nothing.
The model's choices it rests on: log entries 51, 69 and 124. -/
def Obligations.StackCommands : Prop :=
  ∀ (s : State) (p last : Packet) (x : Source), Session s .stackConfig p last x → p.params.length = 28 →
    let q := stackParams p.params
    (q.action = 2 → exec (.stackQuery last) s
        = .next (okTo .stackConfig p x (s.admitted .stackConfig p) (s.actStacks.flatMap Stack.record)))
    ∧ (q.groups ≠ [] → (∀ c ∈ s.cmds, c.acked = true → c.stackOn q.groups = false) →
        (q.action = 1 → exec (.stackClear last) s = .next (okTo .stackConfig p x
            { s.admitted .stackConfig p with
              actStacks := q.groups.foldl (fun a g => listUpd a g (fun k => { k with entries := [] })) s.actStacks } []))
        ∧ (q.action = 0 → q.rangesOk = true → (∀ g ∈ q.groups, (s.stack g).entries = []) →
            s.setting 0x3201 * 2 ^ 20 ≤ q.sramSize → s.stackAreasOk q = true →
            exec (.stackConfigure last) s = .next (okTo .stackConfig p x
              { s.admitted .stackConfig p with
                actStacks := q.spills.foldl (fun a y => listUpd a y.1 (q.configure y.2)) s.actStacks } [])))

/-- R240, R258, R259, R262: UPDATE_PROGRAM_LOAD puts a program that passes its checks into the store, in the place of one with its ID, and
with NSTEPS 0 takes it out; FREEZE_SET with IN_LEDGER stages a mask of the weight tensor (its bits read now where the granularity has
any) in its source's open Ledger; PARAM_WRITE is accepted with as much bulk data as its elements take.
The model's choices it rests on: log entries 33 and 51. -/
def Obligations.UpdateCommands : Prop :=
  ∀ (s : State) (p last : Packet) (x : Source),
    (let u := programOf p.params
     Session s .updateProgramLoad p last x → p.params.length = 24 + 8 * fld p.params 1 1 → fld p.params 1 1 ≤ 16 → 1 ≤ u.id → u.id ≤ 63 →
        s.programBusy u.id = false → u.ok = true →
        (1 ≤ fld p.params 1 1 → exec (.updateProgramLoad last) s = .next (okTo .updateProgramLoad p x
            { s.admitted .updateProgramLoad p with programs := s.programs.filter (fun v => v.id ≠ u.id) ++ [u] } []))
        ∧ (fld p.params 1 1 = 0 → s.program u.id ≠ none → exec (.updateProgramUnload last) s
            = .next (okTo .updateProgramLoad p x
              { s.admitted .updateProgramLoad p with programs := s.programs.filter (fun v => v.id ≠ u.id) } [])))
    ∧ (∀ l t qr mask, let w := fld p.params 0 4
        let gran := fld p.params 8 1
        let need := if gran = 0 then t.positions / 32 else t.positions
        let masks := stagePut l.masks ⟨w, gran, qr, mask⟩
        Session s .freezeSet p last x → inLedger p.flags = true → s.ledger = some l → l.committing = false → l.owner = p.source →
        p.params.length = 12 → s.tensor w = some t → quarterFor t.base t.footprint = some qr → t.layout = .blocked →
        t.fmt = some .lns24 → s.weightBusy w = false →
        ((2 ≤ gran ∧ gran ≤ 3 ∧ tref (fld p.params 4 4) = none ∧ mask = [])
          ∨ (gran ≤ 1 ∧ ∃ h m, tref (fld p.params 4 4) = some h ∧ s.tensor h = some m ∧ m.layout = .raw
              ∧ need ≤ m.footprint * 8 ∧ s.poisoned m.base ((need + 7) / 8) = false
              ∧ mask = s.read m.base ((need + 7) / 8))) →
        ((s.masksThen masks qr).map StagedMask.bytes).foldl (· + ·) 0 ≤ 2 ^ 22 → (s.masksThen masks qr).length ≤ 1024 →
        exec (.freezeSet last) s = .next (okTo .freezeSet p x
          { s.admitted .freezeSet p with ledger := some { l with masks := masks, lastAt := s.now } } []))
    ∧ (∀ w wc qr, let f := pwFields p.params
        Session s .paramWrite p last x → p.params.length = 24 → 1 ≤ f.2.2.2.1 → f.2.2.2.1 ≤ 2 ^ 24 →
        (f.2.2.2.2 = 0x04 ∨ f.2.2.2.2 = 0x20) → s.tensor f.1 = some w → s.optTensor f.2.1 = some wc → w.layout = .blocked →
        w.fmt = some .lns24 → quarterFor w.base w.footprint = some qr → f.2.2.1 + f.2.2.2.1 ≤ w.positions →
        optAll wc (fun t => copyFmt t && sameShape t w && inSram t.base t.footprint) = true → s.server qr ≠ none →
        exec (.paramWrite last) s = .next (acceptTo .paramWrite p x (s.admitted .paramWrite p) [] .plain
          (some (f.2.2.2.1 * pwBytes f.2.2.2.2))))

/-- R246 to R248, R293, R306, R307: UPDATE_RUN and COLLECTIVE_RUN first move the local step; one whose fields, tensors, crew version and
place in the crew pass their checks is accepted with the run they describe, which waits for its start.
The model's choices it rests on: log entries 32, 33 and 117. -/
def Obligations.RunsAccepted : Prop :=
  ∀ (s : State) (p last : Packet) (x : Source),
    (let n := fld p.params 0 2
     let nl := fld p.params 2 2
     let a := (s.admitted .updateRun p).moveStep (fld p.params 40 4)
     let entries := ((List.range n).map (fun i => a.updateEntry nl ((p.params.drop (88 + 40 * i)).take 40))).filterMap id
     Session s .updateRun p last x → p.params.length = 88 + 40 * n → 1 ≤ n → n ≤ 4096 → 1 ≤ nl → nl ≤ 4096 → fld p.params 4 1 ≤ 1 →
        fld p.params 5 1 = 0 → fld p.params 8 4 = 0 → tref (fld p.params 12 4) = none → entries.length = n →
        anyOverlap (a.ranges (entries.flatMap UEntry.written)) = false → (∀ e ∈ entries, a.server e.quarter ≠ none) →
        a.sharedWorkspace entries = true →
        ∃ r : UpdRun, exec (.updateRun last) s = .next (acceptTo .updateRun p x a [] (.update r) none)
          ∧ r.entries = entries ∧ r.nlayers = nl ∧ r.mode = fld p.params 4 1 ∧ r.skip = fld p.params 6 1 % 4 ∧ r.coll = false
          ∧ r.norm = none ∧ r.normed = false ∧ r.clip = fld p.params 19 3 ∧ r.stop = none)
    ∧ (∀ me rank, let ps := p.params
        let a := (s.admitted .collectiveRun p).moveStep (fld ps 12 8)
        let ms := a.net9.crew.members
        let inH := tref (fld ps 24 4)
        let outH := tref (fld ps 28 4)
        Session s .collectiveRun p last x → fld ps 4 4 = a.crewVersion → collFieldsOk ps ms.length = true →
        (inH = none ∨ inH.bind a.tensor ≠ none) → (outH = none ∨ outH.bind a.tensor ≠ none) →
        collFormats (fld ps 0 1) (fld ps 1 1) (fld ps 2 1) (inH.bind a.tensor) (outH.bind a.tensor) = true →
        (inH = none ∨ inH ≠ outH ∨ fld ps 0 1 = 1) → s.devAddr = some me → ms.findIdx? (fun m => m = me) = some rank →
        (∀ r : CollRun, r.members = ms → r.rank = rank → a.watchFull r.neighbours = false) →
        (a.collFor (a.crewVersion % 2 ^ 16) (fld ps 8 4)).isSome = false →
        ∃ r : CollRun, exec (.collectiveRun last) s = .next (acceptTo .collectiveRun p x a [] (.coll r) none)
          ∧ r.kind = fld ps 0 1 ∧ r.combine = fld ps 1 1 ∧ r.close = fld ps 2 1 ∧ r.crew = a.crewVersion ∧ r.cid = fld ps 8 4
          ∧ r.peer = fld ps 20 4 ∧ r.input = inH ∧ r.output = outH ∧ r.members = ms ∧ r.rank = rank ∧ r.started = false)

/-- R314, R316, R325: PAIR_SET: BIND of another device, with both feeds set and no holder, is accepted; UNBIND leaves the holder, which is
told, and ends a SECURE that runs; RELEASE discards the copy of a ward that is lost or has left; QUERY returns the record. R318, R329:
SECURE of one to 64 different BLOCKED tensors that fit the holder's slot is accepted with the next SECURE_ID in its ACK; RESTORE_SERVE of
a range of a tensor of the COMPLETE slot, in whole rows of 32, is accepted.
The model's choices it rests on: log entries 41 and 42. -/
def Obligations.PartnerCommands : Prop :=
  (∀ (s : State) (p last : Packet) (x : Source), Session s .pairSet p last x → p.params.length = 8 →
      let h := fld p.params 4 4 % 2 ^ 20
      let a := s.admitted .pairSet p
      (fld p.params 0 1 = 0 → s.setting 0x6000 ≠ 0 → s.setting 0x6001 ≠ 0 → s.devAddr ≠ some h → s.pair.holderState ≠ .binding →
          s.pair.holderState ≠ .bound → (∀ c ∈ s.cmds, ∀ z y w, c.body ≠ .bind z y w) → s.securing = false →
          s.watchFull [h] = false →
          exec (.pairSetBind last) s = .next (acceptTo .pairSet p x a [] (.bind h s.now (s.setting 0x6020)) none))
      ∧ (∀ y, fld p.params 0 1 = 1 → s.pair.holder = some y → s.pair.holderState ≠ .binding → s.securing = false →
          (∀ c ∈ s.cmds, ∀ r, c.body ≠ .secure r) →
          let b := a.sendFlit y 6 0 0 (pairMsg 3 0 0 0 []) []
          exec (.pairSetUnbind last) s = .next (okTo .pairSet p x
            ({ b with pair := { b.pair with holderState := .none, holder := none } }).refreshFlags []))
      ∧ (∀ y c r cs ds, fld p.params 0 1 = 1 → s.pair.holder = some y → s.pair.holderState ≠ .binding →
          s.cmds = cs ++ c :: ds → c.body = .secure r → (∀ d ∈ cs ++ ds, ∀ z, d.body ≠ .secure z) →
          let b := ((a.sendFlit y 6 0 r.id (pairMsg 0x14 0 0 0 []) []).abortSecure c r 0x40).sendFlit y 6 0 0 (pairMsg 3 0 0 0 []) []
          exec (.pairSetUnbind last) s = .next (okTo .pairSet p x
            ({ b with pair := { b.pair with holderState := .none, holder := none } }).refreshFlags []))
      ∧ (fld p.params 0 1 = 2 → (s.pair.wardState = .lost ∨ s.pair.wardState = .retained) →
          exec (.pairSetRelease last) s = .next (okTo .pairSet p x
            ({ a with pair := { s.pair with wardState := .none, ward := none, slots := [.empty, .empty] } }).refreshFlags []))
      ∧ (fld p.params 0 1 = 3 → exec (.pairSetQuery last) s = .next (okTo .pairSet p x a (pairRecord a))))
  ∧ (∀ (s : State) (p last : Packet) (x : Source),
      (let n := fld p.params 8 1
       let hs := (List.range n).map (fun i => fld p.params (16 + 4 * i) 4)
       let ts := hs.filterMap s.tensor
       Session s .secure p last x → 1 ≤ n → n ≤ 64 → p.params.length = 16 + 4 * n → ts.length = n → (∀ t ∈ ts, t.layout = .blocked) →
          hs.eraseDups.length = n → s.securing = false → s.pair.holderState = .bound →
          (s.pair.sameHolder = false ∨ s.setting 0x6002 ≠ 0) → copyBytes ts ≤ s.pair.holderSlot →
          exec (.secure last) s = .next (acceptTo .secure p x
            { s.admitted .secure p with pair := { s.pair with nextSecure := (s.pair.nextSecure + 1) % 2 ^ 32 } }
            (leBytes 4 s.pair.nextSecure)
            (.secure ⟨s.pair.nextSecure, fld p.params 0 8, hs, false, 0, [], [], 0, 0, false⟩) none))
      ∧ (∀ k t, let ps := p.params
          Session s .restoreServe p last x → ps.length = 44 → s.pair.wardState ≠ .none → s.pair.ward = some (fld ps 0 4 % 2 ^ 20) →
          s.completeSlot = some k → (s.slotTensors k)[fld ps 12 1]? = some t → s.slotStep k = fld ps 4 8 → fld ps 16 8 % 32 = 0 →
          fld ps 24 4 % 32 = 0 → fld ps 36 8 % 32 = 0 → 32 ≤ fld ps 24 4 → fld ps 24 4 ≤ 2 ^ 30 →
          fld ps 16 8 + fld ps 24 4 ≤ t.positions →
          exec (.restoreServe last) s = .next (acceptTo .restoreServe p x (s.admitted .restoreServe p) []
            (.serve { slot := k, tidx := fld ps 12 1, target := fld ps 28 4 % 2 ^ 20, handle := fld ps 32 4,
                      from_ := fld ps 16 8 / 32 * rowBytes t.f, to_ := fld ps 36 8 / 32 * rowBytes t.f,
                      bytes := fld ps 24 4 / 32 * rowBytes t.f, sent := 0, ended := false, since := s.now, src := none }) none)))

/-- R292, R290, R304: LINK_STATUS returns a record for each selected link, all 64 for a mask of 0; ROUTE_LOAD replaces COUNT entries of a table
from FIRST on, an entry of 0 taking one out; CREW_LIST_SET waits in a slot for 4 bytes for each of its members.
The model's choices it rests on: log entry 51. -/
def Obligations.LinkAndCrewCommands : Prop :=
  ∀ (s : State) (p last : Packet) (x : Source),
    (Session s .linkStatus p last x → p.params.length = 8 →
        exec (.linkStatus last) s = .next (okTo .linkStatus p x (s.admitted .linkStatus p)
          (((List.range 64).filter (fun i => decide (fld p.params 0 8 = 0) || (fld p.params 0 8).testBit i)).flatMap
            (linkRecord (s.admitted .linkStatus p)))))
    ∧ (let first := fld p.params 2 2
       let count := fld p.params 4 2
       let put (t : List (Nat × Nat)) : List (Nat × Nat) := (List.range count).foldl (fun b k =>
          let v := fld p.params (8 + 8 * k) 8
          if v = 0 then assocDel b (first + k) else assocPut b (first + k) v) t
       Session s .routeLoad p last x → 1 ≤ count → p.params.length = 8 + 8 * count →
        (fld p.params 0 1 = 0 → first + count ≤ 256 → exec (.routeLoad last) s = .next (okTo .routeLoad p x
            { s.admitted .routeLoad p with net9 := { s.net9 with intra := put s.net9.intra } } []))
        ∧ (fld p.params 0 1 = 1 → first + count ≤ 4096 → exec (.routeLoad last) s = .next (okTo .routeLoad p x
            { s.admitted .routeLoad p with net9 := { s.net9 with inter := put s.net9.inter } } [])))
    ∧ (Session s .crewListSet p last x → p.params.length = 16 → 1 ≤ fld p.params 4 4 → fld p.params 4 4 ≤ 65536 →
        exec (.crewListSet last) s = .next ((s.admitted .crewListSet p).addCmd
          (((x.taken .crewListSet p).req .crewListSet p).cmd s.nextNo s.now false (some (4 * fld p.params 4 4))
            (.held p.port x.role x.keyIndex))))

/-- R356, R361, R362: the stream commands: STREAM_MAP of a free ID, port, VC and data type to a ring adds a stream that is not running, its
ACTION 1 takes one away, its ACTION 2 returns a record, of zeros for an ID not mapped; STREAM_START and STREAM_STOP start and stop the
streams of their mask in ascending order; STREAM_OUT adds an output stream and is accepted.
The model's choices it rests on: log entries 48 and 49. -/
def Obligations.StreamCommands : Prop :=
  ∀ (s : State) (p last : Packet) (x : Source),
    (Session s .streamMap p last x → p.params.length = 16 →
        let ps := p.params
        let id := fld ps 1 1
        let a := s.admitted .streamMap p
        (fld ps 0 1 = 0 → s.mapRefusal ps = none → exec (.streamMap last) s = .next (okTo .streamMap p x
            { a with streams := s.streams ++
              [{ Stream.new id false (fld ps 2 1) (fld ps 3 1) (fld ps 4 1) (fld ps 12 4) 0 p.source p.tag with
                  channels := fld ps 5 1, shift := fld ps 6 1, black := fld ps 8 2, scale := fld ps 10 2 }] } []))
        ∧ (∀ y, fld ps 0 1 = 1 → s.stream id = some y → y.state ≠ .running → y.output = false →
            exec (.streamUnmap last) s = .next (okTo .streamMap p x ((a.flushFrames y).dropStream id) []))
        ∧ (fld ps 0 1 = 2 → id ≤ 63 → exec (.streamQuery last) s = .next (okTo .streamMap p x a
            (match s.stream id with | some y => y.record | none => List.replicate 32 0))))
    ∧ (Session s .streamStart p last x → p.params.length = 8 → s.badMask (fld p.params 0 8) = false →
        exec (.streamStart last) s = .next (okTo .streamStart p x ((maskIds (fld p.params 0 8)).foldl
          (fun t i => match t.stream i with | some y => t.startInput y | none => t) (s.admitted .streamStart p)) []))
    ∧ (Session s .streamStop p last x → p.params.length = 8 → s.badMask (fld p.params 0 8) = false →
        exec (.streamStop last) s = .next (okTo .streamStop p x ((maskIds (fld p.params 0 8)).foldl
          (fun t i => match t.stream i with | some y => t.stopStream y | none => t) (s.admitted .streamStop p)) []))
    ∧ (∀ t o, let ps := p.params
        Session s .streamOut p last x → ps.length = 8 → fld ps 0 1 ≤ 63 → s.stream (fld ps 0 1) = none → 8 ≤ fld ps 1 1 → fld ps 1 1 ≤ 11 →
        (s.portSetting (fld ps 1 1) 0 = 2 ∨ s.portSetting (fld ps 1 1) 0 = 3 ∧ fld ps 2 1 ≠ 0) → fld ps 2 1 ≤ 15 →
        (∀ y ∈ s.streams, ¬ (y.output = true ∧ y.port = fld ps 1 1 ∧ y.vc = fld ps 2 1)) → s.tensor (fld ps 4 4) = some t →
        (fld ps 3 1 = 0 ∧ t.layout = .blocked ∨ fld ps 3 1 = 1 ∧ t.layout = .ring) → outType t.f = some o → t.fmt ≠ none →
        t.cols * (t.f.bits / 8) ≤ 16384 →
        exec (.streamOut last) s = .next (acceptTo .streamOut p x
          { s.admitted .streamOut p with streams := s.streams ++
            [Stream.new (fld ps 0 1) true (fld ps 1 1) (fld ps 2 1) 0 t.handle (fld ps 3 1) p.source p.tag] } []
          (.streamOut (fld ps 0 1)) none))

/-- R380, R434, R439, R381: SET_POWER_STATE is accepted for S3 always and for another state where the groups it leaves pass their
admission, and stops the streams of the groups that go to S2 or S3; otherwise POWER_LIMIT. RESET CORES, and RESET MODULE from an installer or
a maker, answer OK and the reset follows; RESET MODULE from an operator gets NO_RIGHT.
The model's choices it rests on: log entries 77 and 79. -/
def Obligations.PowerAndResetCommands : Prop :=
  ∀ (s : State) (p last : Packet) (x : Source),
    (Session s .setPowerState p last x → p.params.length = 4 →
        let t := fld p.params 0 1
        let a := s.admitted .setPowerState p
        let gs := powerGroups p.params
        (t = 3 → exec (.setPowerState last) s = .next (acceptTo .setPowerState p x (a.stopForPower (List.range 16)) []
            (.power 3 []) none))
        ∧ (t = 2 → s.overCap p.params = false →
            exec (.setPowerState last) s = .next (acceptTo .setPowerState p x (a.stopForPower gs) [] (.power 2 gs) none))
        ∧ (t ≤ 1 → s.overCap p.params = false →
            exec (.setPowerState last) s = .next (acceptTo .setPowerState p x a [] (.power t gs) none))
        ∧ (t ≤ 2 → s.overCap p.params = true → exec (.setPowerState last) s
            = .next (a.single ((x.taken .setPowerState p).req .setPowerState p) .powerLimit [] .nothing)))
    ∧ (Session s .reset p last x → p.params.length = 4 →
        let a := s.admitted .reset p
        (fld p.params 0 1 = 1 → exec (.resetCores last) s
            = .next (((a.recordTag p.source ⟨p.tag, .reset, .ok⟩).answerTo p.port 0x0007 p.source p.tag .ok []).coresReset))
        ∧ (fld p.params 0 1 = 2 → (x.role = .installer ∨ x.role = .maker) → exec (.resetModule last) s
            = .next (((a.recordTag p.source ⟨p.tag, .reset, .ok⟩).answerTo p.port 0x0007 p.source p.tag .ok []).coldStart))
        ∧ (fld p.params 0 1 = 2 → x.role = .operator → exec (.resetModule last) s
            = .next (a.single ((x.taken .reset p).req .reset p) .noRight [] .nothing)))

/-- R391 to R394: COUNTERS_READ returns 8 bytes for each assigned ID and changes no counter; SPARE_STATUS returns the map, the state of
each group and Tinker, the lane spares and the proposals; REPAIR of a unit that is not lost and has a spare, and SELF_TEST of cores and
Tinkers none of which is lost or retired, are accepted.
The model's choices it rests on: log entries 91 and 92. -/
def Obligations.HealthCommands : Prop :=
  ∀ (s : State) (p last : Packet) (x : Source),
    (let n := fld p.params 2 2
     let ids := (List.range n).map (fun i => fld p.params (4 + 2 * i) 2)
     let core := fld p.params 0 2
     let a := s.admitted .countersRead p
     Session s .countersRead p last x → p.params.length = 4 + 2 * n → 1 ≤ n → n ≤ 255 → (core ≤ 143 ∨ core = 0xFFFF) →
        (∀ i ∈ ids, counterAssigned i = true) → s.keptCores ≠ [] →
        exec (.countersRead last) s
          = .next (okTo .countersRead p x a (ids.flatMap (fun i => leBytes 8 (a.counterValue core i)))))
    ∧ (let ps := s.listedProposals
       let spares := ((List.range 64).zip s.net9.links).foldl (fun a x => if x.2.spareUsed then a ||| 2 ^ x.1 else a) 0
       Session s .spareStatus p last x →
        exec (.spareStatus last) s = .next (okTo .spareStatus p x (s.admitted .spareStatus p)
          (s.mapBytes ++ (List.range 16).flatMap (fun g => leBytes 1 (s.spareOf g))
            ++ (List.range 4).flatMap (fun t => leBytes 1 (s.tinkerOf t)) ++ leBytes 8 spares ++ leBytes 1 ps.length ++ leBytes 3 0
            ++ ps.flatMap (fun u => leBytes 4 u ++ leBytes 1 (assocGet 0 s.health.wear u) ++ leBytes 3 0))))
    ∧ (let u := fld p.params 0 4 % 65536
       Session s .repair p last x → p.params.length = 8 →
        ((u < 144 ∧ s.lost u = false ∧ s.health.spareFree.getD (u / 9) false = true)
          ∨ (0x2000 ≤ u ∧ u < 0x2004 ∧ s.health.tinkerRetired.getD (u - 0x2000) true = false
              ∧ s.health.tinkerRetired.getD (neighbour (u - 0x2000)) true = false)) →
        exec (.repair last) s = .next (acceptTo .repair p x (s.admitted .repair p) [] (.repair u) none))
    ∧ (let cs := coreSet p.params 0
       let ts := (List.range 4).filter (fun t => (fld p.params 18 1).testBit t)
       Session s .selfTest p last x → p.params.length = 20 → (cs ≠ [] ∨ ts ≠ []) → (∀ c ∈ cs, s.lost c = false) →
        (∀ t ∈ ts, s.health.tinkerRetired.getD t true = false) →
        exec (.selfTest last) s = .next (acceptTo .selfTest p x (s.admitted .selfTest p) [] (.selfTest cs [] ts []) none))

/-- R395 to R398, R424: IDENTITY_GET returns the part, the serial number, the two slots, the running one, the anti-rollback counter and the
attestation key; ATTEST, AUDIT_READ of a record that exists, and FW_STAGE of an image of up to 64 MiB are accepted; FW_ACTIVATE of a slot
whose stages pass prefers it on trial, records it, answers OK, and the cold start follows; where the flash takes no record it gets FAULT
and nothing is preferred (R419).
The model's choices it rests on: log entries 6, 7 and 122. -/
def Obligations.TrustCommands : Prop :=
  ∀ (s : State) (p last : Packet) (x : Source),
    (let f := s.trust.firmware
     Session s .identityGet p last x → exec (.identityGet last) s = .next (okTo .identityGet p x (s.admitted .identityGet p)
        (leBytes 4 0x9613A000 ++ serialBytes ++ leBytes 8 (slotVersion f.slotA) ++ leBytes 8 (slotVersion f.slotB)
          ++ leBytes 1 (if f.runningB then 1 else 0) ++ leBytes 1 0 ++ leBytes 2 f.rollback
          ++ (List.range 2592).map Config.akPub)))
    ∧ (Session s .attest p last x → p.params.length = 32 →
        exec (.attest last) s = .next (acceptTo .attest p x (s.admitted .attest p) [] .plain none))
    ∧ (Session s .auditRead p last x → p.params.length = 12 → 1 ≤ fld p.params 8 4 → fld p.params 8 4 ≤ 65536 →
        fld p.params 0 8 < s.trust.audit.next →
        exec (.auditRead last) s = .next (acceptTo .auditRead p x (s.admitted .auditRead p) [] .plain none))
    ∧ (Session s .fwStage p last x → p.params.length = 8 → 1 ≤ fld p.params 0 1 → fld p.params 0 1 ≤ 4 → 1 ≤ fld p.params 4 4 →
        fld p.params 4 4 ≤ 2 ^ 26 →
        exec (.fwStage last) s = .next (acceptTo .fwStage p x (s.admitted .fwStage p) [] .plain (some (fld p.params 4 4))))
    ∧ (let f := s.trust.firmware
       let slot := fld p.params 0 1
       let a := s.admitted .fwActivate p
       Session s .fwActivate p last x → p.params.length = 4 → slot ≤ 1 →
        slotResult f.rollback (if slot = 1 then f.slotB else f.slotA) = .ok →
        (s.trust.flashFault = true → exec (.fwActivate last) s
            = .next ((a.raiseFault (6 * 4096)).single ((x.taken .fwActivate p).req .fwActivate p) .fault [] .nothing))
        ∧ (s.trust.flashFault = false → exec (.fwActivate last) s = .next (okTo .fwActivate p x
          (({ a with trust := { s.trust with firmware :=
              { f with preferB := decide (slot = 1), trial := true, tries := 0
                       staged := f.staged && decide (f.runningB = decide (slot = 1)) } } }).audit
            { a.actor 0x0A p.source with detail := leBytes 1 0 ++ leBytes 1 slot }) [] .coldStart)))

/-! ## What happens at the host interface without a command -/

/-- R337, R339, R344, R345, R349, R369: on a port that listens a dropped packet is counted in PORT_CRC_ERRORS and an ignored one in
PORT_IGNORED; a bulk packet that finds its port's buffer full is dropped, counted and raises BUDGET, and one behind another, or while
INGEST is at a ceiling, waits in the buffer. Bulk data that continues a command's is appended, and what leaves a gap, or BULK_GAP_MS
without any, ends the command: ABORTED 0x14 once it was acknowledged, SEQ_GAP before.
The model's choices it rests on: log entries 19, 57 and 123. -/
def Obligations.BulkData : Prop :=
  ∀ (s : State) (port n tag at_ : Nat) (data : List Byte), s.power.phase ≠ .off →
    (s.listens port = true → exec (.packetDropped port) s = .next ((s.corrected port).count 0x0603 1)
      ∧ exec (.packetIgnored port) s = .next ((s.corrected port).count 0x0607 1))
    ∧ (s.answers port = true →
      let a := s.corrected port
      let wait := s.power.buffered.any (fun y => decide (y.port = port)) || !s.mayMove .ingest (s.bulkMoves n tag)
      let full := s.portFull port (16 + data.length)
      (full = true → exec (.bulkPacket port n tag at_ data) s = .next ((a.count 0x0605 1).overrun 1))
      ∧ (full = false → wait = true → exec (.bulkPacket port n tag at_ data) s
          = .next { a.waitAt .ingest (s.bulkMoves n tag) with power :=
              { (a.waitAt .ingest (s.bulkMoves n tag)).power with buffered := s.power.buffered ++ [⟨port, n, tag, at_, data⟩] } })
      ∧ (∀ x c b, full = false → wait = false → s.source n = some x → x.port = port → data ≠ [] → data.length ≤ 16384 →
          s.cmd n tag = some c → c.bulk = some b → b.data.length < b.total → s.fifthBulk c = false →
          (at_ = b.data.length → b.data.length + data.length < b.total →
            exec (.bulkPacket port n tag at_ data) s
              = .next ((a.setCmd { c with bulk := some { b with data := b.data ++ data, lastAt := s.now } }).count 0x0601 data.length))
          ∧ (at_ = b.data.length → b.data.length + data.length = b.total → c.acked = true →
            let d := { c with bulk := some { b with data := b.data ++ data, lastAt := s.now } }
            exec (.bulkPacket port n tag at_ data) s = .next (((a.setCmd d).count 0x0601 data.length).begin d))
          ∧ (at_ ≠ b.data.length → c.acked = true → exec (.bulkPacket port n tag at_ data) s
              = .next ((a.spoilData c).completeGeneric c .aborted 0 0x14 0))
          ∧ (at_ ≠ b.data.length → c.acked = false → exec (.bulkPacket port n tag at_ data) s
              = .next ((((a.dropCmd c).countGap).answerTo port c.op.code c.source c.tag .seqGap
                (leBytes 4 (x.seq.getD 0) ++ leBytes 4 c.seq ++ leBytes 8 b.data.length)).afterCmd c.source))))
    ∧ (∀ c b, s.cmd n tag = some c → c.bulk = some b → b.data.length < b.total → c.acked = true →
        (∀ y ∈ s.power.buffered, ¬ (y.source = n ∧ y.tag = tag)) →
        let t : State := { s with now := max s.now (b.lastAt + 1000 * s.acting 0x5101) }
        exec (.bulkGapTimeout n tag) s = .next ((t.spoilData c).completeGeneric c .aborted 0 0x14 0))

/-- R168, R169, R345, R421, R428: COMMAND_START: a command whose bulk data is complete and that no fence holds does what its own row does
not: an unacknowledged one is carried out and answers, ATTEST and AUDIT_READ send their data and complete, and the data commands begin.
A TENSOR_READ of a receive ring takes the slot that LAST names as it starts, and pins it; where the ring has no complete slot it waits
(R199).
The model's choices it rests on: log entries 26 and 122. -/
def Obligations.CommandStart : Prop :=
  ∀ (s : State) (n tag : Nat) (c : Cmd), s.cmd n tag = some c →
    (c.acked = false → (∀ b, c.bulk = some b → b.data.length = b.total) →
        (fenceBefore c.flags = false ∨ s.earlier c = []) → (c.usesCores = true ∨ ∀ d ∈ s.earlier c, d.body ≠ .fence []) →
        exec (.commandStart n tag) s = .next (s.finishWaiting c))
    ∧ (c.acked = true → s.mayStart c = true → c.running = false →
        (c.op = .attest → exec (.commandStart n tag) s
            = .next ((s.sendData c [] (reportBody s c.params ++ attestSignature attestContext (reportBody s c.params))).completeGeneric
              c .complete 0 0 0))
        ∧ (c.op = .auditRead → exec (.commandStart n tag) s = .next (s.finishAudit c))
        ∧ ((c.op = .tensorWrite ∨ c.op = .tensorCopy ∨ c.op = .tensorFill ∨ c.op = .restoreServe ∨ c.op = .settingSet
              ∨ c.op = .ledgerCommit) →
            exec (.commandStart n tag) s = .next (s.setCmd { c with running := true, startedAt := s.now }))
        ∧ (∀ t, c.op = .tensorRead → c.body = .plain → s.tensor (accessOf c.params).handle = some t →
            let h := (accessOf c.params).handle
            (s.receiveRing h = false → exec (.commandStart n tag) s = .next (s.setCmd { c with running := true, startedAt := s.now }))
            ∧ (s.receiveRing h = true → s.ringLast t < t.planes → exec (.commandStart n tag) s
                = .next (s.setCmd { c with running := true, startedAt := s.now, body := .read h (s.ringLast t) }))
            ∧ (s.receiveRing h = true → t.planes ≤ s.ringLast t → exec (.commandStart n tag) s = .next s)))

/-- R346, R377, R408, R412: what time ends: after 10 s a source with no role and no command is no longer live; a challenge closes; a locked
key's count restarts at 0; the Ledger of an owner that was silent for 10 s is rolled back with cause IDLE, and stays open with FAULT
raised where its record cannot be written (R419).
The model's choices it rests on: log entries 2 and 122. -/
def Obligations.Expiries : Prop :=
  ∀ s : State,
    (∀ n x, s.source n = some x → x.role = .none → s.slotsHeld n = 0 → exec (.sourceExpiry n) s
        = .next { s with now := max s.now (x.idleSince + 10000000), sources := s.sources.filter (fun y => y.num ≠ n) })
    ∧ (∀ n x c, s.source n = some x → x.challenge = some c → exec (.challengeExpiry n) s
        = .next (({ s with now := max s.now c.closes }).setSource { x with challenge := none }))
    ∧ (∀ code i r t, Role.ofCode code = some r → (s.failsOf r i).lockedUntil = some t →
        exec (.lockoutExpiry code i) s = .next (({ s with now := max s.now t }).setFails ⟨r, i, 0, none⟩))
    ∧ (∀ l, s.ledger = some l → l.committing = false →
        (s.trust.flashFault = false → exec .ledgerIdleTimeout s
          = .next (({ s with now := max s.now (l.lastAt + 10000000), ledger := none }).audit
            { AuditEvent.device 0x02 with ledger := l.id, detail := leBytes 2 0 ++ leBytes 1 RollCause.idle.code }))
        ∧ (s.trust.flashFault = true → exec .ledgerIdleTimeout s
          = .next (({ s with now := max s.now (l.lastAt + 10000000) }).raiseFault (6 * 4096))))

/-- R411, R413, R415, R335: a commit that no fence or sleep holds starts at once, but for a SETTING_SET behind a LEDGER_COMMIT or another
SETTING_SET of its key (R384). The first that need not wait, with every quiet point reached, is applied in one step, every key at its new
value; one whose check failed, at its acceptance or now against what other commits have set since (R206), and one whose quiet points are not
reached within 50 ms, is rolled back with nothing applied, and so is one whose record cannot be written (R419). The Ledger is closed before
the completion leaves. The port settings committed then act when no output stream of a changed port is within a frame.
The model's choices it rests on: log entries 27 and 122. -/
def Obligations.CommitRows : Prop :=
  ∀ s : State,
    (∀ xs c ys, s.commits = xs ++ c :: ys → s.commitDue c = true → (∀ d ∈ xs, c.after d = false) → c ∈ s.openCommits)
    ∧ (∀ xs c ys, s.openCommits = xs ++ c :: ys → (∀ d ∈ xs, s.commitMove d = .wait) →
        let again := ({ s with commits := [] } : State).checkKeys c.keys
        let closed (t : State) (res : Res) (cause key : Nat) : State := (t.endCommit c).finishCommit c res cause key
        (c.bad = none → again = none → c.notQuiet s = none → (c.quietItem = none ∨ s.now ≤ s.commitLimit c) →
          exec .ledgerApply s = .next (s.applyCommit c)
          ∧ ((s.trust.flashFault = false ∨ (c.keys = [] ∧ c.masks = [])) →
              (s.applyCommit c).settings = c.keys.foldl (fun a x => settingPut a x.1 x.2) s.settings
              ∧ ∃ t : State, t.commits = s.commits ∧ s.applyCommit c = closed t .complete 0 0)
          ∧ (s.trust.flashFault = true → (c.keys ≠ [] ∨ c.masks ≠ []) →
              s.applyCommit c = closed (s.raiseFault (6 * 4096)) .ledgerRolledBack 0x31 0))
        ∧ (∀ cause k, (c.bad = some k ∧ cause = .check
              ∨ c.bad = none ∧ (∃ r, again = some (k, r)) ∧ cause = .check
              ∨ c.bad = none ∧ again = none ∧ c.notQuiet s = none ∧ c.quietItem = some k ∧ s.commitLimit c < s.now ∧ cause = .quiet) →
            exec .ledgerApply s = .next (s.failCommit c cause k) ∧ (s.failCommit c cause k).settings = s.settings
            ∧ s.failCommit c cause k = closed (s.audit (rollRecord (c.event 0x02) c.ledger cause k)) .ledgerRolledBack 0x31 k))
    ∧ (∀ xs c ys k, s.openCommits = xs ++ c :: ys → (∀ d ∈ xs, d.notQuiet s = none) → c.notQuiet s = some k →
        let t : State := { s with now := max s.now (s.commitLimit c) }
        exec .ledgerCommitTimeout s = .next (t.failCommit c .quiet k) ∧ (t.failCommit c .quiet k).settings = s.settings)
    ∧ (∀ due keys rest, s.portQueue = (due, keys) :: rest →
        (∀ x ∈ s.streams, x.output = true → x.sending = true → ∀ k ∈ keys, keyPort k.1 ≠ some x.port) →
        ∃ t, exec .portSettingsApply s = .next t ∧ t.portQueue = rest ∧ t.now = max s.now due
          ∧ t.portSettings = keys.foldl (fun a k => settingPut a k.1 k.2) s.portSettings)

/-- R366, R367: the mailbox: MBX_SUBMIT of 16 to 4,096 bytes of MBX_IN is taken as a bulk packet or, where its VERSION and LEN are
right, as a command packet of the source it names, on port 12; a submit while IN_BUSY is set is an overrun; MBX_RELEASE places the next
packet of MBX_OUT; OUT_DROP is cleared by a 1. A private write puts its bytes, up to the maximum write length less two for the address,
into the window.
The model's choices it rests on: log entries 57 and 58. -/
def Obligations.Mailbox : Prop :=
  ∀ (s : State), s.power.phase ≠ .off →
    (∀ bulk len, s.answers 12 = true → s.inBusy = true →
        exec (.mbxSubmit bulk len) s = .next ((s.count 0x0605 1).overrun 1))
    ∧ (∀ len, s.answers 12 = true → s.inBusy = false → 16 ≤ len → len ≤ 4096 →
        let b := padTo len s.i3c.mbxIn
        (let t : State := { s with i3c := { s.i3c with lastSource := fld b 4 2 } }
         (fld b 3 1 = 1 → fld b 12 4 + 16 = len → exec (.mbxSubmit false len) s
            = .next (t.takePacket (fld b 0 2) ⟨12, fld b 2 1, fld b 4 2, fld b 6 2, fld b 8 4, b.drop 16⟩))
          ∧ ((fld b 3 1 ≠ 1 ∨ fld b 12 4 + 16 ≠ len) → exec (.mbxSubmit false len) s = .next (t.count 0x0603 1)))
        ∧ exec (.mbxSubmit true len) s
          = .next (({ s with i3c := { s.i3c with lastSource := fld b 0 2 } } : State).recvBulk 12 (fld b 0 2) (fld b 2 2) (fld b 8 8)
              (b.drop 16)))
    ∧ exec .mbxRelease s = .next
        { s with i3c := { s.i3c with mbxOut := s.i3c.mbxOut.drop 1, outReady := !(s.i3c.mbxOut.drop 1).isEmpty } }
    ∧ exec .mbxOutDropClear s = .next { s with i3c := { s.i3c with outDrop := false } }
    ∧ (∀ a bs, s.i3cUp = true → a < 2 ^ 16 → 0x1000 ≤ a → a + bs.length ≤ 0x2000 → bs.length + 2 ≤ s.i3c.mwl →
        exec (.i3cPrivateWrite a bs) s
          = .next { s with i3c := { s.i3c with window := a, mbxIn := writeIn a bs s.i3c.mbxIn } }
        ∧ ∀ k, k < bs.length → (writeIn a bs s.i3c.mbxIn)[a - 0x1000 + k]? = bs[k]?)

/-- R364, R365, Table 11.12: a target out of reset answers each common command code as the table says, changing only what it names;
a code outside the table is NACKed.
The model's choices it rests on: log entry 58. -/
def Obligations.CommonCommandCodes : Prop :=
  ∀ s : State, s.i3cUp = true →
    let said (bs : List Byte) (t : State) : State := { t with i3c := { t.i3c with answer := some bs } }
    (∀ a, s.i3c.addr = none →
        exec (.entdaa a) s = .next (said [] { s with i3c := { s.i3c with addr := some (a % 128) } })
          ∧ exec (.setdasa a) s = .next (said [] { s with i3c := { s.i3c with addr := some (a % 128) } }))
    ∧ exec .rstdaa s = .next (said [] { s with i3c := { s.i3c with addr := none } })
    ∧ exec .getpid s = .next (said (beBytes 6 s.provisionalId) s) ∧ exec .getbcr s = .next (said [0x20] s)
    ∧ exec .getdcr s = .next (said [0] s) ∧ exec .getstatus s = .next (said [s.attention.attn, 0] s)
    ∧ exec .getmwl s = .next (said (beBytes 2 s.i3c.mwl) s) ∧ exec .getmrl s = .next (said (beBytes 2 s.i3c.mrl) s)
    ∧ (∀ n, 16 ≤ n → n ≤ 4096 →
        exec (.setmwl n) s = .next (said [] { s with i3c := { s.i3c with mwl := n } })
          ∧ exec (.setmrl n) s = .next (said [] { s with i3c := { s.i3c with mrl := n } }))
    ∧ (∀ e, exec (.enec e) s = .next (said [] s) ∧ exec (.disec e) s = .next (said [] s))
    ∧ exec .rstactNone s = .next (said [] s) ∧ exec .rstactI3cReset s = .next (said [] s.i3cReset)
    ∧ s.i3cReset.i3c = .reset
    ∧ exec .rstactModuleReset s = .next (said [] s.coldStart)
    ∧ ∀ k, exec (.unsupportedCcc k) s = .next { s with i3c := { s.i3c with answer := none } }

/-! ## Streams and operators under way -/

/-- R198, R199, R203, R208, R357 to R360, R369: a Frame Start reaches every running input stream of its port and channel, one or
several: it opens a frame, abandoning one that is open, or counts a dropped frame in the ring where its slot is pinned, also where a
frame was open. A line is for the stream of its data type: one that fits is put into the open frame, a pixel line with a bad CRC counts,
an interleaved audio line with one is dropped, and one that does not fit abandons the frame. A Frame End closes the open frame of each
stream: the slot and the ring's header are written, charged to INGEST, and the stream goes to the next slot; while INGEST is at its
ceiling, or an earlier frame waits, it waits. R362, R363, R185: an output stream that is running sends its Frame Start and embedded line
for its next plane (MODE 0) or for a slot completed since its last frame (MODE 1); then its lines and Frame End, where INGEST may read
them, and ends with its STREAM_OUT after its last plane, once it is stopping, or, ABORTED, at a line that holds poison.
The model's choices it rests on: log entries 19, 46, 47, 50 and 113. -/
def Obligations.FrameRows : Prop :=
  (∀ (s : State) (port vc : Nat),
      let u := s.corrected port
      exec (.frameStart port vc) s = .next ((s.inputs port vc).foldl State.openFrame u)
      ∧ exec (.frameEnd port vc) s = .next ((s.inputs port vc).foldl State.closeFrame u)
      ∧ (∀ x, x ∈ s.inputs port vc ↔ s.power.failed = false ∧ s.portSetting port 0 = 2 ∧ x ∈ s.streams ∧ x.output = false
          ∧ x.port = port ∧ x.vc = vc ∧ x.state = .running)
      ∧ (∀ dt data crc fits, (∀ x ∈ s.inputs port vc, x.dt ≠ dt) → exec (.sensorLine port vc dt data crc fits) s = .next u)
      ∧ (∀ x t o data, (s.inputs port vc).find? (fun y => decide (y.dt = x.dt)) = some x → u.tensor x.ring = some t → x.frame = some o →
          let put (y : Stream) : State := (u.setStream y).count 0x060A (y.saturated - x.saturated)
          (∀ crc, exec (.sensorLine port vc x.dt data crc false) s
            = .next (((u.setStream { x with frame := none, abandoned := x.abandoned + 1 }).overrun 1).count 0x0605 1))
          ∧ (pixelType x.dt = true →
              let o1 := { o with lines := o.lines + 1 }
              let n := (unpackPixels x.dt data).length
              let y := x.place t o1 ((List.range n).map (fun i =>
                (o.lines, i, ((unpackPixels x.dt data).getD i 0 : Int) - (x.black : Int))))
              (o.lines < t.rows → exec (.sensorLine port vc x.dt data true true) s
                  = .next (put { y with shortLines := y.shortLines + (if n < t.cols then 1 else 0) })
                ∧ exec (.sensorLine port vc x.dt data false true) s = .next (put { x with frame := some o1, crcLines := x.crcLines + 1 }))
              ∧ (t.rows ≤ o.lines → ∀ crc, exec (.sensorLine port vc x.dt data crc true) s
                  = .next (put { x with frame := some o1, longLines := x.longLines + 1 })))
          ∧ (audioType x.dt = true →
              exec (.sensorLine port vc x.dt data true true) s = .next (put (x.audioLine t o data true))
              ∧ (planarType x.dt = true → exec (.sensorLine port vc x.dt data false true) s = .next (put (x.audioLine t o data false)))
              ∧ (planarType x.dt = false → exec (.sensorLine port vc x.dt data false true) s = .next (u.count 0x0603 1)))))
  ∧ (∀ (s : State) (x : Stream) (t : Tensor), s.tensor x.ring = some t →
      let pinned := s.slotPinned x.ring ((x.nextSlot + x.ended.length) % t.planes)
      let drop (u : State) : State := ((u.write (t.base + 12) (leBytes 4 (u.ringDropped t + 1))).count 0x0305 1).overrun 1
      (x.frame = none →
          (pinned = false → s.openFrame x = s.setStream { x with frame := some .empty })
          ∧ (pinned = true → s.openFrame x = drop (s.setStream { x with frame := none }))
          ∧ s.closeFrame x = s)
      ∧ (∀ o, x.frame = some o →
          (pinned = false → s.openFrame x
            = (s.countOverrun 1).setStream { x with abandoned := x.abandoned + 1, frame := some .empty })
          ∧ (pinned = true → s.openFrame x
            = drop ((s.countOverrun 1).setStream { x with abandoned := x.abandoned + 1, frame := none }))
          ∧ (let ms : Moves := [(true, (t.slot x.nextSlot).base, t.planeBytes), (true, t.base, 64)]
             ((x.ended ≠ [] ∨ s.mayMove .ingest ms = false) →
                s.closeFrame x = (s.waitAt .ingest ms).setStream { x with frame := none, ended := x.ended ++ [o] })
             ∧ (x.ended = [] → s.mayMove .ingest ms = true →
                let cells := o.cells.foldl (fun (a : Array Nat) c => a.setIfInBounds (c.1 * t.cols + c.2.1) c.2.2)
                  (Array.replicate (t.rows * t.cols) (zeroCode t.f))
                let v := (s.putRegion (t.slot x.nextSlot) 0 0 t.rows 0 t.cols (fun r c => some (cells.getD (r * t.cols + c) 0))).setStream
                  { x with frame := none, frames := x.frames + 1, nextSlot := (x.nextSlot + 1) % t.planes
                           shortLines := x.shortLines + (if pixelType x.dt && decide (o.lines < t.rows) then 1 else 0) }
                let head := leBytes 8 (s.ringCompleted t + 1) ++ leBytes 4 x.nextSlot ++ leBytes 4 (s.ringDropped t) ++ leBytes 8 s.now
                  ++ leBytes 4 (s.pinnedCount t) ++ List.replicate 36 0
                s.closeFrame x = ((v.write t.base head).charge .ingest ms).count 0x0608 1))))
  ∧ (∀ (s : State) (id : Nat) (x : Stream) (t : Tensor), s.stream id = some x → s.tensor x.ring = some t → x.output = true →
      let last := s.ringLast t
      let begin_ (slot : Nat) (done : Option Nat) : Prop :=
        let y := { x with frameNo := x.frameNo % 65535 + 1, sending := true, slot := slot, lastSent := done }
        let u := (s.setStream y).send ⟨x.port, x.vc, 0x00, leBytes 2 y.frameNo⟩
        exec (.outputFrameSend id) s = .next (u.send ⟨x.port, x.vc, 0x12, embeddedLine s y t⟩)
      (x.state = .running → x.sending = false → x.stopping = false →
          (x.mode = 0 → begin_ x.slot none)
          ∧ (x.mode = 1 → last < t.planes → x.lastSent ≠ some (s.ringCompleted t) → begin_ last (some (s.ringCompleted t)))
          ∧ (x.mode = 1 → (t.planes ≤ last ∨ x.lastSent = some (s.ringCompleted t)) → exec (.outputFrameSend id) s = .next s))
      ∧ ((x.state ≠ .running ∨ x.sending = true ∨ x.stopping = true) → exec (.outputFrameSend id) s = .next s)
      ∧ (x.sending = false → exec (.outputFrameDone id) s = .next s)
      ∧ (x.sending = true → s.outPoison x t = none →
          let ms := x.lineMoves t t.rows
          let y := { x with frames := x.frames + 1, sending := false, slot := if x.mode = 0 then x.slot + 1 else x.slot }
          let u := (((s.charge .ingest ms).sendLines x t t.rows).count 0x0609 1).setStream y
          (s.mayMove .ingest ms = false → exec (.outputFrameDone id) s = .next (s.waitAt .ingest ms))
          ∧ (s.mayMove .ingest ms = true →
              (x.stopping = false → (x.mode ≠ 0 ∨ x.slot + 1 < t.planes) → exec (.outputFrameDone id) s = .next u)
              ∧ ((x.stopping = true ∨ (x.mode = 0 ∧ t.planes ≤ x.slot + 1)) →
                  exec (.outputFrameDone id) s = .next (u.endOutput y .complete 0))))
      ∧ (∀ r, x.sending = true → s.outPoison x t = some r →
          let ms := x.lineMoves t r
          let g := (s.regionPoison (x.view t).1 (x.view t).2 r 1 0 t.cols).getD (t.base, 1)
          (s.mayMove .ingest ms = false → exec (.outputFrameDone id) s = .next (s.waitAt .ingest ms))
          ∧ (s.mayMove .ingest ms = true → exec (.outputFrameDone id) s
              = .next ((((s.charge .ingest ms).sendLines x t r).notePoison g.1 g.2).endOutput x .aborted 0x41))))

/-- R150, R167, R169, R394, R457, R465: an operator starts on a core in its turn, with the units its core takes and its scalars, where
the core's group is up, its first core pinning the rings it reads, and where COMPUTE may read its Till vectors (R203, R208); on a lost
core it stops with CAUSE 0x41; a SKIP_IF starts without a core. A core of a SELF_TEST is tested. NETWORK_SWITCH gives a core its network,
the last core completing the command, and a FENCE completes once no earlier operator is left on its set.
The model's choices it rests on: log entries 75, 101 and 121. -/
def Obligations.StartRows : Prop :=
  ∀ (s : State) (n tag : Nat),
    (∀ rec core c r x, let o : OpRef := ⟨n, tag, rec⟩
        s.opRec o = some (c, r, x) →
        ((∀ e t d k, x.op ≠ .pop e t d k) → (∀ k f t th m, x.op ≠ .skipIf k f t th m) → s.turnOf c r rec x core = true →
          (s.lost core = true → exec (.operatorStart n tag rec core) s = .next ((s.startOps c).stopOps o 0x41))
          ∧ (s.lost core = false → s.coreUp core = true → s.askedAway r core = false →
              s.mayMove .compute (s.tillMoves core c.no r.graph x) = false →
              exec (.operatorStart n tag rec core) s = .next (s.waitAt .compute (s.tillMoves core c.no r.graph x)))
          ∧ (s.lost core = false → s.coreUp core = true → s.askedAway r core = false →
              s.mayMove .compute (s.tillMoves core c.no r.graph x) = true → x.stack = 0 →
              (x.started ≠ [] → exec (.operatorStart n tag rec core) s
                  = .next (((s.startOps c).enterCore o x core).loadTills core o c.no r.graph x))
              ∧ (x.started = [] → s.slotMissing x = false → (∀ t ∈ s.ringsOf x.op, s.ringLast t < t.planes) →
                  let y : RecRun := { x with pins := (s.ringsOf x.op).map (fun t => (t.handle, s.ringLast t)) }
                  let t := ((s.startOps c).mapRec o (fun _ => y)).pairTest o y
                  t.opRec o ≠ none → exec (.operatorStart n tag rec core) s
                    = .next ((t.enterCore o y core).loadTills core o c.no r.graph y)))
          ∧ ∀ core < s.cores.length, unitsOn x.op.cores ((s.startOps c).units x.op) core ≠ [] →
              let k := ((s.startOps c).enterCore o x core).core core
              k.cur = some o ∧ k.todo = unitsOn x.op.cores ((s.startOps c).units x.op) core)
        ∧ (∀ k f t th m, x.op = .skipIf k f t th m → s.mayStart c = true → x.phase = .waiting → recReady r.recs rec x.dep = true →
            (∀ y, r.recs[k]? = some y → y.open = false) →
            exec (.operatorStart n tag rec core) s = .next (s.startSkip c o k f t th m)))
    ∧ (∀ rec core c cs f ts g, s.cmd n tag = some c → c.body = .selfTest cs f ts g →
        exec (.operatorStart n tag rec core) s = .next (s.testCore c cs f ts g core))
    ∧ (∀ core c net todo, s.cmd n tag = some c → c.body = .activate net todo → s.mayStart c = true → core ∈ todo →
        s.coreTurn c core = true → s.lost core = false →
        ∃ t, exec (.networkSwitch n tag core) s = .next t
          ∧ (core < s.cores.length → (t.core core).net = some net)
          ∧ (todo.filter (fun y => y ≠ core) ≠ [] → ∃ d, t.cmd n tag = some d ∧ d.running = true
              ∧ d.body = .activate net (todo.filter (fun y => y ≠ core)))
          ∧ (todo.filter (fun y => y ≠ core) = [] → ∀ d ∈ t.cmds, d.no ≠ c.no))
    ∧ (∀ c cores, s.cmd n tag = some c → c.body = .fence cores → s.mayStart c = true →
        (∀ d ∈ s.earlier c, d.fenced cores = false) → (∀ k ∈ cores, s.lost k = false) →
        exec (.fenceComplete n tag) s = .next ((s.startCmd c).completeGeneric c .complete 0 0 0))

/-- R62, R71 to R77, R83 to R87, R129, R130, R200, R201, R203: the Loom on a core: a cluster that may start its next chunk takes its
operands from the feeders and holds the chunk's products, where COMPUTE may read what the panels need, and nothing starts where it may
not, nor while the power cap holds the clusters (R433); a finished chunk is promoted into the tile's elements, and the cluster has one
chunk more behind it, also where its operator is to stop (Table 2.8), and waits for the others where it is two chunks ahead; a tile
whose clusters have had their last chunk is closed; a held tile enters the Finish queue where it has room for it.
The model's choices it rests on: log entries 12 and 113. -/
def Obligations.LoomRows : Prop :=
  ∀ (s : State) (core : Nat),
    (∀ o r x p l a b cl fa fb, s.loomOn core = some (o, r, x, p) → p.k ≠ 0 →
        let s1 := s.openTile core o p
        (s1.core core).live = some l → s1.view x p.a = some a → s1.view x p.b = some b → l.mayStart p.chunks cl = true → cl ≤ 15 →
        s1.clustersHeld = false →
        let j := s1.jobOf core cl r p a b l
        let q := feedReqs p j (tileOf p.m p.n l.tile) (l.done.getD cl 0)
        s1.feed (s1.core core).feedA q.1 = .ok fa → s1.feed (s1.core core).feedB q.2 = .ok fb →
        let out : ChunkOut := (s1.seeing fa.2.1).chunkJob (s1.seeing fb.2.1) j
        let ix := (clusterRows l.rows cl).flatMap (fun i => (clusterCols l.cols cl).map (fun c => i * l.cols + c))
        let ms := fa.1.moves fa.2.2 ++ fb.1.moves fb.2.2
        let ch : InChunk := ⟨cl, j.n, ix.zip (out.lanes.map Prod.fst), flagsOr (out.lanes.map Prod.snd), out.cycles, out.idle⟩
        (s1.mayMove .compute ms = true → exec (.chunkStart core cl) s = .next (((s1.charge .compute ms).setCore core ({ s1.core core with
            feedA := fa.1, feedB := fb.1
            live := some { l with busy := l.busy ++ [ch], behind := l.behind.filter (fun d => d ≠ cl) } }.count 0x0206
              out.skipped)).feedTimes core (l.behind.contains cl) (fa.2.2 || fb.2.2) ix.length))
        ∧ (s1.mayMove .compute ms = false → exec (.chunkStart core cl) s = .next (s1.waitAt .compute ms)))
    ∧ (∀ o r x p l a b cl g, s.loomOn core = some (o, r, x, p) → p.k ≠ 0 →
        let s1 := s.openTile core o p
        (s1.core core).live = some l → s1.view x p.a = some a → s1.view x p.b = some b → l.mayStart p.chunks cl = true → cl ≤ 15 →
        s1.clustersHeld = false →
        s1.feed (s1.core core).feedA (feedReqs p (s1.jobOf core cl r p a b l) (tileOf p.m p.n l.tile) (l.done.getD cl 0)).1 = .error g →
        exec (.chunkStart core cl) s = .next (s1.poisonStop o g))
    ∧ (∀ o r x p cl, s.loomOn core = some (o, r, x, p) → p.k ≠ 0 → (s.openTile core o p).clustersHeld = true →
        exec (.chunkStart core cl) s = .next (s.openTile core o p))
    ∧ (∀ o r p l ch cl, s.loomBusy core = some (o, r, p) → (s.core core).live = some l →
        l.busy.find? (fun b => b.cluster = cl) = some ch → core < s.cores.length →
        let q := promoteAll (workTag (s.runNet r).mode r.adopt) l.bank.toArray ch.lanes
        ∃ t y, exec (.chunkComplete core cl) s = .next t ∧ (t.core core).live = some y ∧ y.bank = q.1.toList
          ∧ y.done = l.done.set cl (l.done.getD cl 0 + 1) ∧ y.busy = l.busy.filter (fun b => b.cluster ≠ cl)
          ∧ y = { l with bank := y.bank, done := y.done, busy := y.busy, behind := y.behind, spent := y.spent }
          ∧ ∀ d, d ∈ y.behind ↔ d ∈ l.behind ∨ (d = cl ∧ l.done.getD cl 0 + 1 < p.chunks ∧ y.inStep (l.done.getD cl 0 + 1) = false))
    ∧ (∀ o r x p l, s.loomOn core = some (o, r, x, p) → p.k ≠ 0 → (s.core core).live = some l → l.complete p.chunks = true →
        s.colPoison x p = none →
        let ms := if p.exports then s.talMoves p (tileOf p.m p.n l.tile) true else []
        (s.mayMove .compute ms = true → exec (.tileClose core) s
          = .next (((s.charge .compute ms).closeTile core o r x p l).settleCore core o))
        ∧ (s.mayMove .compute ms = false → exec (.tileClose core) s = .next (s.waitAt .compute ms)))
    ∧ (∀ e es, (s.core core).held = e :: es → (s.core core).finish = [] → core < s.cores.length →
        let f : FinishEntry := { e with awaited := (s.core core).pass.isNone }
        ∃ t, exec (.finishEnqueue core) s = .next t ∧ (t.core core).held = es ∧ (t.core core).finish = [f]
          ∧ (s.finishStalled core = false → t.free = s.free + 1 ∧ t.core core = { s.core core with held := es, finish := [f] }))

/-- R102, R128, R162 to R166, R173: the Eight takes the next Finish entry and latches the registers; at the pass's end what it computes is
written, where COMPUTE may move its data and STACK what it saves (R203, R208); a record that has done all its work on all its cores
commits; an operator that is to stop leaves its cores and completes ABORTED once no chunk of it is in progress.
The model's choices it rests on: log entries 12, 71, 98 and 113. -/
def Obligations.PassRows : Prop :=
  ∀ s : State,
    (∀ core c r x e es, (s.core core).pass = none → (s.core core).finish = e :: es → s.opRec e.op = some (c, r, x) →
        s.pushed x core = true →
        exec (.passStart core) s = .next (s.setCore core ({ s.core core with
          finish := es, nrows := e.rows, vlen := e.cols
          pass := some ⟨e.op, some e, e.tile, e.rows, e.cols, readRegs (s.core core).regs x.op.scalars.length⟩ }.count 0x0224 1)))
    ∧ (∀ core c r x a, (s.core core).pass = some a → s.opRec a.op = some (c, r, x) →
        let ms := s.passMoves x a.unit
        let sv := s.saveMoves x core a.unit
        let t := s.charge .compute ms
        (s.mayMove .stack sv = false → exec (.passEnd core) s = .next (s.waitAt .stack sv))
        ∧ (s.mayMove .stack sv = true → (s.mayMove .compute ms = true → exec (.passEnd core) s
          = .next (((t.setCore core { t.core core with pass := none }).runPass core a.op r x a).settleCore core a.op))
        ∧ (s.mayMove .compute ms = false → exec (.passEnd core) s = .next (s.waitAt .compute ms))))
    ∧ (∀ n tag rec c r x, let o : OpRef := ⟨n, tag, rec⟩
        s.opRec o = some (c, r, x) → s.recDone x = true → exec (.operatorCommit n tag rec) s
          = .next (((s.commitRec x).mapRec o (fun y => { y with phase := .committed, pins := [] })).endOps n tag rec))
    ∧ (∀ n tag rec c f ts g, s.cmd n tag = some c → c.body = .selfTest [] f ts g →
        exec (.operatorCommit n tag rec) s = .next (s.endTest c f ts g))
    ∧ (∀ n tag c r cause record, s.cmd n tag = some c → c.body = .ops r → r.stop = some (cause, record) →
        (∀ k ∈ s.cores, k.chunksOf n tag = false) →
        let t := r.recs.foldl (fun (a : State) x => a.stopRec (decide (cause = 0x04)) x) (s.leaveCores n tag)
        exec (.operatorStop n tag) s
          = .next ((t.complete c .aborted (opsBlock r cause record (t.runUs c))).touchGroups (groupsOf r.cores)))

/-- R220, R224, R226 to R233, R208, Tables 7.8 and 7.10: the activation stacks: a record's pushes that are due and find room are made, in
pieces of the area that no other copy takes; the deepest RESIDENT entry outside the window spills, one at a time, to BOTH; the topmost
SPILLED entry in the window fills; a copy waits while STACK is at a ceiling; a pop whose tops carry the stamp, the groups and the shape it
asks for runs, and one whose tops do not stops with CAUSE 0x22.
The model's choices it rests on: log entries 12, 69, 70, 103, 112, 113 and 126. -/
def Obligations.StackRows : Prop :=
  ∀ s : State,
    (∀ n tag rec c r x, let o : OpRef := ⟨n, tag, rec⟩
        s.opRec o = some (c, r, x) →
        exec (.stackPush n tag rec) s = .next ((groupsOf x.op.cores).foldl (fun a g => a.pushOn o x g) s)
        ∧ ∀ g (t : State), t.pushDue x g = true → t.groupUp g = true →
            (t.belowCeiling .stack 3 g = false → t.pushOn o x g = t.atCeiling .stack 3 g)
            ∧ (t.belowCeiling .stack 3 g = true →
              let e := t.newEntry o x g
              let u := t.makeRoom g e.size
              let pl := u.placeFor g e.size
              ((u.stack g).sramSize < (u.stack g).used + e.size → t.pushOn o x g = u.pushWaits o g)
              ∧ ((u.stack g).used + e.size ≤ (u.stack g).sramSize → ∃ v : State, t.pushOn o x g = v.settleSpills g
                  ∧ v.mem = t.mem ∧ v.actStacks
                    = listUpd u.actStacks g (fun k => { k with entries := stackInsert k.entries { e with place := pl.1 } }))))
    ∧ (∀ g e, s.groupUp g = true → (∀ d ∈ (s.stack g).entries, d.state ≠ .spilling) →
        (s.stack g).entries.find? (fun d =>
          decide (d.state = .resident) && !d.marker && (s.outsideStamps g).contains d.stamp) = some e →
        exec (.spillStart g) s
          = .next (s.setEntry g e.stamp (fun d => { d with state := .spilling, spillOff := (s.stack g).below e.stamp })))
    ∧ (∀ g stamp e, s.groupUp g = true → s.entryIn g stamp .spilling = some e →
        let rs := runsOut e.place ((s.stack g).spillBase + e.spillOff)
        let ms := runMoves rs
        (s.mayMove .stack ms = true → exec (.spillComplete g stamp) s
          = .next ((((s.charge .stack ms).copyRuns rs).setEntry g stamp (fun d => { d with state := .both })).count 0x0322 e.size))
        ∧ (s.mayMove .stack ms = false → exec (.spillComplete g stamp) s = .next (s.waitAt .stack ms)))
    ∧ (∀ g e, s.groupUp g = true →
        (s.stack g).entries.reverse.find? (fun d => decide (d.state = .spilled) && !(s.outsideStamps g).contains d.stamp) = some e →
        let t := s.makeRoom g e.size
        let pl := t.placeFor g e.size
        (t.stack g).used + e.size ≤ (t.stack g).sramSize →
        exec (.fillStart g) s = .next (pl.2.setEntry g e.stamp (fun d => { d with state := .filling, place := pl.1 })))
    ∧ (∀ g stamp e, s.groupUp g = true → s.entryIn g stamp .filling = some e →
        let rs := runsIn e.place ((s.stack g).spillBase + e.spillOff)
        let ms := runMoves rs
        (s.mayMove .stack ms = true → exec (.fillComplete g stamp) s
          = .next ((((s.charge .stack ms).copyRuns rs).setEntry g stamp (fun d => { d with state := .both })).count 0x0323 e.size))
        ∧ (s.mayMove .stack ms = false → exec (.fillComplete g stamp) s = .next (s.waitAt .stack ms)))
    ∧ (∀ n tag rec c r x expect out discard cores, let o : OpRef := ⟨n, tag, rec⟩
        let gs := groupsOf cores
        s.opRec o = some (c, r, x) → x.op = .pop expect out discard cores → x.phase ≠ .running →
        (∀ k ∈ cores, s.turnOf c r rec x k = true ∧ s.lost k = false ∧ s.coreUp k = true) → s.stackTurn c r rec gs = true →
        let t := (s.startOps c).stackWindows gs
        ((∀ g ∈ gs, t.popOk gs expect out discard g = true) → exec (.stackPop n tag rec) s
          = .next ((t.mapRec o (fun y => { y with phase := .running, started := cores })).popRun o expect out discard cores false))
        ∧ ((∃ g ∈ gs, t.popOk gs expect out discard g = false) →
          exec (.stackPop n tag rec) s = .next ((t.count 0x0327 1).stopOps o 0x22)))

/-! ## Updates -/

/-- R247 to R251, R264, R208: a Tinker that may begin starts pass 1 on the waiting quarters it serves; at its end the gradients it read
are summed and counted, where UPDATE may move them, and a poisoned one stops the run; once pass 1 and any all-reduce are done the norms
are set, written and their collective committed; an UPDATE_RUN with nothing left to do completes, and one that is to stop ends with its
CAUSE.
The model's choices it rests on: log entries 32 and 113. -/
def Obligations.UpdateRows : Prop :=
  ∀ (s : State) (n tag tk : Nat) (c : Cmd) (r : UpdRun), s.cmd n tag = some c → c.body = .update r →
    (let qs := (s.serves tk).filter (fun q => decide (r.pass1.getD q .ended = .waiting))
     qs ≠ [] → s.mayStart c = true → (c.running = true ∨ s.heldAddress = false) → (∀ q ∈ qs, s.heldQuarter q = false) →
        (∀ e ∈ r.entries, s.server e.quarter ≠ none) →
        exec (.updatePass1Start n tag tk) s = .next (s.setCmd { c with
          body := .update { r with pass1 := qs.foldl (fun l q => l.set q .running) r.pass1 }, running := true
          startedAt := if c.running then c.startedAt else s.now }))
    ∧ (let qs := (s.serves tk).filter (fun q => decide (r.pass1.getD q .ended = .running))
       let gs := (qs.flatMap r.inQuarter).filterMap (fun e => s.tensor e.2.g)
       let ms := gs.map (fun g => (false, g.base, g.elemTotal))
       let u := s.charge .update ms
       let r1 := (qs.flatMap r.inQuarter).foldl (fun a e => u.pass1Entry a e.2) r
       let r2 : UpdRun := { r1 with pass1 := qs.foldl (fun l q => l.set q .ended) r1.pass1,
                                    kept := qs.foldl (fun l q => l.set q (u.retains r tk)) r1.kept }
       let t := (u.count 0x0342 (r2.frozenHits - r.frozenHits)).count 0x0346 ((gs.map Tensor.elemTotal).foldl (· + ·) 0)
       qs ≠ [] →
        ((∀ g ∈ gs, s.poisoned g.base g.footprint = false) → s.mayMove .update ms = true →
          ((∃ x ∈ r2.pass1, x ≠ .ended) → exec (.updatePass1End n tag tk) s = .next (t.setCmd { c with body := .update r2 }))
          ∧ ((∀ x ∈ r2.pass1, x = .ended) → exec (.updatePass1End n tag tk) s = .next (t.startNorm c r2)))
        ∧ ((∀ g ∈ gs, s.poisoned g.base g.footprint = false) → s.mayMove .update ms = false →
          exec (.updatePass1End n tag tk) s = .next (s.waitAt .update ms))
        ∧ (∀ g, gs.find? (fun g => s.poisoned g.base g.footprint) = some g →
          exec (.updatePass1End n tag tk) s = .next ((s.notePoison g.base g.footprint).endUpdate c r 0x41)))
    ∧ (r.normed = false → (∀ x ∈ r.pass1, x = .ended) → r.norm = none → r.normOut = none →
        exec (.updateNorms n tag) s = .next ((s.setCmd { c with body := .update { r.withNorms with norm := none } }).trimCrews))
    ∧ (∀ h t, r.normed = false → (∀ x ∈ r.pass1, x = .ended) → r.norm = none → r.normOut = some h → s.tensor h = some t →
        exec (.updateNorms n tag) s
          = .next (((s.write t.base r.withNorms.normRecord).setCmd { c with body := .update { r.withNorms with norm := none } }).trimCrews))
    ∧ (∀ z, r.normed = false → (∀ x ∈ r.pass1, x = .ended) → r.norm = some z → z.started = true → z.complete s = true →
        s.collUnacked z = false → r.normOut = none →
        let a : State := { s with net9 := { s.net9 with committed := s.net9.committed ++ [(z.crew % 2 ^ 16, z.cid)] } }
        exec (.updateNorms n tag) s = .next ((a.setCmd { c with body := .update { r.withNorms with norm := none } }).trimCrews))
    ∧ (r.normed = true → r.stop = none → (r.skipped = true ∨ r.mode = 1 ∨ r.pass2Done = true) →
        exec (.updateRunCommit n tag) s = .next (s.endUpdate c r (if r.failed = 0 then 0 else 0x41)))
    ∧ (∀ cause, r.normed = true → r.stop = some cause →
        exec (.updateRunCommit n tag) s = .next (s.endUpdate c r cause))

/-- R250, R251, R254 to R257, R260, R261, R185, R208, R320: the next entry of a Tinker: frozen elements are left alone, an entry that is
frozen whole is passed over; another is computed from the values read, written, and counted, its flags joining the run's, where UPDATE may
move the bytes; it waits while it would write a piece of a SECURE not yet sent; one that reads poison leaves what it writes open and stops
the run with CAUSE 0x41.
The model's choices it rests on: log entries 34, 35, 36, 37, 38, 39 and 113. -/
def Obligations.UpdateEntryRow : Prop :=
  ∀ (s : State) (n tag tk ix : Nat) (c : Cmd) (r : UpdRun) (e : UEntry) (w : Tensor),
    s.cmd n tag = some c → c.body = .update r → r.normed = true → r.skipped = false → r.mode ≠ 1 → r.stop = none →
    s.nextEntry r tk = some (ix, e) → s.tensor e.w = some w →
    let live := w.elems.filter (fun x => !s.frozen e.w x.2.2.2)
    let done := r.done.set e.quarter (r.done.getD e.quarter 0 + 1)
    let o := s.entryOut r e w
    let ws := s.entryWrites e w o
    let ms := (s.entryReads r e w o).map (fun g => (false, g.1, g.2)) ++ ws.map (fun g => (true, g.1, g.2))
    (live = [] → exec (.updateEntry n tag tk) s = .next (s.setCmd { c with body := .update { r with done := done } }))
    ∧ (live ≠ [] → s.unsentIn ws ≠ [] → exec (.updateEntry n tag tk) s = .next s)
    ∧ (∀ g, live ≠ [] → s.unsentIn ws = [] → s.entryPoison r e w o = some g → exec (.updateEntry n tag tk) s
        = .next (s.byTinker (((s.notePoison g.1 g.2).scrambleRanges ws).setCmd { c with body := .update { r with stop := some 0x41 } })))
    ∧ (live ≠ [] → s.unsentIn ws = [] → s.entryPoison r e w o = none → s.mayMove .update ms = false →
        exec (.updateEntry n tag tk) s = .next (s.waitAt .update ms))
    ∧ (live ≠ [] → s.unsentIn ws = [] → s.entryPoison r e w o = none → s.mayMove .update ms = true →
        let a := (s.charge .update ms).writeEntry e w o
        ∃ t d q, exec (.updateEntry n tag tk) s = .next t ∧ t.mem = a.1.mem ∧ t.poison = a.1.poison ∧ t.cmd n tag = some d
          ∧ d.body = .update q ∧ q.done = done ∧ q.flags = (r.flags ||| o.flags ||| a.2) ∧ q.stop = none)

/-- R262, R320, R385 to R388, R208: PARAM_WRITE on a quarter with no server ends ABORTED 0x41, one that names a frozen element ends FROZEN with
nothing written, and one that would write a piece not yet sent waits; another writes its elements, as LNS24 codes or from FP32, to W and,
from W as it then is, to WC where it names one, and completes with their flags, where UPDATE may move the bytes. The data commands do their
traffic and complete, where their class may move it; a read leaves memory as it was.
The model's choices it rests on: log entries 38, 93 and 113. -/
def Obligations.WriteRows : Prop :=
  ∀ (s : State) (n tag : Nat) (c : Cmd), s.cmd n tag = some c → s.mayStart c = true →
    (∀ w, let f := pwFields c.params
        let hit (x : Nat) : Bool := decide (f.2.2.1 ≤ x) && decide (x < f.2.2.1 + f.2.2.2.1)
        c.op = .paramWrite → s.tensor f.1 = some w → (c.running = true ∨ s.heldQuarter (quarterOf w.base) = false) →
        (s.server (quarterOf w.base) = none → exec (.paramWriteStart n tag) s = .next (s.completeGeneric c .aborted 0 0x41 0))
        ∧ (s.server (quarterOf w.base) ≠ none →
            (∃ x ∈ w.elems, hit x.2.2.2 = true ∧ s.frozen f.1 x.2.2.2 = true) →
            exec (.paramWriteStart n tag) s = .next ((s.startCmd c).completeGeneric c .frozen 0 0 0))
        ∧ (s.server (quarterOf w.base) ≠ none → (∀ x ∈ w.elems, hit x.2.2.2 = true → s.frozen f.1 x.2.2.2 = false) →
            let ms := (s.pwRanges c).map (fun g => (true, g.1, g.2))
            let u := s.charge .update ms
            let data := match c.bulk with | some b => b.data | none => []
            let code (x : Nat) : Nat := fld data (pwBytes f.2.2.2.2 * (x - f.2.2.1)) (pwBytes f.2.2.2.2)
            let val (x : Nat) : LVal × FlagWord :=
              if f.2.2.2.2 = 0x04 then (lnsDecode shape24 (code x), 0)
              else let v := fpDecode Fmt.fp32.fp (code x); ((seat v.1.toLog).1, v.2 ||| (seat v.1.toLog).2)
            let new (p i j : Nat) : Option LVal := if hit (w.storageIx p i j) then some (val (w.storageIx p i j)).1 else none
            let hits := w.elems.filter (fun x => hit x.2.2.2)
            let fl := flagsOr (hits.map (fun x => (val x.2.2.2).2))
            let t := u.putCodes true f.1 (fun p i j => (new p i j).map (fun v => (lnsEncode shape24 v).code))
            (s.unsentIn (s.pwRanges c) ≠ [] → exec (.paramWriteStart n tag) s = .next (s.startCmd c))
            ∧ (s.unsentIn (s.pwRanges c) = [] → s.mayMove .update ms = false →
                exec (.paramWriteStart n tag) s = .next (s.waitAt .update ms))
            ∧ (s.unsentIn (s.pwRanges c) = [] → s.mayMove .update ms = true → f.2.1 = none →
                exec (.paramWriteStart n tag) s
                  = .next (u.byTinker ((t.count 0x0347 (3 * hits.length)).completeGeneric c (doneRes fl) fl 0 0)))
            ∧ (∀ h v, s.unsentIn (s.pwRanges c) = [] → s.mayMove .update ms = true → f.2.1 = some h → s.tensor h = some v →
                let y := t.putCopy h (fun p i j => (u.seatAt w p i j).1) new
                let bytes := if v.f = .blns8 then 33 * ((hits.map (fun x => x.2.2.2 / 32)).eraseDups).length
                  else hits.length * (v.f.bits / 8)
                exec (.paramWriteStart n tag) s
                  = .next (u.byTinker ((y.1.count 0x0347 (3 * hits.length + bytes)).completeGeneric c (doneRes (fl ||| y.2))
                    (fl ||| y.2) 0 0)))))
    ∧ (let m := s.dataMoves c
       let a := s.charge m.1 m.2
       (s.mayMove m.1 m.2 = false → exec (.tensorCommandDone n tag) s = .next (s.waitAt m.1 m.2))
       ∧ (s.mayMove m.1 m.2 = true →
          (c.op = .tensorWrite → let d := a.doWrite c (match c.bulk with | some b => b.data | none => [])
            exec (.tensorCommandDone n tag) s = .next (d.1.completeGeneric c (doneRes d.2) d.2 0 0))
          ∧ (c.op = .tensorRead → exec (.tensorCommandDone n tag) s = .next (a.doRead c) ∧ (a.doRead c).mem = s.mem)
          ∧ (c.op = .tensorCopy → exec (.tensorCommandDone n tag) s = .next (a.doCopy c))
          ∧ (c.op = .tensorFill → exec (.tensorCommandDone n tag) s = .next (a.doFill c))))

/-! ## Copies, peers and links -/

/-- R319, R320, R329, R330, R314, R208: a SECURE is cut once no earlier Tinker command is left: its pieces are listed and its header
goes out; the pieces leave, those of the copy-before-write buffer first, and SLOT_END after the last; an unsent piece that a Tinker is
about to write is read into the buffer first; a byte that none but the Tinkers has written since the cut is sent as it stands; a serve
sends its next range; the reads of a copy and of a serve wait while SECURE is at a ceiling; a holder or target that stays silent ends
the BIND or the serve.
The model's choices it rests on: log entries 12, 18, 103, 113 and 141. -/
def Obligations.CopyRows : Prop :=
  ∀ (s : State) (n tag : Nat) (c : Cmd), s.cmd n tag = some c →
    (∀ r h, c.body = .secure r → s.pair.holder = some h →
        (r.cut = false → (∀ d ∈ s.earlier c, d.op ≠ .updateRun ∧ d.op ≠ .paramWrite) → s.mayStart c = true →
          s.heldAddress = false →
          let ts := r.tensors.filterMap s.tensor
          let pieces := ((List.range ts.length).zip ts).flatMap (fun x =>
            (List.range ((x.2.footprint + 65535) / 65536)).map (fun j => (x.1, j)))
          let hd := headerBytes r.step ts
          (s.pair.holderState = .bound → exec (.secureCut n tag) s = .next (({ s.setCmd { c with
              body := .secure { r with cut := true, cutAt := s.now, unsent := pieces }
              running := true, startedAt := s.now } with written := [] }).sendBytes s.devAddr h 6 r.id 0x10 0 0 (hd.length / 220 + 1) 0 hd []))
          ∧ (s.pair.holderState ≠ .bound → exec (.secureCut n tag) s
              = .next ((s.complete c .aborted (secureBlock s r 0x40 0)).count 0x0381 1)))
        ∧ (r.cut = true → r.ended = false →
          let gone (u : State) (r1 : SecureRun) (p : CowPiece) : State :=
            let t := (u.sendBytes s.devAddr h 6 r.id 0x11 p.tidx 0 299 (65536 * p.piece) p.bytes p.poison).count 0x0382 p.bytes.length
            if r1.unsent.isEmpty && r1.buffer.isEmpty
              then (t.sendFlit h 6 0 r.id (pairMsg 0x12 0 0 (r.sent + 1) []) []).setCmd { c with body := .secure { r1 with ended := true } }
              else t.setCmd { c with body := .secure r1 }
          (∀ p ps, r.buffer = p :: ps →
            let b := s.openBytes ((s.pieceAt r (p.tidx, p.piece)).getD (0, 0)).1 p.bytes
            exec (.securePieceSend n tag) s = .next (gone b.2 { r with buffer := ps, sent := r.sent + 1 } { p with bytes := b.1 }))
          ∧ (∀ ix piece xs t, r.buffer = [] → r.unsent = (ix, piece) :: xs → s.tensor (r.tensors.getD ix 0) = some t →
              (∃ d, s.secureRun = some (d, r)) →
              let g := pieceRange t.footprint piece
              let m : Moves := [(false, t.base + g.1, g.2)]
              (s.mayMove .secure m = true →
                let p := (s.charge .secure m).readPiece t (ix, piece)
                exec (.securePieceSend n tag) s = .next (gone p.2 { r with unsent := xs, sent := r.sent + 1 } p.1))
              ∧ (s.mayMove .secure m = false → exec (.securePieceSend n tag) s = .next (s.waitAt .secure m)))))
    ∧ (∀ r d ix piece t, s.secureRun = some (d, r) → s.tensor (r.tensors.getD ix 0) = some t →
        let g := pieceRange t.footprint piece
        let m : Moves := [(false, t.base + g.1, g.2)]
        let p := (s.charge .secure m).readPiece t (ix, piece)
        (p.1.bytes.length = g.2 ∧ ∀ (k : Nat) (b : Byte), (s.read (t.base + g.1) g.2)[k]? = some b →
          (∀ w ∈ s.written, overlaps (t.base + g.1 + k) 1 w.1 w.2 = false) → p.1.bytes[k]? = some b)
        ∧ ((ix, piece) ∈ s.unsentIn s.aboutToWrite → r.buffer.length < 256 → s.mayMove .secure m = true →
            let w := (p.2.setCmd { d with body := .secure { r with
              unsent := r.unsent.filter (fun x => x ≠ (ix, piece)), buffer := r.buffer ++ [p.1], cow := r.cow + 1 } }).freeNat
            exec (.copyBeforeWrite ix piece) s = .next ((w.2.count 0x0383 1).count 0x0384 w.1))
        ∧ ((ix, piece) ∉ s.unsentIn s.aboutToWrite → exec (.copyBeforeWrite ix piece) s = .next s))
    ∧ (∀ r, c.body = .serve r → r.ended = false → s.mayStart c = true →
        let m : Moves := [(false, s.slotTensorBase r.slot r.tidx + r.from_ + r.sent, min 220 (r.bytes - r.sent))]
        (s.mayMove .secure m = true →
          exec (.restoreDataSend n tag) s = .next (((s.charge .secure m).serveNext c r).settle 64))
        ∧ (s.mayMove .secure m = false → exec (.restoreDataSend n tag) s = .next ((s.waitAt .secure m).settle 64)))
    ∧ (∀ r, c.body = .serve r → r.ended = true →
        let t : State := { s with now := max s.now (r.since + s.setting 0x4005 * 1000) }
        exec (.restoreTargetSilent n tag) s = .next (t.complete c .aborted (serveBlock t c r 0x40)))
    ∧ (∀ h since ka, c.body = .bind h since ka → c.running = true →
        exec (.bindTimeout n tag) s = .next (({ s with
          now := max s.now (since + 16 * ka), pair := { s.pair with holderState := .none, holder := none } }).completeGeneric
            c .peerLost 0 0x40 0))

/-- R314 to R316, R321 to R323, R330: what the messages of the partner copy do as they are taken, the sender having been heard. One
whose class of budget is at its ceiling where it is to be written, or that follows one that waits, waits as it came (R208). A PAIR_REQ
makes its sender the ward, or is answered BAD_PARAM or SAME_FEED; a PAIR_ACK ends the BIND it answers; UNBIND and FEED_UPDATE change the
pair; SLOT_BEGIN, PIECE and SLOT_END from the BOUND ward, of a copy that has not ended here, fill the slot that is not COMPLETE, and the
last of them makes it COMPLETE and sends SECURED, which is the SECURE's commit point; SECURE_CANCEL ends the copy on either side;
RESTORE_DATA is written or answered with its refusal; RESTORE_END and the last data answer OK and set the tag; RESTORE_ACK ends the
serve.
The model's choices it rests on: log entries 44, 45 and 113. -/
def Obligations.PartnerMessages : Prop :=
  ∀ (s : State) (f : Flit),
    let a := (s.arrives f).heard f.src false
    (a.flitGated none f = true → ∀ i ∈ [Instr.pairReq f, .pairAck f, .unbind f, .feedUpdate f, .slotBegin f, .piece f, .slotEnd f, .secured f,
      .secureCancel f, .restoreData f, .restoreEnd f, .restoreAck f], exec i s = .next ((a.gateFlit none f).settle 64))
    ∧ (a.flitGated none f = false →
    let theirs := (fld f.data 0 4, fld f.data 4 4)
    let ack (t : State) (r : Res) : State := (t.answer f 6 2 0 (leBytes 1 r.code ++ leBytes 4 (a.setting 0x6000)
      ++ leBytes 4 (a.setting 0x6001) ++ leBytes 8 a.slotBytes)).settle 64
    let unfit := a.setting 0x6011 = 0 ∨ a.setting 0x6000 = 0 ∨ a.setting 0x6001 = 0
      ∨ (a.pair.wardState ≠ .none ∧ a.pair.ward ≠ some f.src) ∨ a.watchFull [f.src] = true
    let same := feedsMeet a.feeds theirs = true ∧ fld f.data 8 2 = 0
    ((unfit → exec (.pairReq f) s = .next (ack a .badParam))
      ∧ (¬unfit → same → exec (.pairReq f) s = .next (ack a .sameFeed))
      ∧ (¬unfit → ¬same →
          let b := a.dropFilling
          exec (.pairReq f) s = .next (ack ((({ b with pair := { b.pair with
            wardState := .bound, ward := some f.src, wardFeeds := theirs, wardReturned := false
            doneCopy := none } }).refreshFlags).watchPeer f.src) .ok)))
    ∧ (let w := a.cmds.find? (fun c => match c.body with | .bind h _ _ => c.running && decide (h = f.src) | _ => false)
       let code := fld f.data 0 1
       (w = none → exec (.pairAck f) s = .next (a.settle 64))
       ∧ (∀ c, w = some c → code = 0 →
          exec (.pairAck f) s = .next (((({ a with pair := { a.pair with
            holderState := .bound, returned := false, holderFeeds := (fld f.data 1 4, fld f.data 5 4)
            holderSlot := fld f.data 9 8 } }).refreshFlags).completeGeneric c .ok 0 0 0).settle 64))
       ∧ (∀ c, w = some c → code ≠ 0 →
          exec (.pairAck f) s = .next ((({ a with pair := { a.pair with holderState := .none, holder := none } }).completeGeneric c
            (if code = 0x25 then .sameFeed else .badParam) 0 0x11 0).settle 64)))
    ∧ (let warded := a.pair.ward = some f.src ∧ a.pair.wardState = .bound
       (warded → exec (.unbind f) s = .next ((({ a with pair := { a.pair with wardState := .retained } }).refreshFlags).settle 64))
       ∧ (¬warded → exec (.unbind f) s = .next (a.settle 64)))
    ∧ exec (.feedUpdate f) s = .next ((({ a with pair := { a.pair with
        holderFeeds := if a.pair.holder = some f.src ∧ a.pair.holderState = HolderState.bound then theirs else a.pair.holderFeeds
        wardFeeds := if a.pair.ward = some f.src ∧ a.pair.wardState = WardState.bound then theirs else a.pair.wardFeeds } }).refreshFlags).settle 64)
    ∧ (let mine := a.pair.ward = some f.src ∧ a.pair.wardState = .bound ∧ a.lateCopy f.cid = false
       let k := (a.openSlot f.cid).1
       let o := (a.openSlot f.cid).2
       let whole (t : State) : State :=
         if (t.pslot k).endArg.isSome = true ∧ t.headerDone k = true
             ∧ ∀ y ∈ (List.range (t.slotTensors k).length).zip (t.slotTensors k), (t.pslot k).bytesOf y.1 = y.2.footprint
         then ((((t.setPslot k { PartnerSlot.empty with state := .complete, xfer := (t.pslot k).xfer }).setPslot (1 - k) .empty).endCopy
           (t.pslot k).xfer).sendFlit f.src 6 0 (t.pslot k).xfer (pairMsg 0x13 0 0 k []) []).settle 64
         else t.settle 64
       (¬mine → exec (.slotBegin f) s = .next (a.settle 64) ∧ exec (.piece f) s = .next (a.settle 64)
         ∧ exec (.slotEnd f) s = .next (a.settle 64))
       ∧ (mine →
           (let t := (o.land (o.slotBase k + f.offset) f).gotRange k 64 f.offset f.data.length
            (t.headerDone k = true → exec (.slotBegin f) s
              = .next (whole ((t.pslot k).early.foldl (fun u g => u.putPiece k g) (t.setPslot k { t.pslot k with early := [] }))))
            ∧ (t.headerDone k = false → exec (.slotBegin f) s = .next (t.settle 64)))
           ∧ (o.headerDone k = false → exec (.piece f) s
              = .next ((o.setPslot k { o.pslot k with early := (o.pslot k).early ++ [f] }).settle 64))
           ∧ (∀ t, o.headerDone k = true → (o.slotTensors k)[f.tidx]? = some t → f.offset + f.data.length ≤ t.footprint →
              exec (.piece f) s
                = .next (whole ((o.land (o.slotTensorBase k f.tidx + f.offset) f).gotRange k f.tidx f.offset f.data.length)))
           ∧ (o.headerDone k = true → (∀ t, (o.slotTensors k)[f.tidx]? = some t → t.footprint < f.offset + f.data.length) →
              exec (.piece f) s = .next (whole o))
           ∧ exec (.slotEnd f) s = .next (whole (o.setPslot k { o.pslot k with endArg := some f.arg }))))
    ∧ (let w := a.cmds.findSome? (fun c => match c.body with
          | .secure r => if r.id = f.cid ∧ r.ended then some (c, r) else none
          | _ => none)
       (w = none → exec (.secured f) s = .next (a.settle 64))
       ∧ (∀ c r, w = some (c, r) →
          let d := (a.localStep - r.step) % 2 ^ 32
          let t : State := { a with pair := { a.pair with lastStep := some r.step, lastD := d } }
          exec (.secured f) s = .next (((t.complete c .complete (secureBlock t r 0 d)).count 0x0380 1).settle 64)))
    ∧ (let b := if a.pair.ward = some f.src then
          ({ a with pair := { a.pair with slots := a.pair.slots.map (fun x =>
            if x.state = .filling ∧ x.xfer = f.cid then .empty else x) } } : State).endCopy f.cid
         else a
       let w := b.cmds.findSome? (fun c => match c.body with | .secure r => if r.id = f.cid then some (c, r) else none | _ => none)
       ((a.pair.holder ≠ some f.src ∨ w = none) → exec (.secureCancel f) s = .next (b.settle 64))
       ∧ (∀ c r, a.pair.holder = some f.src → w = some (c, r) → exec (.secureCancel f) s
          = .next (((b.complete c .aborted (secureBlock b r 0x40 0)).count 0x0381 1).settle 64)))
    ∧ (let x := (a.serveOfFlit f).1
       let b := (a.serveOfFlit f).2
       let y := { x with handle := f.arg, got := (f.offset, f.data.length) :: x.got }
       (x.refusal ≠ none → exec (.restoreData f) s = .next ((b.setServe y).settle 64))
       ∧ (∀ r, x.refusal = none → b.restoreRefusal f x.got.isEmpty = some r → exec (.restoreData f) s
          = .next (((b.setServe { y with refusal := some r, answered := true }).answer f 7 0x22 0 (leBytes 1 r.code)).settle 64))
       ∧ (∀ t, x.refusal = none → b.restoreRefusal f x.got.isEmpty = none → b.tensor f.arg = some t →
          let u := ((b.land (t.base + f.offset) f).untag t.handle).count 0x0386 f.data.length
          (x.endArg = some ((y.got.map (fun g => g.2)).foldl (· + ·) 0) → exec (.restoreData f) s
            = .next ((((u.dropServe x.holder x.id).retag f.arg).answer f 7 0x22 0 (leBytes 1 0)).settle 64))
          ∧ (x.endArg ≠ some ((y.got.map (fun g => g.2)).foldl (· + ·) 0) → exec (.restoreData f) s
            = .next ((u.setServe y).settle 64))))
    ∧ (let x := (a.serveOf f.src f.cid).getD ⟨f.src, f.cid, 0, none, [], none, false, a.now⟩
       (x.refusal = none → (x.got.map (fun g => g.2)).foldl (· + ·) 0 = f.arg → exec (.restoreEnd f) s
          = .next ((((a.dropServe x.holder x.id).retag x.handle).answer f 7 0x22 0 (leBytes 1 0)).settle 64))
       ∧ (x.refusal = none → (x.got.map (fun g => g.2)).foldl (· + ·) 0 ≠ f.arg → exec (.restoreEnd f) s
          = .next ((a.setServe { x with endArg := some f.arg, last := a.now }).settle 64))
       ∧ (x.refusal ≠ none → exec (.restoreEnd f) s = .next ((a.dropServe x.holder x.id).settle 64)))
    ∧ (let w := a.cmd (f.cid / 2 ^ 16) (f.cid % 2 ^ 16)
       let code := fld f.data 0 1
       (∀ c r, w = some c → c.body = .serve r → r.target = f.src → exec (.restoreAck f) s
          = .next ((a.complete c (if code = 0 then .complete else .aborted) (serveBlock a c r code)).settle 64))
       ∧ ((∀ c r, w = some c → c.body = .serve r → r.target ≠ f.src) → exec (.restoreAck f) s = .next (a.settle 64))))

/-- R326 to R328, R281, R286 to R288: the watched peers are the holder, the BOUND ward and the ring neighbours of the collectives; every
PEER_KA_US a keepalive goes to each; one that is heard keeps its sender, a HOUSING one suspends the sender's loss timer, a RESETTING one
declares a watched sender lost; one for another device goes a hop on, on the shortest way, or is dropped and counted after 15 hops, with no
way, or, where others wait on its link, for want of room; a watched peer that is silent for PEER_KA_US times PEER_MISS is declared lost: the
LINK/PEER bit, FIRST_LOST_PEER and PEERS_LOST show it. That a keepalive finds room on a link on which nothing waits, and a free value says
so on any other, is the model's choice (log entry 118), and so are the channel and the count of HOPS it goes on with (log entry 21).
The model's choices it rests on: log entries 21 and 118. -/
def Obligations.PeerRows : Prop :=
  ∀ s : State,
    (let t : State := { s with now := max s.now (s.pair.kaAt + s.setting 0x6020) }
     exec .peerKeepaliveSend s = .next (s.watched.foldl (fun t a => t.sendPeerKeepalive a t.keepState)
       { t with pair := { t.pair with kaAt := t.now } }))
    ∧ (∀ a, a ∈ s.watched ↔ s.devAddr ≠ some a
        ∧ ((s.pair.holder = some a ∧ s.pair.holderState ≠ .none) ∨ (s.pair.ward = some a ∧ s.pair.wardState = .bound)
          ∨ ∃ c ∈ s.cmds, a ∈ c.watches))
    ∧ (∀ p a, s.peer a = some p → a ∈ s.watched → p.suspended = false → p.lost = false →
        let t : State := { s with now := max s.now (p.since + s.setting 0x6020 * s.setting 0x6021) }
        exec (.peerLossTimeout a) s = .next (t.declareLost a))
    ∧ (∀ f, (∃ a, s.devAddr = some a ∧ a ≠ f.dest) →
        (15 ≤ f.hops → exec (.peerKeepalive f) s = .next (s.count 0x0508 1))
        ∧ (f.hops < 15 → s.upLinks f.dest = [] → exec (.peerKeepalive f) s = .next (s.count 0x0509 1))
        ∧ (∀ i, f.hops < 15 → s.shortest (s.upLinks f.dest) = some i →
            (((s.link i).ctrl = [] ∨ s.freeNat.1 % 2 = 0) →
              exec (.peerKeepalive f) s = .next (s.freeNat.2.pushCtrl i (.peerKeepalive { f with
                hops := f.hops + 1, vc := if f.dest / 256 = s.devAddr.getD 0 / 256 then 1 else f.vc })))
            ∧ ((s.link i).ctrl ≠ [] → s.freeNat.1 % 2 = 1 → exec (.peerKeepalive f) s = .next (s.freeNat.2.count 0x0507 1))))
    ∧ (∀ f, (s.devAddr = none ∨ s.devAddr = some f.dest) →
        let h := s.heard f.src true
        (h.peer f.src = none → exec (.peerKeepalive f) s = .next h)
        ∧ (∀ p, h.peer f.src = some p →
            (fld f.payload 4 1 ≠ 1 → fld f.payload 4 1 ≠ 2 → exec (.peerKeepalive f) s = .next h)
            ∧ (fld f.payload 4 1 = 1 → exec (.peerKeepalive f) s = .next (h.setPeer { p with suspended := true }))
            ∧ (fld f.payload 4 1 = 2 → (f.src ∉ h.watched ∨ p.lost = true) → exec (.peerKeepalive f) s = .next h)
            ∧ (fld f.payload 4 1 = 2 → f.src ∈ h.watched → p.lost = false →
                exec (.peerKeepalive f) s = .next (h.declareLost f.src))))

/-- R271 to R276, R280, R281, R310: the state of a link: a trained link with two healthy lanes that has heard its peer comes UP with 32
credits of each class and channel, or goes to CONFLICT where an address is unset or both are the same; nothing trains or is sent while
the lanes are not clocked (R445, R474, R475); silence takes it DOWN; after 1 s it retries; a keepalive records what the peer says and
moves an UP link to CONFLICT, or one in CONFLICT to training; a lane that is lost is given up and the peer told: the spare takes its
place, or the link narrows to two lanes, or goes DOWN; an idle flit only shows that the peer is there.
The model's choices it rests on: log entries 17, 19 and 22. -/
def Obligations.LinkStateRows : Prop :=
  ∀ (s : State) (i : Nat), i < 64 → i < s.net9.links.length →
    let l := s.link i
    let clash (a b : Option Nat) := a = none ∨ b = none ∨ a = b
    (l.state = .training → s.lanesRun = true →
        exec (.linkTrainingDone i false) s = .next (s.linkTo i .down)
        ∧ ((l.healthy.length < 2 ∨ l.peerLink = none) → exec (.linkTrainingDone i true) s = .next (s.linkTo i .down))
        ∧ (2 ≤ l.healthy.length → l.peerLink ≠ none → clash s.devAddr l.peerAddr →
            exec (.linkTrainingDone i true) s = .next ((s.linkTo i .conflict).linkHeard i))
        ∧ (2 ≤ l.healthy.length → l.peerLink ≠ none → ¬clash s.devAddr l.peerAddr →
            let t := (s.linkTo i .up).linkHeard i
            exec (.linkTrainingDone i true) s
              = .next ((t.setLink i { t.link i with credits := List.replicate 14 32 }).routeWaiting)))
    ∧ (l.state = .down → s.linkEnabled i = true → s.power.refclk = true → s.linksOff = false →
        exec (.linkRetryTimer i) s = .next (({ s with now := max s.now (l.downAt + 1000000) }).retrain i))
    ∧ ((l.state = .up ∨ l.state = .conflict) →
        exec (.linkSilenceTimeout i) s = .next (({ s with now := max s.now (l.lastRx + 16 * s.setting 0x4002) }).linkTo i .down))
    ∧ (s.lanesRun = false → ∀ ok, exec (.linkTrainingDone i ok) s = .next s ∧ exec (.keepaliveSend i) s = .next s
        ∧ exec (.flitSend i) s = .next s)
    ∧ (s.lanesRun = true → (l.state = .training ∨ l.state = .up ∨ l.state = .conflict) →
        let t : State := { s with now := max s.now (l.lastTx + s.setting 0x4002) }
        exec (.keepaliveSend i) s = .next (t.emit i (.keepalive s.devAddr i s.crewVersion s.keepState)))
    ∧ (∀ addr pl crew st,
        let t := s.setLink i { l with peerAddr := addr, peerLink := some pl, peerCrew := crew, lastRx := s.now }
        ((l.state = .disabled ∨ l.state = .down) → exec (.keepaliveFlit i addr pl crew st) s = .next s)
        ∧ (l.state = .up → clash s.devAddr addr → exec (.keepaliveFlit i addr pl crew st) s = .next (t.linkTo i .conflict))
        ∧ (l.state = .conflict → ¬clash s.devAddr addr →
            exec (.keepaliveFlit i addr pl crew st) s = .next (t.linkTo i .training))
        ∧ ((l.state = .training ∨ (l.state = .up ∧ ¬clash s.devAddr addr) ∨ (l.state = .conflict ∧ clash s.devAddr addr)) →
            exec (.keepaliveFlit i addr pl crew st) s = .next t))
    ∧ exec (.idleFlit i) s = .next (s.setLink i { l with lastRx := s.now })
    ∧ (∀ lane, l.state = .up →
        exec (.laneCtrl i lane) s = .next ((s.laneFail i lane).linkHeard i)
        ∧ (lane ∉ l.active → exec (.laneLossOfLock i lane) s = .next s)
        ∧ (lane ∈ l.active →
            let l1 : Link := { l with ctrl := l.ctrl ++ [.laneCtrl lane], failed := l.failed ++ [lane] }
            (l1.healthy.length = 4 → exec (.laneLossOfLock i lane) s
              = .next ((((s.setLink i { l1 with active := l1.healthy, spareUsed := true, resend := l1.replay.length }).linkChanged
                i).spareEvent).count 0x0506 1))
            ∧ (l1.healthy.length = 2 ∨ l1.healthy.length = 3 → exec (.laneLossOfLock i lane) s
              = .next (((s.setLink i { l1 with active := l1.healthy.take 2, half := true, resend := l1.replay.length }).linkChanged
                i).count 0x0506 1))
            ∧ (l1.healthy.length < 2 → exec (.laneLossOfLock i lane) s
              = .next ((s.setLink i { l1 with active := [] }).linkTo i .down))))
    ∧ (∀ errors total, l.state = .up →
        let all := errors.foldl (· + ·) 0
        let t := (s.freeNat.2.setLink i { l with symErr := all % 2 ^ 32 }).count 0x0502 (s.freeNat.1 % (all + 1))
        exec (.serWindow i errors total) s
          = .next ((l.active.filter (fun k => decide (total < errors.getD k 0 * 2 ^ s.setting 0x4004))).foldl
              (fun u k => if (u.link i).state = .up then (u.pushCtrl i (.laneCtrl k)).laneFail i k else u) t))

/-- R277 to R283, R208: flits of an UP link: a DATA flit in sequence is taken, counted, charged, acknowledged at the 64th, and delivered
where it is addressed to this device, forwarded where it is not, or waits where its class is at its ceiling; it wakes the link engines
(R446); one out of sequence, or a bad one, is answered by one NAK; ACK, NAK and CREDIT free, replay and give credits; of what waits to be
sent, unsequenced flits go first, then credits that are owed, then replays, then new DATA flits that hold a credit and whose class is not
at its ceiling.
The model's choices it rests on: log entries 17, 19, 20, 21 and 113. -/
def Obligations.LinkFlitRows : Prop :=
  ∀ (s : State) (i : Nat), i < 64 → i < s.net9.links.length → (s.link i).state = .up → s.lanesRun = true →
    let l := s.link i
    let nakked (t : State) : State := t.setLink i { t.link i with nakSent := true, ctrl := (t.link i).ctrl ++ [.nak l.rxSeq] }
    (∀ f lseq, lseq = l.rxSeq →
        let next := (l.rxSeq + 1) % 4096
        let t := s.setLink i (if l.unacked < 63
          then { l with rxSeq := next, nakSent := false, lastRx := s.now, unacked := l.unacked + 1 }
          else { l with rxSeq := next, nakSent := false, lastRx := s.now, unacked := 0, ctrl := l.ctrl ++ [.ack next] })
        let v : State := t.count 0x0501 1
        let w : State := { v with power := { v.power with
          linksS2 := false, sharedS2 := v.power.sharedS2 && !(decide (s.devAddr = some f.dest) && Machine.Flit.needsMemory f)
          lastData := s.now } }
        let a := if s.devAddr = some f.dest then w.heard f.src false else w
        let u := a.requestOn (if f.tc = 1 then .maint else if f.tc ≤ 5 then .collective else .secure) 1 (i / 8 * 2 + 1) 256
        (a.flitGated (some i) f = true → exec (.dataFlit i lseq f) s = .next ((a.gateFlit (some i) f).settle 64))
        ∧ (a.flitGated (some i) f = false →
          (s.devAddr = some f.dest → exec (.dataFlit i lseq f) s = .next ((u.deliver (some i) f).settle 64))
          ∧ (s.devAddr ≠ some f.dest → exec (.dataFlit i lseq f) s = .next (((u.forward f).freeBuffer (some i) f).settle 64))))
    ∧ (∀ f lseq, lseq ≠ l.rxSeq →
        (l.nakSent = false → exec (.dataFlit i lseq f) s = .next (nakked s))
        ∧ (l.nakSent = true → exec (.dataFlit i lseq f) s = .next s))
    ∧ (∀ codeword data,
        let k := if codeword then 1 else 0
        let t := ((s.setLink i { l with fecUncorr := (l.fecUncorr + k) % 2 ^ 32 }).count 0x0507 1).count 0x0503 k
        ((data = false ∨ l.nakSent = true) → exec (.badFlit i codeword data) s = .next t)
        ∧ (data = true → l.nakSent = false → exec (.badFlit i codeword data) s = .next (nakked t)))
    ∧ (∀ lseq, exec (.ackFlit i lseq) s = .next (s.setLink i { (l.freeTo lseq).2 with
          naks := if 0 < (l.freeTo lseq).1 then 0 else (l.freeTo lseq).2.naks, lastRx := s.now }))
    ∧ (∀ lseq, let q := l.freeTo lseq
        let naks := if 0 < q.1 then 1 else q.2.naks + 1
        let t := ((s.setLink i { q.2 with
          naks := naks, resend := q.2.replay.length, replays := (q.2.replays + 1) % 2 ^ 32 }).count 0x0504 1).linkHeard i
        (naks < s.setting 0x4003 → exec (.nakFlit i lseq) s = .next t)
        ∧ (s.setting 0x4003 ≤ naks → exec (.nakFlit i lseq) s = .next ((t.retrain i).count 0x0505 1)))
    ∧ (∀ p, exec (.creditFlit i p) s = .next ((s.setLink i { l with
          credits := (List.range 14).map (fun k => min 32 (l.credits.getD k 0 + fld p (k + 2) 1)), lastRx := s.now }).routeWaiting))
    ∧ (∀ x xs, l.ctrl = x :: xs → exec (.flitSend i) s = .next ((s.setLink i { l with ctrl := xs }).emit i x))
    ∧ (l.ctrl = [] →
        ((∃ n ∈ l.owed, 0 < n) → exec (.flitSend i) s = .next ((s.setLink i { l with owed := l.owed.map (fun n => n - 255) }).emit i
            (.credit ([0, 0] ++ l.owed.map (fun n => min n 255)))))
        ∧ ((∀ n ∈ l.owed, n = 0) →
            (∀ x, 0 < l.resend → l.replay[l.replay.length - l.resend]? = some x → exec (.flitSend i) s
              = .next ((({ s.setLink i { l with resend := l.resend - 1 } with power := { s.power with
                  linksS2 := false, lastData := s.now } } : State).emit i (.data x.1 x.2)).count 0x0500 1))
            ∧ (l.resend = 0 →
                let ready := l.readyClasses l.lastClass
                (1024 ≤ l.replay.length → exec (.flitSend i) s = .next s)
                ∧ (l.replay.length < 1024 → (∀ tc ∈ ready, s.classMay i tc = false) →
                    exec (.flitSend i) s = .next (s.classesWait i ready))
                ∧ (∀ tc f rest, l.replay.length < 1024 → ready.find? (s.classMay i) = some tc →
                    takeClass l tc l.queue = some (f, rest) →
                    let ix := creditIx f.tc f.vc
                    let u := ((s.classesWait i ready).requestOn (payerOf tc) 1 (i / 8 * 2) 256).setLink i { l with
                      queue := rest, replay := l.replay ++ [(l.txSeq, f)], txSeq := (l.txSeq + 1) % 4096, lastClass := tc
                      credits := l.credits.set ix (l.credits.getD ix 0 - 1) }
                    exec (.flitSend i) s = .next ((({ u with power := { u.power with
                      linksS2 := false, lastData := s.now } } : State).emit i (.data l.txSeq f)).count 0x0500 1)))))
    ∧ (0 < l.unacked → exec (.ackTimer i) s = .next ((s.setLink i { l with unacked := 0 }).emit i (.ack l.rxSeq)))

/-- R295, R296, R299, R300, R305, R308, R309: a collective starts with its first sends, once COLLECTIVE is below its ceilings; a flit of one that
runs is taken where it comes from the member it should, held where it does not or where the collective has not started; one of a collective
that has committed and of no other is discarded; a CANCEL ends it with CAUSE 0x04, started or not, and a STALE notice with 0x26. It commits
with every element in and every flit acknowledged, and ends with CAUSE 0x40 when its peer is silent and 0x41 when a link engine fails.
The model's choices it rests on: log entries 16, 29, 113, 119 and 120. -/
def Obligations.CollectiveRows : Prop :=
  ∀ s : State,
    (∀ n tag c r, s.cmd n tag = some c → c.body = .coll r →
        (r.started = false → s.mayStart c = true → s.heldAddress = false → s.collPoison r = none →
          let m : Moves := (s.collReads r).map (fun g => (false, g))
          (s.mayMove .collective m = true →
            let t := r.neighbours.foldl State.watchPeer ((s.charge .collective m).startCmd c)
            let k := t.collBegin r
            exec (.collectiveStart n tag) s = .next (((k.1.setCmd { c with
              body := .coll k.2, running := true, startedAt := s.now }).takeHeld r.crew r.cid).settle 64))
          ∧ (s.mayMove .collective m = false → exec (.collectiveStart n tag) s = .next ((s.waitAt .collective m).settle 64)))
        ∧ (r.started = true → r.complete s = true → s.collUnacked r = false →
          let t := match r.output with | some h => (s.padOut r).retag h | none => s.padOut r
          exec (.collectiveCommit n tag) s = .next ((({ t with net9 := { t.net9 with
            committed := t.net9.committed ++ [(r.crew % 2 ^ 16, r.cid)] } }).completeGeneric c (doneRes r.flags) r.flags 0 0).trimCrews))
        ∧ ((r.started = false ∨ r.complete s = false ∨ s.collUnacked r = true) → exec (.collectiveCommit n tag) s = .next s))
    ∧ (∀ n tag c r, s.cmd n tag = some c → c.collective = some r → r.started = true → r.complete s = false →
        exec (.collectiveStallTimeout n tag) s
          = .next (({ s with now := max s.now (r.lastRx + s.setting 0x4005 * 1000) }).failColl c 0x40 (detailOf r.awaited)))
    ∧ (∀ f : Flit, let a := (s.arrives f).heard f.src false
        (∀ x ∈ a.net9.stuck, x.1 ≠ none) →
        (a.flitGated none f = true → exec (.collectiveFlit f) s = .next ((a.gateFlit none f).settle 64))
        ∧ (a.flitGated none f = false →
        (∀ c r, f.tc ≠ 1 → a.collFor f.crew f.cid = some c → c.collective = some r →
            (r.started = true → r.expects f = true → exec (.collectiveFlit f) s
                = .next (((a.collTake r f).1.setCmd (c.withCollective (a.collTake r f).2)).settle 64))
            ∧ ((r.started = false ∨ r.expects f = false) → a.net9.held.length < 16384 → exec (.collectiveFlit f) s
                = .next (({ a with net9 := { a.net9 with held := a.net9.held ++ [(none, false, f)] } } : State).settle 64)))
        ∧ (f.tc ≠ 1 → a.collFor f.crew f.cid = none →
            ((f.crew, f.cid) ∈ a.net9.committed → exec (.collectiveFlit f) s = .next ((a.count 0x050B 1).settle 64))
            ∧ ((f.crew, f.cid) ∉ a.net9.committed → a.crewAge f.crew = .older →
                exec (.collectiveFlit f) s = .next ((a.stale f).settle 64))
            ∧ ((f.crew, f.cid) ∉ a.net9.committed → a.crewAge f.crew ≠ .older → a.net9.held.length < 16384 → exec (.collectiveFlit f) s
                = .next (({ a with net9 := { a.net9 with held := a.net9.held ++ [(none, false, f)] } } : State).settle 64)))))
    ∧ (∀ f : Flit, let g : Flit := { f with tc := 1 }
        let a := (s.arrives g).heard f.src false
        let id := Config.crewCid f.payload
        let keep (cancel : Bool) : State := { a with net9 := { a.net9 with held := a.net9.held ++ [(none, cancel, g)] } }
        (∀ x ∈ a.net9.stuck, x.1 ≠ none) → a.flitGated none g = false →
        (∀ c r, a.collFor f.crew id = some c → c.collective = some r →
            exec (.cancel f) s = .next ((a.failColl c 0x04 (detailOf f.src)).settle 64)
            ∧ (r.started = true → exec (.staleNotice f) s = .next ((a.failColl c 0x26 (detailOf f.src)).settle 64))
            ∧ (r.started = false → a.net9.held.length < 16384 → exec (.staleNotice f) s = .next ((keep false).settle 64)))
        ∧ (a.collFor f.crew id = none →
            ((f.crew, id) ∈ a.net9.committed → ∀ i ∈ [Instr.cancel f, .staleNotice f], exec i s = .next (a.settle 64))
            ∧ ((f.crew, id) ∉ a.net9.committed → a.crewAge f.crew = .older →
                ∀ i ∈ [Instr.cancel f, .staleNotice f], exec i s = .next ((a.stale g).settle 64))
            ∧ ((f.crew, id) ∉ a.net9.committed → a.crewAge f.crew ≠ .older → a.net9.held.length < 16384 →
                exec (.cancel f) s = .next ((keep true).settle 64) ∧ exec (.staleNotice f) s = .next ((keep false).settle 64))))
    ∧ (∀ e, exec (.linkEngineFault e) s
        = .next ((s.cmds.filter (fun c => match c.collective with | some r => r.started | none => false)).foldl
            (fun t c => t.failColl c 0x41 (detailOf (s.devAddr.getD 0))) (s.raiseFault (3 * 4096 + e % 4096))))

/-! ## Power, pins and health -/

/-- R431, R447, R424, R425, R434, R462, R470 to R478: the pins and the feeds: the loss and the return of a feed raise POWER/THERMAL, but
for a feed that arrives before the rails are in regulation; with both lost only what is in flash and the pending commands remain;
power-up leads through reset to the boot, which samples the straps and runs the slot that verifies or the recovery path; RESET_N low
resets the module at any time. READY repairs the marked rows, or counts them among those no row repairs, writes its record, raises the
rollback counter to the smallest SVN of the slot that runs, adds 1 to BOOT_COUNT and puts the groups, in ascending order, in READY_STATE
where R434 admits it. REFCLK's loss takes the links that are UP down and raises LINK/PEER.
The model's choices it rests on: log entries 4, 7, 14, 86, 87, 89 and 122. -/
def Obligations.PinRows : Prop :=
  ∀ s : State,
    ((s.power.feedA = true → s.power.feedB = true → exec (.feedLoss 0) s
          = .next ((({ s with power := { s.power with feedA := false } }).count 0x0700 1).raiseAttn attnPower)
        ∧ exec (.feedLoss 1) s
          = .next ((({ s with power := { s.power with feedB := false } }).count 0x0701 1).raiseAttn attnPower))
      ∧ (s.power.feedA = true → s.power.feedB = false → exec (.feedLoss 0) s = exec .bothFeedsLost s)
      ∧ (s.power.feedA = false → s.power.feedB = true → exec (.feedLoss 1) s = exec .bothFeedsLost s))
    ∧ (s.power.phase ≠ .off →
        let back (f : Nat) (t : State) : Prop := exec (.feedRestore f) s = .next (if s.power.phase = .rising then t else t.raiseAttn attnPower)
        (s.power.feedA = false → back 0 { s with power := { s.power with feedA := true } })
        ∧ (s.power.feedB = false → back 1 { s with power := { s.power with feedB := true } }))
    ∧ (∃ t, exec .bothFeedsLost s = .next t ∧ t.power.phase = .off ∧ t.power.powerOk = false ∧ t.mem = [] ∧ t.cmds = []
        ∧ t.sources = [] ∧ t.cores = State.reset.cores ∧ t.settings = s.settings ∧ t.trust.keys = s.trust.keys
        ∧ t.trust.audit = s.trust.audit ∧ t.trust.firmware = s.trust.firmware ∧ t.health.map = s.health.map)
    ∧ (∀ f, s.power.phase = .off → exec (.powerUp f) s = .next { s with power := { s.power with
          phase := .rising, feedA := decide (f = 0), feedB := decide (f ≠ 0) } })
    ∧ (s.power.phase = .rising → exec .railsInRegulation s = .next { s with power := { s.power with
          phase := .held, powerOk := true, tripLow := false, selfHold := !s.power.resetLow } })
    ∧ (s.power.phase = .held → s.power.resetLow = false →
        (s.power.selfHold = true → exec .resetHoldRelease s = .next s.sampleStraps.boot)
        ∧ (s.power.hotHold = true → (∀ t ∈ s.sensors, t < 100) → exec .thermalTripRecovery s = .next s.boot))
    ∧ (∃ k < 16, s.sampleStraps = { s with free := s.free + 1, power := { s.power with straps := k } })
    ∧ ((∀ f, s.trust.firmware.choose = some f → s.boot.power.phase = .boot ∧ s.boot.power.stage = 0 ∧ s.boot.now = 0
          ∧ s.boot.trust.firmware = f.measured)
      ∧ (s.trust.firmware.choose = none → s.boot.power.recovery = true ∧ s.boot.power.phase = .ready ∧ s.boot.now = 0
          ∧ s.boot.attention.service.getLsbD 2 = true))
    ∧ (let r : State := { s with power := { s.power with resetLow := true } }
       ((s.power.phase = .off ∨ s.power.phase = .rising) → exec .resetNAssert s = .next r)
       ∧ (s.power.phase ≠ .off → s.power.phase ≠ .rising →
          let t := r.moduleReset
          exec .resetNAssert s = .next { t with power := { t.power with selfHold := false } }
            ∧ t.power.phase = .held ∧ t.mem = [] ∧ t.cmds = [] ∧ t.tensors = []))
    ∧ (s.power.resetLow = true →
        let t : State := { s with power := { s.power with resetLow := false } }
        (s.power.phase = .held → s.power.hotHold = false → exec .resetNRelease s = .next t.sampleStraps.boot)
        ∧ (s.power.phase = .held → s.power.hotHold = true → exec .resetNRelease s = .next t.sampleStraps)
        ∧ (s.power.phase ≠ .held → exec .resetNRelease s = .next t))
    ∧ (s.power.phase = .boot →
        let f := s.trust.firmware
        let a := s.repairRows
        let b := a.audit { AuditEvent.device 0x0B with
          detail := leBytes 1 0 ++ leBytes 1 (if f.runningB then 1 else 0) ++ leBytes 1 (if f.fellBack then 1 else 0) }
        let c := b.raiseRollback
        let t : State := { c with
          trust := { c.trust with firmware := { c.trust.firmware with bootCount := f.bootCount + 1, trial := false, tries := 0 } }
          power := { c.power with phase := .ready, stage := 3, capSeen := (0, 0) } }
        let x := GState.ofCode (s.setting 0x1003)
        let svns := (if f.runningB then f.slotB else f.slotA).filterMap (fun y => y.map FwStage.svn)
        exec .ready s = .next (t.placeGroups.sharedFollow.lookAtCap).powerMove
        ∧ ((∀ p ∈ s.power.groups, p.waking = none) → s.power.groups.length = 16 →
            t.placeGroups.groupStates = (List.range 16).foldl (fun gs g => if t.admits (gs.set g x) then gs.set g x else gs) t.groupStates)
        ∧ (svns ≠ [] → s.trust.flashFault = false → c.trust.firmware.rollback = max f.rollback (svns.foldl min 256))
        ∧ (∀ r ∈ s.health.lpddrMarks, r ∉ a.health.lpddrMarks ∨ r ∈ a.health.unrepairable)
        ∧ (∀ r ∈ a.health.lpddrMarks, r ∈ s.health.lpddrMarks))
    ∧ (s.power.coresReset = true →
        exec .coresResetDone s = .next ({ s with power := { s.power with coresReset := false } } : State).powerMove)
    ∧ (let t : State := (List.range 64).foldl (fun (a : State) i => if (a.link i).state = .up then a.linkTo i .down else a)
          { s with power := { s.power with refclk := false } }
       exec .refclkLoss s = .next (t.raiseAttn attnLink) ∧ (t.raiseAttn attnLink).attention.attn &&& attnLink ≠ 0
         ∧ t.power.refclk = false ∧ ∀ i < 64, (t.link i).state ≠ .up)
    ∧ exec .refclkReturn s = .next { s with power := { s.power with refclk := true } }

/-- R438 to R441, R446, R328: power states: an idle timer of a group asks for S1 or S2; at its boundary the group enters what is asked,
S2 costing it its work, once no output stream sends; a command that needs sleeping groups or the shared units wakes them where that is
admitted; a group, or the module, that wakes reaches its state and is counted, and cores that a CORES reset met asleep reinitialise then
(R451); S3 is entered once no stream sends and no SECURE_CANCEL waits, and costs the SRAM its bytes; a command that it does not serve
leaves it.
The model's choices it rests on: log entries 78, 80, 81 and 125. -/
def Obligations.GroupRows : Prop :=
  ∀ (s : State) (g : Nat), g < 16 →
    let p := s.groupPower g
    (p.waking = none → p.request ≠ some .s2 → s.groupInUse g = false → s.power.sleep = .awake → s.power.phase = .ready →
        s.power.failed = false →
        (p.state = .s0 → p.light ≠ 0 → exec (.autoLightTimeout g) s
          = .next (({ s with now := max s.now (p.idleSince + p.light) }).setGroup g { p with request := some .s1 }))
        ∧ (p.state ≠ .s2 → p.deep ≠ 0 → exec (.autoDeepTimeout g) s
          = .next ((({ s with now := max s.now (p.idleSince + 1000 * p.deep) }).setGroup g
            { p with request := some .s2 }).stopForPower [g])))
    ∧ (p.waking = none → s.atBoundary g = true → (s.power.sleep = .awake ∨ s.power.sleep = .entering) →
        let enter (t : State) : State := ({ t with power := { t.power with sharedS2 := t.allDeep, linksS2 := t.allDeep } } : State).powerMove
        (∀ x, x ≠ .s2 → p.request = some x →
          exec (.groupStateEntry g) s = .next (enter (s.setGroup g { p with state := x, request := none })))
        ∧ (p.request = some .s2 →
          let u := s.stopForPower [g]
          (u.outputRuns = true → exec (.groupStateEntry g) s = .next u)
          ∧ (u.outputRuns = false → exec (.groupStateEntry g) s
              = .next (enter ((u.setGroup g { p with state := .s2, request := none }).mapGroup g Core.loseWork)))))
    ∧ (s.power.sleep = .waking → exec (.wakeComplete g) s
        = .next ((({ s with power := { s.power with sleep := .awake } }).count 0x0707 1).powerMove))
    ∧ (∀ x, p.waking = some x → s.power.sleep ≠ .waking →
        let t := (s.setGroup g { p with state := x, waking := none }).count (if p.state = .s1 then 0x0705 else 0x0706) 1
        exec (.wakeComplete g) s
          = .next ((t.reinitGroup g).sharedFollow.touchGroups [g]).powerMove
          ∧ (s.power.reinit.contains g = false → t.reinitGroup g = t)
          ∧ (s.power.reinit.contains g = true → t.reinitGroup g
              = ({ t with power := { t.power with reinit := s.power.reinit.filter (fun y => y ≠ g) } } : State).mapGroup g Core.reinit))
    ∧ (∀ n tag c, s.cmd n tag = some c →
        let wait : State := if c.waited then s else (s.setCmd { c with waited := true }).raiseAttn attnPower
        (s.wakesShared c = true →
          (padm2 s.linksUp s.groupStates ≤ 2 * s.setting 0x1000 → exec (.wakeOnDemand n tag) s
            = .next { s with power := { s.power with sharedS2 := false, linksS2 := false, lastData := s.now } })
          ∧ (2 * s.setting 0x1000 < padm2 s.linksUp s.groupStates → exec (.wakeOnDemand n tag) s = .next wait))
        ∧ (s.wakesShared c = false →
          let gs := s.wakeGroups c
          (gs = [] → exec (.wakeOnDemand n tag) s = .next s)
          ∧ (gs ≠ [] → s.admits (gs.foldl (fun a h => a.set h .s0) s.groupStates) = true → exec (.wakeOnDemand n tag) s
              = .next (gs.foldl (fun (a : State) h => a.setGroup h { a.groupPower h with waking := some .s0 }) s))
          ∧ (gs ≠ [] → s.admits (gs.foldl (fun a h => a.set h .s0) s.groupStates) = false →
              exec (.wakeOnDemand n tag) s = .next wait)))
    ∧ (s.allDeep = true → (s.power.sharedS2 = false ∨ s.power.linksS2 = false) → s.sharedBusy = false → exec .linkS2IdleTimeout s = .next
        { s with now := max s.now (s.power.lastData + 10000), power := { s.power with sharedS2 := true, linksS2 := true } })
    ∧ (∀ c, let q := s.powerMove
        q.cmds.find? (fun c => c.running && (match c.body with | .power t _ => decide (t = 3) | _ => false)) = some c →
        let t := (q.stopForPower (List.range 16)).cancelFilling
        ((t.outputRuns = true ∨ t.cancelQueued = true) → exec .s3Entry s = .next t)
        ∧ (t.outputRuns = false → t.cancelQueued = false →
          let u := (t.lastKeepalives 1).stopLinks.loseAsleep.housed
          exec .s3Entry s = .next ((u.completeGeneric c .complete 0 0 0).powerMove)
            ∧ u.power.sleep = .housed ∧ (∀ x ∈ u.power.groups, x.state = .s2) ∧ u.tensors = (t.lastKeepalives 1).stopLinks.tensors
            ∧ ∀ a < sramEnd, memGet u.mem a = 0))
    ∧ ((∃ c ∈ s.cmds, c.acked = true ∧ s.asleepOk c = false) → exec .moduleWake s = .next s.wakeModule)
    ∧ ((∀ c ∈ s.cmds, c.acked = true → s.asleepOk c = true) → exec .moduleWake s = .next s)

/-- R433 to R435, R443, R444, R480, R207 to R211: the loops: a power sample joins the average, which above 102 % of CAP_W takes the next
action of the cap loop and below CAP_W undoes the last. A temperature sample trips the module at 115 °C, from RESET_N release on; at 105
°C on a core every core is limited to 400 MHz until all read THERM_THROTTLE_C − 2 °C or less; a group's ceiling falls by 25 MHz per
sample from THERM_THROTTLE_C until its hottest core reads 2 °C less, to no lower than 400 MHz, and rises by 25 MHz to its end at
CORE_FMAX_MHZ; the time under a ceiling is counted. A core's loop moves its frequency by 25 MHz or its voltage by 5 mV towards the
lowest ceiling, voltage first on the way up and frequency first on the way down, and retires a core that cannot hold 400 MHz. Advice and
the inlet are taken over; at a stint's end its grants are counted, the committed settings act, the average of its power samples is
POWER_W, and what waited goes on. The grants of an instance never exceed its capacity, nor a class's ceiling, or its floor where that is
higher, nor what it wants; those of priority 1 never exceed its floor; without lending none is borrowed.
The model's choices it rests on: log entries 12, 82, 83, 84, 88, 113, 139 and 140. -/
def Obligations.LoopRows : Prop :=
  ∀ s : State,
    (∀ w, s.power.phase ≠ .off →
        let xs := (w :: s.power.samples).take 100
        let sum := xs.foldl (· + ·) 0
        let cap := s.setting 0x1000
        let t := ({ s with power := { s.power with
          samples := xs, stintDrawn := (s.power.stintDrawn.1 + w, s.power.stintDrawn.2 + 1),
          energy := s.power.energy + 10 * w } } : State).lookAtCap
        let done (u : State) : State := u.count 0x0702 (if u.power.holdClusters ∨ u.power.withhold then 10 else 0)
        (102 * cap * xs.length < 100 * sum → exec (.powerSample w) s = .next (done t.capDown.throttle))
        ∧ (sum < cap * xs.length → exec (.powerSample w) s = .next (done t.capUp))
        ∧ (cap * xs.length ≤ sum → 100 * sum ≤ 102 * cap * xs.length → exec (.powerSample w) s = .next (done t)))
    ∧ (∀ ts, s.power.phase ≠ .off →
        let u := (s.sense ts).lookAtInlet.hotLimit
        let v := (List.range 16).foldl State.thermalGroup u
        (s.clocked = false → exec (.tempSample ts) s = .next (s.sense ts))
        ∧ (s.clocked = true → (∃ x ∈ u.sensors, 115 ≤ x) → exec (.tempSample ts) s = .next u.thermalTrip
            ∧ u.thermalTrip.power.failed = true ∧ u.thermalTrip.power.tripLow = true ∧ u.thermalTrip.power.phase = .ready
            ∧ u.thermalTrip.cmds = [])
        ∧ (s.clocked = true → (∀ x ∈ u.sensors, x < 115) → exec (.tempSample ts) s
            = .next (v.count 0x0703 (if v.power.groups.any (fun g => decide (g.thermal < s.setting 0x1001)) then 100 else 0))))
    ∧ (s.clocked = true ↔ s.power.failed = false ∧ (s.power.phase = .boot ∨ s.power.phase = .ready))
    ∧ (let thr : Int := (s.setting 0x1002 : Nat)
       ((∃ x ∈ s.health.coreTemps, 105 ≤ x) → s.hotLimit.power.hot = true)
       ∧ ((∀ x ∈ s.health.coreTemps, x < 105) → (∀ x ∈ s.health.coreTemps, x ≤ thr - 2) → s.hotLimit.power.hot = false)
       ∧ ((∀ x ∈ s.health.coreTemps, x < 105) → (∃ x ∈ s.health.coreTemps, thr - 2 < x) → s.hotLimit = s)
       ∧ ∀ g, g < 16 → s.power.groups.length = 16 →
          let p := s.groupPower g
          let top := s.setting 0x1001
          let low := thr ≤ s.hottest g ∨ (p.lowering = true ∧ thr - 2 < s.hottest g)
          (s.power.hot = true → (s.thermalGroup g).groupPower g = { p with thermal := 400, lowering := true })
          ∧ (s.power.hot = false → low → (s.thermalGroup g).groupPower g
              = { p with thermal := max 400 (min p.thermal top - 25), lowering := true })
          ∧ (s.power.hot = false → ¬low → (s.thermalGroup g).groupPower g
              = { p with thermal := if p.thermal < 1300 then (if top ≤ p.thermal + 25 then 1300 else p.thermal + 25) else p.thermal
                         lowering := false })
          ∧ ∀ h, h ≠ g → (s.thermalGroup g).groupPower h = s.groupPower h)
    ∧ (∀ core, core < 144 → (s.groupPower (core / 9)).state = .s0 → s.power.failed = false →
        let goal := min (s.setting 0x1001) (min s.power.capCeiling (s.groupPower (core / 9)).thermal)
        let f := s.power.coreMhz.getD core 400
        let v := s.power.coreMv.getD core Config.startMv
        let a := s.freeNat
        let need := a.2.freeNat
        let next := need.2.freeNat
        let t := next.2.count 0x0704 a.1
        let goes (x y : Nat) : Prop := exec (.vfLoopStep core) s
          = .next { t with power := { t.power with coreMhz := t.power.coreMhz.set core x, coreMv := t.power.coreMv.set core y } }
        (goal < f → goes (max goal (f - 25)) v)
        ∧ (f ≤ goal → v < need.1 →
            (v + 5 ≤ Config.topMv → goes f (v + 5))
            ∧ (Config.topMv < v + 5 → 400 < f → goes (max 400 (f - 25)) v)
            ∧ (Config.topMv < v + 5 → f ≤ 400 → exec (.vfLoopStep core) s = .next (t.coreFault core)))
        ∧ (f < goal → need.1 ≤ v →
            (next.1 ≤ v → goes (min goal (f + 25)) v)
            ∧ (v < next.1 → v + 5 ≤ Config.topMv → goes f (v + 5))
            ∧ (v < next.1 → Config.topMv < v + 5 → goes f v))
        ∧ (f = goal → need.1 ≤ v → goes f (if need.1 + 5 ≤ v then v - 5 else v)))
    ∧ (∀ xs, ∃ t, exec (.thermalPlacement xs) s = .next t ∧ t.power.groups.length = s.power.groups.length
        ∧ ∀ g (p : GroupPower), s.power.groups[g]? = some p → t.power.groups[g]? = some { p with advice := min 2 (xs.getD g p.advice) })
    ∧ (∀ c, let above := decide ((4500 : Int) - ((s.setting 0x1000 - 600 : Nat) : Int) < 90 * c)
        let t : State := { s with health := { s.health with inlet := c }, power := { s.power with inletHigh := above } }
        exec (.inletExcursion c) s = .next (if above && !s.power.inletHigh then t.raiseAttn attnPower else t))
    ∧ (let end_ := max s.now (s.stintStart + assocGet 100 s.stintSettings 0x2100)
       let t := ({ s with now := end_ } : State).settleStint
       let u : State := { t with stintStart := end_, stintSettings := s.committedStint, power := { t.power with
         stintDrawn := (0, 0),
         stintWatts := if t.power.stintDrawn.2 = 0 then t.power.stintWatts else t.power.stintDrawn.1 / t.power.stintDrawn.2 } }
       let v := u.redrawHold.drainFlits.drainFrames
       exec .stintBoundary s = .next (v.power.buffered.foldl State.offerBulk { v with power := { v.power with buffered := [] } })
         ∧ (u.power.holdClusters = false → u.redrawHold = u)
         ∧ (u.power.holdClusters = true → u.redrawHold.power.holdUs ≤ u.stintActing 0x2100)
         ∧ t.now = end_
         ∧ t.power.atCeiling = [] ∧ t.power.retrained = [] ∧ t.power.buffered = s.power.buffered)
    ∧ (∀ kind cap (want : List Nat), want.length = 7 →
        let g := s.grants kind cap want
        g.first.foldl (· + ·) 0 + g.second.foldl (· + ·) 0 ≤ cap
        ∧ (∀ c < 7, g.first.getD c 0 ≤ s.floorOf kind c ∧ g.first.getD c 0 + g.second.getD c 0 ≤ want.getD c 0
          ∧ g.first.getD c 0 + g.second.getD c 0 ≤ max (s.floorOf kind c) (s.ceilingOf kind c))
        ∧ (s.stintActing 0x2101 = 0 → ∀ x ∈ g.borrowed, x = 0))

/-- R180 to R183, R268, R448, R454, R457 to R463: health: a hard fault of a mapped core retires its physical core and calls on the
group's spare, or loses the core, the lower of two that fault at one moment coming first (R460); the spare that passes its test takes
over; a REPAIR moves a core between two operators, where the cap admits its group's wake, or a Tinker between Tinker commands; a unit's
rating and proposal; once a period is over, the idle spares are tested and the powered units rated, scrubs poison what they find
uncorrectable and count what they corrected; a package retrains once in a stint; a Tinker or package that fails is out of service.
The model's choices it rests on: log entries 88, 89, 90, 113, 116 and 127. -/
def Obligations.HealthRows : Prop :=
  ∀ s : State,
    (∀ core phys, s.health.map.getD core none = some phys →
        let again := core ∈ s.health.takeover
        let t (k : Nat) : State := ((((s.faultOps core).retireCore (core / 9) k).forgetWear core).raiseFault core).spareEvent
        (again → exec (.coreHardFault core) s = .next (((t 9).takeSpare (core / 9)).loseCore core))
        ∧ (¬again →
          let u := t phys
          let call (v : State) : State := { v with health := { v.health with
            takeover := v.health.takeover ++ [core], calledAt := assocPut v.health.calledAt (core / 9) s.now } }
          (u.health.spareFree.getD (core / 9) false = false → exec (.coreHardFault core) s = .next (u.loseCore core))
          ∧ (u.health.spareFree.getD (core / 9) false = true →
              (u.callerOf (core / 9) = none → exec (.coreHardFault core) s = .next (call u))
              ∧ (∀ d, u.callerOf (core / 9) = some d → core < d → assocGet 0 u.health.calledAt (core / 9) = s.now →
                  exec (.coreHardFault core) s = .next (call (u.loseCore d)))
              ∧ (∀ d, u.callerOf (core / 9) = some d → (d ≤ core ∨ assocGet 0 u.health.calledAt (core / 9) ≠ s.now) →
                  exec (.coreHardFault core) s = .next (u.loseCore core)))))
    ∧ (∀ core, s.health.map.getD core none = none → exec (.coreHardFault core) s = .next s)
    ∧ (∀ core, core ∈ s.health.takeover → s.admits s.groupStates = true →
        exec (.spareTakeover core true) s
          = .next (((s.setCore core (s.core core).loseWork).toSpare core).endRepairs core .complete)
        ∧ exec (.spareTakeover core false) s
          = .next ((((s.retireCore (core / 9) 9).takeSpare (core / 9)).spareEvent).loseCore core))
    ∧ (∀ core c, s.cmds.find? (fun d => d.acked && decide (d.body = .repair core)) = some c → s.mayStart c = true →
        (core < 144 → core ∉ s.health.takeover →
          ((s.lost core = true ∨ s.spareReady core = false) → ∀ ok, exec (.repairSwitch core ok) s
            = .next ((s.startCmd c).completeGeneric c .sparesExhausted 0 0 0))
          ∧ (s.lost core = false → s.spareReady core = true → s.groupUp (core / 9) = true → (s.core core).cur = none →
              s.admits s.groupStates = true →
            exec (.repairSwitch core true) s
              = .next (((((s.startCmd c).retireCore (core / 9) ((s.health.map.getD core none).getD 0)).toSpare core).spareEvent.count
                  0x0741 1).completeGeneric c .complete 0 0 0)
            ∧ exec (.repairSwitch core false) s
              = .next ((((((s.startCmd c).retireCore (core / 9) 9).takeSpare (core / 9)).count
                  0x0747 1).spareEvent).completeGeneric c .sparesExhausted 0 0x41 0)))
        ∧ (144 ≤ core → s.health.tinkerRetired.getD (core % 4096) true = false →
            s.health.tinkerRetired.getD (neighbour (core % 4096)) true = false → s.tinkerIdle (core % 4096) = true → ∀ ok,
            exec (.repairSwitch core ok) s = .next ((((s.startCmd c).retireTinker (core % 4096)).count
              0x0741 1).completeGeneric c .complete 0 0 0)))
    ∧ (∀ g ok,
        let due := assocGet 0 s.health.tested g + 24 * 3600000000
        let t : State := { s with health := { s.health with tested := assocPut s.health.tested g s.now } }
        (s.now < due ∨ s.spareReady (9 * g) = false → exec (.spareSelfTest g ok) s = .next s)
        ∧ (s.spareReady (9 * g) = true → due ≤ s.now → exec (.spareSelfTest g true) s = .next t
          ∧ exec (.spareSelfTest g false) s = .next ((((t.retireCore g 9).takeSpare g).count 0x0747 1).spareEvent)))
    ∧ (∀ xs, (s.now < s.health.rated + 60000000 → exec (.wearEvaluation xs) s = .next s)
        ∧ (s.health.rated + 60000000 ≤ s.now → exec (.wearEvaluation xs) s
          = .next ((xs.filter (fun x => s.unitPowered x.1)).foldl (fun t x => t.rate x.1 x.2)
              ({ s with health := { s.health with rated := s.now } } : State))))
    ∧ (∀ u w,
        let t : State := { s with health := { s.health with wear := assocPut s.health.wear u (min 255 w) } }
        (s.unitRetired u = true → s.rate u w = s)
        ∧ (s.unitRetired u = false → 80 ≤ w → u ∉ s.health.proposals → s.rate u w
            = ({ t with health := { t.health with proposals := t.health.proposals ++ [u] } } : State).spareEvent)
        ∧ (s.unitRetired u = false → w < 75 → u ∈ s.health.proposals → s.rate u w
            = { t with health := { t.health with proposals := t.health.proposals.filter (fun x => x ≠ u) } })
        ∧ (s.unitRetired u = false → 75 ≤ w → w < 80 → s.rate u w = t))
    ∧ (∀ fixed bad banks,
        (s.now < s.health.scrubbed + s.setting 0x3100 * 3600000000 → exec (.scrubPass fixed bad banks) s = .next s)
        ∧ (s.health.scrubbed + s.setting 0x3100 * 3600000000 ≤ s.now → s.mayMove .maint [(false, 0, sramEnd)] = false →
            exec (.scrubPass fixed bad banks) s = .next (s.waitAt .maint [(false, 0, sramEnd)]))
        ∧ (s.health.scrubbed + s.setting 0x3100 * 3600000000 ≤ s.now → s.mayMove .maint [(false, 0, sramEnd)] = true →
            ∃ t, exec (.scrubPass fixed bad banks) s = .next t
            ∧ t.mem = s.mem ∧ t.health.scrubbed = s.now ∧ t.ctr 0x0300 = s.ctr 0x0300 + BitVec.ofNat 64 (fixed.countP (· < sramEnd))
            ∧ ∀ a ∈ bad, a < sramEnd → a / 8 * 8 ∈ t.poison))
    ∧ (∀ fixed bad,
        (s.now < s.health.patrolled + s.setting 0x3101 * 3600000000 → exec (.patrolScrub fixed bad) s = .next s)
        ∧ (s.health.patrolled + s.setting 0x3101 * 3600000000 ≤ s.now → s.mayMove .maint [(false, lpddrBase, lpddrEnd - lpddrBase)] = false →
            exec (.patrolScrub fixed bad) s = .next (s.waitAt .maint [(false, lpddrBase, lpddrEnd - lpddrBase)]))
        ∧ (s.health.patrolled + s.setting 0x3101 * 3600000000 ≤ s.now → s.mayMove .maint [(false, lpddrBase, lpddrEnd - lpddrBase)] = true →
            ∃ t, exec (.patrolScrub fixed bad) s = .next t
            ∧ t.mem = s.mem ∧ t.health.patrolled = s.now
            ∧ t.ctr 0x0302 = s.ctr 0x0302 + BitVec.ofNat 64 (fixed.countP (fun a => decide (lpddrBase ≤ a) && decide (a < lpddrEnd)))
            ∧ ∀ a ∈ bad, lpddrBase ≤ a → a < lpddrEnd → a / 64 * 64 ∈ t.poison ∧ lpddrRowOf (a / 64 * 64) ∈ t.health.lpddrMarks))
    ∧ (∀ k, k < 8 →
        ((∃ x ∈ s.power.retrained, x.1 = k) → exec (.lpddrRetrain k) s = .next s)
        ∧ ((∀ x ∈ s.power.retrained, x.1 ≠ k) → ∃ n, 0 < n ∧ n ≤ 307200 ∧ exec (.lpddrRetrain k) s
            = .next (({ s with free := s.free + 1, power := { s.power with retrained := assocPut s.power.retrained k n } } : State).count
                0x0306 1)))
    ∧ (∀ k, k < 8 → k ∉ s.health.failedPackages → ∃ t, exec (.lpddrControllerFault k) s = .next t
        ∧ k ∈ t.health.failedPackages ∧ t.attention.attn &&& attnFault ≠ 0)
    ∧ (∀ k, (8 ≤ k ∨ k ∈ s.health.failedPackages) → exec (.lpddrControllerFault k) s = .next s)
    ∧ (∀ k, k < 4 → s.health.tinkerRetired.getD k true = false →
        exec (.tinkerHardFault k) s = .next ((s.raiseFault (2 * 4096 + k)).retireTinker k))

/-! ## Numbers and hops -/

/-- R18, for LNS8, LNS12, LNS16 and LNS24: every code is a zero, an infinity, a NaN or a finite value by its log field, with the sign of
its sign bit; the NaN code is NaN whatever the sign bit holds, and a NaN is written with s = 0. -/
def Obligations.LnsCodes : Prop :=
  ∀ sh ∈ [shape8, shape12, shape16, shape24], ∀ c, c < 2 ^ (sh.w + 1) →
    let neg := decide (2 ^ sh.w ≤ c)
    let u : Nat := c % 2 ^ sh.w
    let half : Nat := 2 ^ (sh.w - 1)
    (u = half → lnsDecode sh c = .zero neg) ∧ (u = half - 1 → lnsDecode sh c = .inf neg) ∧ (u = half - 2 → lnsDecode sh c = .nan)
      ∧ (u < half - 2 → lnsDecode sh c = .fin neg ((u : Int) * 2 ^ (16 - sh.f)))
      ∧ (half < u → lnsDecode sh c = .fin neg (((u : Int) - 2 ^ sh.w) * 2 ^ (16 - sh.f)))
      ∧ (lnsEncode sh .nan).code = half - 2

/-- R28: every code of a narrower LNS format, written in a wider one, gives a code that reads as the same value with the same sign, with
nothing raised and nothing flushed, except that a NaN is written with s = 0. -/
def Obligations.LnsWidening : Prop :=
  let formats := [shape8, shape12, shape16, shape24]
  ∀ narrow ∈ formats, ∀ wide ∈ formats, narrow.w < wide.w → ∀ c, c < 2 ^ (narrow.w + 1) →
    let e := lnsEncode wide (lnsDecode narrow c)
    e.code < 2 ^ (wide.w + 1) ∧ e.flags = 0 ∧ e.flushed = false ∧ lnsDecode wide e.code = lnsDecode narrow c
      ∧ (lnsDecode narrow c = .nan → e.code = 2 ^ (wide.w - 1) - 2)
      ∧ (lnsDecode narrow c ≠ .nan → (2 ^ wide.w ≤ e.code ↔ 2 ^ narrow.w ≤ c))

/-- A value of the log number system is this real number, or infinite; a NaN is none. -/
def isReal (v : LVal) (x : EReal) : Prop :=
  match v with
  | .zero _ => x = 0
  | .inf neg => x = if neg then ⊥ else ⊤
  | .nan => False
  | .fin neg lg => x = (((if neg then -1 else 1) * (2 : ℝ) ^ ((lg : ℝ) / 2 ^ 16) : ℝ) : EReal)

/-- R20 and R21, for the comparisons, MAX and MIN of the Eight on any two values: LT, LE, EQ, NE, GT and GE order by real value, with -Inf
below and +Inf above every finite value and both zeros equal, and raise nothing; MAX and MIN take the total order that puts -0 below +0. With
a NaN operand NE holds and no other comparison does, MAX and MIN give NaN, and NAN_IN alone is raised. -/
def Obligations.OrderOfValues : Prop :=
  ∀ (a b : LVal) (c : Seat) (n : Int) (f : Fmt),
    let run (op : EOp) : Seat × FlagWord := eightOp op (.val a) (.val b) c n f
    ((a = .nan ∨ b = .nan) → (∀ k, run (.cmp k) = (.pred (k == .ne), flagNanIn))
        ∧ run .max = (.val .nan, flagNanIn) ∧ run .min = (.val .nan, flagNanIn))
    ∧ ∀ x y : EReal, isReal a x → isReal b y →
        (∀ k, ∃ r, run (.cmp k) = (.pred r, 0) ∧ (r = true ↔ match k with
          | .lt => x < y
          | .le => x ≤ y
          | .eq => x = y
          | .ne => x ≠ y
          | .gt => y < x
          | .ge => y ≤ x))
        ∧ (x < y → run .max = (.val b, 0) ∧ run .min = (.val a, 0))
        ∧ (y < x → run .max = (.val a, 0) ∧ run .min = (.val b, 0))
        ∧ (a = b → run .max = (.val a, 0) ∧ run .min = (.val a, 0))
        ∧ (∀ m, a = .zero m → b = .zero (!m) → run .max = (.val (.zero false), 0) ∧ run .min = (.val (.zero true), 0))
        ∧ (x = y → a = b ∨ ∃ m, a = .zero m ∧ b = .zero (!m))

/-- R288: a flit of this device to another leaves with HOPS 1; one it forwards leaves with HOPS one higher, and one whose HOPS is 15 is
dropped and counted in ROUTE_HOP_DROPS, with nothing else changed, so that no flit crosses more than 15 links.
The model's choices it rests on: log entry 21. -/
def Obligations.FlitHops : Prop :=
  (∀ (s : State) (dest tc crew cid : Nat) (bs : List Byte) (poison : List Nat), s.devAddr ≠ some dest →
    ∃ f : Flit, s.sendFlit dest tc crew cid bs poison = s.route f ∧ f.hops = 1 ∧ f.dest = dest ∧ f.tc = tc ∧ f.cid = cid)
  ∧ ∀ (s : State) (f : Flit),
    (f.hops < 15 → ∃ vc, s.forward f = s.route { f with hops := f.hops + 1, vc := vc } ∧ (vc = f.vc ∨ vc = 1))
      ∧ (15 ≤ f.hops → s.forward f = s.count 0x0508 1)
end

