-- ==== Sys2Proof/Laws/Bytes.lean ====
section
/-!
SUPPORT. Byte strings: what a field of a written number reads as, and what the bytes written into MBX_IN leave there.
-/
namespace Sys2Proof.Machine

/-- A number that fits reads back. -/
theorem leNat_leBytes (n x : Nat) (h : x < 256 ^ n) : leNat (leBytes n x) = x := by
  induction n generalizing x with
  | zero => simp at h; subst h; rfl
  | succ n ih =>
    have : x / 256 < 256 ^ n := by rw [Nat.div_lt_iff_lt_mul (by omega)]; rw [pow_succ] at h; exact h
    simp only [leBytes, leNat, ih _ this, BitVec.toNat_ofNat]
    omega

@[simp] theorem leBytes_length (n x : Nat) : (leBytes n x).length = n := by
  induction n generalizing x <;> simp_all [leBytes]

/-- A field behind some bytes. -/
theorem fld_skip (a b : List Byte) (i n : Nat) (h : a.length ≤ i) : fld (a ++ b) i n = fld b (i - a.length) n := by
  unfold fld; rw [List.drop_append, List.drop_eq_nil_of_le h]; simp

/-- A field that is written first. -/
theorem fld_first (m x n k : Nat) (b : List Byte) (h : m = n) (hk : k = 0) (hx : x < 256 ^ n) :
    fld (leBytes m x ++ b) k n = x := by
  subst h hk; unfold fld; simp [leNat_leBytes _ _ hx]

/-! ## MBX_IN -/

theorem setByte_get (m : List Byte) (i : Nat) (b : Byte) : (setByte m i b)[i]? = some b := by
  unfold setByte; rw [List.getElem?_set_self]; simp; omega

theorem setByte_lt (m : List Byte) (i : Nat) (b : Byte) : i < (setByte m i b).length := by
  unfold setByte; simp; omega

theorem setByte_get_other (m : List Byte) (i j : Nat) (b : Byte) (h : j ≠ i) (hj : j < m.length) :
    (setByte m i b)[j]? = m[j]? := by
  unfold setByte; rw [List.getElem?_set_ne (Ne.symm h), List.getElem?_append_left hj]

theorem setByte_grows (m : List Byte) (i : Nat) (b : Byte) : m.length ≤ (setByte m i b).length := by
  unfold setByte; simp

/-- Bytes before those written stay. -/
theorem writeIn_before (bs : List Byte) : ∀ (a : Nat) (m : List Byte) (j : Nat), 0x1000 ≤ a → j + 0x1000 < a → j < m.length →
    (writeIn a bs m)[j]? = m[j]? := by
  induction bs with
  | nil => intro a m j _ _ _; rfl
  | cons b bs ih =>
    intro a m j h1 h2 h3
    unfold writeIn
    have hj : j + 0x1000 < a + 1 := by omega
    have hn : j ≠ a - 0x1000 := by omega
    split
    · rw [ih (a + 1) _ j (by omega) hj (Nat.lt_of_lt_of_le h3 (setByte_grows _ _ _)), setByte_get_other _ _ _ _ hn h3]
    · rw [ih (a + 1) _ j (by omega) hj h3]

/-- The bytes written are there. -/
theorem writeIn_get (bs : List Byte) : ∀ (a : Nat) (m : List Byte) (k : Nat), 0x1000 ≤ a → a + bs.length ≤ 0x2000 →
    k < bs.length → (writeIn a bs m)[a - 0x1000 + k]? = bs[k]? := by
  induction bs with
  | nil => intro a m k _ _ h; simp at h
  | cons b bs ih =>
    intro a m k h1 h2 h3
    rw [List.length_cons] at h2 h3
    unfold writeIn
    rw [if_pos (by omega)]
    cases k with
    | zero =>
      have e := writeIn_before bs (a + 1) (setByte m (a - 0x1000) b) (a - 0x1000) (by omega) (by omega) (setByte_lt _ _ _)
      have z : a - 0x1000 + 0 = a - 0x1000 := by omega
      rw [z, e, setByte_get]
      rfl
    | succ k =>
      have hk := ih (a + 1) (setByte m (a - 0x1000) b) k (by omega) (by omega) (by omega)
      have e : a - 0x1000 + (k + 1) = a + 1 - 0x1000 + k := by omega
      rw [e, hk]; rfl

end Sys2Proof.Machine
end

