-- ==== Sys2Proof/Laws/State.lean ====
section
/-!
SUPPORT. What each shared operation over the state leaves as it was, field by field.
-/
namespace Sys2Proof.Machine

variable (s : State)

/-! ## State.setSource -/

@[simp] theorem State.setSource_pending (x : Source) : (State.setSource s x).pending = s.pending := rfl
@[simp] theorem State.setSource_now (x : Source) : (State.setSource s x).now = s.now := rfl
@[simp] theorem State.setSource_mem (x : Source) : (State.setSource s x).mem = s.mem := rfl
@[simp] theorem State.setSource_poison (x : Source) : (State.setSource s x).poison = s.poison := rfl
@[simp] theorem State.setSource_written (x : Source) : (State.setSource s x).written = s.written := rfl
@[simp] theorem State.setSource_tensors (x : Source) : (State.setSource s x).tensors = s.tensors := rfl
@[simp] theorem State.setSource_nets (x : Source) : (State.setSource s x).nets = s.nets := rfl
@[simp] theorem State.setSource_cores (x : Source) : (State.setSource s x).cores = s.cores := rfl
@[simp] theorem State.setSource_actStacks (x : Source) : (State.setSource s x).actStacks = s.actStacks := rfl
@[simp] theorem State.setSource_stampCounter (x : Source) : (State.setSource s x).stampCounter = s.stampCounter := rfl
@[simp] theorem State.setSource_cmds (x : Source) : (State.setSource s x).cmds = s.cmds := rfl
@[simp] theorem State.setSource_nextNo (x : Source) : (State.setSource s x).nextNo = s.nextNo := rfl
@[simp] theorem State.setSource_out (x : Source) : (State.setSource s x).out = s.out := rfl
@[simp] theorem State.setSource_attention (x : Source) : (State.setSource s x).attention = s.attention := rfl
@[simp] theorem State.setSource_i3c (x : Source) : (State.setSource s x).i3c = s.i3c := rfl
@[simp] theorem State.setSource_streams (x : Source) : (State.setSource s x).streams = s.streams := rfl
@[simp] theorem State.setSource_settings (x : Source) : (State.setSource s x).settings = s.settings := rfl
@[simp] theorem State.setSource_portSettings (x : Source) : (State.setSource s x).portSettings = s.portSettings := rfl
@[simp] theorem State.setSource_portQueue (x : Source) : (State.setSource s x).portQueue = s.portQueue := rfl
@[simp] theorem State.setSource_stintSettings (x : Source) : (State.setSource s x).stintSettings = s.stintSettings := rfl
@[simp] theorem State.setSource_stintStart (x : Source) : (State.setSource s x).stintStart = s.stintStart := rfl
@[simp] theorem State.setSource_ledger (x : Source) : (State.setSource s x).ledger = s.ledger := rfl
@[simp] theorem State.setSource_nextLedger (x : Source) : (State.setSource s x).nextLedger = s.nextLedger := rfl
@[simp] theorem State.setSource_commits (x : Source) : (State.setSource s x).commits = s.commits := rfl
@[simp] theorem State.setSource_trust (x : Source) : (State.setSource s x).trust = s.trust := rfl
@[simp] theorem State.setSource_programs (x : Source) : (State.setSource s x).programs = s.programs := rfl
@[simp] theorem State.setSource_freezes (x : Source) : (State.setSource s x).freezes = s.freezes := rfl
@[simp] theorem State.setSource_net9 (x : Source) : (State.setSource s x).net9 = s.net9 := rfl
@[simp] theorem State.setSource_pair (x : Source) : (State.setSource s x).pair = s.pair := rfl
@[simp] theorem State.setSource_power (x : Source) : (State.setSource s x).power = s.power := rfl
@[simp] theorem State.setSource_health (x : Source) : (State.setSource s x).health = s.health := rfl
@[simp] theorem State.setSource_ctrs (x : Source) : (State.setSource s x).ctrs = s.ctrs := rfl
@[simp] theorem State.setSource_free (x : Source) : (State.setSource s x).free = s.free := rfl

/-! ## State.unbind -/

@[simp] theorem State.unbind_pending (k : Nat) : (State.unbind s k).pending = s.pending := rfl
@[simp] theorem State.unbind_now (k : Nat) : (State.unbind s k).now = s.now := rfl
@[simp] theorem State.unbind_mem (k : Nat) : (State.unbind s k).mem = s.mem := rfl
@[simp] theorem State.unbind_poison (k : Nat) : (State.unbind s k).poison = s.poison := rfl
@[simp] theorem State.unbind_written (k : Nat) : (State.unbind s k).written = s.written := rfl
@[simp] theorem State.unbind_tensors (k : Nat) : (State.unbind s k).tensors = s.tensors := rfl
@[simp] theorem State.unbind_nets (k : Nat) : (State.unbind s k).nets = s.nets := rfl
@[simp] theorem State.unbind_cores (k : Nat) : (State.unbind s k).cores = s.cores := rfl
@[simp] theorem State.unbind_actStacks (k : Nat) : (State.unbind s k).actStacks = s.actStacks := rfl
@[simp] theorem State.unbind_stampCounter (k : Nat) : (State.unbind s k).stampCounter = s.stampCounter := rfl
@[simp] theorem State.unbind_cmds (k : Nat) : (State.unbind s k).cmds = s.cmds := rfl
@[simp] theorem State.unbind_nextNo (k : Nat) : (State.unbind s k).nextNo = s.nextNo := rfl
@[simp] theorem State.unbind_out (k : Nat) : (State.unbind s k).out = s.out := rfl
@[simp] theorem State.unbind_attention (k : Nat) : (State.unbind s k).attention = s.attention := rfl
@[simp] theorem State.unbind_i3c (k : Nat) : (State.unbind s k).i3c = s.i3c := rfl
@[simp] theorem State.unbind_streams (k : Nat) : (State.unbind s k).streams = s.streams := rfl
@[simp] theorem State.unbind_settings (k : Nat) : (State.unbind s k).settings = s.settings := rfl
@[simp] theorem State.unbind_portSettings (k : Nat) : (State.unbind s k).portSettings = s.portSettings := rfl
@[simp] theorem State.unbind_portQueue (k : Nat) : (State.unbind s k).portQueue = s.portQueue := rfl
@[simp] theorem State.unbind_stintSettings (k : Nat) : (State.unbind s k).stintSettings = s.stintSettings := rfl
@[simp] theorem State.unbind_stintStart (k : Nat) : (State.unbind s k).stintStart = s.stintStart := rfl
@[simp] theorem State.unbind_ledger (k : Nat) : (State.unbind s k).ledger = s.ledger := rfl
@[simp] theorem State.unbind_nextLedger (k : Nat) : (State.unbind s k).nextLedger = s.nextLedger := rfl
@[simp] theorem State.unbind_commits (k : Nat) : (State.unbind s k).commits = s.commits := rfl
@[simp] theorem State.unbind_trust (k : Nat) : (State.unbind s k).trust = s.trust := rfl
@[simp] theorem State.unbind_programs (k : Nat) : (State.unbind s k).programs = s.programs := rfl
@[simp] theorem State.unbind_freezes (k : Nat) : (State.unbind s k).freezes = s.freezes := rfl
@[simp] theorem State.unbind_net9 (k : Nat) : (State.unbind s k).net9 = s.net9 := rfl
@[simp] theorem State.unbind_pair (k : Nat) : (State.unbind s k).pair = s.pair := rfl
@[simp] theorem State.unbind_power (k : Nat) : (State.unbind s k).power = s.power := rfl
@[simp] theorem State.unbind_health (k : Nat) : (State.unbind s k).health = s.health := rfl
@[simp] theorem State.unbind_ctrs (k : Nat) : (State.unbind s k).ctrs = s.ctrs := rfl
@[simp] theorem State.unbind_free (k : Nat) : (State.unbind s k).free = s.free := rfl

/-! ## State.setCmd -/

@[simp] theorem State.setCmd_pending (c : Cmd) : (State.setCmd s c).pending = s.pending := rfl
@[simp] theorem State.setCmd_now (c : Cmd) : (State.setCmd s c).now = s.now := rfl
@[simp] theorem State.setCmd_mem (c : Cmd) : (State.setCmd s c).mem = s.mem := rfl
@[simp] theorem State.setCmd_poison (c : Cmd) : (State.setCmd s c).poison = s.poison := rfl
@[simp] theorem State.setCmd_written (c : Cmd) : (State.setCmd s c).written = s.written := rfl
@[simp] theorem State.setCmd_tensors (c : Cmd) : (State.setCmd s c).tensors = s.tensors := rfl
@[simp] theorem State.setCmd_nets (c : Cmd) : (State.setCmd s c).nets = s.nets := rfl
@[simp] theorem State.setCmd_cores (c : Cmd) : (State.setCmd s c).cores = s.cores := rfl
@[simp] theorem State.setCmd_actStacks (c : Cmd) : (State.setCmd s c).actStacks = s.actStacks := rfl
@[simp] theorem State.setCmd_stampCounter (c : Cmd) : (State.setCmd s c).stampCounter = s.stampCounter := rfl
@[simp] theorem State.setCmd_sources (c : Cmd) : (State.setCmd s c).sources = s.sources := rfl
@[simp] theorem State.setCmd_nextNo (c : Cmd) : (State.setCmd s c).nextNo = s.nextNo := rfl
@[simp] theorem State.setCmd_out (c : Cmd) : (State.setCmd s c).out = s.out := rfl
@[simp] theorem State.setCmd_attention (c : Cmd) : (State.setCmd s c).attention = s.attention := rfl
@[simp] theorem State.setCmd_i3c (c : Cmd) : (State.setCmd s c).i3c = s.i3c := rfl
@[simp] theorem State.setCmd_streams (c : Cmd) : (State.setCmd s c).streams = s.streams := rfl
@[simp] theorem State.setCmd_settings (c : Cmd) : (State.setCmd s c).settings = s.settings := rfl
@[simp] theorem State.setCmd_portSettings (c : Cmd) : (State.setCmd s c).portSettings = s.portSettings := rfl
@[simp] theorem State.setCmd_portQueue (c : Cmd) : (State.setCmd s c).portQueue = s.portQueue := rfl
@[simp] theorem State.setCmd_stintSettings (c : Cmd) : (State.setCmd s c).stintSettings = s.stintSettings := rfl
@[simp] theorem State.setCmd_stintStart (c : Cmd) : (State.setCmd s c).stintStart = s.stintStart := rfl
@[simp] theorem State.setCmd_ledger (c : Cmd) : (State.setCmd s c).ledger = s.ledger := rfl
@[simp] theorem State.setCmd_nextLedger (c : Cmd) : (State.setCmd s c).nextLedger = s.nextLedger := rfl
@[simp] theorem State.setCmd_commits (c : Cmd) : (State.setCmd s c).commits = s.commits := rfl
@[simp] theorem State.setCmd_trust (c : Cmd) : (State.setCmd s c).trust = s.trust := rfl
@[simp] theorem State.setCmd_programs (c : Cmd) : (State.setCmd s c).programs = s.programs := rfl
@[simp] theorem State.setCmd_freezes (c : Cmd) : (State.setCmd s c).freezes = s.freezes := rfl
@[simp] theorem State.setCmd_net9 (c : Cmd) : (State.setCmd s c).net9 = s.net9 := rfl
@[simp] theorem State.setCmd_pair (c : Cmd) : (State.setCmd s c).pair = s.pair := rfl
@[simp] theorem State.setCmd_power (c : Cmd) : (State.setCmd s c).power = s.power := rfl
@[simp] theorem State.setCmd_health (c : Cmd) : (State.setCmd s c).health = s.health := rfl
@[simp] theorem State.setCmd_ctrs (c : Cmd) : (State.setCmd s c).ctrs = s.ctrs := rfl
@[simp] theorem State.setCmd_free (c : Cmd) : (State.setCmd s c).free = s.free := rfl

/-! ## State.dropCmd -/

@[simp] theorem State.dropCmd_pending (c : Cmd) : (State.dropCmd s c).pending = s.pending := rfl
@[simp] theorem State.dropCmd_now (c : Cmd) : (State.dropCmd s c).now = s.now := rfl
@[simp] theorem State.dropCmd_mem (c : Cmd) : (State.dropCmd s c).mem = s.mem := rfl
@[simp] theorem State.dropCmd_poison (c : Cmd) : (State.dropCmd s c).poison = s.poison := rfl
@[simp] theorem State.dropCmd_written (c : Cmd) : (State.dropCmd s c).written = s.written := rfl
@[simp] theorem State.dropCmd_tensors (c : Cmd) : (State.dropCmd s c).tensors = s.tensors := rfl
@[simp] theorem State.dropCmd_nets (c : Cmd) : (State.dropCmd s c).nets = s.nets := rfl
@[simp] theorem State.dropCmd_cores (c : Cmd) : (State.dropCmd s c).cores = s.cores := rfl
@[simp] theorem State.dropCmd_actStacks (c : Cmd) : (State.dropCmd s c).actStacks = s.actStacks := rfl
@[simp] theorem State.dropCmd_stampCounter (c : Cmd) : (State.dropCmd s c).stampCounter = s.stampCounter := rfl
@[simp] theorem State.dropCmd_sources (c : Cmd) : (State.dropCmd s c).sources = s.sources := rfl
@[simp] theorem State.dropCmd_nextNo (c : Cmd) : (State.dropCmd s c).nextNo = s.nextNo := rfl
@[simp] theorem State.dropCmd_out (c : Cmd) : (State.dropCmd s c).out = s.out := rfl
@[simp] theorem State.dropCmd_attention (c : Cmd) : (State.dropCmd s c).attention = s.attention := rfl
@[simp] theorem State.dropCmd_i3c (c : Cmd) : (State.dropCmd s c).i3c = s.i3c := rfl
@[simp] theorem State.dropCmd_streams (c : Cmd) : (State.dropCmd s c).streams = s.streams := rfl
@[simp] theorem State.dropCmd_settings (c : Cmd) : (State.dropCmd s c).settings = s.settings := rfl
@[simp] theorem State.dropCmd_portSettings (c : Cmd) : (State.dropCmd s c).portSettings = s.portSettings := rfl
@[simp] theorem State.dropCmd_portQueue (c : Cmd) : (State.dropCmd s c).portQueue = s.portQueue := rfl
@[simp] theorem State.dropCmd_stintSettings (c : Cmd) : (State.dropCmd s c).stintSettings = s.stintSettings := rfl
@[simp] theorem State.dropCmd_stintStart (c : Cmd) : (State.dropCmd s c).stintStart = s.stintStart := rfl
@[simp] theorem State.dropCmd_ledger (c : Cmd) : (State.dropCmd s c).ledger = s.ledger := rfl
@[simp] theorem State.dropCmd_nextLedger (c : Cmd) : (State.dropCmd s c).nextLedger = s.nextLedger := rfl
@[simp] theorem State.dropCmd_commits (c : Cmd) : (State.dropCmd s c).commits = s.commits := rfl
@[simp] theorem State.dropCmd_trust (c : Cmd) : (State.dropCmd s c).trust = s.trust := rfl
@[simp] theorem State.dropCmd_programs (c : Cmd) : (State.dropCmd s c).programs = s.programs := rfl
@[simp] theorem State.dropCmd_freezes (c : Cmd) : (State.dropCmd s c).freezes = s.freezes := rfl
@[simp] theorem State.dropCmd_net9 (c : Cmd) : (State.dropCmd s c).net9 = s.net9 := rfl
@[simp] theorem State.dropCmd_pair (c : Cmd) : (State.dropCmd s c).pair = s.pair := rfl
@[simp] theorem State.dropCmd_power (c : Cmd) : (State.dropCmd s c).power = s.power := rfl
@[simp] theorem State.dropCmd_health (c : Cmd) : (State.dropCmd s c).health = s.health := rfl
@[simp] theorem State.dropCmd_ctrs (c : Cmd) : (State.dropCmd s c).ctrs = s.ctrs := rfl
@[simp] theorem State.dropCmd_free (c : Cmd) : (State.dropCmd s c).free = s.free := rfl

/-! ## State.addCmd -/

@[simp] theorem State.addCmd_pending (c : Cmd) : (State.addCmd s c).pending = s.pending := rfl
@[simp] theorem State.addCmd_now (c : Cmd) : (State.addCmd s c).now = s.now := rfl
@[simp] theorem State.addCmd_mem (c : Cmd) : (State.addCmd s c).mem = s.mem := rfl
@[simp] theorem State.addCmd_poison (c : Cmd) : (State.addCmd s c).poison = s.poison := rfl
@[simp] theorem State.addCmd_written (c : Cmd) : (State.addCmd s c).written = s.written := rfl
@[simp] theorem State.addCmd_tensors (c : Cmd) : (State.addCmd s c).tensors = s.tensors := rfl
@[simp] theorem State.addCmd_nets (c : Cmd) : (State.addCmd s c).nets = s.nets := rfl
@[simp] theorem State.addCmd_cores (c : Cmd) : (State.addCmd s c).cores = s.cores := rfl
@[simp] theorem State.addCmd_actStacks (c : Cmd) : (State.addCmd s c).actStacks = s.actStacks := rfl
@[simp] theorem State.addCmd_stampCounter (c : Cmd) : (State.addCmd s c).stampCounter = s.stampCounter := rfl
@[simp] theorem State.addCmd_sources (c : Cmd) : (State.addCmd s c).sources = s.sources := rfl
@[simp] theorem State.addCmd_out (c : Cmd) : (State.addCmd s c).out = s.out := rfl
@[simp] theorem State.addCmd_attention (c : Cmd) : (State.addCmd s c).attention = s.attention := rfl
@[simp] theorem State.addCmd_i3c (c : Cmd) : (State.addCmd s c).i3c = s.i3c := rfl
@[simp] theorem State.addCmd_streams (c : Cmd) : (State.addCmd s c).streams = s.streams := rfl
@[simp] theorem State.addCmd_settings (c : Cmd) : (State.addCmd s c).settings = s.settings := rfl
@[simp] theorem State.addCmd_portSettings (c : Cmd) : (State.addCmd s c).portSettings = s.portSettings := rfl
@[simp] theorem State.addCmd_portQueue (c : Cmd) : (State.addCmd s c).portQueue = s.portQueue := rfl
@[simp] theorem State.addCmd_stintSettings (c : Cmd) : (State.addCmd s c).stintSettings = s.stintSettings := rfl
@[simp] theorem State.addCmd_stintStart (c : Cmd) : (State.addCmd s c).stintStart = s.stintStart := rfl
@[simp] theorem State.addCmd_ledger (c : Cmd) : (State.addCmd s c).ledger = s.ledger := rfl
@[simp] theorem State.addCmd_nextLedger (c : Cmd) : (State.addCmd s c).nextLedger = s.nextLedger := rfl
@[simp] theorem State.addCmd_commits (c : Cmd) : (State.addCmd s c).commits = s.commits := rfl
@[simp] theorem State.addCmd_trust (c : Cmd) : (State.addCmd s c).trust = s.trust := rfl
@[simp] theorem State.addCmd_programs (c : Cmd) : (State.addCmd s c).programs = s.programs := rfl
@[simp] theorem State.addCmd_freezes (c : Cmd) : (State.addCmd s c).freezes = s.freezes := rfl
@[simp] theorem State.addCmd_net9 (c : Cmd) : (State.addCmd s c).net9 = s.net9 := rfl
@[simp] theorem State.addCmd_pair (c : Cmd) : (State.addCmd s c).pair = s.pair := rfl
@[simp] theorem State.addCmd_power (c : Cmd) : (State.addCmd s c).power = s.power := rfl
@[simp] theorem State.addCmd_health (c : Cmd) : (State.addCmd s c).health = s.health := rfl
@[simp] theorem State.addCmd_ctrs (c : Cmd) : (State.addCmd s c).ctrs = s.ctrs := rfl
@[simp] theorem State.addCmd_free (c : Cmd) : (State.addCmd s c).free = s.free := rfl

/-! ## State.poisonUnits -/

@[simp] theorem State.poisonUnits_pending (us : List Nat) : (State.poisonUnits s us).pending = s.pending := rfl
@[simp] theorem State.poisonUnits_now (us : List Nat) : (State.poisonUnits s us).now = s.now := rfl
@[simp] theorem State.poisonUnits_mem (us : List Nat) : (State.poisonUnits s us).mem = s.mem := rfl
@[simp] theorem State.poisonUnits_written (us : List Nat) : (State.poisonUnits s us).written = s.written := rfl
@[simp] theorem State.poisonUnits_tensors (us : List Nat) : (State.poisonUnits s us).tensors = s.tensors := rfl
@[simp] theorem State.poisonUnits_nets (us : List Nat) : (State.poisonUnits s us).nets = s.nets := rfl
@[simp] theorem State.poisonUnits_cores (us : List Nat) : (State.poisonUnits s us).cores = s.cores := rfl
@[simp] theorem State.poisonUnits_actStacks (us : List Nat) : (State.poisonUnits s us).actStacks = s.actStacks := rfl
@[simp] theorem State.poisonUnits_stampCounter (us : List Nat) : (State.poisonUnits s us).stampCounter = s.stampCounter := rfl
@[simp] theorem State.poisonUnits_sources (us : List Nat) : (State.poisonUnits s us).sources = s.sources := rfl
@[simp] theorem State.poisonUnits_cmds (us : List Nat) : (State.poisonUnits s us).cmds = s.cmds := rfl
@[simp] theorem State.poisonUnits_nextNo (us : List Nat) : (State.poisonUnits s us).nextNo = s.nextNo := rfl
@[simp] theorem State.poisonUnits_out (us : List Nat) : (State.poisonUnits s us).out = s.out := rfl
@[simp] theorem State.poisonUnits_attention (us : List Nat) : (State.poisonUnits s us).attention = s.attention := rfl
@[simp] theorem State.poisonUnits_i3c (us : List Nat) : (State.poisonUnits s us).i3c = s.i3c := rfl
@[simp] theorem State.poisonUnits_streams (us : List Nat) : (State.poisonUnits s us).streams = s.streams := rfl
@[simp] theorem State.poisonUnits_settings (us : List Nat) : (State.poisonUnits s us).settings = s.settings := rfl
@[simp] theorem State.poisonUnits_portSettings (us : List Nat) : (State.poisonUnits s us).portSettings = s.portSettings := rfl
@[simp] theorem State.poisonUnits_portQueue (us : List Nat) : (State.poisonUnits s us).portQueue = s.portQueue := rfl
@[simp] theorem State.poisonUnits_stintSettings (us : List Nat) : (State.poisonUnits s us).stintSettings = s.stintSettings := rfl
@[simp] theorem State.poisonUnits_stintStart (us : List Nat) : (State.poisonUnits s us).stintStart = s.stintStart := rfl
@[simp] theorem State.poisonUnits_ledger (us : List Nat) : (State.poisonUnits s us).ledger = s.ledger := rfl
@[simp] theorem State.poisonUnits_nextLedger (us : List Nat) : (State.poisonUnits s us).nextLedger = s.nextLedger := rfl
@[simp] theorem State.poisonUnits_commits (us : List Nat) : (State.poisonUnits s us).commits = s.commits := rfl
@[simp] theorem State.poisonUnits_trust (us : List Nat) : (State.poisonUnits s us).trust = s.trust := rfl
@[simp] theorem State.poisonUnits_programs (us : List Nat) : (State.poisonUnits s us).programs = s.programs := rfl
@[simp] theorem State.poisonUnits_freezes (us : List Nat) : (State.poisonUnits s us).freezes = s.freezes := rfl
@[simp] theorem State.poisonUnits_net9 (us : List Nat) : (State.poisonUnits s us).net9 = s.net9 := rfl
@[simp] theorem State.poisonUnits_pair (us : List Nat) : (State.poisonUnits s us).pair = s.pair := rfl
@[simp] theorem State.poisonUnits_power (us : List Nat) : (State.poisonUnits s us).power = s.power := rfl
@[simp] theorem State.poisonUnits_health (us : List Nat) : (State.poisonUnits s us).health = s.health := rfl
@[simp] theorem State.poisonUnits_ctrs (us : List Nat) : (State.poisonUnits s us).ctrs = s.ctrs := rfl
@[simp] theorem State.poisonUnits_free (us : List Nat) : (State.poisonUnits s us).free = s.free := rfl

/-! ## State.write -/

@[simp] theorem State.write_pending (a : Nat) (bs : List Byte) : (State.write s a bs).pending = s.pending := rfl
@[simp] theorem State.write_now (a : Nat) (bs : List Byte) : (State.write s a bs).now = s.now := rfl
@[simp] theorem State.write_tensors (a : Nat) (bs : List Byte) : (State.write s a bs).tensors = s.tensors := rfl
@[simp] theorem State.write_nets (a : Nat) (bs : List Byte) : (State.write s a bs).nets = s.nets := rfl
@[simp] theorem State.write_cores (a : Nat) (bs : List Byte) : (State.write s a bs).cores = s.cores := rfl
@[simp] theorem State.write_actStacks (a : Nat) (bs : List Byte) : (State.write s a bs).actStacks = s.actStacks := rfl
@[simp] theorem State.write_stampCounter (a : Nat) (bs : List Byte) : (State.write s a bs).stampCounter = s.stampCounter := rfl
@[simp] theorem State.write_sources (a : Nat) (bs : List Byte) : (State.write s a bs).sources = s.sources := rfl
@[simp] theorem State.write_cmds (a : Nat) (bs : List Byte) : (State.write s a bs).cmds = s.cmds := rfl
@[simp] theorem State.write_nextNo (a : Nat) (bs : List Byte) : (State.write s a bs).nextNo = s.nextNo := rfl
@[simp] theorem State.write_out (a : Nat) (bs : List Byte) : (State.write s a bs).out = s.out := rfl
@[simp] theorem State.write_attention (a : Nat) (bs : List Byte) : (State.write s a bs).attention = s.attention := rfl
@[simp] theorem State.write_i3c (a : Nat) (bs : List Byte) : (State.write s a bs).i3c = s.i3c := rfl
@[simp] theorem State.write_streams (a : Nat) (bs : List Byte) : (State.write s a bs).streams = s.streams := rfl
@[simp] theorem State.write_settings (a : Nat) (bs : List Byte) : (State.write s a bs).settings = s.settings := rfl
@[simp] theorem State.write_portSettings (a : Nat) (bs : List Byte) : (State.write s a bs).portSettings = s.portSettings := rfl
@[simp] theorem State.write_portQueue (a : Nat) (bs : List Byte) : (State.write s a bs).portQueue = s.portQueue := rfl
@[simp] theorem State.write_stintSettings (a : Nat) (bs : List Byte) : (State.write s a bs).stintSettings = s.stintSettings := rfl
@[simp] theorem State.write_stintStart (a : Nat) (bs : List Byte) : (State.write s a bs).stintStart = s.stintStart := rfl
@[simp] theorem State.write_ledger (a : Nat) (bs : List Byte) : (State.write s a bs).ledger = s.ledger := rfl
@[simp] theorem State.write_nextLedger (a : Nat) (bs : List Byte) : (State.write s a bs).nextLedger = s.nextLedger := rfl
@[simp] theorem State.write_commits (a : Nat) (bs : List Byte) : (State.write s a bs).commits = s.commits := rfl
@[simp] theorem State.write_trust (a : Nat) (bs : List Byte) : (State.write s a bs).trust = s.trust := rfl
@[simp] theorem State.write_programs (a : Nat) (bs : List Byte) : (State.write s a bs).programs = s.programs := rfl
@[simp] theorem State.write_freezes (a : Nat) (bs : List Byte) : (State.write s a bs).freezes = s.freezes := rfl
@[simp] theorem State.write_net9 (a : Nat) (bs : List Byte) : (State.write s a bs).net9 = s.net9 := rfl
@[simp] theorem State.write_pair (a : Nat) (bs : List Byte) : (State.write s a bs).pair = s.pair := rfl
@[simp] theorem State.write_power (a : Nat) (bs : List Byte) : (State.write s a bs).power = s.power := rfl
@[simp] theorem State.write_health (a : Nat) (bs : List Byte) : (State.write s a bs).health = s.health := rfl
@[simp] theorem State.write_ctrs (a : Nat) (bs : List Byte) : (State.write s a bs).ctrs = s.ctrs := rfl
@[simp] theorem State.write_free (a : Nat) (bs : List Byte) : (State.write s a bs).free = s.free := rfl

/-! ## State.setCore -/

@[simp] theorem State.setCore_pending (i : Nat) (k : Core) : (State.setCore s i k).pending = s.pending := rfl
@[simp] theorem State.setCore_now (i : Nat) (k : Core) : (State.setCore s i k).now = s.now := rfl
@[simp] theorem State.setCore_mem (i : Nat) (k : Core) : (State.setCore s i k).mem = s.mem := rfl
@[simp] theorem State.setCore_poison (i : Nat) (k : Core) : (State.setCore s i k).poison = s.poison := rfl
@[simp] theorem State.setCore_written (i : Nat) (k : Core) : (State.setCore s i k).written = s.written := rfl
@[simp] theorem State.setCore_tensors (i : Nat) (k : Core) : (State.setCore s i k).tensors = s.tensors := rfl
@[simp] theorem State.setCore_nets (i : Nat) (k : Core) : (State.setCore s i k).nets = s.nets := rfl
@[simp] theorem State.setCore_actStacks (i : Nat) (k : Core) : (State.setCore s i k).actStacks = s.actStacks := rfl
@[simp] theorem State.setCore_stampCounter (i : Nat) (k : Core) : (State.setCore s i k).stampCounter = s.stampCounter := rfl
@[simp] theorem State.setCore_sources (i : Nat) (k : Core) : (State.setCore s i k).sources = s.sources := rfl
@[simp] theorem State.setCore_cmds (i : Nat) (k : Core) : (State.setCore s i k).cmds = s.cmds := rfl
@[simp] theorem State.setCore_nextNo (i : Nat) (k : Core) : (State.setCore s i k).nextNo = s.nextNo := rfl
@[simp] theorem State.setCore_out (i : Nat) (k : Core) : (State.setCore s i k).out = s.out := rfl
@[simp] theorem State.setCore_attention (i : Nat) (k : Core) : (State.setCore s i k).attention = s.attention := rfl
@[simp] theorem State.setCore_i3c (i : Nat) (k : Core) : (State.setCore s i k).i3c = s.i3c := rfl
@[simp] theorem State.setCore_streams (i : Nat) (k : Core) : (State.setCore s i k).streams = s.streams := rfl
@[simp] theorem State.setCore_settings (i : Nat) (k : Core) : (State.setCore s i k).settings = s.settings := rfl
@[simp] theorem State.setCore_portSettings (i : Nat) (k : Core) : (State.setCore s i k).portSettings = s.portSettings := rfl
@[simp] theorem State.setCore_portQueue (i : Nat) (k : Core) : (State.setCore s i k).portQueue = s.portQueue := rfl
@[simp] theorem State.setCore_stintSettings (i : Nat) (k : Core) : (State.setCore s i k).stintSettings = s.stintSettings := rfl
@[simp] theorem State.setCore_stintStart (i : Nat) (k : Core) : (State.setCore s i k).stintStart = s.stintStart := rfl
@[simp] theorem State.setCore_ledger (i : Nat) (k : Core) : (State.setCore s i k).ledger = s.ledger := rfl
@[simp] theorem State.setCore_nextLedger (i : Nat) (k : Core) : (State.setCore s i k).nextLedger = s.nextLedger := rfl
@[simp] theorem State.setCore_commits (i : Nat) (k : Core) : (State.setCore s i k).commits = s.commits := rfl
@[simp] theorem State.setCore_trust (i : Nat) (k : Core) : (State.setCore s i k).trust = s.trust := rfl
@[simp] theorem State.setCore_programs (i : Nat) (k : Core) : (State.setCore s i k).programs = s.programs := rfl
@[simp] theorem State.setCore_freezes (i : Nat) (k : Core) : (State.setCore s i k).freezes = s.freezes := rfl
@[simp] theorem State.setCore_net9 (i : Nat) (k : Core) : (State.setCore s i k).net9 = s.net9 := rfl
@[simp] theorem State.setCore_pair (i : Nat) (k : Core) : (State.setCore s i k).pair = s.pair := rfl
@[simp] theorem State.setCore_power (i : Nat) (k : Core) : (State.setCore s i k).power = s.power := rfl
@[simp] theorem State.setCore_health (i : Nat) (k : Core) : (State.setCore s i k).health = s.health := rfl
@[simp] theorem State.setCore_ctrs (i : Nat) (k : Core) : (State.setCore s i k).ctrs = s.ctrs := rfl
@[simp] theorem State.setCore_free (i : Nat) (k : Core) : (State.setCore s i k).free = s.free := rfl

/-! ## State.setLink -/

@[simp] theorem State.setLink_pending (i : Nat) (l : Link) : (State.setLink s i l).pending = s.pending := rfl
@[simp] theorem State.setLink_now (i : Nat) (l : Link) : (State.setLink s i l).now = s.now := rfl
@[simp] theorem State.setLink_mem (i : Nat) (l : Link) : (State.setLink s i l).mem = s.mem := rfl
@[simp] theorem State.setLink_poison (i : Nat) (l : Link) : (State.setLink s i l).poison = s.poison := rfl
@[simp] theorem State.setLink_written (i : Nat) (l : Link) : (State.setLink s i l).written = s.written := rfl
@[simp] theorem State.setLink_tensors (i : Nat) (l : Link) : (State.setLink s i l).tensors = s.tensors := rfl
@[simp] theorem State.setLink_nets (i : Nat) (l : Link) : (State.setLink s i l).nets = s.nets := rfl
@[simp] theorem State.setLink_cores (i : Nat) (l : Link) : (State.setLink s i l).cores = s.cores := rfl
@[simp] theorem State.setLink_actStacks (i : Nat) (l : Link) : (State.setLink s i l).actStacks = s.actStacks := rfl
@[simp] theorem State.setLink_stampCounter (i : Nat) (l : Link) : (State.setLink s i l).stampCounter = s.stampCounter := rfl
@[simp] theorem State.setLink_sources (i : Nat) (l : Link) : (State.setLink s i l).sources = s.sources := rfl
@[simp] theorem State.setLink_cmds (i : Nat) (l : Link) : (State.setLink s i l).cmds = s.cmds := rfl
@[simp] theorem State.setLink_nextNo (i : Nat) (l : Link) : (State.setLink s i l).nextNo = s.nextNo := rfl
@[simp] theorem State.setLink_out (i : Nat) (l : Link) : (State.setLink s i l).out = s.out := rfl
@[simp] theorem State.setLink_attention (i : Nat) (l : Link) : (State.setLink s i l).attention = s.attention := rfl
@[simp] theorem State.setLink_i3c (i : Nat) (l : Link) : (State.setLink s i l).i3c = s.i3c := rfl
@[simp] theorem State.setLink_streams (i : Nat) (l : Link) : (State.setLink s i l).streams = s.streams := rfl
@[simp] theorem State.setLink_settings (i : Nat) (l : Link) : (State.setLink s i l).settings = s.settings := rfl
@[simp] theorem State.setLink_portSettings (i : Nat) (l : Link) : (State.setLink s i l).portSettings = s.portSettings := rfl
@[simp] theorem State.setLink_portQueue (i : Nat) (l : Link) : (State.setLink s i l).portQueue = s.portQueue := rfl
@[simp] theorem State.setLink_stintSettings (i : Nat) (l : Link) : (State.setLink s i l).stintSettings = s.stintSettings := rfl
@[simp] theorem State.setLink_stintStart (i : Nat) (l : Link) : (State.setLink s i l).stintStart = s.stintStart := rfl
@[simp] theorem State.setLink_ledger (i : Nat) (l : Link) : (State.setLink s i l).ledger = s.ledger := rfl
@[simp] theorem State.setLink_nextLedger (i : Nat) (l : Link) : (State.setLink s i l).nextLedger = s.nextLedger := rfl
@[simp] theorem State.setLink_commits (i : Nat) (l : Link) : (State.setLink s i l).commits = s.commits := rfl
@[simp] theorem State.setLink_trust (i : Nat) (l : Link) : (State.setLink s i l).trust = s.trust := rfl
@[simp] theorem State.setLink_programs (i : Nat) (l : Link) : (State.setLink s i l).programs = s.programs := rfl
@[simp] theorem State.setLink_freezes (i : Nat) (l : Link) : (State.setLink s i l).freezes = s.freezes := rfl
@[simp] theorem State.setLink_pair (i : Nat) (l : Link) : (State.setLink s i l).pair = s.pair := rfl
@[simp] theorem State.setLink_power (i : Nat) (l : Link) : (State.setLink s i l).power = s.power := rfl
@[simp] theorem State.setLink_health (i : Nat) (l : Link) : (State.setLink s i l).health = s.health := rfl
@[simp] theorem State.setLink_ctrs (i : Nat) (l : Link) : (State.setLink s i l).ctrs = s.ctrs := rfl
@[simp] theorem State.setLink_free (i : Nat) (l : Link) : (State.setLink s i l).free = s.free := rfl

/-! ## State.emit -/

@[simp] theorem State.emit_pending (i : Nat) (x : LinkFlit) : (State.emit s i x).pending = s.pending := rfl
@[simp] theorem State.emit_now (i : Nat) (x : LinkFlit) : (State.emit s i x).now = s.now := rfl
@[simp] theorem State.emit_mem (i : Nat) (x : LinkFlit) : (State.emit s i x).mem = s.mem := rfl
@[simp] theorem State.emit_poison (i : Nat) (x : LinkFlit) : (State.emit s i x).poison = s.poison := rfl
@[simp] theorem State.emit_written (i : Nat) (x : LinkFlit) : (State.emit s i x).written = s.written := rfl
@[simp] theorem State.emit_tensors (i : Nat) (x : LinkFlit) : (State.emit s i x).tensors = s.tensors := rfl
@[simp] theorem State.emit_nets (i : Nat) (x : LinkFlit) : (State.emit s i x).nets = s.nets := rfl
@[simp] theorem State.emit_cores (i : Nat) (x : LinkFlit) : (State.emit s i x).cores = s.cores := rfl
@[simp] theorem State.emit_actStacks (i : Nat) (x : LinkFlit) : (State.emit s i x).actStacks = s.actStacks := rfl
@[simp] theorem State.emit_stampCounter (i : Nat) (x : LinkFlit) : (State.emit s i x).stampCounter = s.stampCounter := rfl
@[simp] theorem State.emit_sources (i : Nat) (x : LinkFlit) : (State.emit s i x).sources = s.sources := rfl
@[simp] theorem State.emit_cmds (i : Nat) (x : LinkFlit) : (State.emit s i x).cmds = s.cmds := rfl
@[simp] theorem State.emit_nextNo (i : Nat) (x : LinkFlit) : (State.emit s i x).nextNo = s.nextNo := rfl
@[simp] theorem State.emit_out (i : Nat) (x : LinkFlit) : (State.emit s i x).out = s.out := rfl
@[simp] theorem State.emit_attention (i : Nat) (x : LinkFlit) : (State.emit s i x).attention = s.attention := rfl
@[simp] theorem State.emit_i3c (i : Nat) (x : LinkFlit) : (State.emit s i x).i3c = s.i3c := rfl
@[simp] theorem State.emit_streams (i : Nat) (x : LinkFlit) : (State.emit s i x).streams = s.streams := rfl
@[simp] theorem State.emit_settings (i : Nat) (x : LinkFlit) : (State.emit s i x).settings = s.settings := rfl
@[simp] theorem State.emit_portSettings (i : Nat) (x : LinkFlit) : (State.emit s i x).portSettings = s.portSettings := rfl
@[simp] theorem State.emit_portQueue (i : Nat) (x : LinkFlit) : (State.emit s i x).portQueue = s.portQueue := rfl
@[simp] theorem State.emit_stintSettings (i : Nat) (x : LinkFlit) : (State.emit s i x).stintSettings = s.stintSettings := rfl
@[simp] theorem State.emit_stintStart (i : Nat) (x : LinkFlit) : (State.emit s i x).stintStart = s.stintStart := rfl
@[simp] theorem State.emit_ledger (i : Nat) (x : LinkFlit) : (State.emit s i x).ledger = s.ledger := rfl
@[simp] theorem State.emit_nextLedger (i : Nat) (x : LinkFlit) : (State.emit s i x).nextLedger = s.nextLedger := rfl
@[simp] theorem State.emit_commits (i : Nat) (x : LinkFlit) : (State.emit s i x).commits = s.commits := rfl
@[simp] theorem State.emit_trust (i : Nat) (x : LinkFlit) : (State.emit s i x).trust = s.trust := rfl
@[simp] theorem State.emit_programs (i : Nat) (x : LinkFlit) : (State.emit s i x).programs = s.programs := rfl
@[simp] theorem State.emit_freezes (i : Nat) (x : LinkFlit) : (State.emit s i x).freezes = s.freezes := rfl
@[simp] theorem State.emit_pair (i : Nat) (x : LinkFlit) : (State.emit s i x).pair = s.pair := rfl
@[simp] theorem State.emit_power (i : Nat) (x : LinkFlit) : (State.emit s i x).power = s.power := rfl
@[simp] theorem State.emit_health (i : Nat) (x : LinkFlit) : (State.emit s i x).health = s.health := rfl
@[simp] theorem State.emit_ctrs (i : Nat) (x : LinkFlit) : (State.emit s i x).ctrs = s.ctrs := rfl
@[simp] theorem State.emit_free (i : Nat) (x : LinkFlit) : (State.emit s i x).free = s.free := rfl

/-! ## State.setGroup -/

@[simp] theorem State.setGroup_pending (g : Nat) (x : GroupPower) : (State.setGroup s g x).pending = s.pending := rfl
@[simp] theorem State.setGroup_now (g : Nat) (x : GroupPower) : (State.setGroup s g x).now = s.now := rfl
@[simp] theorem State.setGroup_mem (g : Nat) (x : GroupPower) : (State.setGroup s g x).mem = s.mem := rfl
@[simp] theorem State.setGroup_poison (g : Nat) (x : GroupPower) : (State.setGroup s g x).poison = s.poison := rfl
@[simp] theorem State.setGroup_written (g : Nat) (x : GroupPower) : (State.setGroup s g x).written = s.written := rfl
@[simp] theorem State.setGroup_tensors (g : Nat) (x : GroupPower) : (State.setGroup s g x).tensors = s.tensors := rfl
@[simp] theorem State.setGroup_nets (g : Nat) (x : GroupPower) : (State.setGroup s g x).nets = s.nets := rfl
@[simp] theorem State.setGroup_cores (g : Nat) (x : GroupPower) : (State.setGroup s g x).cores = s.cores := rfl
@[simp] theorem State.setGroup_actStacks (g : Nat) (x : GroupPower) : (State.setGroup s g x).actStacks = s.actStacks := rfl
@[simp] theorem State.setGroup_stampCounter (g : Nat) (x : GroupPower) : (State.setGroup s g x).stampCounter = s.stampCounter := rfl
@[simp] theorem State.setGroup_sources (g : Nat) (x : GroupPower) : (State.setGroup s g x).sources = s.sources := rfl
@[simp] theorem State.setGroup_cmds (g : Nat) (x : GroupPower) : (State.setGroup s g x).cmds = s.cmds := rfl
@[simp] theorem State.setGroup_nextNo (g : Nat) (x : GroupPower) : (State.setGroup s g x).nextNo = s.nextNo := rfl
@[simp] theorem State.setGroup_out (g : Nat) (x : GroupPower) : (State.setGroup s g x).out = s.out := rfl
@[simp] theorem State.setGroup_attention (g : Nat) (x : GroupPower) : (State.setGroup s g x).attention = s.attention := rfl
@[simp] theorem State.setGroup_i3c (g : Nat) (x : GroupPower) : (State.setGroup s g x).i3c = s.i3c := rfl
@[simp] theorem State.setGroup_streams (g : Nat) (x : GroupPower) : (State.setGroup s g x).streams = s.streams := rfl
@[simp] theorem State.setGroup_settings (g : Nat) (x : GroupPower) : (State.setGroup s g x).settings = s.settings := rfl
@[simp] theorem State.setGroup_portSettings (g : Nat) (x : GroupPower) : (State.setGroup s g x).portSettings = s.portSettings := rfl
@[simp] theorem State.setGroup_portQueue (g : Nat) (x : GroupPower) : (State.setGroup s g x).portQueue = s.portQueue := rfl
@[simp] theorem State.setGroup_stintSettings (g : Nat) (x : GroupPower) : (State.setGroup s g x).stintSettings = s.stintSettings := rfl
@[simp] theorem State.setGroup_stintStart (g : Nat) (x : GroupPower) : (State.setGroup s g x).stintStart = s.stintStart := rfl
@[simp] theorem State.setGroup_ledger (g : Nat) (x : GroupPower) : (State.setGroup s g x).ledger = s.ledger := rfl
@[simp] theorem State.setGroup_nextLedger (g : Nat) (x : GroupPower) : (State.setGroup s g x).nextLedger = s.nextLedger := rfl
@[simp] theorem State.setGroup_commits (g : Nat) (x : GroupPower) : (State.setGroup s g x).commits = s.commits := rfl
@[simp] theorem State.setGroup_trust (g : Nat) (x : GroupPower) : (State.setGroup s g x).trust = s.trust := rfl
@[simp] theorem State.setGroup_programs (g : Nat) (x : GroupPower) : (State.setGroup s g x).programs = s.programs := rfl
@[simp] theorem State.setGroup_freezes (g : Nat) (x : GroupPower) : (State.setGroup s g x).freezes = s.freezes := rfl
@[simp] theorem State.setGroup_net9 (g : Nat) (x : GroupPower) : (State.setGroup s g x).net9 = s.net9 := rfl
@[simp] theorem State.setGroup_pair (g : Nat) (x : GroupPower) : (State.setGroup s g x).pair = s.pair := rfl
@[simp] theorem State.setGroup_health (g : Nat) (x : GroupPower) : (State.setGroup s g x).health = s.health := rfl
@[simp] theorem State.setGroup_ctrs (g : Nat) (x : GroupPower) : (State.setGroup s g x).ctrs = s.ctrs := rfl
@[simp] theorem State.setGroup_free (g : Nat) (x : GroupPower) : (State.setGroup s g x).free = s.free := rfl

/-! ## State.setTensor -/

@[simp] theorem State.setTensor_pending (x : Tensor) : (State.setTensor s x).pending = s.pending := rfl
@[simp] theorem State.setTensor_now (x : Tensor) : (State.setTensor s x).now = s.now := rfl
@[simp] theorem State.setTensor_mem (x : Tensor) : (State.setTensor s x).mem = s.mem := rfl
@[simp] theorem State.setTensor_poison (x : Tensor) : (State.setTensor s x).poison = s.poison := rfl
@[simp] theorem State.setTensor_written (x : Tensor) : (State.setTensor s x).written = s.written := rfl
@[simp] theorem State.setTensor_nets (x : Tensor) : (State.setTensor s x).nets = s.nets := rfl
@[simp] theorem State.setTensor_cores (x : Tensor) : (State.setTensor s x).cores = s.cores := rfl
@[simp] theorem State.setTensor_actStacks (x : Tensor) : (State.setTensor s x).actStacks = s.actStacks := rfl
@[simp] theorem State.setTensor_stampCounter (x : Tensor) : (State.setTensor s x).stampCounter = s.stampCounter := rfl
@[simp] theorem State.setTensor_sources (x : Tensor) : (State.setTensor s x).sources = s.sources := rfl
@[simp] theorem State.setTensor_cmds (x : Tensor) : (State.setTensor s x).cmds = s.cmds := rfl
@[simp] theorem State.setTensor_nextNo (x : Tensor) : (State.setTensor s x).nextNo = s.nextNo := rfl
@[simp] theorem State.setTensor_out (x : Tensor) : (State.setTensor s x).out = s.out := rfl
@[simp] theorem State.setTensor_attention (x : Tensor) : (State.setTensor s x).attention = s.attention := rfl
@[simp] theorem State.setTensor_i3c (x : Tensor) : (State.setTensor s x).i3c = s.i3c := rfl
@[simp] theorem State.setTensor_streams (x : Tensor) : (State.setTensor s x).streams = s.streams := rfl
@[simp] theorem State.setTensor_settings (x : Tensor) : (State.setTensor s x).settings = s.settings := rfl
@[simp] theorem State.setTensor_portSettings (x : Tensor) : (State.setTensor s x).portSettings = s.portSettings := rfl
@[simp] theorem State.setTensor_portQueue (x : Tensor) : (State.setTensor s x).portQueue = s.portQueue := rfl
@[simp] theorem State.setTensor_stintSettings (x : Tensor) : (State.setTensor s x).stintSettings = s.stintSettings := rfl
@[simp] theorem State.setTensor_stintStart (x : Tensor) : (State.setTensor s x).stintStart = s.stintStart := rfl
@[simp] theorem State.setTensor_ledger (x : Tensor) : (State.setTensor s x).ledger = s.ledger := rfl
@[simp] theorem State.setTensor_nextLedger (x : Tensor) : (State.setTensor s x).nextLedger = s.nextLedger := rfl
@[simp] theorem State.setTensor_commits (x : Tensor) : (State.setTensor s x).commits = s.commits := rfl
@[simp] theorem State.setTensor_trust (x : Tensor) : (State.setTensor s x).trust = s.trust := rfl
@[simp] theorem State.setTensor_programs (x : Tensor) : (State.setTensor s x).programs = s.programs := rfl
@[simp] theorem State.setTensor_freezes (x : Tensor) : (State.setTensor s x).freezes = s.freezes := rfl
@[simp] theorem State.setTensor_net9 (x : Tensor) : (State.setTensor s x).net9 = s.net9 := rfl
@[simp] theorem State.setTensor_pair (x : Tensor) : (State.setTensor s x).pair = s.pair := rfl
@[simp] theorem State.setTensor_power (x : Tensor) : (State.setTensor s x).power = s.power := rfl
@[simp] theorem State.setTensor_health (x : Tensor) : (State.setTensor s x).health = s.health := rfl
@[simp] theorem State.setTensor_ctrs (x : Tensor) : (State.setTensor s x).ctrs = s.ctrs := rfl
@[simp] theorem State.setTensor_free (x : Tensor) : (State.setTensor s x).free = s.free := rfl

/-! ## State.raiseAttn -/

@[simp] theorem State.raiseAttn_pending (b : BitVec 8) : (State.raiseAttn s b).pending = s.pending := rfl
@[simp] theorem State.raiseAttn_now (b : BitVec 8) : (State.raiseAttn s b).now = s.now := rfl
@[simp] theorem State.raiseAttn_mem (b : BitVec 8) : (State.raiseAttn s b).mem = s.mem := rfl
@[simp] theorem State.raiseAttn_poison (b : BitVec 8) : (State.raiseAttn s b).poison = s.poison := rfl
@[simp] theorem State.raiseAttn_written (b : BitVec 8) : (State.raiseAttn s b).written = s.written := rfl
@[simp] theorem State.raiseAttn_tensors (b : BitVec 8) : (State.raiseAttn s b).tensors = s.tensors := rfl
@[simp] theorem State.raiseAttn_nets (b : BitVec 8) : (State.raiseAttn s b).nets = s.nets := rfl
@[simp] theorem State.raiseAttn_cores (b : BitVec 8) : (State.raiseAttn s b).cores = s.cores := rfl
@[simp] theorem State.raiseAttn_actStacks (b : BitVec 8) : (State.raiseAttn s b).actStacks = s.actStacks := rfl
@[simp] theorem State.raiseAttn_stampCounter (b : BitVec 8) : (State.raiseAttn s b).stampCounter = s.stampCounter := rfl
@[simp] theorem State.raiseAttn_sources (b : BitVec 8) : (State.raiseAttn s b).sources = s.sources := rfl
@[simp] theorem State.raiseAttn_cmds (b : BitVec 8) : (State.raiseAttn s b).cmds = s.cmds := rfl
@[simp] theorem State.raiseAttn_nextNo (b : BitVec 8) : (State.raiseAttn s b).nextNo = s.nextNo := rfl
@[simp] theorem State.raiseAttn_out (b : BitVec 8) : (State.raiseAttn s b).out = s.out := rfl
@[simp] theorem State.raiseAttn_i3c (b : BitVec 8) : (State.raiseAttn s b).i3c = s.i3c := rfl
@[simp] theorem State.raiseAttn_streams (b : BitVec 8) : (State.raiseAttn s b).streams = s.streams := rfl
@[simp] theorem State.raiseAttn_settings (b : BitVec 8) : (State.raiseAttn s b).settings = s.settings := rfl
@[simp] theorem State.raiseAttn_portSettings (b : BitVec 8) : (State.raiseAttn s b).portSettings = s.portSettings := rfl
@[simp] theorem State.raiseAttn_portQueue (b : BitVec 8) : (State.raiseAttn s b).portQueue = s.portQueue := rfl
@[simp] theorem State.raiseAttn_stintSettings (b : BitVec 8) : (State.raiseAttn s b).stintSettings = s.stintSettings := rfl
@[simp] theorem State.raiseAttn_stintStart (b : BitVec 8) : (State.raiseAttn s b).stintStart = s.stintStart := rfl
@[simp] theorem State.raiseAttn_ledger (b : BitVec 8) : (State.raiseAttn s b).ledger = s.ledger := rfl
@[simp] theorem State.raiseAttn_nextLedger (b : BitVec 8) : (State.raiseAttn s b).nextLedger = s.nextLedger := rfl
@[simp] theorem State.raiseAttn_commits (b : BitVec 8) : (State.raiseAttn s b).commits = s.commits := rfl
@[simp] theorem State.raiseAttn_trust (b : BitVec 8) : (State.raiseAttn s b).trust = s.trust := rfl
@[simp] theorem State.raiseAttn_programs (b : BitVec 8) : (State.raiseAttn s b).programs = s.programs := rfl
@[simp] theorem State.raiseAttn_freezes (b : BitVec 8) : (State.raiseAttn s b).freezes = s.freezes := rfl
@[simp] theorem State.raiseAttn_net9 (b : BitVec 8) : (State.raiseAttn s b).net9 = s.net9 := rfl
@[simp] theorem State.raiseAttn_pair (b : BitVec 8) : (State.raiseAttn s b).pair = s.pair := rfl
@[simp] theorem State.raiseAttn_power (b : BitVec 8) : (State.raiseAttn s b).power = s.power := rfl
@[simp] theorem State.raiseAttn_health (b : BitVec 8) : (State.raiseAttn s b).health = s.health := rfl
@[simp] theorem State.raiseAttn_ctrs (b : BitVec 8) : (State.raiseAttn s b).ctrs = s.ctrs := rfl
@[simp] theorem State.raiseAttn_free (b : BitVec 8) : (State.raiseAttn s b).free = s.free := rfl

/-! ## State.raiseFault -/

@[simp] theorem State.raiseFault_pending (u : Nat) : (State.raiseFault s u).pending = s.pending := rfl
@[simp] theorem State.raiseFault_now (u : Nat) : (State.raiseFault s u).now = s.now := rfl
@[simp] theorem State.raiseFault_mem (u : Nat) : (State.raiseFault s u).mem = s.mem := rfl
@[simp] theorem State.raiseFault_poison (u : Nat) : (State.raiseFault s u).poison = s.poison := rfl
@[simp] theorem State.raiseFault_written (u : Nat) : (State.raiseFault s u).written = s.written := rfl
@[simp] theorem State.raiseFault_tensors (u : Nat) : (State.raiseFault s u).tensors = s.tensors := rfl
@[simp] theorem State.raiseFault_nets (u : Nat) : (State.raiseFault s u).nets = s.nets := rfl
@[simp] theorem State.raiseFault_cores (u : Nat) : (State.raiseFault s u).cores = s.cores := rfl
@[simp] theorem State.raiseFault_actStacks (u : Nat) : (State.raiseFault s u).actStacks = s.actStacks := rfl
@[simp] theorem State.raiseFault_stampCounter (u : Nat) : (State.raiseFault s u).stampCounter = s.stampCounter := rfl
@[simp] theorem State.raiseFault_sources (u : Nat) : (State.raiseFault s u).sources = s.sources := rfl
@[simp] theorem State.raiseFault_cmds (u : Nat) : (State.raiseFault s u).cmds = s.cmds := rfl
@[simp] theorem State.raiseFault_nextNo (u : Nat) : (State.raiseFault s u).nextNo = s.nextNo := rfl
@[simp] theorem State.raiseFault_out (u : Nat) : (State.raiseFault s u).out = s.out := rfl
@[simp] theorem State.raiseFault_i3c (u : Nat) : (State.raiseFault s u).i3c = s.i3c := rfl
@[simp] theorem State.raiseFault_streams (u : Nat) : (State.raiseFault s u).streams = s.streams := rfl
@[simp] theorem State.raiseFault_settings (u : Nat) : (State.raiseFault s u).settings = s.settings := rfl
@[simp] theorem State.raiseFault_portSettings (u : Nat) : (State.raiseFault s u).portSettings = s.portSettings := rfl
@[simp] theorem State.raiseFault_portQueue (u : Nat) : (State.raiseFault s u).portQueue = s.portQueue := rfl
@[simp] theorem State.raiseFault_stintSettings (u : Nat) : (State.raiseFault s u).stintSettings = s.stintSettings := rfl
@[simp] theorem State.raiseFault_stintStart (u : Nat) : (State.raiseFault s u).stintStart = s.stintStart := rfl
@[simp] theorem State.raiseFault_ledger (u : Nat) : (State.raiseFault s u).ledger = s.ledger := rfl
@[simp] theorem State.raiseFault_nextLedger (u : Nat) : (State.raiseFault s u).nextLedger = s.nextLedger := rfl
@[simp] theorem State.raiseFault_commits (u : Nat) : (State.raiseFault s u).commits = s.commits := rfl
@[simp] theorem State.raiseFault_trust (u : Nat) : (State.raiseFault s u).trust = s.trust := rfl
@[simp] theorem State.raiseFault_programs (u : Nat) : (State.raiseFault s u).programs = s.programs := rfl
@[simp] theorem State.raiseFault_freezes (u : Nat) : (State.raiseFault s u).freezes = s.freezes := rfl
@[simp] theorem State.raiseFault_net9 (u : Nat) : (State.raiseFault s u).net9 = s.net9 := rfl
@[simp] theorem State.raiseFault_pair (u : Nat) : (State.raiseFault s u).pair = s.pair := rfl
@[simp] theorem State.raiseFault_power (u : Nat) : (State.raiseFault s u).power = s.power := rfl
@[simp] theorem State.raiseFault_health (u : Nat) : (State.raiseFault s u).health = s.health := rfl
@[simp] theorem State.raiseFault_ctrs (u : Nat) : (State.raiseFault s u).ctrs = s.ctrs := rfl
@[simp] theorem State.raiseFault_free (u : Nat) : (State.raiseFault s u).free = s.free := rfl

/-! ## State.raiseService -/

@[simp] theorem State.raiseService_pending (b : Nat) : (State.raiseService s b).pending = s.pending := rfl
@[simp] theorem State.raiseService_now (b : Nat) : (State.raiseService s b).now = s.now := rfl
@[simp] theorem State.raiseService_mem (b : Nat) : (State.raiseService s b).mem = s.mem := rfl
@[simp] theorem State.raiseService_poison (b : Nat) : (State.raiseService s b).poison = s.poison := rfl
@[simp] theorem State.raiseService_written (b : Nat) : (State.raiseService s b).written = s.written := rfl
@[simp] theorem State.raiseService_tensors (b : Nat) : (State.raiseService s b).tensors = s.tensors := rfl
@[simp] theorem State.raiseService_nets (b : Nat) : (State.raiseService s b).nets = s.nets := rfl
@[simp] theorem State.raiseService_cores (b : Nat) : (State.raiseService s b).cores = s.cores := rfl
@[simp] theorem State.raiseService_actStacks (b : Nat) : (State.raiseService s b).actStacks = s.actStacks := rfl
@[simp] theorem State.raiseService_stampCounter (b : Nat) : (State.raiseService s b).stampCounter = s.stampCounter := rfl
@[simp] theorem State.raiseService_sources (b : Nat) : (State.raiseService s b).sources = s.sources := rfl
@[simp] theorem State.raiseService_cmds (b : Nat) : (State.raiseService s b).cmds = s.cmds := rfl
@[simp] theorem State.raiseService_nextNo (b : Nat) : (State.raiseService s b).nextNo = s.nextNo := rfl
@[simp] theorem State.raiseService_out (b : Nat) : (State.raiseService s b).out = s.out := rfl
@[simp] theorem State.raiseService_i3c (b : Nat) : (State.raiseService s b).i3c = s.i3c := rfl
@[simp] theorem State.raiseService_streams (b : Nat) : (State.raiseService s b).streams = s.streams := rfl
@[simp] theorem State.raiseService_settings (b : Nat) : (State.raiseService s b).settings = s.settings := rfl
@[simp] theorem State.raiseService_portSettings (b : Nat) : (State.raiseService s b).portSettings = s.portSettings := rfl
@[simp] theorem State.raiseService_portQueue (b : Nat) : (State.raiseService s b).portQueue = s.portQueue := rfl
@[simp] theorem State.raiseService_stintSettings (b : Nat) : (State.raiseService s b).stintSettings = s.stintSettings := rfl
@[simp] theorem State.raiseService_stintStart (b : Nat) : (State.raiseService s b).stintStart = s.stintStart := rfl
@[simp] theorem State.raiseService_ledger (b : Nat) : (State.raiseService s b).ledger = s.ledger := rfl
@[simp] theorem State.raiseService_nextLedger (b : Nat) : (State.raiseService s b).nextLedger = s.nextLedger := rfl
@[simp] theorem State.raiseService_commits (b : Nat) : (State.raiseService s b).commits = s.commits := rfl
@[simp] theorem State.raiseService_trust (b : Nat) : (State.raiseService s b).trust = s.trust := rfl
@[simp] theorem State.raiseService_programs (b : Nat) : (State.raiseService s b).programs = s.programs := rfl
@[simp] theorem State.raiseService_freezes (b : Nat) : (State.raiseService s b).freezes = s.freezes := rfl
@[simp] theorem State.raiseService_net9 (b : Nat) : (State.raiseService s b).net9 = s.net9 := rfl
@[simp] theorem State.raiseService_pair (b : Nat) : (State.raiseService s b).pair = s.pair := rfl
@[simp] theorem State.raiseService_power (b : Nat) : (State.raiseService s b).power = s.power := rfl
@[simp] theorem State.raiseService_health (b : Nat) : (State.raiseService s b).health = s.health := rfl
@[simp] theorem State.raiseService_ctrs (b : Nat) : (State.raiseService s b).ctrs = s.ctrs := rfl
@[simp] theorem State.raiseService_free (b : Nat) : (State.raiseService s b).free = s.free := rfl

/-! ## State.overrun -/

@[simp] theorem State.overrun_pending (k : Nat) : (State.overrun s k).pending = s.pending := rfl
@[simp] theorem State.overrun_now (k : Nat) : (State.overrun s k).now = s.now := rfl
@[simp] theorem State.overrun_mem (k : Nat) : (State.overrun s k).mem = s.mem := rfl
@[simp] theorem State.overrun_poison (k : Nat) : (State.overrun s k).poison = s.poison := rfl
@[simp] theorem State.overrun_written (k : Nat) : (State.overrun s k).written = s.written := rfl
@[simp] theorem State.overrun_tensors (k : Nat) : (State.overrun s k).tensors = s.tensors := rfl
@[simp] theorem State.overrun_nets (k : Nat) : (State.overrun s k).nets = s.nets := rfl
@[simp] theorem State.overrun_cores (k : Nat) : (State.overrun s k).cores = s.cores := rfl
@[simp] theorem State.overrun_actStacks (k : Nat) : (State.overrun s k).actStacks = s.actStacks := rfl
@[simp] theorem State.overrun_stampCounter (k : Nat) : (State.overrun s k).stampCounter = s.stampCounter := rfl
@[simp] theorem State.overrun_sources (k : Nat) : (State.overrun s k).sources = s.sources := rfl
@[simp] theorem State.overrun_cmds (k : Nat) : (State.overrun s k).cmds = s.cmds := rfl
@[simp] theorem State.overrun_nextNo (k : Nat) : (State.overrun s k).nextNo = s.nextNo := rfl
@[simp] theorem State.overrun_out (k : Nat) : (State.overrun s k).out = s.out := rfl
@[simp] theorem State.overrun_i3c (k : Nat) : (State.overrun s k).i3c = s.i3c := rfl
@[simp] theorem State.overrun_streams (k : Nat) : (State.overrun s k).streams = s.streams := rfl
@[simp] theorem State.overrun_settings (k : Nat) : (State.overrun s k).settings = s.settings := rfl
@[simp] theorem State.overrun_portSettings (k : Nat) : (State.overrun s k).portSettings = s.portSettings := rfl
@[simp] theorem State.overrun_portQueue (k : Nat) : (State.overrun s k).portQueue = s.portQueue := rfl
@[simp] theorem State.overrun_stintSettings (k : Nat) : (State.overrun s k).stintSettings = s.stintSettings := rfl
@[simp] theorem State.overrun_stintStart (k : Nat) : (State.overrun s k).stintStart = s.stintStart := rfl
@[simp] theorem State.overrun_ledger (k : Nat) : (State.overrun s k).ledger = s.ledger := rfl
@[simp] theorem State.overrun_nextLedger (k : Nat) : (State.overrun s k).nextLedger = s.nextLedger := rfl
@[simp] theorem State.overrun_commits (k : Nat) : (State.overrun s k).commits = s.commits := rfl
@[simp] theorem State.overrun_trust (k : Nat) : (State.overrun s k).trust = s.trust := rfl
@[simp] theorem State.overrun_programs (k : Nat) : (State.overrun s k).programs = s.programs := rfl
@[simp] theorem State.overrun_freezes (k : Nat) : (State.overrun s k).freezes = s.freezes := rfl
@[simp] theorem State.overrun_net9 (k : Nat) : (State.overrun s k).net9 = s.net9 := rfl
@[simp] theorem State.overrun_pair (k : Nat) : (State.overrun s k).pair = s.pair := rfl
@[simp] theorem State.overrun_power (k : Nat) : (State.overrun s k).power = s.power := rfl
@[simp] theorem State.overrun_health (k : Nat) : (State.overrun s k).health = s.health := rfl
@[simp] theorem State.overrun_ctrs (k : Nat) : (State.overrun s k).ctrs = s.ctrs := rfl
@[simp] theorem State.overrun_free (k : Nat) : (State.overrun s k).free = s.free := rfl

/-! ## State.reach -/

@[simp] theorem State.reach_pending (k : Nat) : (State.reach s k).pending = s.pending := rfl
@[simp] theorem State.reach_mem (k : Nat) : (State.reach s k).mem = s.mem := rfl
@[simp] theorem State.reach_poison (k : Nat) : (State.reach s k).poison = s.poison := rfl
@[simp] theorem State.reach_written (k : Nat) : (State.reach s k).written = s.written := rfl
@[simp] theorem State.reach_tensors (k : Nat) : (State.reach s k).tensors = s.tensors := rfl
@[simp] theorem State.reach_nets (k : Nat) : (State.reach s k).nets = s.nets := rfl
@[simp] theorem State.reach_cores (k : Nat) : (State.reach s k).cores = s.cores := rfl
@[simp] theorem State.reach_actStacks (k : Nat) : (State.reach s k).actStacks = s.actStacks := rfl
@[simp] theorem State.reach_stampCounter (k : Nat) : (State.reach s k).stampCounter = s.stampCounter := rfl
@[simp] theorem State.reach_sources (k : Nat) : (State.reach s k).sources = s.sources := rfl
@[simp] theorem State.reach_cmds (k : Nat) : (State.reach s k).cmds = s.cmds := rfl
@[simp] theorem State.reach_nextNo (k : Nat) : (State.reach s k).nextNo = s.nextNo := rfl
@[simp] theorem State.reach_out (k : Nat) : (State.reach s k).out = s.out := rfl
@[simp] theorem State.reach_attention (k : Nat) : (State.reach s k).attention = s.attention := rfl
@[simp] theorem State.reach_i3c (k : Nat) : (State.reach s k).i3c = s.i3c := rfl
@[simp] theorem State.reach_streams (k : Nat) : (State.reach s k).streams = s.streams := rfl
@[simp] theorem State.reach_settings (k : Nat) : (State.reach s k).settings = s.settings := rfl
@[simp] theorem State.reach_portSettings (k : Nat) : (State.reach s k).portSettings = s.portSettings := rfl
@[simp] theorem State.reach_portQueue (k : Nat) : (State.reach s k).portQueue = s.portQueue := rfl
@[simp] theorem State.reach_stintSettings (k : Nat) : (State.reach s k).stintSettings = s.stintSettings := rfl
@[simp] theorem State.reach_stintStart (k : Nat) : (State.reach s k).stintStart = s.stintStart := rfl
@[simp] theorem State.reach_ledger (k : Nat) : (State.reach s k).ledger = s.ledger := rfl
@[simp] theorem State.reach_nextLedger (k : Nat) : (State.reach s k).nextLedger = s.nextLedger := rfl
@[simp] theorem State.reach_commits (k : Nat) : (State.reach s k).commits = s.commits := rfl
@[simp] theorem State.reach_trust (k : Nat) : (State.reach s k).trust = s.trust := rfl
@[simp] theorem State.reach_programs (k : Nat) : (State.reach s k).programs = s.programs := rfl
@[simp] theorem State.reach_freezes (k : Nat) : (State.reach s k).freezes = s.freezes := rfl
@[simp] theorem State.reach_net9 (k : Nat) : (State.reach s k).net9 = s.net9 := rfl
@[simp] theorem State.reach_pair (k : Nat) : (State.reach s k).pair = s.pair := rfl
@[simp] theorem State.reach_power (k : Nat) : (State.reach s k).power = s.power := rfl
@[simp] theorem State.reach_health (k : Nat) : (State.reach s k).health = s.health := rfl
@[simp] theorem State.reach_ctrs (k : Nat) : (State.reach s k).ctrs = s.ctrs := rfl
@[simp] theorem State.reach_free (k : Nat) : (State.reach s k).free = s.free := rfl

/-! ## State.count -/

/-- State.count changes ctrs alone. -/
theorem State.count_changes (id k : Nat) :
    ∃ x0, State.count s id k = { s with ctrs := x0 } := by unfold State.count; split <;> exact ⟨_, rfl⟩

@[simp] theorem State.count_pending (id k : Nat) : (State.count s id k).pending = s.pending := by
  obtain ⟨_, h⟩ := State.count_changes s id k; rw [h]
@[simp] theorem State.count_now (id k : Nat) : (State.count s id k).now = s.now := by
  obtain ⟨_, h⟩ := State.count_changes s id k; rw [h]
@[simp] theorem State.count_mem (id k : Nat) : (State.count s id k).mem = s.mem := by
  obtain ⟨_, h⟩ := State.count_changes s id k; rw [h]
@[simp] theorem State.count_poison (id k : Nat) : (State.count s id k).poison = s.poison := by
  obtain ⟨_, h⟩ := State.count_changes s id k; rw [h]
@[simp] theorem State.count_written (id k : Nat) : (State.count s id k).written = s.written := by
  obtain ⟨_, h⟩ := State.count_changes s id k; rw [h]
@[simp] theorem State.count_tensors (id k : Nat) : (State.count s id k).tensors = s.tensors := by
  obtain ⟨_, h⟩ := State.count_changes s id k; rw [h]
@[simp] theorem State.count_nets (id k : Nat) : (State.count s id k).nets = s.nets := by
  obtain ⟨_, h⟩ := State.count_changes s id k; rw [h]
@[simp] theorem State.count_cores (id k : Nat) : (State.count s id k).cores = s.cores := by
  obtain ⟨_, h⟩ := State.count_changes s id k; rw [h]
@[simp] theorem State.count_actStacks (id k : Nat) : (State.count s id k).actStacks = s.actStacks := by
  obtain ⟨_, h⟩ := State.count_changes s id k; rw [h]
@[simp] theorem State.count_stampCounter (id k : Nat) : (State.count s id k).stampCounter = s.stampCounter := by
  obtain ⟨_, h⟩ := State.count_changes s id k; rw [h]
@[simp] theorem State.count_sources (id k : Nat) : (State.count s id k).sources = s.sources := by
  obtain ⟨_, h⟩ := State.count_changes s id k; rw [h]
@[simp] theorem State.count_cmds (id k : Nat) : (State.count s id k).cmds = s.cmds := by
  obtain ⟨_, h⟩ := State.count_changes s id k; rw [h]
@[simp] theorem State.count_nextNo (id k : Nat) : (State.count s id k).nextNo = s.nextNo := by
  obtain ⟨_, h⟩ := State.count_changes s id k; rw [h]
@[simp] theorem State.count_out (id k : Nat) : (State.count s id k).out = s.out := by
  obtain ⟨_, h⟩ := State.count_changes s id k; rw [h]
@[simp] theorem State.count_attention (id k : Nat) : (State.count s id k).attention = s.attention := by
  obtain ⟨_, h⟩ := State.count_changes s id k; rw [h]
@[simp] theorem State.count_i3c (id k : Nat) : (State.count s id k).i3c = s.i3c := by
  obtain ⟨_, h⟩ := State.count_changes s id k; rw [h]
@[simp] theorem State.count_streams (id k : Nat) : (State.count s id k).streams = s.streams := by
  obtain ⟨_, h⟩ := State.count_changes s id k; rw [h]
@[simp] theorem State.count_settings (id k : Nat) : (State.count s id k).settings = s.settings := by
  obtain ⟨_, h⟩ := State.count_changes s id k; rw [h]
@[simp] theorem State.count_portSettings (id k : Nat) : (State.count s id k).portSettings = s.portSettings := by
  obtain ⟨_, h⟩ := State.count_changes s id k; rw [h]
@[simp] theorem State.count_portQueue (id k : Nat) : (State.count s id k).portQueue = s.portQueue := by
  obtain ⟨_, h⟩ := State.count_changes s id k; rw [h]
@[simp] theorem State.count_stintSettings (id k : Nat) : (State.count s id k).stintSettings = s.stintSettings := by
  obtain ⟨_, h⟩ := State.count_changes s id k; rw [h]
@[simp] theorem State.count_stintStart (id k : Nat) : (State.count s id k).stintStart = s.stintStart := by
  obtain ⟨_, h⟩ := State.count_changes s id k; rw [h]
@[simp] theorem State.count_ledger (id k : Nat) : (State.count s id k).ledger = s.ledger := by
  obtain ⟨_, h⟩ := State.count_changes s id k; rw [h]
@[simp] theorem State.count_nextLedger (id k : Nat) : (State.count s id k).nextLedger = s.nextLedger := by
  obtain ⟨_, h⟩ := State.count_changes s id k; rw [h]
@[simp] theorem State.count_commits (id k : Nat) : (State.count s id k).commits = s.commits := by
  obtain ⟨_, h⟩ := State.count_changes s id k; rw [h]
@[simp] theorem State.count_trust (id k : Nat) : (State.count s id k).trust = s.trust := by
  obtain ⟨_, h⟩ := State.count_changes s id k; rw [h]
@[simp] theorem State.count_programs (id k : Nat) : (State.count s id k).programs = s.programs := by
  obtain ⟨_, h⟩ := State.count_changes s id k; rw [h]
@[simp] theorem State.count_freezes (id k : Nat) : (State.count s id k).freezes = s.freezes := by
  obtain ⟨_, h⟩ := State.count_changes s id k; rw [h]
@[simp] theorem State.count_net9 (id k : Nat) : (State.count s id k).net9 = s.net9 := by
  obtain ⟨_, h⟩ := State.count_changes s id k; rw [h]
@[simp] theorem State.count_pair (id k : Nat) : (State.count s id k).pair = s.pair := by
  obtain ⟨_, h⟩ := State.count_changes s id k; rw [h]
@[simp] theorem State.count_power (id k : Nat) : (State.count s id k).power = s.power := by
  obtain ⟨_, h⟩ := State.count_changes s id k; rw [h]
@[simp] theorem State.count_health (id k : Nat) : (State.count s id k).health = s.health := by
  obtain ⟨_, h⟩ := State.count_changes s id k; rw [h]
@[simp] theorem State.count_free (id k : Nat) : (State.count s id k).free = s.free := by
  obtain ⟨_, h⟩ := State.count_changes s id k; rw [h]

/-! ## State.onSource -/

/-- State.onSource changes sources alone. -/
theorem State.onSource_changes (k : Nat) (f : Source → Source) :
    ∃ x0, State.onSource s k f = { s with sources := x0 } := by unfold State.onSource; split <;> exact ⟨_, rfl⟩

@[simp] theorem State.onSource_pending (k : Nat) (f : Source → Source) : (State.onSource s k f).pending = s.pending := by
  obtain ⟨_, h⟩ := State.onSource_changes s k f; rw [h]
@[simp] theorem State.onSource_now (k : Nat) (f : Source → Source) : (State.onSource s k f).now = s.now := by
  obtain ⟨_, h⟩ := State.onSource_changes s k f; rw [h]
@[simp] theorem State.onSource_mem (k : Nat) (f : Source → Source) : (State.onSource s k f).mem = s.mem := by
  obtain ⟨_, h⟩ := State.onSource_changes s k f; rw [h]
@[simp] theorem State.onSource_poison (k : Nat) (f : Source → Source) : (State.onSource s k f).poison = s.poison := by
  obtain ⟨_, h⟩ := State.onSource_changes s k f; rw [h]
@[simp] theorem State.onSource_written (k : Nat) (f : Source → Source) : (State.onSource s k f).written = s.written := by
  obtain ⟨_, h⟩ := State.onSource_changes s k f; rw [h]
@[simp] theorem State.onSource_tensors (k : Nat) (f : Source → Source) : (State.onSource s k f).tensors = s.tensors := by
  obtain ⟨_, h⟩ := State.onSource_changes s k f; rw [h]
@[simp] theorem State.onSource_nets (k : Nat) (f : Source → Source) : (State.onSource s k f).nets = s.nets := by
  obtain ⟨_, h⟩ := State.onSource_changes s k f; rw [h]
@[simp] theorem State.onSource_cores (k : Nat) (f : Source → Source) : (State.onSource s k f).cores = s.cores := by
  obtain ⟨_, h⟩ := State.onSource_changes s k f; rw [h]
@[simp] theorem State.onSource_actStacks (k : Nat) (f : Source → Source) : (State.onSource s k f).actStacks = s.actStacks := by
  obtain ⟨_, h⟩ := State.onSource_changes s k f; rw [h]
@[simp] theorem State.onSource_stampCounter (k : Nat) (f : Source → Source) : (State.onSource s k f).stampCounter = s.stampCounter := by
  obtain ⟨_, h⟩ := State.onSource_changes s k f; rw [h]
@[simp] theorem State.onSource_cmds (k : Nat) (f : Source → Source) : (State.onSource s k f).cmds = s.cmds := by
  obtain ⟨_, h⟩ := State.onSource_changes s k f; rw [h]
@[simp] theorem State.onSource_nextNo (k : Nat) (f : Source → Source) : (State.onSource s k f).nextNo = s.nextNo := by
  obtain ⟨_, h⟩ := State.onSource_changes s k f; rw [h]
@[simp] theorem State.onSource_out (k : Nat) (f : Source → Source) : (State.onSource s k f).out = s.out := by
  obtain ⟨_, h⟩ := State.onSource_changes s k f; rw [h]
@[simp] theorem State.onSource_attention (k : Nat) (f : Source → Source) : (State.onSource s k f).attention = s.attention := by
  obtain ⟨_, h⟩ := State.onSource_changes s k f; rw [h]
@[simp] theorem State.onSource_i3c (k : Nat) (f : Source → Source) : (State.onSource s k f).i3c = s.i3c := by
  obtain ⟨_, h⟩ := State.onSource_changes s k f; rw [h]
@[simp] theorem State.onSource_streams (k : Nat) (f : Source → Source) : (State.onSource s k f).streams = s.streams := by
  obtain ⟨_, h⟩ := State.onSource_changes s k f; rw [h]
@[simp] theorem State.onSource_settings (k : Nat) (f : Source → Source) : (State.onSource s k f).settings = s.settings := by
  obtain ⟨_, h⟩ := State.onSource_changes s k f; rw [h]
@[simp] theorem State.onSource_portSettings (k : Nat) (f : Source → Source) : (State.onSource s k f).portSettings = s.portSettings := by
  obtain ⟨_, h⟩ := State.onSource_changes s k f; rw [h]
@[simp] theorem State.onSource_portQueue (k : Nat) (f : Source → Source) : (State.onSource s k f).portQueue = s.portQueue := by
  obtain ⟨_, h⟩ := State.onSource_changes s k f; rw [h]
@[simp] theorem State.onSource_stintSettings (k : Nat) (f : Source → Source) : (State.onSource s k f).stintSettings = s.stintSettings := by
  obtain ⟨_, h⟩ := State.onSource_changes s k f; rw [h]
@[simp] theorem State.onSource_stintStart (k : Nat) (f : Source → Source) : (State.onSource s k f).stintStart = s.stintStart := by
  obtain ⟨_, h⟩ := State.onSource_changes s k f; rw [h]
@[simp] theorem State.onSource_ledger (k : Nat) (f : Source → Source) : (State.onSource s k f).ledger = s.ledger := by
  obtain ⟨_, h⟩ := State.onSource_changes s k f; rw [h]
@[simp] theorem State.onSource_nextLedger (k : Nat) (f : Source → Source) : (State.onSource s k f).nextLedger = s.nextLedger := by
  obtain ⟨_, h⟩ := State.onSource_changes s k f; rw [h]
@[simp] theorem State.onSource_commits (k : Nat) (f : Source → Source) : (State.onSource s k f).commits = s.commits := by
  obtain ⟨_, h⟩ := State.onSource_changes s k f; rw [h]
@[simp] theorem State.onSource_trust (k : Nat) (f : Source → Source) : (State.onSource s k f).trust = s.trust := by
  obtain ⟨_, h⟩ := State.onSource_changes s k f; rw [h]
@[simp] theorem State.onSource_programs (k : Nat) (f : Source → Source) : (State.onSource s k f).programs = s.programs := by
  obtain ⟨_, h⟩ := State.onSource_changes s k f; rw [h]
@[simp] theorem State.onSource_freezes (k : Nat) (f : Source → Source) : (State.onSource s k f).freezes = s.freezes := by
  obtain ⟨_, h⟩ := State.onSource_changes s k f; rw [h]
@[simp] theorem State.onSource_net9 (k : Nat) (f : Source → Source) : (State.onSource s k f).net9 = s.net9 := by
  obtain ⟨_, h⟩ := State.onSource_changes s k f; rw [h]
@[simp] theorem State.onSource_pair (k : Nat) (f : Source → Source) : (State.onSource s k f).pair = s.pair := by
  obtain ⟨_, h⟩ := State.onSource_changes s k f; rw [h]
@[simp] theorem State.onSource_power (k : Nat) (f : Source → Source) : (State.onSource s k f).power = s.power := by
  obtain ⟨_, h⟩ := State.onSource_changes s k f; rw [h]
@[simp] theorem State.onSource_health (k : Nat) (f : Source → Source) : (State.onSource s k f).health = s.health := by
  obtain ⟨_, h⟩ := State.onSource_changes s k f; rw [h]
@[simp] theorem State.onSource_ctrs (k : Nat) (f : Source → Source) : (State.onSource s k f).ctrs = s.ctrs := by
  obtain ⟨_, h⟩ := State.onSource_changes s k f; rw [h]
@[simp] theorem State.onSource_free (k : Nat) (f : Source → Source) : (State.onSource s k f).free = s.free := by
  obtain ⟨_, h⟩ := State.onSource_changes s k f; rw [h]

/-! ## State.recordTag -/

/-- State.recordTag changes sources alone. -/
theorem State.recordTag_changes (k : Nat) (e : TagEntry) :
    ∃ x0, State.recordTag s k e = { s with sources := x0 } := by unfold State.recordTag; split <;> exact ⟨_, rfl⟩

@[simp] theorem State.recordTag_pending (k : Nat) (e : TagEntry) : (State.recordTag s k e).pending = s.pending := by
  obtain ⟨_, h⟩ := State.recordTag_changes s k e; rw [h]
@[simp] theorem State.recordTag_now (k : Nat) (e : TagEntry) : (State.recordTag s k e).now = s.now := by
  obtain ⟨_, h⟩ := State.recordTag_changes s k e; rw [h]
@[simp] theorem State.recordTag_mem (k : Nat) (e : TagEntry) : (State.recordTag s k e).mem = s.mem := by
  obtain ⟨_, h⟩ := State.recordTag_changes s k e; rw [h]
@[simp] theorem State.recordTag_poison (k : Nat) (e : TagEntry) : (State.recordTag s k e).poison = s.poison := by
  obtain ⟨_, h⟩ := State.recordTag_changes s k e; rw [h]
@[simp] theorem State.recordTag_written (k : Nat) (e : TagEntry) : (State.recordTag s k e).written = s.written := by
  obtain ⟨_, h⟩ := State.recordTag_changes s k e; rw [h]
@[simp] theorem State.recordTag_tensors (k : Nat) (e : TagEntry) : (State.recordTag s k e).tensors = s.tensors := by
  obtain ⟨_, h⟩ := State.recordTag_changes s k e; rw [h]
@[simp] theorem State.recordTag_nets (k : Nat) (e : TagEntry) : (State.recordTag s k e).nets = s.nets := by
  obtain ⟨_, h⟩ := State.recordTag_changes s k e; rw [h]
@[simp] theorem State.recordTag_cores (k : Nat) (e : TagEntry) : (State.recordTag s k e).cores = s.cores := by
  obtain ⟨_, h⟩ := State.recordTag_changes s k e; rw [h]
@[simp] theorem State.recordTag_actStacks (k : Nat) (e : TagEntry) : (State.recordTag s k e).actStacks = s.actStacks := by
  obtain ⟨_, h⟩ := State.recordTag_changes s k e; rw [h]
@[simp] theorem State.recordTag_stampCounter (k : Nat) (e : TagEntry) : (State.recordTag s k e).stampCounter = s.stampCounter := by
  obtain ⟨_, h⟩ := State.recordTag_changes s k e; rw [h]
@[simp] theorem State.recordTag_cmds (k : Nat) (e : TagEntry) : (State.recordTag s k e).cmds = s.cmds := by
  obtain ⟨_, h⟩ := State.recordTag_changes s k e; rw [h]
@[simp] theorem State.recordTag_nextNo (k : Nat) (e : TagEntry) : (State.recordTag s k e).nextNo = s.nextNo := by
  obtain ⟨_, h⟩ := State.recordTag_changes s k e; rw [h]
@[simp] theorem State.recordTag_out (k : Nat) (e : TagEntry) : (State.recordTag s k e).out = s.out := by
  obtain ⟨_, h⟩ := State.recordTag_changes s k e; rw [h]
@[simp] theorem State.recordTag_attention (k : Nat) (e : TagEntry) : (State.recordTag s k e).attention = s.attention := by
  obtain ⟨_, h⟩ := State.recordTag_changes s k e; rw [h]
@[simp] theorem State.recordTag_i3c (k : Nat) (e : TagEntry) : (State.recordTag s k e).i3c = s.i3c := by
  obtain ⟨_, h⟩ := State.recordTag_changes s k e; rw [h]
@[simp] theorem State.recordTag_streams (k : Nat) (e : TagEntry) : (State.recordTag s k e).streams = s.streams := by
  obtain ⟨_, h⟩ := State.recordTag_changes s k e; rw [h]
@[simp] theorem State.recordTag_settings (k : Nat) (e : TagEntry) : (State.recordTag s k e).settings = s.settings := by
  obtain ⟨_, h⟩ := State.recordTag_changes s k e; rw [h]
@[simp] theorem State.recordTag_portSettings (k : Nat) (e : TagEntry) : (State.recordTag s k e).portSettings = s.portSettings := by
  obtain ⟨_, h⟩ := State.recordTag_changes s k e; rw [h]
@[simp] theorem State.recordTag_portQueue (k : Nat) (e : TagEntry) : (State.recordTag s k e).portQueue = s.portQueue := by
  obtain ⟨_, h⟩ := State.recordTag_changes s k e; rw [h]
@[simp] theorem State.recordTag_stintSettings (k : Nat) (e : TagEntry) : (State.recordTag s k e).stintSettings = s.stintSettings := by
  obtain ⟨_, h⟩ := State.recordTag_changes s k e; rw [h]
@[simp] theorem State.recordTag_stintStart (k : Nat) (e : TagEntry) : (State.recordTag s k e).stintStart = s.stintStart := by
  obtain ⟨_, h⟩ := State.recordTag_changes s k e; rw [h]
@[simp] theorem State.recordTag_ledger (k : Nat) (e : TagEntry) : (State.recordTag s k e).ledger = s.ledger := by
  obtain ⟨_, h⟩ := State.recordTag_changes s k e; rw [h]
@[simp] theorem State.recordTag_nextLedger (k : Nat) (e : TagEntry) : (State.recordTag s k e).nextLedger = s.nextLedger := by
  obtain ⟨_, h⟩ := State.recordTag_changes s k e; rw [h]
@[simp] theorem State.recordTag_commits (k : Nat) (e : TagEntry) : (State.recordTag s k e).commits = s.commits := by
  obtain ⟨_, h⟩ := State.recordTag_changes s k e; rw [h]
@[simp] theorem State.recordTag_trust (k : Nat) (e : TagEntry) : (State.recordTag s k e).trust = s.trust := by
  obtain ⟨_, h⟩ := State.recordTag_changes s k e; rw [h]
@[simp] theorem State.recordTag_programs (k : Nat) (e : TagEntry) : (State.recordTag s k e).programs = s.programs := by
  obtain ⟨_, h⟩ := State.recordTag_changes s k e; rw [h]
@[simp] theorem State.recordTag_freezes (k : Nat) (e : TagEntry) : (State.recordTag s k e).freezes = s.freezes := by
  obtain ⟨_, h⟩ := State.recordTag_changes s k e; rw [h]
@[simp] theorem State.recordTag_net9 (k : Nat) (e : TagEntry) : (State.recordTag s k e).net9 = s.net9 := by
  obtain ⟨_, h⟩ := State.recordTag_changes s k e; rw [h]
@[simp] theorem State.recordTag_pair (k : Nat) (e : TagEntry) : (State.recordTag s k e).pair = s.pair := by
  obtain ⟨_, h⟩ := State.recordTag_changes s k e; rw [h]
@[simp] theorem State.recordTag_power (k : Nat) (e : TagEntry) : (State.recordTag s k e).power = s.power := by
  obtain ⟨_, h⟩ := State.recordTag_changes s k e; rw [h]
@[simp] theorem State.recordTag_health (k : Nat) (e : TagEntry) : (State.recordTag s k e).health = s.health := by
  obtain ⟨_, h⟩ := State.recordTag_changes s k e; rw [h]
@[simp] theorem State.recordTag_ctrs (k : Nat) (e : TagEntry) : (State.recordTag s k e).ctrs = s.ctrs := by
  obtain ⟨_, h⟩ := State.recordTag_changes s k e; rw [h]
@[simp] theorem State.recordTag_free (k : Nat) (e : TagEntry) : (State.recordTag s k e).free = s.free := by
  obtain ⟨_, h⟩ := State.recordTag_changes s k e; rw [h]

/-! ## State.endTag -/

/-- State.endTag changes sources alone. -/
theorem State.endTag_changes (k : Nat) (e : TagEntry) :
    ∃ x0, State.endTag s k e = { s with sources := x0 } := by unfold State.endTag; split <;> exact ⟨_, rfl⟩

@[simp] theorem State.endTag_pending (k : Nat) (e : TagEntry) : (State.endTag s k e).pending = s.pending := by
  obtain ⟨_, h⟩ := State.endTag_changes s k e; rw [h]
@[simp] theorem State.endTag_now (k : Nat) (e : TagEntry) : (State.endTag s k e).now = s.now := by
  obtain ⟨_, h⟩ := State.endTag_changes s k e; rw [h]
@[simp] theorem State.endTag_mem (k : Nat) (e : TagEntry) : (State.endTag s k e).mem = s.mem := by
  obtain ⟨_, h⟩ := State.endTag_changes s k e; rw [h]
@[simp] theorem State.endTag_poison (k : Nat) (e : TagEntry) : (State.endTag s k e).poison = s.poison := by
  obtain ⟨_, h⟩ := State.endTag_changes s k e; rw [h]
@[simp] theorem State.endTag_written (k : Nat) (e : TagEntry) : (State.endTag s k e).written = s.written := by
  obtain ⟨_, h⟩ := State.endTag_changes s k e; rw [h]
@[simp] theorem State.endTag_tensors (k : Nat) (e : TagEntry) : (State.endTag s k e).tensors = s.tensors := by
  obtain ⟨_, h⟩ := State.endTag_changes s k e; rw [h]
@[simp] theorem State.endTag_nets (k : Nat) (e : TagEntry) : (State.endTag s k e).nets = s.nets := by
  obtain ⟨_, h⟩ := State.endTag_changes s k e; rw [h]
@[simp] theorem State.endTag_cores (k : Nat) (e : TagEntry) : (State.endTag s k e).cores = s.cores := by
  obtain ⟨_, h⟩ := State.endTag_changes s k e; rw [h]
@[simp] theorem State.endTag_actStacks (k : Nat) (e : TagEntry) : (State.endTag s k e).actStacks = s.actStacks := by
  obtain ⟨_, h⟩ := State.endTag_changes s k e; rw [h]
@[simp] theorem State.endTag_stampCounter (k : Nat) (e : TagEntry) : (State.endTag s k e).stampCounter = s.stampCounter := by
  obtain ⟨_, h⟩ := State.endTag_changes s k e; rw [h]
@[simp] theorem State.endTag_cmds (k : Nat) (e : TagEntry) : (State.endTag s k e).cmds = s.cmds := by
  obtain ⟨_, h⟩ := State.endTag_changes s k e; rw [h]
@[simp] theorem State.endTag_nextNo (k : Nat) (e : TagEntry) : (State.endTag s k e).nextNo = s.nextNo := by
  obtain ⟨_, h⟩ := State.endTag_changes s k e; rw [h]
@[simp] theorem State.endTag_out (k : Nat) (e : TagEntry) : (State.endTag s k e).out = s.out := by
  obtain ⟨_, h⟩ := State.endTag_changes s k e; rw [h]
@[simp] theorem State.endTag_attention (k : Nat) (e : TagEntry) : (State.endTag s k e).attention = s.attention := by
  obtain ⟨_, h⟩ := State.endTag_changes s k e; rw [h]
@[simp] theorem State.endTag_i3c (k : Nat) (e : TagEntry) : (State.endTag s k e).i3c = s.i3c := by
  obtain ⟨_, h⟩ := State.endTag_changes s k e; rw [h]
@[simp] theorem State.endTag_streams (k : Nat) (e : TagEntry) : (State.endTag s k e).streams = s.streams := by
  obtain ⟨_, h⟩ := State.endTag_changes s k e; rw [h]
@[simp] theorem State.endTag_settings (k : Nat) (e : TagEntry) : (State.endTag s k e).settings = s.settings := by
  obtain ⟨_, h⟩ := State.endTag_changes s k e; rw [h]
@[simp] theorem State.endTag_portSettings (k : Nat) (e : TagEntry) : (State.endTag s k e).portSettings = s.portSettings := by
  obtain ⟨_, h⟩ := State.endTag_changes s k e; rw [h]
@[simp] theorem State.endTag_portQueue (k : Nat) (e : TagEntry) : (State.endTag s k e).portQueue = s.portQueue := by
  obtain ⟨_, h⟩ := State.endTag_changes s k e; rw [h]
@[simp] theorem State.endTag_stintSettings (k : Nat) (e : TagEntry) : (State.endTag s k e).stintSettings = s.stintSettings := by
  obtain ⟨_, h⟩ := State.endTag_changes s k e; rw [h]
@[simp] theorem State.endTag_stintStart (k : Nat) (e : TagEntry) : (State.endTag s k e).stintStart = s.stintStart := by
  obtain ⟨_, h⟩ := State.endTag_changes s k e; rw [h]
@[simp] theorem State.endTag_ledger (k : Nat) (e : TagEntry) : (State.endTag s k e).ledger = s.ledger := by
  obtain ⟨_, h⟩ := State.endTag_changes s k e; rw [h]
@[simp] theorem State.endTag_nextLedger (k : Nat) (e : TagEntry) : (State.endTag s k e).nextLedger = s.nextLedger := by
  obtain ⟨_, h⟩ := State.endTag_changes s k e; rw [h]
@[simp] theorem State.endTag_commits (k : Nat) (e : TagEntry) : (State.endTag s k e).commits = s.commits := by
  obtain ⟨_, h⟩ := State.endTag_changes s k e; rw [h]
@[simp] theorem State.endTag_trust (k : Nat) (e : TagEntry) : (State.endTag s k e).trust = s.trust := by
  obtain ⟨_, h⟩ := State.endTag_changes s k e; rw [h]
@[simp] theorem State.endTag_programs (k : Nat) (e : TagEntry) : (State.endTag s k e).programs = s.programs := by
  obtain ⟨_, h⟩ := State.endTag_changes s k e; rw [h]
@[simp] theorem State.endTag_freezes (k : Nat) (e : TagEntry) : (State.endTag s k e).freezes = s.freezes := by
  obtain ⟨_, h⟩ := State.endTag_changes s k e; rw [h]
@[simp] theorem State.endTag_net9 (k : Nat) (e : TagEntry) : (State.endTag s k e).net9 = s.net9 := by
  obtain ⟨_, h⟩ := State.endTag_changes s k e; rw [h]
@[simp] theorem State.endTag_pair (k : Nat) (e : TagEntry) : (State.endTag s k e).pair = s.pair := by
  obtain ⟨_, h⟩ := State.endTag_changes s k e; rw [h]
@[simp] theorem State.endTag_power (k : Nat) (e : TagEntry) : (State.endTag s k e).power = s.power := by
  obtain ⟨_, h⟩ := State.endTag_changes s k e; rw [h]
@[simp] theorem State.endTag_health (k : Nat) (e : TagEntry) : (State.endTag s k e).health = s.health := by
  obtain ⟨_, h⟩ := State.endTag_changes s k e; rw [h]
@[simp] theorem State.endTag_ctrs (k : Nat) (e : TagEntry) : (State.endTag s k e).ctrs = s.ctrs := by
  obtain ⟨_, h⟩ := State.endTag_changes s k e; rw [h]
@[simp] theorem State.endTag_free (k : Nat) (e : TagEntry) : (State.endTag s k e).free = s.free := by
  obtain ⟨_, h⟩ := State.endTag_changes s k e; rw [h]

/-! ## State.requestOn -/

/-- State.requestOn changes power alone. -/
theorem State.requestOn_changes (cls : Activity) (kind inst k : Nat) :
    ∃ x0, State.requestOn s cls kind inst k = { s with power := x0 } := by unfold State.requestOn; split <;> exact ⟨_, rfl⟩

@[simp] theorem State.requestOn_pending (cls : Activity) (kind inst k : Nat) : (State.requestOn s cls kind inst k).pending = s.pending := by
  obtain ⟨_, h⟩ := State.requestOn_changes s cls kind inst k; rw [h]
@[simp] theorem State.requestOn_now (cls : Activity) (kind inst k : Nat) : (State.requestOn s cls kind inst k).now = s.now := by
  obtain ⟨_, h⟩ := State.requestOn_changes s cls kind inst k; rw [h]
@[simp] theorem State.requestOn_mem (cls : Activity) (kind inst k : Nat) : (State.requestOn s cls kind inst k).mem = s.mem := by
  obtain ⟨_, h⟩ := State.requestOn_changes s cls kind inst k; rw [h]
@[simp] theorem State.requestOn_poison (cls : Activity) (kind inst k : Nat) : (State.requestOn s cls kind inst k).poison = s.poison := by
  obtain ⟨_, h⟩ := State.requestOn_changes s cls kind inst k; rw [h]
@[simp] theorem State.requestOn_written (cls : Activity) (kind inst k : Nat) : (State.requestOn s cls kind inst k).written = s.written := by
  obtain ⟨_, h⟩ := State.requestOn_changes s cls kind inst k; rw [h]
@[simp] theorem State.requestOn_tensors (cls : Activity) (kind inst k : Nat) : (State.requestOn s cls kind inst k).tensors = s.tensors := by
  obtain ⟨_, h⟩ := State.requestOn_changes s cls kind inst k; rw [h]
@[simp] theorem State.requestOn_nets (cls : Activity) (kind inst k : Nat) : (State.requestOn s cls kind inst k).nets = s.nets := by
  obtain ⟨_, h⟩ := State.requestOn_changes s cls kind inst k; rw [h]
@[simp] theorem State.requestOn_cores (cls : Activity) (kind inst k : Nat) : (State.requestOn s cls kind inst k).cores = s.cores := by
  obtain ⟨_, h⟩ := State.requestOn_changes s cls kind inst k; rw [h]
@[simp] theorem State.requestOn_actStacks (cls : Activity) (kind inst k : Nat) : (State.requestOn s cls kind inst k).actStacks = s.actStacks := by
  obtain ⟨_, h⟩ := State.requestOn_changes s cls kind inst k; rw [h]
@[simp] theorem State.requestOn_stampCounter (cls : Activity) (kind inst k : Nat) : (State.requestOn s cls kind inst k).stampCounter = s.stampCounter := by
  obtain ⟨_, h⟩ := State.requestOn_changes s cls kind inst k; rw [h]
@[simp] theorem State.requestOn_sources (cls : Activity) (kind inst k : Nat) : (State.requestOn s cls kind inst k).sources = s.sources := by
  obtain ⟨_, h⟩ := State.requestOn_changes s cls kind inst k; rw [h]
@[simp] theorem State.requestOn_cmds (cls : Activity) (kind inst k : Nat) : (State.requestOn s cls kind inst k).cmds = s.cmds := by
  obtain ⟨_, h⟩ := State.requestOn_changes s cls kind inst k; rw [h]
@[simp] theorem State.requestOn_nextNo (cls : Activity) (kind inst k : Nat) : (State.requestOn s cls kind inst k).nextNo = s.nextNo := by
  obtain ⟨_, h⟩ := State.requestOn_changes s cls kind inst k; rw [h]
@[simp] theorem State.requestOn_out (cls : Activity) (kind inst k : Nat) : (State.requestOn s cls kind inst k).out = s.out := by
  obtain ⟨_, h⟩ := State.requestOn_changes s cls kind inst k; rw [h]
@[simp] theorem State.requestOn_attention (cls : Activity) (kind inst k : Nat) : (State.requestOn s cls kind inst k).attention = s.attention := by
  obtain ⟨_, h⟩ := State.requestOn_changes s cls kind inst k; rw [h]
@[simp] theorem State.requestOn_i3c (cls : Activity) (kind inst k : Nat) : (State.requestOn s cls kind inst k).i3c = s.i3c := by
  obtain ⟨_, h⟩ := State.requestOn_changes s cls kind inst k; rw [h]
@[simp] theorem State.requestOn_streams (cls : Activity) (kind inst k : Nat) : (State.requestOn s cls kind inst k).streams = s.streams := by
  obtain ⟨_, h⟩ := State.requestOn_changes s cls kind inst k; rw [h]
@[simp] theorem State.requestOn_settings (cls : Activity) (kind inst k : Nat) : (State.requestOn s cls kind inst k).settings = s.settings := by
  obtain ⟨_, h⟩ := State.requestOn_changes s cls kind inst k; rw [h]
@[simp] theorem State.requestOn_portSettings (cls : Activity) (kind inst k : Nat) : (State.requestOn s cls kind inst k).portSettings = s.portSettings := by
  obtain ⟨_, h⟩ := State.requestOn_changes s cls kind inst k; rw [h]
@[simp] theorem State.requestOn_portQueue (cls : Activity) (kind inst k : Nat) : (State.requestOn s cls kind inst k).portQueue = s.portQueue := by
  obtain ⟨_, h⟩ := State.requestOn_changes s cls kind inst k; rw [h]
@[simp] theorem State.requestOn_stintSettings (cls : Activity) (kind inst k : Nat) : (State.requestOn s cls kind inst k).stintSettings = s.stintSettings := by
  obtain ⟨_, h⟩ := State.requestOn_changes s cls kind inst k; rw [h]
@[simp] theorem State.requestOn_stintStart (cls : Activity) (kind inst k : Nat) : (State.requestOn s cls kind inst k).stintStart = s.stintStart := by
  obtain ⟨_, h⟩ := State.requestOn_changes s cls kind inst k; rw [h]
@[simp] theorem State.requestOn_ledger (cls : Activity) (kind inst k : Nat) : (State.requestOn s cls kind inst k).ledger = s.ledger := by
  obtain ⟨_, h⟩ := State.requestOn_changes s cls kind inst k; rw [h]
@[simp] theorem State.requestOn_nextLedger (cls : Activity) (kind inst k : Nat) : (State.requestOn s cls kind inst k).nextLedger = s.nextLedger := by
  obtain ⟨_, h⟩ := State.requestOn_changes s cls kind inst k; rw [h]
@[simp] theorem State.requestOn_commits (cls : Activity) (kind inst k : Nat) : (State.requestOn s cls kind inst k).commits = s.commits := by
  obtain ⟨_, h⟩ := State.requestOn_changes s cls kind inst k; rw [h]
@[simp] theorem State.requestOn_trust (cls : Activity) (kind inst k : Nat) : (State.requestOn s cls kind inst k).trust = s.trust := by
  obtain ⟨_, h⟩ := State.requestOn_changes s cls kind inst k; rw [h]
@[simp] theorem State.requestOn_programs (cls : Activity) (kind inst k : Nat) : (State.requestOn s cls kind inst k).programs = s.programs := by
  obtain ⟨_, h⟩ := State.requestOn_changes s cls kind inst k; rw [h]
@[simp] theorem State.requestOn_freezes (cls : Activity) (kind inst k : Nat) : (State.requestOn s cls kind inst k).freezes = s.freezes := by
  obtain ⟨_, h⟩ := State.requestOn_changes s cls kind inst k; rw [h]
@[simp] theorem State.requestOn_net9 (cls : Activity) (kind inst k : Nat) : (State.requestOn s cls kind inst k).net9 = s.net9 := by
  obtain ⟨_, h⟩ := State.requestOn_changes s cls kind inst k; rw [h]
@[simp] theorem State.requestOn_pair (cls : Activity) (kind inst k : Nat) : (State.requestOn s cls kind inst k).pair = s.pair := by
  obtain ⟨_, h⟩ := State.requestOn_changes s cls kind inst k; rw [h]
@[simp] theorem State.requestOn_health (cls : Activity) (kind inst k : Nat) : (State.requestOn s cls kind inst k).health = s.health := by
  obtain ⟨_, h⟩ := State.requestOn_changes s cls kind inst k; rw [h]
@[simp] theorem State.requestOn_ctrs (cls : Activity) (kind inst k : Nat) : (State.requestOn s cls kind inst k).ctrs = s.ctrs := by
  obtain ⟨_, h⟩ := State.requestOn_changes s cls kind inst k; rw [h]
@[simp] theorem State.requestOn_free (cls : Activity) (kind inst k : Nat) : (State.requestOn s cls kind inst k).free = s.free := by
  obtain ⟨_, h⟩ := State.requestOn_changes s cls kind inst k; rw [h]

/-! ## State.atCeiling -/

/-- State.atCeiling changes power alone. -/
theorem State.atCeiling_changes (cls : Activity) (kind inst : Nat) :
    ∃ x0, State.atCeiling s cls kind inst = { s with power := x0 } := by unfold State.atCeiling; dsimp only; split <;> exact ⟨_, rfl⟩

@[simp] theorem State.atCeiling_pending (cls : Activity) (kind inst : Nat) : (State.atCeiling s cls kind inst).pending = s.pending := by
  obtain ⟨_, h⟩ := State.atCeiling_changes s cls kind inst; rw [h]
@[simp] theorem State.atCeiling_now (cls : Activity) (kind inst : Nat) : (State.atCeiling s cls kind inst).now = s.now := by
  obtain ⟨_, h⟩ := State.atCeiling_changes s cls kind inst; rw [h]
@[simp] theorem State.atCeiling_mem (cls : Activity) (kind inst : Nat) : (State.atCeiling s cls kind inst).mem = s.mem := by
  obtain ⟨_, h⟩ := State.atCeiling_changes s cls kind inst; rw [h]
@[simp] theorem State.atCeiling_poison (cls : Activity) (kind inst : Nat) : (State.atCeiling s cls kind inst).poison = s.poison := by
  obtain ⟨_, h⟩ := State.atCeiling_changes s cls kind inst; rw [h]
@[simp] theorem State.atCeiling_written (cls : Activity) (kind inst : Nat) : (State.atCeiling s cls kind inst).written = s.written := by
  obtain ⟨_, h⟩ := State.atCeiling_changes s cls kind inst; rw [h]
@[simp] theorem State.atCeiling_tensors (cls : Activity) (kind inst : Nat) : (State.atCeiling s cls kind inst).tensors = s.tensors := by
  obtain ⟨_, h⟩ := State.atCeiling_changes s cls kind inst; rw [h]
@[simp] theorem State.atCeiling_nets (cls : Activity) (kind inst : Nat) : (State.atCeiling s cls kind inst).nets = s.nets := by
  obtain ⟨_, h⟩ := State.atCeiling_changes s cls kind inst; rw [h]
@[simp] theorem State.atCeiling_cores (cls : Activity) (kind inst : Nat) : (State.atCeiling s cls kind inst).cores = s.cores := by
  obtain ⟨_, h⟩ := State.atCeiling_changes s cls kind inst; rw [h]
@[simp] theorem State.atCeiling_actStacks (cls : Activity) (kind inst : Nat) : (State.atCeiling s cls kind inst).actStacks = s.actStacks := by
  obtain ⟨_, h⟩ := State.atCeiling_changes s cls kind inst; rw [h]
@[simp] theorem State.atCeiling_stampCounter (cls : Activity) (kind inst : Nat) : (State.atCeiling s cls kind inst).stampCounter = s.stampCounter := by
  obtain ⟨_, h⟩ := State.atCeiling_changes s cls kind inst; rw [h]
@[simp] theorem State.atCeiling_sources (cls : Activity) (kind inst : Nat) : (State.atCeiling s cls kind inst).sources = s.sources := by
  obtain ⟨_, h⟩ := State.atCeiling_changes s cls kind inst; rw [h]
@[simp] theorem State.atCeiling_cmds (cls : Activity) (kind inst : Nat) : (State.atCeiling s cls kind inst).cmds = s.cmds := by
  obtain ⟨_, h⟩ := State.atCeiling_changes s cls kind inst; rw [h]
@[simp] theorem State.atCeiling_nextNo (cls : Activity) (kind inst : Nat) : (State.atCeiling s cls kind inst).nextNo = s.nextNo := by
  obtain ⟨_, h⟩ := State.atCeiling_changes s cls kind inst; rw [h]
@[simp] theorem State.atCeiling_out (cls : Activity) (kind inst : Nat) : (State.atCeiling s cls kind inst).out = s.out := by
  obtain ⟨_, h⟩ := State.atCeiling_changes s cls kind inst; rw [h]
@[simp] theorem State.atCeiling_attention (cls : Activity) (kind inst : Nat) : (State.atCeiling s cls kind inst).attention = s.attention := by
  obtain ⟨_, h⟩ := State.atCeiling_changes s cls kind inst; rw [h]
@[simp] theorem State.atCeiling_i3c (cls : Activity) (kind inst : Nat) : (State.atCeiling s cls kind inst).i3c = s.i3c := by
  obtain ⟨_, h⟩ := State.atCeiling_changes s cls kind inst; rw [h]
@[simp] theorem State.atCeiling_streams (cls : Activity) (kind inst : Nat) : (State.atCeiling s cls kind inst).streams = s.streams := by
  obtain ⟨_, h⟩ := State.atCeiling_changes s cls kind inst; rw [h]
@[simp] theorem State.atCeiling_settings (cls : Activity) (kind inst : Nat) : (State.atCeiling s cls kind inst).settings = s.settings := by
  obtain ⟨_, h⟩ := State.atCeiling_changes s cls kind inst; rw [h]
@[simp] theorem State.atCeiling_portSettings (cls : Activity) (kind inst : Nat) : (State.atCeiling s cls kind inst).portSettings = s.portSettings := by
  obtain ⟨_, h⟩ := State.atCeiling_changes s cls kind inst; rw [h]
@[simp] theorem State.atCeiling_portQueue (cls : Activity) (kind inst : Nat) : (State.atCeiling s cls kind inst).portQueue = s.portQueue := by
  obtain ⟨_, h⟩ := State.atCeiling_changes s cls kind inst; rw [h]
@[simp] theorem State.atCeiling_stintSettings (cls : Activity) (kind inst : Nat) : (State.atCeiling s cls kind inst).stintSettings = s.stintSettings := by
  obtain ⟨_, h⟩ := State.atCeiling_changes s cls kind inst; rw [h]
@[simp] theorem State.atCeiling_stintStart (cls : Activity) (kind inst : Nat) : (State.atCeiling s cls kind inst).stintStart = s.stintStart := by
  obtain ⟨_, h⟩ := State.atCeiling_changes s cls kind inst; rw [h]
@[simp] theorem State.atCeiling_ledger (cls : Activity) (kind inst : Nat) : (State.atCeiling s cls kind inst).ledger = s.ledger := by
  obtain ⟨_, h⟩ := State.atCeiling_changes s cls kind inst; rw [h]
@[simp] theorem State.atCeiling_nextLedger (cls : Activity) (kind inst : Nat) : (State.atCeiling s cls kind inst).nextLedger = s.nextLedger := by
  obtain ⟨_, h⟩ := State.atCeiling_changes s cls kind inst; rw [h]
@[simp] theorem State.atCeiling_commits (cls : Activity) (kind inst : Nat) : (State.atCeiling s cls kind inst).commits = s.commits := by
  obtain ⟨_, h⟩ := State.atCeiling_changes s cls kind inst; rw [h]
@[simp] theorem State.atCeiling_trust (cls : Activity) (kind inst : Nat) : (State.atCeiling s cls kind inst).trust = s.trust := by
  obtain ⟨_, h⟩ := State.atCeiling_changes s cls kind inst; rw [h]
@[simp] theorem State.atCeiling_programs (cls : Activity) (kind inst : Nat) : (State.atCeiling s cls kind inst).programs = s.programs := by
  obtain ⟨_, h⟩ := State.atCeiling_changes s cls kind inst; rw [h]
@[simp] theorem State.atCeiling_freezes (cls : Activity) (kind inst : Nat) : (State.atCeiling s cls kind inst).freezes = s.freezes := by
  obtain ⟨_, h⟩ := State.atCeiling_changes s cls kind inst; rw [h]
@[simp] theorem State.atCeiling_net9 (cls : Activity) (kind inst : Nat) : (State.atCeiling s cls kind inst).net9 = s.net9 := by
  obtain ⟨_, h⟩ := State.atCeiling_changes s cls kind inst; rw [h]
@[simp] theorem State.atCeiling_pair (cls : Activity) (kind inst : Nat) : (State.atCeiling s cls kind inst).pair = s.pair := by
  obtain ⟨_, h⟩ := State.atCeiling_changes s cls kind inst; rw [h]
@[simp] theorem State.atCeiling_health (cls : Activity) (kind inst : Nat) : (State.atCeiling s cls kind inst).health = s.health := by
  obtain ⟨_, h⟩ := State.atCeiling_changes s cls kind inst; rw [h]
@[simp] theorem State.atCeiling_ctrs (cls : Activity) (kind inst : Nat) : (State.atCeiling s cls kind inst).ctrs = s.ctrs := by
  obtain ⟨_, h⟩ := State.atCeiling_changes s cls kind inst; rw [h]
@[simp] theorem State.atCeiling_free (cls : Activity) (kind inst : Nat) : (State.atCeiling s cls kind inst).free = s.free := by
  obtain ⟨_, h⟩ := State.atCeiling_changes s cls kind inst; rw [h]

/-! ## State.charge -/

/-- State.charge changes power alone. -/
theorem State.charge_changes (cls : Activity) (ms : Moves) :
    ∃ x0, State.charge s cls ms = { s with power := x0 } := by
  unfold State.charge
  induction ms.shares generalizing s with
  | nil => exact ⟨_, rfl⟩
  | cons y ys ih =>
    obtain ⟨a, h⟩ := State.requestOn_changes s cls y.1 y.2.1 y.2.2
    obtain ⟨b, h2⟩ := ih (s.requestOn cls y.1 y.2.1 y.2.2)
    exact ⟨b, by rw [List.foldl_cons, h2, h]⟩

@[simp] theorem State.charge_pending (cls : Activity) (ms : Moves) : (State.charge s cls ms).pending = s.pending := by
  obtain ⟨_, h⟩ := State.charge_changes s cls ms; rw [h]
@[simp] theorem State.charge_now (cls : Activity) (ms : Moves) : (State.charge s cls ms).now = s.now := by
  obtain ⟨_, h⟩ := State.charge_changes s cls ms; rw [h]
@[simp] theorem State.charge_mem (cls : Activity) (ms : Moves) : (State.charge s cls ms).mem = s.mem := by
  obtain ⟨_, h⟩ := State.charge_changes s cls ms; rw [h]
@[simp] theorem State.charge_poison (cls : Activity) (ms : Moves) : (State.charge s cls ms).poison = s.poison := by
  obtain ⟨_, h⟩ := State.charge_changes s cls ms; rw [h]
@[simp] theorem State.charge_written (cls : Activity) (ms : Moves) : (State.charge s cls ms).written = s.written := by
  obtain ⟨_, h⟩ := State.charge_changes s cls ms; rw [h]
@[simp] theorem State.charge_tensors (cls : Activity) (ms : Moves) : (State.charge s cls ms).tensors = s.tensors := by
  obtain ⟨_, h⟩ := State.charge_changes s cls ms; rw [h]
@[simp] theorem State.charge_nets (cls : Activity) (ms : Moves) : (State.charge s cls ms).nets = s.nets := by
  obtain ⟨_, h⟩ := State.charge_changes s cls ms; rw [h]
@[simp] theorem State.charge_cores (cls : Activity) (ms : Moves) : (State.charge s cls ms).cores = s.cores := by
  obtain ⟨_, h⟩ := State.charge_changes s cls ms; rw [h]
@[simp] theorem State.charge_actStacks (cls : Activity) (ms : Moves) : (State.charge s cls ms).actStacks = s.actStacks := by
  obtain ⟨_, h⟩ := State.charge_changes s cls ms; rw [h]
@[simp] theorem State.charge_stampCounter (cls : Activity) (ms : Moves) : (State.charge s cls ms).stampCounter = s.stampCounter := by
  obtain ⟨_, h⟩ := State.charge_changes s cls ms; rw [h]
@[simp] theorem State.charge_sources (cls : Activity) (ms : Moves) : (State.charge s cls ms).sources = s.sources := by
  obtain ⟨_, h⟩ := State.charge_changes s cls ms; rw [h]
@[simp] theorem State.charge_cmds (cls : Activity) (ms : Moves) : (State.charge s cls ms).cmds = s.cmds := by
  obtain ⟨_, h⟩ := State.charge_changes s cls ms; rw [h]
@[simp] theorem State.charge_nextNo (cls : Activity) (ms : Moves) : (State.charge s cls ms).nextNo = s.nextNo := by
  obtain ⟨_, h⟩ := State.charge_changes s cls ms; rw [h]
@[simp] theorem State.charge_out (cls : Activity) (ms : Moves) : (State.charge s cls ms).out = s.out := by
  obtain ⟨_, h⟩ := State.charge_changes s cls ms; rw [h]
@[simp] theorem State.charge_attention (cls : Activity) (ms : Moves) : (State.charge s cls ms).attention = s.attention := by
  obtain ⟨_, h⟩ := State.charge_changes s cls ms; rw [h]
@[simp] theorem State.charge_i3c (cls : Activity) (ms : Moves) : (State.charge s cls ms).i3c = s.i3c := by
  obtain ⟨_, h⟩ := State.charge_changes s cls ms; rw [h]
@[simp] theorem State.charge_streams (cls : Activity) (ms : Moves) : (State.charge s cls ms).streams = s.streams := by
  obtain ⟨_, h⟩ := State.charge_changes s cls ms; rw [h]
@[simp] theorem State.charge_settings (cls : Activity) (ms : Moves) : (State.charge s cls ms).settings = s.settings := by
  obtain ⟨_, h⟩ := State.charge_changes s cls ms; rw [h]
@[simp] theorem State.charge_portSettings (cls : Activity) (ms : Moves) : (State.charge s cls ms).portSettings = s.portSettings := by
  obtain ⟨_, h⟩ := State.charge_changes s cls ms; rw [h]
@[simp] theorem State.charge_portQueue (cls : Activity) (ms : Moves) : (State.charge s cls ms).portQueue = s.portQueue := by
  obtain ⟨_, h⟩ := State.charge_changes s cls ms; rw [h]
@[simp] theorem State.charge_stintSettings (cls : Activity) (ms : Moves) : (State.charge s cls ms).stintSettings = s.stintSettings := by
  obtain ⟨_, h⟩ := State.charge_changes s cls ms; rw [h]
@[simp] theorem State.charge_stintStart (cls : Activity) (ms : Moves) : (State.charge s cls ms).stintStart = s.stintStart := by
  obtain ⟨_, h⟩ := State.charge_changes s cls ms; rw [h]
@[simp] theorem State.charge_ledger (cls : Activity) (ms : Moves) : (State.charge s cls ms).ledger = s.ledger := by
  obtain ⟨_, h⟩ := State.charge_changes s cls ms; rw [h]
@[simp] theorem State.charge_nextLedger (cls : Activity) (ms : Moves) : (State.charge s cls ms).nextLedger = s.nextLedger := by
  obtain ⟨_, h⟩ := State.charge_changes s cls ms; rw [h]
@[simp] theorem State.charge_commits (cls : Activity) (ms : Moves) : (State.charge s cls ms).commits = s.commits := by
  obtain ⟨_, h⟩ := State.charge_changes s cls ms; rw [h]
@[simp] theorem State.charge_trust (cls : Activity) (ms : Moves) : (State.charge s cls ms).trust = s.trust := by
  obtain ⟨_, h⟩ := State.charge_changes s cls ms; rw [h]
@[simp] theorem State.charge_programs (cls : Activity) (ms : Moves) : (State.charge s cls ms).programs = s.programs := by
  obtain ⟨_, h⟩ := State.charge_changes s cls ms; rw [h]
@[simp] theorem State.charge_freezes (cls : Activity) (ms : Moves) : (State.charge s cls ms).freezes = s.freezes := by
  obtain ⟨_, h⟩ := State.charge_changes s cls ms; rw [h]
@[simp] theorem State.charge_net9 (cls : Activity) (ms : Moves) : (State.charge s cls ms).net9 = s.net9 := by
  obtain ⟨_, h⟩ := State.charge_changes s cls ms; rw [h]
@[simp] theorem State.charge_pair (cls : Activity) (ms : Moves) : (State.charge s cls ms).pair = s.pair := by
  obtain ⟨_, h⟩ := State.charge_changes s cls ms; rw [h]
@[simp] theorem State.charge_health (cls : Activity) (ms : Moves) : (State.charge s cls ms).health = s.health := by
  obtain ⟨_, h⟩ := State.charge_changes s cls ms; rw [h]
@[simp] theorem State.charge_ctrs (cls : Activity) (ms : Moves) : (State.charge s cls ms).ctrs = s.ctrs := by
  obtain ⟨_, h⟩ := State.charge_changes s cls ms; rw [h]
@[simp] theorem State.charge_free (cls : Activity) (ms : Moves) : (State.charge s cls ms).free = s.free := by
  obtain ⟨_, h⟩ := State.charge_changes s cls ms; rw [h]

/-! ## State.waitAt -/

/-- State.waitAt changes power alone. -/
theorem State.waitAt_changes (cls : Activity) (ms : Moves) :
    ∃ x0, State.waitAt s cls ms = { s with power := x0 } := by
  unfold State.waitAt
  generalize ms.shares.filter _ = xs
  induction xs generalizing s with
  | nil => exact ⟨_, rfl⟩
  | cons y ys ih =>
    obtain ⟨a, h⟩ := State.atCeiling_changes s cls y.1 y.2.1
    obtain ⟨b, h2⟩ := ih (s.atCeiling cls y.1 y.2.1)
    exact ⟨b, by rw [List.foldl_cons, h2, h]⟩

@[simp] theorem State.waitAt_pending (cls : Activity) (ms : Moves) : (State.waitAt s cls ms).pending = s.pending := by
  obtain ⟨_, h⟩ := State.waitAt_changes s cls ms; rw [h]
@[simp] theorem State.waitAt_now (cls : Activity) (ms : Moves) : (State.waitAt s cls ms).now = s.now := by
  obtain ⟨_, h⟩ := State.waitAt_changes s cls ms; rw [h]
@[simp] theorem State.waitAt_mem (cls : Activity) (ms : Moves) : (State.waitAt s cls ms).mem = s.mem := by
  obtain ⟨_, h⟩ := State.waitAt_changes s cls ms; rw [h]
@[simp] theorem State.waitAt_poison (cls : Activity) (ms : Moves) : (State.waitAt s cls ms).poison = s.poison := by
  obtain ⟨_, h⟩ := State.waitAt_changes s cls ms; rw [h]
@[simp] theorem State.waitAt_written (cls : Activity) (ms : Moves) : (State.waitAt s cls ms).written = s.written := by
  obtain ⟨_, h⟩ := State.waitAt_changes s cls ms; rw [h]
@[simp] theorem State.waitAt_tensors (cls : Activity) (ms : Moves) : (State.waitAt s cls ms).tensors = s.tensors := by
  obtain ⟨_, h⟩ := State.waitAt_changes s cls ms; rw [h]
@[simp] theorem State.waitAt_nets (cls : Activity) (ms : Moves) : (State.waitAt s cls ms).nets = s.nets := by
  obtain ⟨_, h⟩ := State.waitAt_changes s cls ms; rw [h]
@[simp] theorem State.waitAt_cores (cls : Activity) (ms : Moves) : (State.waitAt s cls ms).cores = s.cores := by
  obtain ⟨_, h⟩ := State.waitAt_changes s cls ms; rw [h]
@[simp] theorem State.waitAt_actStacks (cls : Activity) (ms : Moves) : (State.waitAt s cls ms).actStacks = s.actStacks := by
  obtain ⟨_, h⟩ := State.waitAt_changes s cls ms; rw [h]
@[simp] theorem State.waitAt_stampCounter (cls : Activity) (ms : Moves) : (State.waitAt s cls ms).stampCounter = s.stampCounter := by
  obtain ⟨_, h⟩ := State.waitAt_changes s cls ms; rw [h]
@[simp] theorem State.waitAt_sources (cls : Activity) (ms : Moves) : (State.waitAt s cls ms).sources = s.sources := by
  obtain ⟨_, h⟩ := State.waitAt_changes s cls ms; rw [h]
@[simp] theorem State.waitAt_cmds (cls : Activity) (ms : Moves) : (State.waitAt s cls ms).cmds = s.cmds := by
  obtain ⟨_, h⟩ := State.waitAt_changes s cls ms; rw [h]
@[simp] theorem State.waitAt_nextNo (cls : Activity) (ms : Moves) : (State.waitAt s cls ms).nextNo = s.nextNo := by
  obtain ⟨_, h⟩ := State.waitAt_changes s cls ms; rw [h]
@[simp] theorem State.waitAt_out (cls : Activity) (ms : Moves) : (State.waitAt s cls ms).out = s.out := by
  obtain ⟨_, h⟩ := State.waitAt_changes s cls ms; rw [h]
@[simp] theorem State.waitAt_attention (cls : Activity) (ms : Moves) : (State.waitAt s cls ms).attention = s.attention := by
  obtain ⟨_, h⟩ := State.waitAt_changes s cls ms; rw [h]
@[simp] theorem State.waitAt_i3c (cls : Activity) (ms : Moves) : (State.waitAt s cls ms).i3c = s.i3c := by
  obtain ⟨_, h⟩ := State.waitAt_changes s cls ms; rw [h]
@[simp] theorem State.waitAt_streams (cls : Activity) (ms : Moves) : (State.waitAt s cls ms).streams = s.streams := by
  obtain ⟨_, h⟩ := State.waitAt_changes s cls ms; rw [h]
@[simp] theorem State.waitAt_settings (cls : Activity) (ms : Moves) : (State.waitAt s cls ms).settings = s.settings := by
  obtain ⟨_, h⟩ := State.waitAt_changes s cls ms; rw [h]
@[simp] theorem State.waitAt_portSettings (cls : Activity) (ms : Moves) : (State.waitAt s cls ms).portSettings = s.portSettings := by
  obtain ⟨_, h⟩ := State.waitAt_changes s cls ms; rw [h]
@[simp] theorem State.waitAt_portQueue (cls : Activity) (ms : Moves) : (State.waitAt s cls ms).portQueue = s.portQueue := by
  obtain ⟨_, h⟩ := State.waitAt_changes s cls ms; rw [h]
@[simp] theorem State.waitAt_stintSettings (cls : Activity) (ms : Moves) : (State.waitAt s cls ms).stintSettings = s.stintSettings := by
  obtain ⟨_, h⟩ := State.waitAt_changes s cls ms; rw [h]
@[simp] theorem State.waitAt_stintStart (cls : Activity) (ms : Moves) : (State.waitAt s cls ms).stintStart = s.stintStart := by
  obtain ⟨_, h⟩ := State.waitAt_changes s cls ms; rw [h]
@[simp] theorem State.waitAt_ledger (cls : Activity) (ms : Moves) : (State.waitAt s cls ms).ledger = s.ledger := by
  obtain ⟨_, h⟩ := State.waitAt_changes s cls ms; rw [h]
@[simp] theorem State.waitAt_nextLedger (cls : Activity) (ms : Moves) : (State.waitAt s cls ms).nextLedger = s.nextLedger := by
  obtain ⟨_, h⟩ := State.waitAt_changes s cls ms; rw [h]
@[simp] theorem State.waitAt_commits (cls : Activity) (ms : Moves) : (State.waitAt s cls ms).commits = s.commits := by
  obtain ⟨_, h⟩ := State.waitAt_changes s cls ms; rw [h]
@[simp] theorem State.waitAt_trust (cls : Activity) (ms : Moves) : (State.waitAt s cls ms).trust = s.trust := by
  obtain ⟨_, h⟩ := State.waitAt_changes s cls ms; rw [h]
@[simp] theorem State.waitAt_programs (cls : Activity) (ms : Moves) : (State.waitAt s cls ms).programs = s.programs := by
  obtain ⟨_, h⟩ := State.waitAt_changes s cls ms; rw [h]
@[simp] theorem State.waitAt_freezes (cls : Activity) (ms : Moves) : (State.waitAt s cls ms).freezes = s.freezes := by
  obtain ⟨_, h⟩ := State.waitAt_changes s cls ms; rw [h]
@[simp] theorem State.waitAt_net9 (cls : Activity) (ms : Moves) : (State.waitAt s cls ms).net9 = s.net9 := by
  obtain ⟨_, h⟩ := State.waitAt_changes s cls ms; rw [h]
@[simp] theorem State.waitAt_pair (cls : Activity) (ms : Moves) : (State.waitAt s cls ms).pair = s.pair := by
  obtain ⟨_, h⟩ := State.waitAt_changes s cls ms; rw [h]
@[simp] theorem State.waitAt_health (cls : Activity) (ms : Moves) : (State.waitAt s cls ms).health = s.health := by
  obtain ⟨_, h⟩ := State.waitAt_changes s cls ms; rw [h]
@[simp] theorem State.waitAt_ctrs (cls : Activity) (ms : Moves) : (State.waitAt s cls ms).ctrs = s.ctrs := by
  obtain ⟨_, h⟩ := State.waitAt_changes s cls ms; rw [h]
@[simp] theorem State.waitAt_free (cls : Activity) (ms : Moves) : (State.waitAt s cls ms).free = s.free := by
  obtain ⟨_, h⟩ := State.waitAt_changes s cls ms; rw [h]

/-! ## State.corrected -/

/-- State.corrected changes ctrs, free alone. -/
theorem State.corrected_changes (port : Nat) :
    ∃ x0 x1, State.corrected s port = { s with ctrs := x0, free := x1 } := by
  unfold State.corrected; split
  · dsimp only; obtain ⟨x, h⟩ := State.count_changes s.freeNat.2 0x0604 (s.freeNat.1 % 2); exact ⟨_, _, h⟩
  · exact ⟨_, _, rfl⟩

@[simp] theorem State.corrected_pending (port : Nat) : (State.corrected s port).pending = s.pending := by
  obtain ⟨_, _, h⟩ := State.corrected_changes s port; rw [h]
@[simp] theorem State.corrected_now (port : Nat) : (State.corrected s port).now = s.now := by
  obtain ⟨_, _, h⟩ := State.corrected_changes s port; rw [h]
@[simp] theorem State.corrected_mem (port : Nat) : (State.corrected s port).mem = s.mem := by
  obtain ⟨_, _, h⟩ := State.corrected_changes s port; rw [h]
@[simp] theorem State.corrected_poison (port : Nat) : (State.corrected s port).poison = s.poison := by
  obtain ⟨_, _, h⟩ := State.corrected_changes s port; rw [h]
@[simp] theorem State.corrected_written (port : Nat) : (State.corrected s port).written = s.written := by
  obtain ⟨_, _, h⟩ := State.corrected_changes s port; rw [h]
@[simp] theorem State.corrected_tensors (port : Nat) : (State.corrected s port).tensors = s.tensors := by
  obtain ⟨_, _, h⟩ := State.corrected_changes s port; rw [h]
@[simp] theorem State.corrected_nets (port : Nat) : (State.corrected s port).nets = s.nets := by
  obtain ⟨_, _, h⟩ := State.corrected_changes s port; rw [h]
@[simp] theorem State.corrected_cores (port : Nat) : (State.corrected s port).cores = s.cores := by
  obtain ⟨_, _, h⟩ := State.corrected_changes s port; rw [h]
@[simp] theorem State.corrected_actStacks (port : Nat) : (State.corrected s port).actStacks = s.actStacks := by
  obtain ⟨_, _, h⟩ := State.corrected_changes s port; rw [h]
@[simp] theorem State.corrected_stampCounter (port : Nat) : (State.corrected s port).stampCounter = s.stampCounter := by
  obtain ⟨_, _, h⟩ := State.corrected_changes s port; rw [h]
@[simp] theorem State.corrected_sources (port : Nat) : (State.corrected s port).sources = s.sources := by
  obtain ⟨_, _, h⟩ := State.corrected_changes s port; rw [h]
@[simp] theorem State.corrected_cmds (port : Nat) : (State.corrected s port).cmds = s.cmds := by
  obtain ⟨_, _, h⟩ := State.corrected_changes s port; rw [h]
@[simp] theorem State.corrected_nextNo (port : Nat) : (State.corrected s port).nextNo = s.nextNo := by
  obtain ⟨_, _, h⟩ := State.corrected_changes s port; rw [h]
@[simp] theorem State.corrected_out (port : Nat) : (State.corrected s port).out = s.out := by
  obtain ⟨_, _, h⟩ := State.corrected_changes s port; rw [h]
@[simp] theorem State.corrected_attention (port : Nat) : (State.corrected s port).attention = s.attention := by
  obtain ⟨_, _, h⟩ := State.corrected_changes s port; rw [h]
@[simp] theorem State.corrected_i3c (port : Nat) : (State.corrected s port).i3c = s.i3c := by
  obtain ⟨_, _, h⟩ := State.corrected_changes s port; rw [h]
@[simp] theorem State.corrected_streams (port : Nat) : (State.corrected s port).streams = s.streams := by
  obtain ⟨_, _, h⟩ := State.corrected_changes s port; rw [h]
@[simp] theorem State.corrected_settings (port : Nat) : (State.corrected s port).settings = s.settings := by
  obtain ⟨_, _, h⟩ := State.corrected_changes s port; rw [h]
@[simp] theorem State.corrected_portSettings (port : Nat) : (State.corrected s port).portSettings = s.portSettings := by
  obtain ⟨_, _, h⟩ := State.corrected_changes s port; rw [h]
@[simp] theorem State.corrected_portQueue (port : Nat) : (State.corrected s port).portQueue = s.portQueue := by
  obtain ⟨_, _, h⟩ := State.corrected_changes s port; rw [h]
@[simp] theorem State.corrected_stintSettings (port : Nat) : (State.corrected s port).stintSettings = s.stintSettings := by
  obtain ⟨_, _, h⟩ := State.corrected_changes s port; rw [h]
@[simp] theorem State.corrected_stintStart (port : Nat) : (State.corrected s port).stintStart = s.stintStart := by
  obtain ⟨_, _, h⟩ := State.corrected_changes s port; rw [h]
@[simp] theorem State.corrected_ledger (port : Nat) : (State.corrected s port).ledger = s.ledger := by
  obtain ⟨_, _, h⟩ := State.corrected_changes s port; rw [h]
@[simp] theorem State.corrected_nextLedger (port : Nat) : (State.corrected s port).nextLedger = s.nextLedger := by
  obtain ⟨_, _, h⟩ := State.corrected_changes s port; rw [h]
@[simp] theorem State.corrected_commits (port : Nat) : (State.corrected s port).commits = s.commits := by
  obtain ⟨_, _, h⟩ := State.corrected_changes s port; rw [h]
@[simp] theorem State.corrected_trust (port : Nat) : (State.corrected s port).trust = s.trust := by
  obtain ⟨_, _, h⟩ := State.corrected_changes s port; rw [h]
@[simp] theorem State.corrected_programs (port : Nat) : (State.corrected s port).programs = s.programs := by
  obtain ⟨_, _, h⟩ := State.corrected_changes s port; rw [h]
@[simp] theorem State.corrected_freezes (port : Nat) : (State.corrected s port).freezes = s.freezes := by
  obtain ⟨_, _, h⟩ := State.corrected_changes s port; rw [h]
@[simp] theorem State.corrected_net9 (port : Nat) : (State.corrected s port).net9 = s.net9 := by
  obtain ⟨_, _, h⟩ := State.corrected_changes s port; rw [h]
@[simp] theorem State.corrected_pair (port : Nat) : (State.corrected s port).pair = s.pair := by
  obtain ⟨_, _, h⟩ := State.corrected_changes s port; rw [h]
@[simp] theorem State.corrected_power (port : Nat) : (State.corrected s port).power = s.power := by
  obtain ⟨_, _, h⟩ := State.corrected_changes s port; rw [h]
@[simp] theorem State.corrected_health (port : Nat) : (State.corrected s port).health = s.health := by
  obtain ⟨_, _, h⟩ := State.corrected_changes s port; rw [h]

/-! ## State.afterCmd -/

/-- State.afterCmd changes sources alone. -/
theorem State.afterCmd_changes (k : Nat) :
    ∃ x0, State.afterCmd s k = { s with sources := x0 } := by unfold State.afterCmd; repeat' (first | exact ⟨_, rfl⟩ | split)

@[simp] theorem State.afterCmd_pending (k : Nat) : (State.afterCmd s k).pending = s.pending := by
  obtain ⟨_, h⟩ := State.afterCmd_changes s k; rw [h]
@[simp] theorem State.afterCmd_now (k : Nat) : (State.afterCmd s k).now = s.now := by
  obtain ⟨_, h⟩ := State.afterCmd_changes s k; rw [h]
@[simp] theorem State.afterCmd_mem (k : Nat) : (State.afterCmd s k).mem = s.mem := by
  obtain ⟨_, h⟩ := State.afterCmd_changes s k; rw [h]
@[simp] theorem State.afterCmd_poison (k : Nat) : (State.afterCmd s k).poison = s.poison := by
  obtain ⟨_, h⟩ := State.afterCmd_changes s k; rw [h]
@[simp] theorem State.afterCmd_written (k : Nat) : (State.afterCmd s k).written = s.written := by
  obtain ⟨_, h⟩ := State.afterCmd_changes s k; rw [h]
@[simp] theorem State.afterCmd_tensors (k : Nat) : (State.afterCmd s k).tensors = s.tensors := by
  obtain ⟨_, h⟩ := State.afterCmd_changes s k; rw [h]
@[simp] theorem State.afterCmd_nets (k : Nat) : (State.afterCmd s k).nets = s.nets := by
  obtain ⟨_, h⟩ := State.afterCmd_changes s k; rw [h]
@[simp] theorem State.afterCmd_cores (k : Nat) : (State.afterCmd s k).cores = s.cores := by
  obtain ⟨_, h⟩ := State.afterCmd_changes s k; rw [h]
@[simp] theorem State.afterCmd_actStacks (k : Nat) : (State.afterCmd s k).actStacks = s.actStacks := by
  obtain ⟨_, h⟩ := State.afterCmd_changes s k; rw [h]
@[simp] theorem State.afterCmd_stampCounter (k : Nat) : (State.afterCmd s k).stampCounter = s.stampCounter := by
  obtain ⟨_, h⟩ := State.afterCmd_changes s k; rw [h]
@[simp] theorem State.afterCmd_cmds (k : Nat) : (State.afterCmd s k).cmds = s.cmds := by
  obtain ⟨_, h⟩ := State.afterCmd_changes s k; rw [h]
@[simp] theorem State.afterCmd_nextNo (k : Nat) : (State.afterCmd s k).nextNo = s.nextNo := by
  obtain ⟨_, h⟩ := State.afterCmd_changes s k; rw [h]
@[simp] theorem State.afterCmd_out (k : Nat) : (State.afterCmd s k).out = s.out := by
  obtain ⟨_, h⟩ := State.afterCmd_changes s k; rw [h]
@[simp] theorem State.afterCmd_attention (k : Nat) : (State.afterCmd s k).attention = s.attention := by
  obtain ⟨_, h⟩ := State.afterCmd_changes s k; rw [h]
@[simp] theorem State.afterCmd_i3c (k : Nat) : (State.afterCmd s k).i3c = s.i3c := by
  obtain ⟨_, h⟩ := State.afterCmd_changes s k; rw [h]
@[simp] theorem State.afterCmd_streams (k : Nat) : (State.afterCmd s k).streams = s.streams := by
  obtain ⟨_, h⟩ := State.afterCmd_changes s k; rw [h]
@[simp] theorem State.afterCmd_settings (k : Nat) : (State.afterCmd s k).settings = s.settings := by
  obtain ⟨_, h⟩ := State.afterCmd_changes s k; rw [h]
@[simp] theorem State.afterCmd_portSettings (k : Nat) : (State.afterCmd s k).portSettings = s.portSettings := by
  obtain ⟨_, h⟩ := State.afterCmd_changes s k; rw [h]
@[simp] theorem State.afterCmd_portQueue (k : Nat) : (State.afterCmd s k).portQueue = s.portQueue := by
  obtain ⟨_, h⟩ := State.afterCmd_changes s k; rw [h]
@[simp] theorem State.afterCmd_stintSettings (k : Nat) : (State.afterCmd s k).stintSettings = s.stintSettings := by
  obtain ⟨_, h⟩ := State.afterCmd_changes s k; rw [h]
@[simp] theorem State.afterCmd_stintStart (k : Nat) : (State.afterCmd s k).stintStart = s.stintStart := by
  obtain ⟨_, h⟩ := State.afterCmd_changes s k; rw [h]
@[simp] theorem State.afterCmd_ledger (k : Nat) : (State.afterCmd s k).ledger = s.ledger := by
  obtain ⟨_, h⟩ := State.afterCmd_changes s k; rw [h]
@[simp] theorem State.afterCmd_nextLedger (k : Nat) : (State.afterCmd s k).nextLedger = s.nextLedger := by
  obtain ⟨_, h⟩ := State.afterCmd_changes s k; rw [h]
@[simp] theorem State.afterCmd_commits (k : Nat) : (State.afterCmd s k).commits = s.commits := by
  obtain ⟨_, h⟩ := State.afterCmd_changes s k; rw [h]
@[simp] theorem State.afterCmd_trust (k : Nat) : (State.afterCmd s k).trust = s.trust := by
  obtain ⟨_, h⟩ := State.afterCmd_changes s k; rw [h]
@[simp] theorem State.afterCmd_programs (k : Nat) : (State.afterCmd s k).programs = s.programs := by
  obtain ⟨_, h⟩ := State.afterCmd_changes s k; rw [h]
@[simp] theorem State.afterCmd_freezes (k : Nat) : (State.afterCmd s k).freezes = s.freezes := by
  obtain ⟨_, h⟩ := State.afterCmd_changes s k; rw [h]
@[simp] theorem State.afterCmd_net9 (k : Nat) : (State.afterCmd s k).net9 = s.net9 := by
  obtain ⟨_, h⟩ := State.afterCmd_changes s k; rw [h]
@[simp] theorem State.afterCmd_pair (k : Nat) : (State.afterCmd s k).pair = s.pair := by
  obtain ⟨_, h⟩ := State.afterCmd_changes s k; rw [h]
@[simp] theorem State.afterCmd_power (k : Nat) : (State.afterCmd s k).power = s.power := by
  obtain ⟨_, h⟩ := State.afterCmd_changes s k; rw [h]
@[simp] theorem State.afterCmd_health (k : Nat) : (State.afterCmd s k).health = s.health := by
  obtain ⟨_, h⟩ := State.afterCmd_changes s k; rw [h]
@[simp] theorem State.afterCmd_ctrs (k : Nat) : (State.afterCmd s k).ctrs = s.ctrs := by
  obtain ⟨_, h⟩ := State.afterCmd_changes s k; rw [h]
@[simp] theorem State.afterCmd_free (k : Nat) : (State.afterCmd s k).free = s.free := by
  obtain ⟨_, h⟩ := State.afterCmd_changes s k; rw [h]

/-! ## State.startCmd -/

/-- State.startCmd changes cmds alone. -/
theorem State.startCmd_changes (c : Cmd) :
    ∃ x0, State.startCmd s c = { s with cmds := x0 } := by unfold State.startCmd; split <;> exact ⟨_, rfl⟩

@[simp] theorem State.startCmd_pending (c : Cmd) : (State.startCmd s c).pending = s.pending := by
  obtain ⟨_, h⟩ := State.startCmd_changes s c; rw [h]
@[simp] theorem State.startCmd_now (c : Cmd) : (State.startCmd s c).now = s.now := by
  obtain ⟨_, h⟩ := State.startCmd_changes s c; rw [h]
@[simp] theorem State.startCmd_mem (c : Cmd) : (State.startCmd s c).mem = s.mem := by
  obtain ⟨_, h⟩ := State.startCmd_changes s c; rw [h]
@[simp] theorem State.startCmd_poison (c : Cmd) : (State.startCmd s c).poison = s.poison := by
  obtain ⟨_, h⟩ := State.startCmd_changes s c; rw [h]
@[simp] theorem State.startCmd_written (c : Cmd) : (State.startCmd s c).written = s.written := by
  obtain ⟨_, h⟩ := State.startCmd_changes s c; rw [h]
@[simp] theorem State.startCmd_tensors (c : Cmd) : (State.startCmd s c).tensors = s.tensors := by
  obtain ⟨_, h⟩ := State.startCmd_changes s c; rw [h]
@[simp] theorem State.startCmd_nets (c : Cmd) : (State.startCmd s c).nets = s.nets := by
  obtain ⟨_, h⟩ := State.startCmd_changes s c; rw [h]
@[simp] theorem State.startCmd_cores (c : Cmd) : (State.startCmd s c).cores = s.cores := by
  obtain ⟨_, h⟩ := State.startCmd_changes s c; rw [h]
@[simp] theorem State.startCmd_actStacks (c : Cmd) : (State.startCmd s c).actStacks = s.actStacks := by
  obtain ⟨_, h⟩ := State.startCmd_changes s c; rw [h]
@[simp] theorem State.startCmd_stampCounter (c : Cmd) : (State.startCmd s c).stampCounter = s.stampCounter := by
  obtain ⟨_, h⟩ := State.startCmd_changes s c; rw [h]
@[simp] theorem State.startCmd_sources (c : Cmd) : (State.startCmd s c).sources = s.sources := by
  obtain ⟨_, h⟩ := State.startCmd_changes s c; rw [h]
@[simp] theorem State.startCmd_nextNo (c : Cmd) : (State.startCmd s c).nextNo = s.nextNo := by
  obtain ⟨_, h⟩ := State.startCmd_changes s c; rw [h]
@[simp] theorem State.startCmd_out (c : Cmd) : (State.startCmd s c).out = s.out := by
  obtain ⟨_, h⟩ := State.startCmd_changes s c; rw [h]
@[simp] theorem State.startCmd_attention (c : Cmd) : (State.startCmd s c).attention = s.attention := by
  obtain ⟨_, h⟩ := State.startCmd_changes s c; rw [h]
@[simp] theorem State.startCmd_i3c (c : Cmd) : (State.startCmd s c).i3c = s.i3c := by
  obtain ⟨_, h⟩ := State.startCmd_changes s c; rw [h]
@[simp] theorem State.startCmd_streams (c : Cmd) : (State.startCmd s c).streams = s.streams := by
  obtain ⟨_, h⟩ := State.startCmd_changes s c; rw [h]
@[simp] theorem State.startCmd_settings (c : Cmd) : (State.startCmd s c).settings = s.settings := by
  obtain ⟨_, h⟩ := State.startCmd_changes s c; rw [h]
@[simp] theorem State.startCmd_portSettings (c : Cmd) : (State.startCmd s c).portSettings = s.portSettings := by
  obtain ⟨_, h⟩ := State.startCmd_changes s c; rw [h]
@[simp] theorem State.startCmd_portQueue (c : Cmd) : (State.startCmd s c).portQueue = s.portQueue := by
  obtain ⟨_, h⟩ := State.startCmd_changes s c; rw [h]
@[simp] theorem State.startCmd_stintSettings (c : Cmd) : (State.startCmd s c).stintSettings = s.stintSettings := by
  obtain ⟨_, h⟩ := State.startCmd_changes s c; rw [h]
@[simp] theorem State.startCmd_stintStart (c : Cmd) : (State.startCmd s c).stintStart = s.stintStart := by
  obtain ⟨_, h⟩ := State.startCmd_changes s c; rw [h]
@[simp] theorem State.startCmd_ledger (c : Cmd) : (State.startCmd s c).ledger = s.ledger := by
  obtain ⟨_, h⟩ := State.startCmd_changes s c; rw [h]
@[simp] theorem State.startCmd_nextLedger (c : Cmd) : (State.startCmd s c).nextLedger = s.nextLedger := by
  obtain ⟨_, h⟩ := State.startCmd_changes s c; rw [h]
@[simp] theorem State.startCmd_commits (c : Cmd) : (State.startCmd s c).commits = s.commits := by
  obtain ⟨_, h⟩ := State.startCmd_changes s c; rw [h]
@[simp] theorem State.startCmd_trust (c : Cmd) : (State.startCmd s c).trust = s.trust := by
  obtain ⟨_, h⟩ := State.startCmd_changes s c; rw [h]
@[simp] theorem State.startCmd_programs (c : Cmd) : (State.startCmd s c).programs = s.programs := by
  obtain ⟨_, h⟩ := State.startCmd_changes s c; rw [h]
@[simp] theorem State.startCmd_freezes (c : Cmd) : (State.startCmd s c).freezes = s.freezes := by
  obtain ⟨_, h⟩ := State.startCmd_changes s c; rw [h]
@[simp] theorem State.startCmd_net9 (c : Cmd) : (State.startCmd s c).net9 = s.net9 := by
  obtain ⟨_, h⟩ := State.startCmd_changes s c; rw [h]
@[simp] theorem State.startCmd_pair (c : Cmd) : (State.startCmd s c).pair = s.pair := by
  obtain ⟨_, h⟩ := State.startCmd_changes s c; rw [h]
@[simp] theorem State.startCmd_power (c : Cmd) : (State.startCmd s c).power = s.power := by
  obtain ⟨_, h⟩ := State.startCmd_changes s c; rw [h]
@[simp] theorem State.startCmd_health (c : Cmd) : (State.startCmd s c).health = s.health := by
  obtain ⟨_, h⟩ := State.startCmd_changes s c; rw [h]
@[simp] theorem State.startCmd_ctrs (c : Cmd) : (State.startCmd s c).ctrs = s.ctrs := by
  obtain ⟨_, h⟩ := State.startCmd_changes s c; rw [h]
@[simp] theorem State.startCmd_free (c : Cmd) : (State.startCmd s c).free = s.free := by
  obtain ⟨_, h⟩ := State.startCmd_changes s c; rw [h]

/-! ## State.send -/

/-- State.send changes out, i3c, attention, ctrs alone. -/
theorem State.send_changes (k : OutPkt) :
    ∃ x0 x1 x2 x3, State.send s k = { s with out := x0, i3c := x1, attention := x2, ctrs := x3 } := by
  unfold State.send; repeat' split
  · obtain ⟨x, h⟩ := State.count_changes (({ s with i3c := { s.i3c with outDrop := true } }).overrun 1) 0x060B 1; exact ⟨_, _, _, _, h⟩
  all_goals exact ⟨_, _, _, _, rfl⟩

@[simp] theorem State.send_pending (k : OutPkt) : (State.send s k).pending = s.pending := by
  obtain ⟨_, _, _, _, h⟩ := State.send_changes s k; rw [h]
@[simp] theorem State.send_now (k : OutPkt) : (State.send s k).now = s.now := by
  obtain ⟨_, _, _, _, h⟩ := State.send_changes s k; rw [h]
@[simp] theorem State.send_mem (k : OutPkt) : (State.send s k).mem = s.mem := by
  obtain ⟨_, _, _, _, h⟩ := State.send_changes s k; rw [h]
@[simp] theorem State.send_poison (k : OutPkt) : (State.send s k).poison = s.poison := by
  obtain ⟨_, _, _, _, h⟩ := State.send_changes s k; rw [h]
@[simp] theorem State.send_written (k : OutPkt) : (State.send s k).written = s.written := by
  obtain ⟨_, _, _, _, h⟩ := State.send_changes s k; rw [h]
@[simp] theorem State.send_tensors (k : OutPkt) : (State.send s k).tensors = s.tensors := by
  obtain ⟨_, _, _, _, h⟩ := State.send_changes s k; rw [h]
@[simp] theorem State.send_nets (k : OutPkt) : (State.send s k).nets = s.nets := by
  obtain ⟨_, _, _, _, h⟩ := State.send_changes s k; rw [h]
@[simp] theorem State.send_cores (k : OutPkt) : (State.send s k).cores = s.cores := by
  obtain ⟨_, _, _, _, h⟩ := State.send_changes s k; rw [h]
@[simp] theorem State.send_actStacks (k : OutPkt) : (State.send s k).actStacks = s.actStacks := by
  obtain ⟨_, _, _, _, h⟩ := State.send_changes s k; rw [h]
@[simp] theorem State.send_stampCounter (k : OutPkt) : (State.send s k).stampCounter = s.stampCounter := by
  obtain ⟨_, _, _, _, h⟩ := State.send_changes s k; rw [h]
@[simp] theorem State.send_sources (k : OutPkt) : (State.send s k).sources = s.sources := by
  obtain ⟨_, _, _, _, h⟩ := State.send_changes s k; rw [h]
@[simp] theorem State.send_cmds (k : OutPkt) : (State.send s k).cmds = s.cmds := by
  obtain ⟨_, _, _, _, h⟩ := State.send_changes s k; rw [h]
@[simp] theorem State.send_nextNo (k : OutPkt) : (State.send s k).nextNo = s.nextNo := by
  obtain ⟨_, _, _, _, h⟩ := State.send_changes s k; rw [h]
@[simp] theorem State.send_streams (k : OutPkt) : (State.send s k).streams = s.streams := by
  obtain ⟨_, _, _, _, h⟩ := State.send_changes s k; rw [h]
@[simp] theorem State.send_settings (k : OutPkt) : (State.send s k).settings = s.settings := by
  obtain ⟨_, _, _, _, h⟩ := State.send_changes s k; rw [h]
@[simp] theorem State.send_portSettings (k : OutPkt) : (State.send s k).portSettings = s.portSettings := by
  obtain ⟨_, _, _, _, h⟩ := State.send_changes s k; rw [h]
@[simp] theorem State.send_portQueue (k : OutPkt) : (State.send s k).portQueue = s.portQueue := by
  obtain ⟨_, _, _, _, h⟩ := State.send_changes s k; rw [h]
@[simp] theorem State.send_stintSettings (k : OutPkt) : (State.send s k).stintSettings = s.stintSettings := by
  obtain ⟨_, _, _, _, h⟩ := State.send_changes s k; rw [h]
@[simp] theorem State.send_stintStart (k : OutPkt) : (State.send s k).stintStart = s.stintStart := by
  obtain ⟨_, _, _, _, h⟩ := State.send_changes s k; rw [h]
@[simp] theorem State.send_ledger (k : OutPkt) : (State.send s k).ledger = s.ledger := by
  obtain ⟨_, _, _, _, h⟩ := State.send_changes s k; rw [h]
@[simp] theorem State.send_nextLedger (k : OutPkt) : (State.send s k).nextLedger = s.nextLedger := by
  obtain ⟨_, _, _, _, h⟩ := State.send_changes s k; rw [h]
@[simp] theorem State.send_commits (k : OutPkt) : (State.send s k).commits = s.commits := by
  obtain ⟨_, _, _, _, h⟩ := State.send_changes s k; rw [h]
@[simp] theorem State.send_trust (k : OutPkt) : (State.send s k).trust = s.trust := by
  obtain ⟨_, _, _, _, h⟩ := State.send_changes s k; rw [h]
@[simp] theorem State.send_programs (k : OutPkt) : (State.send s k).programs = s.programs := by
  obtain ⟨_, _, _, _, h⟩ := State.send_changes s k; rw [h]
@[simp] theorem State.send_freezes (k : OutPkt) : (State.send s k).freezes = s.freezes := by
  obtain ⟨_, _, _, _, h⟩ := State.send_changes s k; rw [h]
@[simp] theorem State.send_net9 (k : OutPkt) : (State.send s k).net9 = s.net9 := by
  obtain ⟨_, _, _, _, h⟩ := State.send_changes s k; rw [h]
@[simp] theorem State.send_pair (k : OutPkt) : (State.send s k).pair = s.pair := by
  obtain ⟨_, _, _, _, h⟩ := State.send_changes s k; rw [h]
@[simp] theorem State.send_power (k : OutPkt) : (State.send s k).power = s.power := by
  obtain ⟨_, _, _, _, h⟩ := State.send_changes s k; rw [h]
@[simp] theorem State.send_health (k : OutPkt) : (State.send s k).health = s.health := by
  obtain ⟨_, _, _, _, h⟩ := State.send_changes s k; rw [h]
@[simp] theorem State.send_free (k : OutPkt) : (State.send s k).free = s.free := by
  obtain ⟨_, _, _, _, h⟩ := State.send_changes s k; rw [h]

/-! ## State.replyOn -/

@[simp] theorem State.replyOn_pending (port opcode : Nat) (k : Kind) (source tag res : Nat) (ps : List Byte) : (State.replyOn s port opcode k source tag res ps).pending = s.pending := State.send_pending s _
@[simp] theorem State.replyOn_now (port opcode : Nat) (k : Kind) (source tag res : Nat) (ps : List Byte) : (State.replyOn s port opcode k source tag res ps).now = s.now := State.send_now s _
@[simp] theorem State.replyOn_mem (port opcode : Nat) (k : Kind) (source tag res : Nat) (ps : List Byte) : (State.replyOn s port opcode k source tag res ps).mem = s.mem := State.send_mem s _
@[simp] theorem State.replyOn_poison (port opcode : Nat) (k : Kind) (source tag res : Nat) (ps : List Byte) : (State.replyOn s port opcode k source tag res ps).poison = s.poison := State.send_poison s _
@[simp] theorem State.replyOn_written (port opcode : Nat) (k : Kind) (source tag res : Nat) (ps : List Byte) : (State.replyOn s port opcode k source tag res ps).written = s.written := State.send_written s _
@[simp] theorem State.replyOn_tensors (port opcode : Nat) (k : Kind) (source tag res : Nat) (ps : List Byte) : (State.replyOn s port opcode k source tag res ps).tensors = s.tensors := State.send_tensors s _
@[simp] theorem State.replyOn_nets (port opcode : Nat) (k : Kind) (source tag res : Nat) (ps : List Byte) : (State.replyOn s port opcode k source tag res ps).nets = s.nets := State.send_nets s _
@[simp] theorem State.replyOn_cores (port opcode : Nat) (k : Kind) (source tag res : Nat) (ps : List Byte) : (State.replyOn s port opcode k source tag res ps).cores = s.cores := State.send_cores s _
@[simp] theorem State.replyOn_actStacks (port opcode : Nat) (k : Kind) (source tag res : Nat) (ps : List Byte) : (State.replyOn s port opcode k source tag res ps).actStacks = s.actStacks := State.send_actStacks s _
@[simp] theorem State.replyOn_stampCounter (port opcode : Nat) (k : Kind) (source tag res : Nat) (ps : List Byte) : (State.replyOn s port opcode k source tag res ps).stampCounter = s.stampCounter := State.send_stampCounter s _
@[simp] theorem State.replyOn_sources (port opcode : Nat) (k : Kind) (source tag res : Nat) (ps : List Byte) : (State.replyOn s port opcode k source tag res ps).sources = s.sources := State.send_sources s _
@[simp] theorem State.replyOn_cmds (port opcode : Nat) (k : Kind) (source tag res : Nat) (ps : List Byte) : (State.replyOn s port opcode k source tag res ps).cmds = s.cmds := State.send_cmds s _
@[simp] theorem State.replyOn_nextNo (port opcode : Nat) (k : Kind) (source tag res : Nat) (ps : List Byte) : (State.replyOn s port opcode k source tag res ps).nextNo = s.nextNo := State.send_nextNo s _
@[simp] theorem State.replyOn_streams (port opcode : Nat) (k : Kind) (source tag res : Nat) (ps : List Byte) : (State.replyOn s port opcode k source tag res ps).streams = s.streams := State.send_streams s _
@[simp] theorem State.replyOn_settings (port opcode : Nat) (k : Kind) (source tag res : Nat) (ps : List Byte) : (State.replyOn s port opcode k source tag res ps).settings = s.settings := State.send_settings s _
@[simp] theorem State.replyOn_portSettings (port opcode : Nat) (k : Kind) (source tag res : Nat) (ps : List Byte) : (State.replyOn s port opcode k source tag res ps).portSettings = s.portSettings := State.send_portSettings s _
@[simp] theorem State.replyOn_portQueue (port opcode : Nat) (k : Kind) (source tag res : Nat) (ps : List Byte) : (State.replyOn s port opcode k source tag res ps).portQueue = s.portQueue := State.send_portQueue s _
@[simp] theorem State.replyOn_stintSettings (port opcode : Nat) (k : Kind) (source tag res : Nat) (ps : List Byte) : (State.replyOn s port opcode k source tag res ps).stintSettings = s.stintSettings := State.send_stintSettings s _
@[simp] theorem State.replyOn_stintStart (port opcode : Nat) (k : Kind) (source tag res : Nat) (ps : List Byte) : (State.replyOn s port opcode k source tag res ps).stintStart = s.stintStart := State.send_stintStart s _
@[simp] theorem State.replyOn_ledger (port opcode : Nat) (k : Kind) (source tag res : Nat) (ps : List Byte) : (State.replyOn s port opcode k source tag res ps).ledger = s.ledger := State.send_ledger s _
@[simp] theorem State.replyOn_nextLedger (port opcode : Nat) (k : Kind) (source tag res : Nat) (ps : List Byte) : (State.replyOn s port opcode k source tag res ps).nextLedger = s.nextLedger := State.send_nextLedger s _
@[simp] theorem State.replyOn_commits (port opcode : Nat) (k : Kind) (source tag res : Nat) (ps : List Byte) : (State.replyOn s port opcode k source tag res ps).commits = s.commits := State.send_commits s _
@[simp] theorem State.replyOn_trust (port opcode : Nat) (k : Kind) (source tag res : Nat) (ps : List Byte) : (State.replyOn s port opcode k source tag res ps).trust = s.trust := State.send_trust s _
@[simp] theorem State.replyOn_programs (port opcode : Nat) (k : Kind) (source tag res : Nat) (ps : List Byte) : (State.replyOn s port opcode k source tag res ps).programs = s.programs := State.send_programs s _
@[simp] theorem State.replyOn_freezes (port opcode : Nat) (k : Kind) (source tag res : Nat) (ps : List Byte) : (State.replyOn s port opcode k source tag res ps).freezes = s.freezes := State.send_freezes s _
@[simp] theorem State.replyOn_net9 (port opcode : Nat) (k : Kind) (source tag res : Nat) (ps : List Byte) : (State.replyOn s port opcode k source tag res ps).net9 = s.net9 := State.send_net9 s _
@[simp] theorem State.replyOn_pair (port opcode : Nat) (k : Kind) (source tag res : Nat) (ps : List Byte) : (State.replyOn s port opcode k source tag res ps).pair = s.pair := State.send_pair s _
@[simp] theorem State.replyOn_power (port opcode : Nat) (k : Kind) (source tag res : Nat) (ps : List Byte) : (State.replyOn s port opcode k source tag res ps).power = s.power := State.send_power s _
@[simp] theorem State.replyOn_health (port opcode : Nat) (k : Kind) (source tag res : Nat) (ps : List Byte) : (State.replyOn s port opcode k source tag res ps).health = s.health := State.send_health s _
@[simp] theorem State.replyOn_free (port opcode : Nat) (k : Kind) (source tag res : Nat) (ps : List Byte) : (State.replyOn s port opcode k source tag res ps).free = s.free := State.send_free s _

/-! ## State.answerTo -/

@[simp] theorem State.answerTo_pending (port opcode source tag : Nat) (x : Res) (ps : List Byte) : (State.answerTo s port opcode source tag x ps).pending = s.pending := State.send_pending s _
@[simp] theorem State.answerTo_now (port opcode source tag : Nat) (x : Res) (ps : List Byte) : (State.answerTo s port opcode source tag x ps).now = s.now := State.send_now s _
@[simp] theorem State.answerTo_mem (port opcode source tag : Nat) (x : Res) (ps : List Byte) : (State.answerTo s port opcode source tag x ps).mem = s.mem := State.send_mem s _
@[simp] theorem State.answerTo_poison (port opcode source tag : Nat) (x : Res) (ps : List Byte) : (State.answerTo s port opcode source tag x ps).poison = s.poison := State.send_poison s _
@[simp] theorem State.answerTo_written (port opcode source tag : Nat) (x : Res) (ps : List Byte) : (State.answerTo s port opcode source tag x ps).written = s.written := State.send_written s _
@[simp] theorem State.answerTo_tensors (port opcode source tag : Nat) (x : Res) (ps : List Byte) : (State.answerTo s port opcode source tag x ps).tensors = s.tensors := State.send_tensors s _
@[simp] theorem State.answerTo_nets (port opcode source tag : Nat) (x : Res) (ps : List Byte) : (State.answerTo s port opcode source tag x ps).nets = s.nets := State.send_nets s _
@[simp] theorem State.answerTo_cores (port opcode source tag : Nat) (x : Res) (ps : List Byte) : (State.answerTo s port opcode source tag x ps).cores = s.cores := State.send_cores s _
@[simp] theorem State.answerTo_actStacks (port opcode source tag : Nat) (x : Res) (ps : List Byte) : (State.answerTo s port opcode source tag x ps).actStacks = s.actStacks := State.send_actStacks s _
@[simp] theorem State.answerTo_stampCounter (port opcode source tag : Nat) (x : Res) (ps : List Byte) : (State.answerTo s port opcode source tag x ps).stampCounter = s.stampCounter := State.send_stampCounter s _
@[simp] theorem State.answerTo_sources (port opcode source tag : Nat) (x : Res) (ps : List Byte) : (State.answerTo s port opcode source tag x ps).sources = s.sources := State.send_sources s _
@[simp] theorem State.answerTo_cmds (port opcode source tag : Nat) (x : Res) (ps : List Byte) : (State.answerTo s port opcode source tag x ps).cmds = s.cmds := State.send_cmds s _
@[simp] theorem State.answerTo_nextNo (port opcode source tag : Nat) (x : Res) (ps : List Byte) : (State.answerTo s port opcode source tag x ps).nextNo = s.nextNo := State.send_nextNo s _
@[simp] theorem State.answerTo_streams (port opcode source tag : Nat) (x : Res) (ps : List Byte) : (State.answerTo s port opcode source tag x ps).streams = s.streams := State.send_streams s _
@[simp] theorem State.answerTo_settings (port opcode source tag : Nat) (x : Res) (ps : List Byte) : (State.answerTo s port opcode source tag x ps).settings = s.settings := State.send_settings s _
@[simp] theorem State.answerTo_portSettings (port opcode source tag : Nat) (x : Res) (ps : List Byte) : (State.answerTo s port opcode source tag x ps).portSettings = s.portSettings := State.send_portSettings s _
@[simp] theorem State.answerTo_portQueue (port opcode source tag : Nat) (x : Res) (ps : List Byte) : (State.answerTo s port opcode source tag x ps).portQueue = s.portQueue := State.send_portQueue s _
@[simp] theorem State.answerTo_stintSettings (port opcode source tag : Nat) (x : Res) (ps : List Byte) : (State.answerTo s port opcode source tag x ps).stintSettings = s.stintSettings := State.send_stintSettings s _
@[simp] theorem State.answerTo_stintStart (port opcode source tag : Nat) (x : Res) (ps : List Byte) : (State.answerTo s port opcode source tag x ps).stintStart = s.stintStart := State.send_stintStart s _
@[simp] theorem State.answerTo_ledger (port opcode source tag : Nat) (x : Res) (ps : List Byte) : (State.answerTo s port opcode source tag x ps).ledger = s.ledger := State.send_ledger s _
@[simp] theorem State.answerTo_nextLedger (port opcode source tag : Nat) (x : Res) (ps : List Byte) : (State.answerTo s port opcode source tag x ps).nextLedger = s.nextLedger := State.send_nextLedger s _
@[simp] theorem State.answerTo_commits (port opcode source tag : Nat) (x : Res) (ps : List Byte) : (State.answerTo s port opcode source tag x ps).commits = s.commits := State.send_commits s _
@[simp] theorem State.answerTo_trust (port opcode source tag : Nat) (x : Res) (ps : List Byte) : (State.answerTo s port opcode source tag x ps).trust = s.trust := State.send_trust s _
@[simp] theorem State.answerTo_programs (port opcode source tag : Nat) (x : Res) (ps : List Byte) : (State.answerTo s port opcode source tag x ps).programs = s.programs := State.send_programs s _
@[simp] theorem State.answerTo_freezes (port opcode source tag : Nat) (x : Res) (ps : List Byte) : (State.answerTo s port opcode source tag x ps).freezes = s.freezes := State.send_freezes s _
@[simp] theorem State.answerTo_net9 (port opcode source tag : Nat) (x : Res) (ps : List Byte) : (State.answerTo s port opcode source tag x ps).net9 = s.net9 := State.send_net9 s _
@[simp] theorem State.answerTo_pair (port opcode source tag : Nat) (x : Res) (ps : List Byte) : (State.answerTo s port opcode source tag x ps).pair = s.pair := State.send_pair s _
@[simp] theorem State.answerTo_power (port opcode source tag : Nat) (x : Res) (ps : List Byte) : (State.answerTo s port opcode source tag x ps).power = s.power := State.send_power s _
@[simp] theorem State.answerTo_health (port opcode source tag : Nat) (x : Res) (ps : List Byte) : (State.answerTo s port opcode source tag x ps).health = s.health := State.send_health s _
@[simp] theorem State.answerTo_free (port opcode source tag : Nat) (x : Res) (ps : List Byte) : (State.answerTo s port opcode source tag x ps).free = s.free := State.send_free s _

/-! ## State.reply -/

/-- State.reply changes out, i3c, attention, ctrs alone. -/
theorem State.reply_changes (op : Op) (k : Kind) (source tag : Nat) (x : Res) (ps : List Byte) :
    ∃ x0 x1 x2 x3, State.reply s op k source tag x ps = { s with out := x0, i3c := x1, attention := x2, ctrs := x3 } := by
  unfold State.reply; split
  · exact State.send_changes s _
  · exact ⟨_, _, _, _, rfl⟩

@[simp] theorem State.reply_pending (op : Op) (k : Kind) (source tag : Nat) (x : Res) (ps : List Byte) : (State.reply s op k source tag x ps).pending = s.pending := by
  obtain ⟨_, _, _, _, h⟩ := State.reply_changes s op k source tag x ps; rw [h]
@[simp] theorem State.reply_now (op : Op) (k : Kind) (source tag : Nat) (x : Res) (ps : List Byte) : (State.reply s op k source tag x ps).now = s.now := by
  obtain ⟨_, _, _, _, h⟩ := State.reply_changes s op k source tag x ps; rw [h]
@[simp] theorem State.reply_mem (op : Op) (k : Kind) (source tag : Nat) (x : Res) (ps : List Byte) : (State.reply s op k source tag x ps).mem = s.mem := by
  obtain ⟨_, _, _, _, h⟩ := State.reply_changes s op k source tag x ps; rw [h]
@[simp] theorem State.reply_poison (op : Op) (k : Kind) (source tag : Nat) (x : Res) (ps : List Byte) : (State.reply s op k source tag x ps).poison = s.poison := by
  obtain ⟨_, _, _, _, h⟩ := State.reply_changes s op k source tag x ps; rw [h]
@[simp] theorem State.reply_written (op : Op) (k : Kind) (source tag : Nat) (x : Res) (ps : List Byte) : (State.reply s op k source tag x ps).written = s.written := by
  obtain ⟨_, _, _, _, h⟩ := State.reply_changes s op k source tag x ps; rw [h]
@[simp] theorem State.reply_tensors (op : Op) (k : Kind) (source tag : Nat) (x : Res) (ps : List Byte) : (State.reply s op k source tag x ps).tensors = s.tensors := by
  obtain ⟨_, _, _, _, h⟩ := State.reply_changes s op k source tag x ps; rw [h]
@[simp] theorem State.reply_nets (op : Op) (k : Kind) (source tag : Nat) (x : Res) (ps : List Byte) : (State.reply s op k source tag x ps).nets = s.nets := by
  obtain ⟨_, _, _, _, h⟩ := State.reply_changes s op k source tag x ps; rw [h]
@[simp] theorem State.reply_cores (op : Op) (k : Kind) (source tag : Nat) (x : Res) (ps : List Byte) : (State.reply s op k source tag x ps).cores = s.cores := by
  obtain ⟨_, _, _, _, h⟩ := State.reply_changes s op k source tag x ps; rw [h]
@[simp] theorem State.reply_actStacks (op : Op) (k : Kind) (source tag : Nat) (x : Res) (ps : List Byte) : (State.reply s op k source tag x ps).actStacks = s.actStacks := by
  obtain ⟨_, _, _, _, h⟩ := State.reply_changes s op k source tag x ps; rw [h]
@[simp] theorem State.reply_stampCounter (op : Op) (k : Kind) (source tag : Nat) (x : Res) (ps : List Byte) : (State.reply s op k source tag x ps).stampCounter = s.stampCounter := by
  obtain ⟨_, _, _, _, h⟩ := State.reply_changes s op k source tag x ps; rw [h]
@[simp] theorem State.reply_sources (op : Op) (k : Kind) (source tag : Nat) (x : Res) (ps : List Byte) : (State.reply s op k source tag x ps).sources = s.sources := by
  obtain ⟨_, _, _, _, h⟩ := State.reply_changes s op k source tag x ps; rw [h]
@[simp] theorem State.reply_cmds (op : Op) (k : Kind) (source tag : Nat) (x : Res) (ps : List Byte) : (State.reply s op k source tag x ps).cmds = s.cmds := by
  obtain ⟨_, _, _, _, h⟩ := State.reply_changes s op k source tag x ps; rw [h]
@[simp] theorem State.reply_nextNo (op : Op) (k : Kind) (source tag : Nat) (x : Res) (ps : List Byte) : (State.reply s op k source tag x ps).nextNo = s.nextNo := by
  obtain ⟨_, _, _, _, h⟩ := State.reply_changes s op k source tag x ps; rw [h]
@[simp] theorem State.reply_streams (op : Op) (k : Kind) (source tag : Nat) (x : Res) (ps : List Byte) : (State.reply s op k source tag x ps).streams = s.streams := by
  obtain ⟨_, _, _, _, h⟩ := State.reply_changes s op k source tag x ps; rw [h]
@[simp] theorem State.reply_settings (op : Op) (k : Kind) (source tag : Nat) (x : Res) (ps : List Byte) : (State.reply s op k source tag x ps).settings = s.settings := by
  obtain ⟨_, _, _, _, h⟩ := State.reply_changes s op k source tag x ps; rw [h]
@[simp] theorem State.reply_portSettings (op : Op) (k : Kind) (source tag : Nat) (x : Res) (ps : List Byte) : (State.reply s op k source tag x ps).portSettings = s.portSettings := by
  obtain ⟨_, _, _, _, h⟩ := State.reply_changes s op k source tag x ps; rw [h]
@[simp] theorem State.reply_portQueue (op : Op) (k : Kind) (source tag : Nat) (x : Res) (ps : List Byte) : (State.reply s op k source tag x ps).portQueue = s.portQueue := by
  obtain ⟨_, _, _, _, h⟩ := State.reply_changes s op k source tag x ps; rw [h]
@[simp] theorem State.reply_stintSettings (op : Op) (k : Kind) (source tag : Nat) (x : Res) (ps : List Byte) : (State.reply s op k source tag x ps).stintSettings = s.stintSettings := by
  obtain ⟨_, _, _, _, h⟩ := State.reply_changes s op k source tag x ps; rw [h]
@[simp] theorem State.reply_stintStart (op : Op) (k : Kind) (source tag : Nat) (x : Res) (ps : List Byte) : (State.reply s op k source tag x ps).stintStart = s.stintStart := by
  obtain ⟨_, _, _, _, h⟩ := State.reply_changes s op k source tag x ps; rw [h]
@[simp] theorem State.reply_ledger (op : Op) (k : Kind) (source tag : Nat) (x : Res) (ps : List Byte) : (State.reply s op k source tag x ps).ledger = s.ledger := by
  obtain ⟨_, _, _, _, h⟩ := State.reply_changes s op k source tag x ps; rw [h]
@[simp] theorem State.reply_nextLedger (op : Op) (k : Kind) (source tag : Nat) (x : Res) (ps : List Byte) : (State.reply s op k source tag x ps).nextLedger = s.nextLedger := by
  obtain ⟨_, _, _, _, h⟩ := State.reply_changes s op k source tag x ps; rw [h]
@[simp] theorem State.reply_commits (op : Op) (k : Kind) (source tag : Nat) (x : Res) (ps : List Byte) : (State.reply s op k source tag x ps).commits = s.commits := by
  obtain ⟨_, _, _, _, h⟩ := State.reply_changes s op k source tag x ps; rw [h]
@[simp] theorem State.reply_trust (op : Op) (k : Kind) (source tag : Nat) (x : Res) (ps : List Byte) : (State.reply s op k source tag x ps).trust = s.trust := by
  obtain ⟨_, _, _, _, h⟩ := State.reply_changes s op k source tag x ps; rw [h]
@[simp] theorem State.reply_programs (op : Op) (k : Kind) (source tag : Nat) (x : Res) (ps : List Byte) : (State.reply s op k source tag x ps).programs = s.programs := by
  obtain ⟨_, _, _, _, h⟩ := State.reply_changes s op k source tag x ps; rw [h]
@[simp] theorem State.reply_freezes (op : Op) (k : Kind) (source tag : Nat) (x : Res) (ps : List Byte) : (State.reply s op k source tag x ps).freezes = s.freezes := by
  obtain ⟨_, _, _, _, h⟩ := State.reply_changes s op k source tag x ps; rw [h]
@[simp] theorem State.reply_net9 (op : Op) (k : Kind) (source tag : Nat) (x : Res) (ps : List Byte) : (State.reply s op k source tag x ps).net9 = s.net9 := by
  obtain ⟨_, _, _, _, h⟩ := State.reply_changes s op k source tag x ps; rw [h]
@[simp] theorem State.reply_pair (op : Op) (k : Kind) (source tag : Nat) (x : Res) (ps : List Byte) : (State.reply s op k source tag x ps).pair = s.pair := by
  obtain ⟨_, _, _, _, h⟩ := State.reply_changes s op k source tag x ps; rw [h]
@[simp] theorem State.reply_power (op : Op) (k : Kind) (source tag : Nat) (x : Res) (ps : List Byte) : (State.reply s op k source tag x ps).power = s.power := by
  obtain ⟨_, _, _, _, h⟩ := State.reply_changes s op k source tag x ps; rw [h]
@[simp] theorem State.reply_health (op : Op) (k : Kind) (source tag : Nat) (x : Res) (ps : List Byte) : (State.reply s op k source tag x ps).health = s.health := by
  obtain ⟨_, _, _, _, h⟩ := State.reply_changes s op k source tag x ps; rw [h]
@[simp] theorem State.reply_free (op : Op) (k : Kind) (source tag : Nat) (x : Res) (ps : List Byte) : (State.reply s op k source tag x ps).free = s.free := by
  obtain ⟨_, _, _, _, h⟩ := State.reply_changes s op k source tag x ps; rw [h]

/-! ## State.audit -/

/-- State.audit changes trust, attention alone. -/
theorem State.audit_changes (e : AuditEvent) :
    ∃ x0 x1, State.audit s e = { s with trust := x0, attention := x1 } := by unfold State.audit; repeat' (first | exact ⟨_, _, rfl⟩ | dsimp only | split)

@[simp] theorem State.audit_pending (e : AuditEvent) : (State.audit s e).pending = s.pending := by
  obtain ⟨_, _, h⟩ := State.audit_changes s e; rw [h]
@[simp] theorem State.audit_now (e : AuditEvent) : (State.audit s e).now = s.now := by
  obtain ⟨_, _, h⟩ := State.audit_changes s e; rw [h]
@[simp] theorem State.audit_mem (e : AuditEvent) : (State.audit s e).mem = s.mem := by
  obtain ⟨_, _, h⟩ := State.audit_changes s e; rw [h]
@[simp] theorem State.audit_poison (e : AuditEvent) : (State.audit s e).poison = s.poison := by
  obtain ⟨_, _, h⟩ := State.audit_changes s e; rw [h]
@[simp] theorem State.audit_written (e : AuditEvent) : (State.audit s e).written = s.written := by
  obtain ⟨_, _, h⟩ := State.audit_changes s e; rw [h]
@[simp] theorem State.audit_tensors (e : AuditEvent) : (State.audit s e).tensors = s.tensors := by
  obtain ⟨_, _, h⟩ := State.audit_changes s e; rw [h]
@[simp] theorem State.audit_nets (e : AuditEvent) : (State.audit s e).nets = s.nets := by
  obtain ⟨_, _, h⟩ := State.audit_changes s e; rw [h]
@[simp] theorem State.audit_cores (e : AuditEvent) : (State.audit s e).cores = s.cores := by
  obtain ⟨_, _, h⟩ := State.audit_changes s e; rw [h]
@[simp] theorem State.audit_actStacks (e : AuditEvent) : (State.audit s e).actStacks = s.actStacks := by
  obtain ⟨_, _, h⟩ := State.audit_changes s e; rw [h]
@[simp] theorem State.audit_stampCounter (e : AuditEvent) : (State.audit s e).stampCounter = s.stampCounter := by
  obtain ⟨_, _, h⟩ := State.audit_changes s e; rw [h]
@[simp] theorem State.audit_sources (e : AuditEvent) : (State.audit s e).sources = s.sources := by
  obtain ⟨_, _, h⟩ := State.audit_changes s e; rw [h]
@[simp] theorem State.audit_cmds (e : AuditEvent) : (State.audit s e).cmds = s.cmds := by
  obtain ⟨_, _, h⟩ := State.audit_changes s e; rw [h]
@[simp] theorem State.audit_nextNo (e : AuditEvent) : (State.audit s e).nextNo = s.nextNo := by
  obtain ⟨_, _, h⟩ := State.audit_changes s e; rw [h]
@[simp] theorem State.audit_out (e : AuditEvent) : (State.audit s e).out = s.out := by
  obtain ⟨_, _, h⟩ := State.audit_changes s e; rw [h]
@[simp] theorem State.audit_i3c (e : AuditEvent) : (State.audit s e).i3c = s.i3c := by
  obtain ⟨_, _, h⟩ := State.audit_changes s e; rw [h]
@[simp] theorem State.audit_streams (e : AuditEvent) : (State.audit s e).streams = s.streams := by
  obtain ⟨_, _, h⟩ := State.audit_changes s e; rw [h]
@[simp] theorem State.audit_settings (e : AuditEvent) : (State.audit s e).settings = s.settings := by
  obtain ⟨_, _, h⟩ := State.audit_changes s e; rw [h]
@[simp] theorem State.audit_portSettings (e : AuditEvent) : (State.audit s e).portSettings = s.portSettings := by
  obtain ⟨_, _, h⟩ := State.audit_changes s e; rw [h]
@[simp] theorem State.audit_portQueue (e : AuditEvent) : (State.audit s e).portQueue = s.portQueue := by
  obtain ⟨_, _, h⟩ := State.audit_changes s e; rw [h]
@[simp] theorem State.audit_stintSettings (e : AuditEvent) : (State.audit s e).stintSettings = s.stintSettings := by
  obtain ⟨_, _, h⟩ := State.audit_changes s e; rw [h]
@[simp] theorem State.audit_stintStart (e : AuditEvent) : (State.audit s e).stintStart = s.stintStart := by
  obtain ⟨_, _, h⟩ := State.audit_changes s e; rw [h]
@[simp] theorem State.audit_ledger (e : AuditEvent) : (State.audit s e).ledger = s.ledger := by
  obtain ⟨_, _, h⟩ := State.audit_changes s e; rw [h]
@[simp] theorem State.audit_nextLedger (e : AuditEvent) : (State.audit s e).nextLedger = s.nextLedger := by
  obtain ⟨_, _, h⟩ := State.audit_changes s e; rw [h]
@[simp] theorem State.audit_commits (e : AuditEvent) : (State.audit s e).commits = s.commits := by
  obtain ⟨_, _, h⟩ := State.audit_changes s e; rw [h]
@[simp] theorem State.audit_programs (e : AuditEvent) : (State.audit s e).programs = s.programs := by
  obtain ⟨_, _, h⟩ := State.audit_changes s e; rw [h]
@[simp] theorem State.audit_freezes (e : AuditEvent) : (State.audit s e).freezes = s.freezes := by
  obtain ⟨_, _, h⟩ := State.audit_changes s e; rw [h]
@[simp] theorem State.audit_net9 (e : AuditEvent) : (State.audit s e).net9 = s.net9 := by
  obtain ⟨_, _, h⟩ := State.audit_changes s e; rw [h]
@[simp] theorem State.audit_pair (e : AuditEvent) : (State.audit s e).pair = s.pair := by
  obtain ⟨_, _, h⟩ := State.audit_changes s e; rw [h]
@[simp] theorem State.audit_power (e : AuditEvent) : (State.audit s e).power = s.power := by
  obtain ⟨_, _, h⟩ := State.audit_changes s e; rw [h]
@[simp] theorem State.audit_health (e : AuditEvent) : (State.audit s e).health = s.health := by
  obtain ⟨_, _, h⟩ := State.audit_changes s e; rw [h]
@[simp] theorem State.audit_ctrs (e : AuditEvent) : (State.audit s e).ctrs = s.ctrs := by
  obtain ⟨_, _, h⟩ := State.audit_changes s e; rw [h]
@[simp] theorem State.audit_free (e : AuditEvent) : (State.audit s e).free = s.free := by
  obtain ⟨_, _, h⟩ := State.audit_changes s e; rw [h]

/-! ## State.setStream -/

@[simp] theorem State.setStream_pending (x : Stream) : (State.setStream s x).pending = s.pending := rfl
@[simp] theorem State.setStream_now (x : Stream) : (State.setStream s x).now = s.now := rfl
@[simp] theorem State.setStream_mem (x : Stream) : (State.setStream s x).mem = s.mem := rfl
@[simp] theorem State.setStream_poison (x : Stream) : (State.setStream s x).poison = s.poison := rfl
@[simp] theorem State.setStream_written (x : Stream) : (State.setStream s x).written = s.written := rfl
@[simp] theorem State.setStream_tensors (x : Stream) : (State.setStream s x).tensors = s.tensors := rfl
@[simp] theorem State.setStream_nets (x : Stream) : (State.setStream s x).nets = s.nets := rfl
@[simp] theorem State.setStream_cores (x : Stream) : (State.setStream s x).cores = s.cores := rfl
@[simp] theorem State.setStream_actStacks (x : Stream) : (State.setStream s x).actStacks = s.actStacks := rfl
@[simp] theorem State.setStream_stampCounter (x : Stream) : (State.setStream s x).stampCounter = s.stampCounter := rfl
@[simp] theorem State.setStream_sources (x : Stream) : (State.setStream s x).sources = s.sources := rfl
@[simp] theorem State.setStream_cmds (x : Stream) : (State.setStream s x).cmds = s.cmds := rfl
@[simp] theorem State.setStream_nextNo (x : Stream) : (State.setStream s x).nextNo = s.nextNo := rfl
@[simp] theorem State.setStream_out (x : Stream) : (State.setStream s x).out = s.out := rfl
@[simp] theorem State.setStream_attention (x : Stream) : (State.setStream s x).attention = s.attention := rfl
@[simp] theorem State.setStream_i3c (x : Stream) : (State.setStream s x).i3c = s.i3c := rfl
@[simp] theorem State.setStream_settings (x : Stream) : (State.setStream s x).settings = s.settings := rfl
@[simp] theorem State.setStream_portSettings (x : Stream) : (State.setStream s x).portSettings = s.portSettings := rfl
@[simp] theorem State.setStream_portQueue (x : Stream) : (State.setStream s x).portQueue = s.portQueue := rfl
@[simp] theorem State.setStream_stintSettings (x : Stream) : (State.setStream s x).stintSettings = s.stintSettings := rfl
@[simp] theorem State.setStream_stintStart (x : Stream) : (State.setStream s x).stintStart = s.stintStart := rfl
@[simp] theorem State.setStream_ledger (x : Stream) : (State.setStream s x).ledger = s.ledger := rfl
@[simp] theorem State.setStream_nextLedger (x : Stream) : (State.setStream s x).nextLedger = s.nextLedger := rfl
@[simp] theorem State.setStream_commits (x : Stream) : (State.setStream s x).commits = s.commits := rfl
@[simp] theorem State.setStream_trust (x : Stream) : (State.setStream s x).trust = s.trust := rfl
@[simp] theorem State.setStream_programs (x : Stream) : (State.setStream s x).programs = s.programs := rfl
@[simp] theorem State.setStream_freezes (x : Stream) : (State.setStream s x).freezes = s.freezes := rfl
@[simp] theorem State.setStream_net9 (x : Stream) : (State.setStream s x).net9 = s.net9 := rfl
@[simp] theorem State.setStream_pair (x : Stream) : (State.setStream s x).pair = s.pair := rfl
@[simp] theorem State.setStream_power (x : Stream) : (State.setStream s x).power = s.power := rfl
@[simp] theorem State.setStream_health (x : Stream) : (State.setStream s x).health = s.health := rfl
@[simp] theorem State.setStream_ctrs (x : Stream) : (State.setStream s x).ctrs = s.ctrs := rfl
@[simp] theorem State.setStream_free (x : Stream) : (State.setStream s x).free = s.free := rfl

/-! ## State.dropStream -/

@[simp] theorem State.dropStream_pending (id : Nat) : (State.dropStream s id).pending = s.pending := rfl
@[simp] theorem State.dropStream_now (id : Nat) : (State.dropStream s id).now = s.now := rfl
@[simp] theorem State.dropStream_mem (id : Nat) : (State.dropStream s id).mem = s.mem := rfl
@[simp] theorem State.dropStream_poison (id : Nat) : (State.dropStream s id).poison = s.poison := rfl
@[simp] theorem State.dropStream_written (id : Nat) : (State.dropStream s id).written = s.written := rfl
@[simp] theorem State.dropStream_tensors (id : Nat) : (State.dropStream s id).tensors = s.tensors := rfl
@[simp] theorem State.dropStream_nets (id : Nat) : (State.dropStream s id).nets = s.nets := rfl
@[simp] theorem State.dropStream_cores (id : Nat) : (State.dropStream s id).cores = s.cores := rfl
@[simp] theorem State.dropStream_actStacks (id : Nat) : (State.dropStream s id).actStacks = s.actStacks := rfl
@[simp] theorem State.dropStream_stampCounter (id : Nat) : (State.dropStream s id).stampCounter = s.stampCounter := rfl
@[simp] theorem State.dropStream_sources (id : Nat) : (State.dropStream s id).sources = s.sources := rfl
@[simp] theorem State.dropStream_cmds (id : Nat) : (State.dropStream s id).cmds = s.cmds := rfl
@[simp] theorem State.dropStream_nextNo (id : Nat) : (State.dropStream s id).nextNo = s.nextNo := rfl
@[simp] theorem State.dropStream_out (id : Nat) : (State.dropStream s id).out = s.out := rfl
@[simp] theorem State.dropStream_attention (id : Nat) : (State.dropStream s id).attention = s.attention := rfl
@[simp] theorem State.dropStream_i3c (id : Nat) : (State.dropStream s id).i3c = s.i3c := rfl
@[simp] theorem State.dropStream_settings (id : Nat) : (State.dropStream s id).settings = s.settings := rfl
@[simp] theorem State.dropStream_portSettings (id : Nat) : (State.dropStream s id).portSettings = s.portSettings := rfl
@[simp] theorem State.dropStream_portQueue (id : Nat) : (State.dropStream s id).portQueue = s.portQueue := rfl
@[simp] theorem State.dropStream_stintSettings (id : Nat) : (State.dropStream s id).stintSettings = s.stintSettings := rfl
@[simp] theorem State.dropStream_stintStart (id : Nat) : (State.dropStream s id).stintStart = s.stintStart := rfl
@[simp] theorem State.dropStream_ledger (id : Nat) : (State.dropStream s id).ledger = s.ledger := rfl
@[simp] theorem State.dropStream_nextLedger (id : Nat) : (State.dropStream s id).nextLedger = s.nextLedger := rfl
@[simp] theorem State.dropStream_commits (id : Nat) : (State.dropStream s id).commits = s.commits := rfl
@[simp] theorem State.dropStream_trust (id : Nat) : (State.dropStream s id).trust = s.trust := rfl
@[simp] theorem State.dropStream_programs (id : Nat) : (State.dropStream s id).programs = s.programs := rfl
@[simp] theorem State.dropStream_freezes (id : Nat) : (State.dropStream s id).freezes = s.freezes := rfl
@[simp] theorem State.dropStream_net9 (id : Nat) : (State.dropStream s id).net9 = s.net9 := rfl
@[simp] theorem State.dropStream_pair (id : Nat) : (State.dropStream s id).pair = s.pair := rfl
@[simp] theorem State.dropStream_power (id : Nat) : (State.dropStream s id).power = s.power := rfl
@[simp] theorem State.dropStream_health (id : Nat) : (State.dropStream s id).health = s.health := rfl
@[simp] theorem State.dropStream_ctrs (id : Nat) : (State.dropStream s id).ctrs = s.ctrs := rfl
@[simp] theorem State.dropStream_free (id : Nat) : (State.dropStream s id).free = s.free := rfl

/-! ## State.complete -/

/-- State.complete changes sources, cmds, out, i3c, attention, ctrs alone. -/
theorem State.complete_changes (c : Cmd) (res : Res) (bs : List Byte) :
    ∃ x0 x1 x2 x3 x4 x5, State.complete s c res bs = { s with sources := x0, cmds := x1, out := x2, i3c := x3, attention := x4, ctrs := x5 } := by
  unfold State.complete
  obtain ⟨a, h1⟩ := State.endTag_changes (s.dropCmd c) c.source ⟨c.tag, c.op, res⟩
  obtain ⟨b1, b2, b3, b4, h2⟩ := State.reply_changes ((s.dropCmd c).endTag c.source ⟨c.tag, c.op, res⟩) c.op .completion c.source c.tag res bs
  obtain ⟨d, h3⟩ := State.afterCmd_changes (((s.dropCmd c).endTag c.source ⟨c.tag, c.op, res⟩).reply c.op .completion c.source c.tag res bs) c.source
  dsimp only
  rw [h3, h2, h1]
  exact ⟨_, _, _, _, _, _, rfl⟩

@[simp] theorem State.complete_pending (c : Cmd) (res : Res) (bs : List Byte) : (State.complete s c res bs).pending = s.pending := by
  obtain ⟨_, _, _, _, _, _, h⟩ := State.complete_changes s c res bs; rw [h]
@[simp] theorem State.complete_now (c : Cmd) (res : Res) (bs : List Byte) : (State.complete s c res bs).now = s.now := by
  obtain ⟨_, _, _, _, _, _, h⟩ := State.complete_changes s c res bs; rw [h]
@[simp] theorem State.complete_mem (c : Cmd) (res : Res) (bs : List Byte) : (State.complete s c res bs).mem = s.mem := by
  obtain ⟨_, _, _, _, _, _, h⟩ := State.complete_changes s c res bs; rw [h]
@[simp] theorem State.complete_poison (c : Cmd) (res : Res) (bs : List Byte) : (State.complete s c res bs).poison = s.poison := by
  obtain ⟨_, _, _, _, _, _, h⟩ := State.complete_changes s c res bs; rw [h]
@[simp] theorem State.complete_written (c : Cmd) (res : Res) (bs : List Byte) : (State.complete s c res bs).written = s.written := by
  obtain ⟨_, _, _, _, _, _, h⟩ := State.complete_changes s c res bs; rw [h]
@[simp] theorem State.complete_tensors (c : Cmd) (res : Res) (bs : List Byte) : (State.complete s c res bs).tensors = s.tensors := by
  obtain ⟨_, _, _, _, _, _, h⟩ := State.complete_changes s c res bs; rw [h]
@[simp] theorem State.complete_nets (c : Cmd) (res : Res) (bs : List Byte) : (State.complete s c res bs).nets = s.nets := by
  obtain ⟨_, _, _, _, _, _, h⟩ := State.complete_changes s c res bs; rw [h]
@[simp] theorem State.complete_cores (c : Cmd) (res : Res) (bs : List Byte) : (State.complete s c res bs).cores = s.cores := by
  obtain ⟨_, _, _, _, _, _, h⟩ := State.complete_changes s c res bs; rw [h]
@[simp] theorem State.complete_actStacks (c : Cmd) (res : Res) (bs : List Byte) : (State.complete s c res bs).actStacks = s.actStacks := by
  obtain ⟨_, _, _, _, _, _, h⟩ := State.complete_changes s c res bs; rw [h]
@[simp] theorem State.complete_stampCounter (c : Cmd) (res : Res) (bs : List Byte) : (State.complete s c res bs).stampCounter = s.stampCounter := by
  obtain ⟨_, _, _, _, _, _, h⟩ := State.complete_changes s c res bs; rw [h]
@[simp] theorem State.complete_nextNo (c : Cmd) (res : Res) (bs : List Byte) : (State.complete s c res bs).nextNo = s.nextNo := by
  obtain ⟨_, _, _, _, _, _, h⟩ := State.complete_changes s c res bs; rw [h]
@[simp] theorem State.complete_streams (c : Cmd) (res : Res) (bs : List Byte) : (State.complete s c res bs).streams = s.streams := by
  obtain ⟨_, _, _, _, _, _, h⟩ := State.complete_changes s c res bs; rw [h]
@[simp] theorem State.complete_settings (c : Cmd) (res : Res) (bs : List Byte) : (State.complete s c res bs).settings = s.settings := by
  obtain ⟨_, _, _, _, _, _, h⟩ := State.complete_changes s c res bs; rw [h]
@[simp] theorem State.complete_portSettings (c : Cmd) (res : Res) (bs : List Byte) : (State.complete s c res bs).portSettings = s.portSettings := by
  obtain ⟨_, _, _, _, _, _, h⟩ := State.complete_changes s c res bs; rw [h]
@[simp] theorem State.complete_portQueue (c : Cmd) (res : Res) (bs : List Byte) : (State.complete s c res bs).portQueue = s.portQueue := by
  obtain ⟨_, _, _, _, _, _, h⟩ := State.complete_changes s c res bs; rw [h]
@[simp] theorem State.complete_stintSettings (c : Cmd) (res : Res) (bs : List Byte) : (State.complete s c res bs).stintSettings = s.stintSettings := by
  obtain ⟨_, _, _, _, _, _, h⟩ := State.complete_changes s c res bs; rw [h]
@[simp] theorem State.complete_stintStart (c : Cmd) (res : Res) (bs : List Byte) : (State.complete s c res bs).stintStart = s.stintStart := by
  obtain ⟨_, _, _, _, _, _, h⟩ := State.complete_changes s c res bs; rw [h]
@[simp] theorem State.complete_ledger (c : Cmd) (res : Res) (bs : List Byte) : (State.complete s c res bs).ledger = s.ledger := by
  obtain ⟨_, _, _, _, _, _, h⟩ := State.complete_changes s c res bs; rw [h]
@[simp] theorem State.complete_nextLedger (c : Cmd) (res : Res) (bs : List Byte) : (State.complete s c res bs).nextLedger = s.nextLedger := by
  obtain ⟨_, _, _, _, _, _, h⟩ := State.complete_changes s c res bs; rw [h]
@[simp] theorem State.complete_commits (c : Cmd) (res : Res) (bs : List Byte) : (State.complete s c res bs).commits = s.commits := by
  obtain ⟨_, _, _, _, _, _, h⟩ := State.complete_changes s c res bs; rw [h]
@[simp] theorem State.complete_trust (c : Cmd) (res : Res) (bs : List Byte) : (State.complete s c res bs).trust = s.trust := by
  obtain ⟨_, _, _, _, _, _, h⟩ := State.complete_changes s c res bs; rw [h]
@[simp] theorem State.complete_programs (c : Cmd) (res : Res) (bs : List Byte) : (State.complete s c res bs).programs = s.programs := by
  obtain ⟨_, _, _, _, _, _, h⟩ := State.complete_changes s c res bs; rw [h]
@[simp] theorem State.complete_freezes (c : Cmd) (res : Res) (bs : List Byte) : (State.complete s c res bs).freezes = s.freezes := by
  obtain ⟨_, _, _, _, _, _, h⟩ := State.complete_changes s c res bs; rw [h]
@[simp] theorem State.complete_net9 (c : Cmd) (res : Res) (bs : List Byte) : (State.complete s c res bs).net9 = s.net9 := by
  obtain ⟨_, _, _, _, _, _, h⟩ := State.complete_changes s c res bs; rw [h]
@[simp] theorem State.complete_pair (c : Cmd) (res : Res) (bs : List Byte) : (State.complete s c res bs).pair = s.pair := by
  obtain ⟨_, _, _, _, _, _, h⟩ := State.complete_changes s c res bs; rw [h]
@[simp] theorem State.complete_power (c : Cmd) (res : Res) (bs : List Byte) : (State.complete s c res bs).power = s.power := by
  obtain ⟨_, _, _, _, _, _, h⟩ := State.complete_changes s c res bs; rw [h]
@[simp] theorem State.complete_health (c : Cmd) (res : Res) (bs : List Byte) : (State.complete s c res bs).health = s.health := by
  obtain ⟨_, _, _, _, _, _, h⟩ := State.complete_changes s c res bs; rw [h]
@[simp] theorem State.complete_free (c : Cmd) (res : Res) (bs : List Byte) : (State.complete s c res bs).free = s.free := by
  obtain ⟨_, _, _, _, _, _, h⟩ := State.complete_changes s c res bs; rw [h]

/-! ## State.completeGeneric -/

/-- State.completeGeneric changes sources, cmds, out, i3c, attention, ctrs alone. -/
theorem State.completeGeneric_changes (c : Cmd) (res : Res) (fl : FlagWord) (cause detail : Nat) :
    ∃ x0 x1 x2 x3 x4 x5, State.completeGeneric s c res fl cause detail = { s with sources := x0, cmds := x1, out := x2, i3c := x3, attention := x4, ctrs := x5 } := State.complete_changes s c res _

@[simp] theorem State.completeGeneric_pending (c : Cmd) (res : Res) (fl : FlagWord) (cause detail : Nat) : (State.completeGeneric s c res fl cause detail).pending = s.pending := by
  obtain ⟨_, _, _, _, _, _, h⟩ := State.completeGeneric_changes s c res fl cause detail; rw [h]
@[simp] theorem State.completeGeneric_now (c : Cmd) (res : Res) (fl : FlagWord) (cause detail : Nat) : (State.completeGeneric s c res fl cause detail).now = s.now := by
  obtain ⟨_, _, _, _, _, _, h⟩ := State.completeGeneric_changes s c res fl cause detail; rw [h]
@[simp] theorem State.completeGeneric_mem (c : Cmd) (res : Res) (fl : FlagWord) (cause detail : Nat) : (State.completeGeneric s c res fl cause detail).mem = s.mem := by
  obtain ⟨_, _, _, _, _, _, h⟩ := State.completeGeneric_changes s c res fl cause detail; rw [h]
@[simp] theorem State.completeGeneric_poison (c : Cmd) (res : Res) (fl : FlagWord) (cause detail : Nat) : (State.completeGeneric s c res fl cause detail).poison = s.poison := by
  obtain ⟨_, _, _, _, _, _, h⟩ := State.completeGeneric_changes s c res fl cause detail; rw [h]
@[simp] theorem State.completeGeneric_written (c : Cmd) (res : Res) (fl : FlagWord) (cause detail : Nat) : (State.completeGeneric s c res fl cause detail).written = s.written := by
  obtain ⟨_, _, _, _, _, _, h⟩ := State.completeGeneric_changes s c res fl cause detail; rw [h]
@[simp] theorem State.completeGeneric_tensors (c : Cmd) (res : Res) (fl : FlagWord) (cause detail : Nat) : (State.completeGeneric s c res fl cause detail).tensors = s.tensors := by
  obtain ⟨_, _, _, _, _, _, h⟩ := State.completeGeneric_changes s c res fl cause detail; rw [h]
@[simp] theorem State.completeGeneric_nets (c : Cmd) (res : Res) (fl : FlagWord) (cause detail : Nat) : (State.completeGeneric s c res fl cause detail).nets = s.nets := by
  obtain ⟨_, _, _, _, _, _, h⟩ := State.completeGeneric_changes s c res fl cause detail; rw [h]
@[simp] theorem State.completeGeneric_cores (c : Cmd) (res : Res) (fl : FlagWord) (cause detail : Nat) : (State.completeGeneric s c res fl cause detail).cores = s.cores := by
  obtain ⟨_, _, _, _, _, _, h⟩ := State.completeGeneric_changes s c res fl cause detail; rw [h]
@[simp] theorem State.completeGeneric_actStacks (c : Cmd) (res : Res) (fl : FlagWord) (cause detail : Nat) : (State.completeGeneric s c res fl cause detail).actStacks = s.actStacks := by
  obtain ⟨_, _, _, _, _, _, h⟩ := State.completeGeneric_changes s c res fl cause detail; rw [h]
@[simp] theorem State.completeGeneric_stampCounter (c : Cmd) (res : Res) (fl : FlagWord) (cause detail : Nat) : (State.completeGeneric s c res fl cause detail).stampCounter = s.stampCounter := by
  obtain ⟨_, _, _, _, _, _, h⟩ := State.completeGeneric_changes s c res fl cause detail; rw [h]
@[simp] theorem State.completeGeneric_nextNo (c : Cmd) (res : Res) (fl : FlagWord) (cause detail : Nat) : (State.completeGeneric s c res fl cause detail).nextNo = s.nextNo := by
  obtain ⟨_, _, _, _, _, _, h⟩ := State.completeGeneric_changes s c res fl cause detail; rw [h]
@[simp] theorem State.completeGeneric_streams (c : Cmd) (res : Res) (fl : FlagWord) (cause detail : Nat) : (State.completeGeneric s c res fl cause detail).streams = s.streams := by
  obtain ⟨_, _, _, _, _, _, h⟩ := State.completeGeneric_changes s c res fl cause detail; rw [h]
@[simp] theorem State.completeGeneric_settings (c : Cmd) (res : Res) (fl : FlagWord) (cause detail : Nat) : (State.completeGeneric s c res fl cause detail).settings = s.settings := by
  obtain ⟨_, _, _, _, _, _, h⟩ := State.completeGeneric_changes s c res fl cause detail; rw [h]
@[simp] theorem State.completeGeneric_portSettings (c : Cmd) (res : Res) (fl : FlagWord) (cause detail : Nat) : (State.completeGeneric s c res fl cause detail).portSettings = s.portSettings := by
  obtain ⟨_, _, _, _, _, _, h⟩ := State.completeGeneric_changes s c res fl cause detail; rw [h]
@[simp] theorem State.completeGeneric_portQueue (c : Cmd) (res : Res) (fl : FlagWord) (cause detail : Nat) : (State.completeGeneric s c res fl cause detail).portQueue = s.portQueue := by
  obtain ⟨_, _, _, _, _, _, h⟩ := State.completeGeneric_changes s c res fl cause detail; rw [h]
@[simp] theorem State.completeGeneric_stintSettings (c : Cmd) (res : Res) (fl : FlagWord) (cause detail : Nat) : (State.completeGeneric s c res fl cause detail).stintSettings = s.stintSettings := by
  obtain ⟨_, _, _, _, _, _, h⟩ := State.completeGeneric_changes s c res fl cause detail; rw [h]
@[simp] theorem State.completeGeneric_stintStart (c : Cmd) (res : Res) (fl : FlagWord) (cause detail : Nat) : (State.completeGeneric s c res fl cause detail).stintStart = s.stintStart := by
  obtain ⟨_, _, _, _, _, _, h⟩ := State.completeGeneric_changes s c res fl cause detail; rw [h]
@[simp] theorem State.completeGeneric_ledger (c : Cmd) (res : Res) (fl : FlagWord) (cause detail : Nat) : (State.completeGeneric s c res fl cause detail).ledger = s.ledger := by
  obtain ⟨_, _, _, _, _, _, h⟩ := State.completeGeneric_changes s c res fl cause detail; rw [h]
@[simp] theorem State.completeGeneric_nextLedger (c : Cmd) (res : Res) (fl : FlagWord) (cause detail : Nat) : (State.completeGeneric s c res fl cause detail).nextLedger = s.nextLedger := by
  obtain ⟨_, _, _, _, _, _, h⟩ := State.completeGeneric_changes s c res fl cause detail; rw [h]
@[simp] theorem State.completeGeneric_commits (c : Cmd) (res : Res) (fl : FlagWord) (cause detail : Nat) : (State.completeGeneric s c res fl cause detail).commits = s.commits := by
  obtain ⟨_, _, _, _, _, _, h⟩ := State.completeGeneric_changes s c res fl cause detail; rw [h]
@[simp] theorem State.completeGeneric_trust (c : Cmd) (res : Res) (fl : FlagWord) (cause detail : Nat) : (State.completeGeneric s c res fl cause detail).trust = s.trust := by
  obtain ⟨_, _, _, _, _, _, h⟩ := State.completeGeneric_changes s c res fl cause detail; rw [h]
@[simp] theorem State.completeGeneric_programs (c : Cmd) (res : Res) (fl : FlagWord) (cause detail : Nat) : (State.completeGeneric s c res fl cause detail).programs = s.programs := by
  obtain ⟨_, _, _, _, _, _, h⟩ := State.completeGeneric_changes s c res fl cause detail; rw [h]
@[simp] theorem State.completeGeneric_freezes (c : Cmd) (res : Res) (fl : FlagWord) (cause detail : Nat) : (State.completeGeneric s c res fl cause detail).freezes = s.freezes := by
  obtain ⟨_, _, _, _, _, _, h⟩ := State.completeGeneric_changes s c res fl cause detail; rw [h]
@[simp] theorem State.completeGeneric_net9 (c : Cmd) (res : Res) (fl : FlagWord) (cause detail : Nat) : (State.completeGeneric s c res fl cause detail).net9 = s.net9 := by
  obtain ⟨_, _, _, _, _, _, h⟩ := State.completeGeneric_changes s c res fl cause detail; rw [h]
@[simp] theorem State.completeGeneric_pair (c : Cmd) (res : Res) (fl : FlagWord) (cause detail : Nat) : (State.completeGeneric s c res fl cause detail).pair = s.pair := by
  obtain ⟨_, _, _, _, _, _, h⟩ := State.completeGeneric_changes s c res fl cause detail; rw [h]
@[simp] theorem State.completeGeneric_power (c : Cmd) (res : Res) (fl : FlagWord) (cause detail : Nat) : (State.completeGeneric s c res fl cause detail).power = s.power := by
  obtain ⟨_, _, _, _, _, _, h⟩ := State.completeGeneric_changes s c res fl cause detail; rw [h]
@[simp] theorem State.completeGeneric_health (c : Cmd) (res : Res) (fl : FlagWord) (cause detail : Nat) : (State.completeGeneric s c res fl cause detail).health = s.health := by
  obtain ⟨_, _, _, _, _, _, h⟩ := State.completeGeneric_changes s c res fl cause detail; rw [h]
@[simp] theorem State.completeGeneric_free (c : Cmd) (res : Res) (fl : FlagWord) (cause detail : Nat) : (State.completeGeneric s c res fl cause detail).free = s.free := by
  obtain ⟨_, _, _, _, _, _, h⟩ := State.completeGeneric_changes s c res fl cause detail; rw [h]

/-! ## State.endOutput -/

/-- State.endOutput changes sources, cmds, out, i3c, streams, attention, ctrs alone. -/
theorem State.endOutput_changes (x : Stream) (res : Res) (cause : Nat) :
    ∃ x0 x1 x2 x3 x4 x5 x6, State.endOutput s x res cause = { s with sources := x0, cmds := x1, out := x2, i3c := x3, streams := x4, attention := x5, ctrs := x6 } := by
  unfold State.endOutput; dsimp only; split
  · obtain ⟨a, b, c, d, e, f, h⟩ := State.completeGeneric_changes (s.dropStream x.id) ‹_› res 0 cause 0
    rw [h]; exact ⟨_, _, _, _, _, _, _, rfl⟩
  · exact ⟨_, _, _, _, _, _, _, rfl⟩

@[simp] theorem State.endOutput_pending (x : Stream) (res : Res) (cause : Nat) : (State.endOutput s x res cause).pending = s.pending := by
  obtain ⟨_, _, _, _, _, _, _, h⟩ := State.endOutput_changes s x res cause; rw [h]
@[simp] theorem State.endOutput_now (x : Stream) (res : Res) (cause : Nat) : (State.endOutput s x res cause).now = s.now := by
  obtain ⟨_, _, _, _, _, _, _, h⟩ := State.endOutput_changes s x res cause; rw [h]
@[simp] theorem State.endOutput_mem (x : Stream) (res : Res) (cause : Nat) : (State.endOutput s x res cause).mem = s.mem := by
  obtain ⟨_, _, _, _, _, _, _, h⟩ := State.endOutput_changes s x res cause; rw [h]
@[simp] theorem State.endOutput_poison (x : Stream) (res : Res) (cause : Nat) : (State.endOutput s x res cause).poison = s.poison := by
  obtain ⟨_, _, _, _, _, _, _, h⟩ := State.endOutput_changes s x res cause; rw [h]
@[simp] theorem State.endOutput_written (x : Stream) (res : Res) (cause : Nat) : (State.endOutput s x res cause).written = s.written := by
  obtain ⟨_, _, _, _, _, _, _, h⟩ := State.endOutput_changes s x res cause; rw [h]
@[simp] theorem State.endOutput_tensors (x : Stream) (res : Res) (cause : Nat) : (State.endOutput s x res cause).tensors = s.tensors := by
  obtain ⟨_, _, _, _, _, _, _, h⟩ := State.endOutput_changes s x res cause; rw [h]
@[simp] theorem State.endOutput_nets (x : Stream) (res : Res) (cause : Nat) : (State.endOutput s x res cause).nets = s.nets := by
  obtain ⟨_, _, _, _, _, _, _, h⟩ := State.endOutput_changes s x res cause; rw [h]
@[simp] theorem State.endOutput_cores (x : Stream) (res : Res) (cause : Nat) : (State.endOutput s x res cause).cores = s.cores := by
  obtain ⟨_, _, _, _, _, _, _, h⟩ := State.endOutput_changes s x res cause; rw [h]
@[simp] theorem State.endOutput_actStacks (x : Stream) (res : Res) (cause : Nat) : (State.endOutput s x res cause).actStacks = s.actStacks := by
  obtain ⟨_, _, _, _, _, _, _, h⟩ := State.endOutput_changes s x res cause; rw [h]
@[simp] theorem State.endOutput_stampCounter (x : Stream) (res : Res) (cause : Nat) : (State.endOutput s x res cause).stampCounter = s.stampCounter := by
  obtain ⟨_, _, _, _, _, _, _, h⟩ := State.endOutput_changes s x res cause; rw [h]
@[simp] theorem State.endOutput_nextNo (x : Stream) (res : Res) (cause : Nat) : (State.endOutput s x res cause).nextNo = s.nextNo := by
  obtain ⟨_, _, _, _, _, _, _, h⟩ := State.endOutput_changes s x res cause; rw [h]
@[simp] theorem State.endOutput_settings (x : Stream) (res : Res) (cause : Nat) : (State.endOutput s x res cause).settings = s.settings := by
  obtain ⟨_, _, _, _, _, _, _, h⟩ := State.endOutput_changes s x res cause; rw [h]
@[simp] theorem State.endOutput_portSettings (x : Stream) (res : Res) (cause : Nat) : (State.endOutput s x res cause).portSettings = s.portSettings := by
  obtain ⟨_, _, _, _, _, _, _, h⟩ := State.endOutput_changes s x res cause; rw [h]
@[simp] theorem State.endOutput_portQueue (x : Stream) (res : Res) (cause : Nat) : (State.endOutput s x res cause).portQueue = s.portQueue := by
  obtain ⟨_, _, _, _, _, _, _, h⟩ := State.endOutput_changes s x res cause; rw [h]
@[simp] theorem State.endOutput_stintSettings (x : Stream) (res : Res) (cause : Nat) : (State.endOutput s x res cause).stintSettings = s.stintSettings := by
  obtain ⟨_, _, _, _, _, _, _, h⟩ := State.endOutput_changes s x res cause; rw [h]
@[simp] theorem State.endOutput_stintStart (x : Stream) (res : Res) (cause : Nat) : (State.endOutput s x res cause).stintStart = s.stintStart := by
  obtain ⟨_, _, _, _, _, _, _, h⟩ := State.endOutput_changes s x res cause; rw [h]
@[simp] theorem State.endOutput_ledger (x : Stream) (res : Res) (cause : Nat) : (State.endOutput s x res cause).ledger = s.ledger := by
  obtain ⟨_, _, _, _, _, _, _, h⟩ := State.endOutput_changes s x res cause; rw [h]
@[simp] theorem State.endOutput_nextLedger (x : Stream) (res : Res) (cause : Nat) : (State.endOutput s x res cause).nextLedger = s.nextLedger := by
  obtain ⟨_, _, _, _, _, _, _, h⟩ := State.endOutput_changes s x res cause; rw [h]
@[simp] theorem State.endOutput_commits (x : Stream) (res : Res) (cause : Nat) : (State.endOutput s x res cause).commits = s.commits := by
  obtain ⟨_, _, _, _, _, _, _, h⟩ := State.endOutput_changes s x res cause; rw [h]
@[simp] theorem State.endOutput_trust (x : Stream) (res : Res) (cause : Nat) : (State.endOutput s x res cause).trust = s.trust := by
  obtain ⟨_, _, _, _, _, _, _, h⟩ := State.endOutput_changes s x res cause; rw [h]
@[simp] theorem State.endOutput_programs (x : Stream) (res : Res) (cause : Nat) : (State.endOutput s x res cause).programs = s.programs := by
  obtain ⟨_, _, _, _, _, _, _, h⟩ := State.endOutput_changes s x res cause; rw [h]
@[simp] theorem State.endOutput_freezes (x : Stream) (res : Res) (cause : Nat) : (State.endOutput s x res cause).freezes = s.freezes := by
  obtain ⟨_, _, _, _, _, _, _, h⟩ := State.endOutput_changes s x res cause; rw [h]
@[simp] theorem State.endOutput_net9 (x : Stream) (res : Res) (cause : Nat) : (State.endOutput s x res cause).net9 = s.net9 := by
  obtain ⟨_, _, _, _, _, _, _, h⟩ := State.endOutput_changes s x res cause; rw [h]
@[simp] theorem State.endOutput_pair (x : Stream) (res : Res) (cause : Nat) : (State.endOutput s x res cause).pair = s.pair := by
  obtain ⟨_, _, _, _, _, _, _, h⟩ := State.endOutput_changes s x res cause; rw [h]
@[simp] theorem State.endOutput_power (x : Stream) (res : Res) (cause : Nat) : (State.endOutput s x res cause).power = s.power := by
  obtain ⟨_, _, _, _, _, _, _, h⟩ := State.endOutput_changes s x res cause; rw [h]
@[simp] theorem State.endOutput_health (x : Stream) (res : Res) (cause : Nat) : (State.endOutput s x res cause).health = s.health := by
  obtain ⟨_, _, _, _, _, _, _, h⟩ := State.endOutput_changes s x res cause; rw [h]
@[simp] theorem State.endOutput_free (x : Stream) (res : Res) (cause : Nat) : (State.endOutput s x res cause).free = s.free := by
  obtain ⟨_, _, _, _, _, _, _, h⟩ := State.endOutput_changes s x res cause; rw [h]

/-! ## State.stopStream -/

/-- State.stopStream changes sources, cmds, out, i3c, streams, attention, ctrs alone. -/
theorem State.stopStream_changes (x : Stream) :
    ∃ x0 x1 x2 x3 x4 x5 x6, State.stopStream s x = { s with sources := x0, cmds := x1, out := x2, i3c := x3, streams := x4, attention := x5, ctrs := x6 } := by
  unfold State.stopStream; split
  · exact ⟨_, _, _, _, _, _, _, rfl⟩
  · split
    · exact ⟨_, _, _, _, _, _, _, rfl⟩
    · exact State.endOutput_changes s x .complete 0

@[simp] theorem State.stopStream_pending (x : Stream) : (State.stopStream s x).pending = s.pending := by
  obtain ⟨_, _, _, _, _, _, _, h⟩ := State.stopStream_changes s x; rw [h]
@[simp] theorem State.stopStream_now (x : Stream) : (State.stopStream s x).now = s.now := by
  obtain ⟨_, _, _, _, _, _, _, h⟩ := State.stopStream_changes s x; rw [h]
@[simp] theorem State.stopStream_mem (x : Stream) : (State.stopStream s x).mem = s.mem := by
  obtain ⟨_, _, _, _, _, _, _, h⟩ := State.stopStream_changes s x; rw [h]
@[simp] theorem State.stopStream_poison (x : Stream) : (State.stopStream s x).poison = s.poison := by
  obtain ⟨_, _, _, _, _, _, _, h⟩ := State.stopStream_changes s x; rw [h]
@[simp] theorem State.stopStream_written (x : Stream) : (State.stopStream s x).written = s.written := by
  obtain ⟨_, _, _, _, _, _, _, h⟩ := State.stopStream_changes s x; rw [h]
@[simp] theorem State.stopStream_tensors (x : Stream) : (State.stopStream s x).tensors = s.tensors := by
  obtain ⟨_, _, _, _, _, _, _, h⟩ := State.stopStream_changes s x; rw [h]
@[simp] theorem State.stopStream_nets (x : Stream) : (State.stopStream s x).nets = s.nets := by
  obtain ⟨_, _, _, _, _, _, _, h⟩ := State.stopStream_changes s x; rw [h]
@[simp] theorem State.stopStream_cores (x : Stream) : (State.stopStream s x).cores = s.cores := by
  obtain ⟨_, _, _, _, _, _, _, h⟩ := State.stopStream_changes s x; rw [h]
@[simp] theorem State.stopStream_actStacks (x : Stream) : (State.stopStream s x).actStacks = s.actStacks := by
  obtain ⟨_, _, _, _, _, _, _, h⟩ := State.stopStream_changes s x; rw [h]
@[simp] theorem State.stopStream_stampCounter (x : Stream) : (State.stopStream s x).stampCounter = s.stampCounter := by
  obtain ⟨_, _, _, _, _, _, _, h⟩ := State.stopStream_changes s x; rw [h]
@[simp] theorem State.stopStream_nextNo (x : Stream) : (State.stopStream s x).nextNo = s.nextNo := by
  obtain ⟨_, _, _, _, _, _, _, h⟩ := State.stopStream_changes s x; rw [h]
@[simp] theorem State.stopStream_settings (x : Stream) : (State.stopStream s x).settings = s.settings := by
  obtain ⟨_, _, _, _, _, _, _, h⟩ := State.stopStream_changes s x; rw [h]
@[simp] theorem State.stopStream_portSettings (x : Stream) : (State.stopStream s x).portSettings = s.portSettings := by
  obtain ⟨_, _, _, _, _, _, _, h⟩ := State.stopStream_changes s x; rw [h]
@[simp] theorem State.stopStream_portQueue (x : Stream) : (State.stopStream s x).portQueue = s.portQueue := by
  obtain ⟨_, _, _, _, _, _, _, h⟩ := State.stopStream_changes s x; rw [h]
@[simp] theorem State.stopStream_stintSettings (x : Stream) : (State.stopStream s x).stintSettings = s.stintSettings := by
  obtain ⟨_, _, _, _, _, _, _, h⟩ := State.stopStream_changes s x; rw [h]
@[simp] theorem State.stopStream_stintStart (x : Stream) : (State.stopStream s x).stintStart = s.stintStart := by
  obtain ⟨_, _, _, _, _, _, _, h⟩ := State.stopStream_changes s x; rw [h]
@[simp] theorem State.stopStream_ledger (x : Stream) : (State.stopStream s x).ledger = s.ledger := by
  obtain ⟨_, _, _, _, _, _, _, h⟩ := State.stopStream_changes s x; rw [h]
@[simp] theorem State.stopStream_nextLedger (x : Stream) : (State.stopStream s x).nextLedger = s.nextLedger := by
  obtain ⟨_, _, _, _, _, _, _, h⟩ := State.stopStream_changes s x; rw [h]
@[simp] theorem State.stopStream_commits (x : Stream) : (State.stopStream s x).commits = s.commits := by
  obtain ⟨_, _, _, _, _, _, _, h⟩ := State.stopStream_changes s x; rw [h]
@[simp] theorem State.stopStream_trust (x : Stream) : (State.stopStream s x).trust = s.trust := by
  obtain ⟨_, _, _, _, _, _, _, h⟩ := State.stopStream_changes s x; rw [h]
@[simp] theorem State.stopStream_programs (x : Stream) : (State.stopStream s x).programs = s.programs := by
  obtain ⟨_, _, _, _, _, _, _, h⟩ := State.stopStream_changes s x; rw [h]
@[simp] theorem State.stopStream_freezes (x : Stream) : (State.stopStream s x).freezes = s.freezes := by
  obtain ⟨_, _, _, _, _, _, _, h⟩ := State.stopStream_changes s x; rw [h]
@[simp] theorem State.stopStream_net9 (x : Stream) : (State.stopStream s x).net9 = s.net9 := by
  obtain ⟨_, _, _, _, _, _, _, h⟩ := State.stopStream_changes s x; rw [h]
@[simp] theorem State.stopStream_pair (x : Stream) : (State.stopStream s x).pair = s.pair := by
  obtain ⟨_, _, _, _, _, _, _, h⟩ := State.stopStream_changes s x; rw [h]
@[simp] theorem State.stopStream_power (x : Stream) : (State.stopStream s x).power = s.power := by
  obtain ⟨_, _, _, _, _, _, _, h⟩ := State.stopStream_changes s x; rw [h]
@[simp] theorem State.stopStream_health (x : Stream) : (State.stopStream s x).health = s.health := by
  obtain ⟨_, _, _, _, _, _, _, h⟩ := State.stopStream_changes s x; rw [h]
@[simp] theorem State.stopStream_free (x : Stream) : (State.stopStream s x).free = s.free := by
  obtain ⟨_, _, _, _, _, _, _, h⟩ := State.stopStream_changes s x; rw [h]

/-! ## Frames of streams -/

/-- `t` is `s` but for what writing or dropping a frame of a stream changes. -/
def FrameOnly (s t : State) : Prop :=
  ∃ m p w x a y k, t = { s with mem := m, poison := p, written := w, streams := x, attention := a, power := y, ctrs := k }

theorem FrameOnly.refl (s : State) : FrameOnly s s := ⟨_, _, _, _, _, _, _, rfl⟩

theorem FrameOnly.trans {s t u : State} (h : FrameOnly s t) (h' : FrameOnly t u) : FrameOnly s u := by
  obtain ⟨_, _, _, _, _, _, _, rfl⟩ := h
  exact h'

theorem FrameOnly.foldl {α : Type} (xs : List α) (f : State → α → State) (hf : ∀ a x, FrameOnly a (f a x)) (s : State) :
    FrameOnly s (xs.foldl f s) := by
  induction xs generalizing s with
  | nil => exact .refl s
  | cons x xs ih => exact (hf s x).trans (ih _)

theorem State.write_frameOnly (a : Nat) (bs : List Byte) : FrameOnly s (s.write a bs) := ⟨_, _, _, _, _, _, _, rfl⟩
theorem State.setStream_frameOnly (x : Stream) : FrameOnly s (s.setStream x) := ⟨_, _, _, _, _, _, _, rfl⟩
theorem State.overrun_frameOnly (k : Nat) : FrameOnly s (s.overrun k) := ⟨_, _, _, _, _, _, _, rfl⟩

theorem State.count_frameOnly (id k : Nat) : FrameOnly s (s.count id k) := by
  obtain ⟨_, h⟩ := State.count_changes s id k
  rw [h]
  exact ⟨_, _, _, _, _, _, _, rfl⟩

theorem State.charge_frameOnly (cls : Activity) (ms : Moves) : FrameOnly s (s.charge cls ms) := by
  obtain ⟨_, h⟩ := State.charge_changes s cls ms
  rw [h]
  exact ⟨_, _, _, _, _, _, _, rfl⟩

theorem State.putBlock_frameOnly (t : Tensor) (p bi bj : Nat) (new : Nat → Option Nat) :
    FrameOnly s (s.putBlock t p bi bj new) := by
  unfold State.putBlock
  dsimp only
  split
  · exact .refl s
  · exact ⟨_, _, _, _, _, _, _, rfl⟩

theorem State.putRegion_frameOnly (t : Tensor) (p r0 nr c0 nc : Nat) (code : Nat → Nat → Option Nat) :
    FrameOnly s (s.putRegion t p r0 nr c0 nc code) :=
  FrameOnly.foldl _ _ (fun a _ => State.putBlock_frameOnly a t p _ _ _) s

theorem State.storeFrame_frameOnly (x : Stream) (t : Tensor) (o : OpenFrame) : FrameOnly s (s.storeFrame x t o) :=
  ((((State.putRegion_frameOnly s _ _ _ _ _ _ _).trans (State.setStream_frameOnly _ _)).trans
    (State.write_frameOnly _ _ _)).trans (State.charge_frameOnly _ _ _)).trans (State.count_frameOnly _ _ _)

theorem State.dropFrame_frameOnly (t : Tensor) : FrameOnly s (s.dropFrame t) :=
  ((State.write_frameOnly s _ _).trans (State.count_frameOnly _ _ _)).trans (State.overrun_frameOnly _ _)

theorem State.flushFrames_frameOnly (x : Stream) : FrameOnly s (s.flushFrames x) := by
  unfold State.flushFrames
  split
  · exact .refl s
  · refine FrameOnly.foldl _ _ (fun a _ => ?_) s
    split
    · exact .refl a
    · split
      · exact .refl a
      · split
        · exact (State.setStream_frameOnly a _).trans (State.dropFrame_frameOnly _ _)
        · exact State.storeFrame_frameOnly a _ _ _

/-! ## State.startInput -/

/-- State.startInput changes what its frames change alone. -/
theorem State.startInput_frameOnly (x : Stream) : FrameOnly s (State.startInput s x) := by
  unfold State.startInput
  split
  · exact .refl s
  · split
    · exact .refl s
    · exact ((State.flushFrames_frameOnly s x).trans (State.write_frameOnly _ _ _)).trans (State.setStream_frameOnly _ _)

@[simp] theorem State.startInput_pending (x : Stream) : (State.startInput s x).pending = s.pending := by
  obtain ⟨_, _, _, _, _, _, _, h⟩ := State.startInput_frameOnly s x; rw [h]
@[simp] theorem State.startInput_now (x : Stream) : (State.startInput s x).now = s.now := by
  obtain ⟨_, _, _, _, _, _, _, h⟩ := State.startInput_frameOnly s x; rw [h]
@[simp] theorem State.startInput_tensors (x : Stream) : (State.startInput s x).tensors = s.tensors := by
  obtain ⟨_, _, _, _, _, _, _, h⟩ := State.startInput_frameOnly s x; rw [h]
@[simp] theorem State.startInput_nets (x : Stream) : (State.startInput s x).nets = s.nets := by
  obtain ⟨_, _, _, _, _, _, _, h⟩ := State.startInput_frameOnly s x; rw [h]
@[simp] theorem State.startInput_cores (x : Stream) : (State.startInput s x).cores = s.cores := by
  obtain ⟨_, _, _, _, _, _, _, h⟩ := State.startInput_frameOnly s x; rw [h]
@[simp] theorem State.startInput_actStacks (x : Stream) : (State.startInput s x).actStacks = s.actStacks := by
  obtain ⟨_, _, _, _, _, _, _, h⟩ := State.startInput_frameOnly s x; rw [h]
@[simp] theorem State.startInput_stampCounter (x : Stream) : (State.startInput s x).stampCounter = s.stampCounter := by
  obtain ⟨_, _, _, _, _, _, _, h⟩ := State.startInput_frameOnly s x; rw [h]
@[simp] theorem State.startInput_sources (x : Stream) : (State.startInput s x).sources = s.sources := by
  obtain ⟨_, _, _, _, _, _, _, h⟩ := State.startInput_frameOnly s x; rw [h]
@[simp] theorem State.startInput_cmds (x : Stream) : (State.startInput s x).cmds = s.cmds := by
  obtain ⟨_, _, _, _, _, _, _, h⟩ := State.startInput_frameOnly s x; rw [h]
@[simp] theorem State.startInput_nextNo (x : Stream) : (State.startInput s x).nextNo = s.nextNo := by
  obtain ⟨_, _, _, _, _, _, _, h⟩ := State.startInput_frameOnly s x; rw [h]
@[simp] theorem State.startInput_out (x : Stream) : (State.startInput s x).out = s.out := by
  obtain ⟨_, _, _, _, _, _, _, h⟩ := State.startInput_frameOnly s x; rw [h]
@[simp] theorem State.startInput_i3c (x : Stream) : (State.startInput s x).i3c = s.i3c := by
  obtain ⟨_, _, _, _, _, _, _, h⟩ := State.startInput_frameOnly s x; rw [h]
@[simp] theorem State.startInput_settings (x : Stream) : (State.startInput s x).settings = s.settings := by
  obtain ⟨_, _, _, _, _, _, _, h⟩ := State.startInput_frameOnly s x; rw [h]
@[simp] theorem State.startInput_portSettings (x : Stream) : (State.startInput s x).portSettings = s.portSettings := by
  obtain ⟨_, _, _, _, _, _, _, h⟩ := State.startInput_frameOnly s x; rw [h]
@[simp] theorem State.startInput_portQueue (x : Stream) : (State.startInput s x).portQueue = s.portQueue := by
  obtain ⟨_, _, _, _, _, _, _, h⟩ := State.startInput_frameOnly s x; rw [h]
@[simp] theorem State.startInput_stintSettings (x : Stream) : (State.startInput s x).stintSettings = s.stintSettings := by
  obtain ⟨_, _, _, _, _, _, _, h⟩ := State.startInput_frameOnly s x; rw [h]
@[simp] theorem State.startInput_stintStart (x : Stream) : (State.startInput s x).stintStart = s.stintStart := by
  obtain ⟨_, _, _, _, _, _, _, h⟩ := State.startInput_frameOnly s x; rw [h]
@[simp] theorem State.startInput_ledger (x : Stream) : (State.startInput s x).ledger = s.ledger := by
  obtain ⟨_, _, _, _, _, _, _, h⟩ := State.startInput_frameOnly s x; rw [h]
@[simp] theorem State.startInput_nextLedger (x : Stream) : (State.startInput s x).nextLedger = s.nextLedger := by
  obtain ⟨_, _, _, _, _, _, _, h⟩ := State.startInput_frameOnly s x; rw [h]
@[simp] theorem State.startInput_commits (x : Stream) : (State.startInput s x).commits = s.commits := by
  obtain ⟨_, _, _, _, _, _, _, h⟩ := State.startInput_frameOnly s x; rw [h]
@[simp] theorem State.startInput_trust (x : Stream) : (State.startInput s x).trust = s.trust := by
  obtain ⟨_, _, _, _, _, _, _, h⟩ := State.startInput_frameOnly s x; rw [h]
@[simp] theorem State.startInput_programs (x : Stream) : (State.startInput s x).programs = s.programs := by
  obtain ⟨_, _, _, _, _, _, _, h⟩ := State.startInput_frameOnly s x; rw [h]
@[simp] theorem State.startInput_freezes (x : Stream) : (State.startInput s x).freezes = s.freezes := by
  obtain ⟨_, _, _, _, _, _, _, h⟩ := State.startInput_frameOnly s x; rw [h]
@[simp] theorem State.startInput_net9 (x : Stream) : (State.startInput s x).net9 = s.net9 := by
  obtain ⟨_, _, _, _, _, _, _, h⟩ := State.startInput_frameOnly s x; rw [h]
@[simp] theorem State.startInput_pair (x : Stream) : (State.startInput s x).pair = s.pair := by
  obtain ⟨_, _, _, _, _, _, _, h⟩ := State.startInput_frameOnly s x; rw [h]
@[simp] theorem State.startInput_health (x : Stream) : (State.startInput s x).health = s.health := by
  obtain ⟨_, _, _, _, _, _, _, h⟩ := State.startInput_frameOnly s x; rw [h]
@[simp] theorem State.startInput_free (x : Stream) : (State.startInput s x).free = s.free := by
  obtain ⟨_, _, _, _, _, _, _, h⟩ := State.startInput_frameOnly s x; rw [h]

/-! ## State.route -/

/-- State.route changes net9, ctrs alone. -/
theorem State.route_changes (f : Flit) :
    ∃ x0 x1, State.route s f = { s with net9 := x0, ctrs := x1 } := by
  unfold State.route; dsimp only; split
  · obtain ⟨x, h⟩ := State.count_changes s 0x0509 1; exact ⟨_, _, h⟩
  · split <;> exact ⟨_, _, rfl⟩

@[simp] theorem State.route_pending (f : Flit) : (State.route s f).pending = s.pending := by
  obtain ⟨_, _, h⟩ := State.route_changes s f; rw [h]
@[simp] theorem State.route_now (f : Flit) : (State.route s f).now = s.now := by
  obtain ⟨_, _, h⟩ := State.route_changes s f; rw [h]
@[simp] theorem State.route_mem (f : Flit) : (State.route s f).mem = s.mem := by
  obtain ⟨_, _, h⟩ := State.route_changes s f; rw [h]
@[simp] theorem State.route_poison (f : Flit) : (State.route s f).poison = s.poison := by
  obtain ⟨_, _, h⟩ := State.route_changes s f; rw [h]
@[simp] theorem State.route_written (f : Flit) : (State.route s f).written = s.written := by
  obtain ⟨_, _, h⟩ := State.route_changes s f; rw [h]
@[simp] theorem State.route_tensors (f : Flit) : (State.route s f).tensors = s.tensors := by
  obtain ⟨_, _, h⟩ := State.route_changes s f; rw [h]
@[simp] theorem State.route_nets (f : Flit) : (State.route s f).nets = s.nets := by
  obtain ⟨_, _, h⟩ := State.route_changes s f; rw [h]
@[simp] theorem State.route_cores (f : Flit) : (State.route s f).cores = s.cores := by
  obtain ⟨_, _, h⟩ := State.route_changes s f; rw [h]
@[simp] theorem State.route_actStacks (f : Flit) : (State.route s f).actStacks = s.actStacks := by
  obtain ⟨_, _, h⟩ := State.route_changes s f; rw [h]
@[simp] theorem State.route_stampCounter (f : Flit) : (State.route s f).stampCounter = s.stampCounter := by
  obtain ⟨_, _, h⟩ := State.route_changes s f; rw [h]
@[simp] theorem State.route_sources (f : Flit) : (State.route s f).sources = s.sources := by
  obtain ⟨_, _, h⟩ := State.route_changes s f; rw [h]
@[simp] theorem State.route_cmds (f : Flit) : (State.route s f).cmds = s.cmds := by
  obtain ⟨_, _, h⟩ := State.route_changes s f; rw [h]
@[simp] theorem State.route_nextNo (f : Flit) : (State.route s f).nextNo = s.nextNo := by
  obtain ⟨_, _, h⟩ := State.route_changes s f; rw [h]
@[simp] theorem State.route_out (f : Flit) : (State.route s f).out = s.out := by
  obtain ⟨_, _, h⟩ := State.route_changes s f; rw [h]
@[simp] theorem State.route_attention (f : Flit) : (State.route s f).attention = s.attention := by
  obtain ⟨_, _, h⟩ := State.route_changes s f; rw [h]
@[simp] theorem State.route_i3c (f : Flit) : (State.route s f).i3c = s.i3c := by
  obtain ⟨_, _, h⟩ := State.route_changes s f; rw [h]
@[simp] theorem State.route_streams (f : Flit) : (State.route s f).streams = s.streams := by
  obtain ⟨_, _, h⟩ := State.route_changes s f; rw [h]
@[simp] theorem State.route_settings (f : Flit) : (State.route s f).settings = s.settings := by
  obtain ⟨_, _, h⟩ := State.route_changes s f; rw [h]
@[simp] theorem State.route_portSettings (f : Flit) : (State.route s f).portSettings = s.portSettings := by
  obtain ⟨_, _, h⟩ := State.route_changes s f; rw [h]
@[simp] theorem State.route_portQueue (f : Flit) : (State.route s f).portQueue = s.portQueue := by
  obtain ⟨_, _, h⟩ := State.route_changes s f; rw [h]
@[simp] theorem State.route_stintSettings (f : Flit) : (State.route s f).stintSettings = s.stintSettings := by
  obtain ⟨_, _, h⟩ := State.route_changes s f; rw [h]
@[simp] theorem State.route_stintStart (f : Flit) : (State.route s f).stintStart = s.stintStart := by
  obtain ⟨_, _, h⟩ := State.route_changes s f; rw [h]
@[simp] theorem State.route_ledger (f : Flit) : (State.route s f).ledger = s.ledger := by
  obtain ⟨_, _, h⟩ := State.route_changes s f; rw [h]
@[simp] theorem State.route_nextLedger (f : Flit) : (State.route s f).nextLedger = s.nextLedger := by
  obtain ⟨_, _, h⟩ := State.route_changes s f; rw [h]
@[simp] theorem State.route_commits (f : Flit) : (State.route s f).commits = s.commits := by
  obtain ⟨_, _, h⟩ := State.route_changes s f; rw [h]
@[simp] theorem State.route_trust (f : Flit) : (State.route s f).trust = s.trust := by
  obtain ⟨_, _, h⟩ := State.route_changes s f; rw [h]
@[simp] theorem State.route_programs (f : Flit) : (State.route s f).programs = s.programs := by
  obtain ⟨_, _, h⟩ := State.route_changes s f; rw [h]
@[simp] theorem State.route_freezes (f : Flit) : (State.route s f).freezes = s.freezes := by
  obtain ⟨_, _, h⟩ := State.route_changes s f; rw [h]
@[simp] theorem State.route_pair (f : Flit) : (State.route s f).pair = s.pair := by
  obtain ⟨_, _, h⟩ := State.route_changes s f; rw [h]
@[simp] theorem State.route_power (f : Flit) : (State.route s f).power = s.power := by
  obtain ⟨_, _, h⟩ := State.route_changes s f; rw [h]
@[simp] theorem State.route_health (f : Flit) : (State.route s f).health = s.health := by
  obtain ⟨_, _, h⟩ := State.route_changes s f; rw [h]
@[simp] theorem State.route_free (f : Flit) : (State.route s f).free = s.free := by
  obtain ⟨_, _, h⟩ := State.route_changes s f; rw [h]

/-! ## State.sendFlit -/

/-- State.sendFlit changes net9, ctrs alone. -/
theorem State.sendFlit_changes (dest tc crew cid : Nat) (bs : List Byte) (ps : List Nat) :
    ∃ x0 x1, State.sendFlit s dest tc crew cid bs ps = { s with net9 := x0, ctrs := x1 } := by
  unfold State.sendFlit State.sendFlitFrom; dsimp only; split
  · exact ⟨_, _, rfl⟩
  · exact State.route_changes s _

@[simp] theorem State.sendFlit_pending (dest tc crew cid : Nat) (bs : List Byte) (ps : List Nat) : (State.sendFlit s dest tc crew cid bs ps).pending = s.pending := by
  obtain ⟨_, _, h⟩ := State.sendFlit_changes s dest tc crew cid bs ps; rw [h]
@[simp] theorem State.sendFlit_now (dest tc crew cid : Nat) (bs : List Byte) (ps : List Nat) : (State.sendFlit s dest tc crew cid bs ps).now = s.now := by
  obtain ⟨_, _, h⟩ := State.sendFlit_changes s dest tc crew cid bs ps; rw [h]
@[simp] theorem State.sendFlit_mem (dest tc crew cid : Nat) (bs : List Byte) (ps : List Nat) : (State.sendFlit s dest tc crew cid bs ps).mem = s.mem := by
  obtain ⟨_, _, h⟩ := State.sendFlit_changes s dest tc crew cid bs ps; rw [h]
@[simp] theorem State.sendFlit_poison (dest tc crew cid : Nat) (bs : List Byte) (ps : List Nat) : (State.sendFlit s dest tc crew cid bs ps).poison = s.poison := by
  obtain ⟨_, _, h⟩ := State.sendFlit_changes s dest tc crew cid bs ps; rw [h]
@[simp] theorem State.sendFlit_written (dest tc crew cid : Nat) (bs : List Byte) (ps : List Nat) : (State.sendFlit s dest tc crew cid bs ps).written = s.written := by
  obtain ⟨_, _, h⟩ := State.sendFlit_changes s dest tc crew cid bs ps; rw [h]
@[simp] theorem State.sendFlit_tensors (dest tc crew cid : Nat) (bs : List Byte) (ps : List Nat) : (State.sendFlit s dest tc crew cid bs ps).tensors = s.tensors := by
  obtain ⟨_, _, h⟩ := State.sendFlit_changes s dest tc crew cid bs ps; rw [h]
@[simp] theorem State.sendFlit_nets (dest tc crew cid : Nat) (bs : List Byte) (ps : List Nat) : (State.sendFlit s dest tc crew cid bs ps).nets = s.nets := by
  obtain ⟨_, _, h⟩ := State.sendFlit_changes s dest tc crew cid bs ps; rw [h]
@[simp] theorem State.sendFlit_cores (dest tc crew cid : Nat) (bs : List Byte) (ps : List Nat) : (State.sendFlit s dest tc crew cid bs ps).cores = s.cores := by
  obtain ⟨_, _, h⟩ := State.sendFlit_changes s dest tc crew cid bs ps; rw [h]
@[simp] theorem State.sendFlit_actStacks (dest tc crew cid : Nat) (bs : List Byte) (ps : List Nat) : (State.sendFlit s dest tc crew cid bs ps).actStacks = s.actStacks := by
  obtain ⟨_, _, h⟩ := State.sendFlit_changes s dest tc crew cid bs ps; rw [h]
@[simp] theorem State.sendFlit_stampCounter (dest tc crew cid : Nat) (bs : List Byte) (ps : List Nat) : (State.sendFlit s dest tc crew cid bs ps).stampCounter = s.stampCounter := by
  obtain ⟨_, _, h⟩ := State.sendFlit_changes s dest tc crew cid bs ps; rw [h]
@[simp] theorem State.sendFlit_sources (dest tc crew cid : Nat) (bs : List Byte) (ps : List Nat) : (State.sendFlit s dest tc crew cid bs ps).sources = s.sources := by
  obtain ⟨_, _, h⟩ := State.sendFlit_changes s dest tc crew cid bs ps; rw [h]
@[simp] theorem State.sendFlit_cmds (dest tc crew cid : Nat) (bs : List Byte) (ps : List Nat) : (State.sendFlit s dest tc crew cid bs ps).cmds = s.cmds := by
  obtain ⟨_, _, h⟩ := State.sendFlit_changes s dest tc crew cid bs ps; rw [h]
@[simp] theorem State.sendFlit_nextNo (dest tc crew cid : Nat) (bs : List Byte) (ps : List Nat) : (State.sendFlit s dest tc crew cid bs ps).nextNo = s.nextNo := by
  obtain ⟨_, _, h⟩ := State.sendFlit_changes s dest tc crew cid bs ps; rw [h]
@[simp] theorem State.sendFlit_out (dest tc crew cid : Nat) (bs : List Byte) (ps : List Nat) : (State.sendFlit s dest tc crew cid bs ps).out = s.out := by
  obtain ⟨_, _, h⟩ := State.sendFlit_changes s dest tc crew cid bs ps; rw [h]
@[simp] theorem State.sendFlit_attention (dest tc crew cid : Nat) (bs : List Byte) (ps : List Nat) : (State.sendFlit s dest tc crew cid bs ps).attention = s.attention := by
  obtain ⟨_, _, h⟩ := State.sendFlit_changes s dest tc crew cid bs ps; rw [h]
@[simp] theorem State.sendFlit_i3c (dest tc crew cid : Nat) (bs : List Byte) (ps : List Nat) : (State.sendFlit s dest tc crew cid bs ps).i3c = s.i3c := by
  obtain ⟨_, _, h⟩ := State.sendFlit_changes s dest tc crew cid bs ps; rw [h]
@[simp] theorem State.sendFlit_streams (dest tc crew cid : Nat) (bs : List Byte) (ps : List Nat) : (State.sendFlit s dest tc crew cid bs ps).streams = s.streams := by
  obtain ⟨_, _, h⟩ := State.sendFlit_changes s dest tc crew cid bs ps; rw [h]
@[simp] theorem State.sendFlit_settings (dest tc crew cid : Nat) (bs : List Byte) (ps : List Nat) : (State.sendFlit s dest tc crew cid bs ps).settings = s.settings := by
  obtain ⟨_, _, h⟩ := State.sendFlit_changes s dest tc crew cid bs ps; rw [h]
@[simp] theorem State.sendFlit_portSettings (dest tc crew cid : Nat) (bs : List Byte) (ps : List Nat) : (State.sendFlit s dest tc crew cid bs ps).portSettings = s.portSettings := by
  obtain ⟨_, _, h⟩ := State.sendFlit_changes s dest tc crew cid bs ps; rw [h]
@[simp] theorem State.sendFlit_portQueue (dest tc crew cid : Nat) (bs : List Byte) (ps : List Nat) : (State.sendFlit s dest tc crew cid bs ps).portQueue = s.portQueue := by
  obtain ⟨_, _, h⟩ := State.sendFlit_changes s dest tc crew cid bs ps; rw [h]
@[simp] theorem State.sendFlit_stintSettings (dest tc crew cid : Nat) (bs : List Byte) (ps : List Nat) : (State.sendFlit s dest tc crew cid bs ps).stintSettings = s.stintSettings := by
  obtain ⟨_, _, h⟩ := State.sendFlit_changes s dest tc crew cid bs ps; rw [h]
@[simp] theorem State.sendFlit_stintStart (dest tc crew cid : Nat) (bs : List Byte) (ps : List Nat) : (State.sendFlit s dest tc crew cid bs ps).stintStart = s.stintStart := by
  obtain ⟨_, _, h⟩ := State.sendFlit_changes s dest tc crew cid bs ps; rw [h]
@[simp] theorem State.sendFlit_ledger (dest tc crew cid : Nat) (bs : List Byte) (ps : List Nat) : (State.sendFlit s dest tc crew cid bs ps).ledger = s.ledger := by
  obtain ⟨_, _, h⟩ := State.sendFlit_changes s dest tc crew cid bs ps; rw [h]
@[simp] theorem State.sendFlit_nextLedger (dest tc crew cid : Nat) (bs : List Byte) (ps : List Nat) : (State.sendFlit s dest tc crew cid bs ps).nextLedger = s.nextLedger := by
  obtain ⟨_, _, h⟩ := State.sendFlit_changes s dest tc crew cid bs ps; rw [h]
@[simp] theorem State.sendFlit_commits (dest tc crew cid : Nat) (bs : List Byte) (ps : List Nat) : (State.sendFlit s dest tc crew cid bs ps).commits = s.commits := by
  obtain ⟨_, _, h⟩ := State.sendFlit_changes s dest tc crew cid bs ps; rw [h]
@[simp] theorem State.sendFlit_trust (dest tc crew cid : Nat) (bs : List Byte) (ps : List Nat) : (State.sendFlit s dest tc crew cid bs ps).trust = s.trust := by
  obtain ⟨_, _, h⟩ := State.sendFlit_changes s dest tc crew cid bs ps; rw [h]
@[simp] theorem State.sendFlit_programs (dest tc crew cid : Nat) (bs : List Byte) (ps : List Nat) : (State.sendFlit s dest tc crew cid bs ps).programs = s.programs := by
  obtain ⟨_, _, h⟩ := State.sendFlit_changes s dest tc crew cid bs ps; rw [h]
@[simp] theorem State.sendFlit_freezes (dest tc crew cid : Nat) (bs : List Byte) (ps : List Nat) : (State.sendFlit s dest tc crew cid bs ps).freezes = s.freezes := by
  obtain ⟨_, _, h⟩ := State.sendFlit_changes s dest tc crew cid bs ps; rw [h]
@[simp] theorem State.sendFlit_pair (dest tc crew cid : Nat) (bs : List Byte) (ps : List Nat) : (State.sendFlit s dest tc crew cid bs ps).pair = s.pair := by
  obtain ⟨_, _, h⟩ := State.sendFlit_changes s dest tc crew cid bs ps; rw [h]
@[simp] theorem State.sendFlit_power (dest tc crew cid : Nat) (bs : List Byte) (ps : List Nat) : (State.sendFlit s dest tc crew cid bs ps).power = s.power := by
  obtain ⟨_, _, h⟩ := State.sendFlit_changes s dest tc crew cid bs ps; rw [h]
@[simp] theorem State.sendFlit_health (dest tc crew cid : Nat) (bs : List Byte) (ps : List Nat) : (State.sendFlit s dest tc crew cid bs ps).health = s.health := by
  obtain ⟨_, _, h⟩ := State.sendFlit_changes s dest tc crew cid bs ps; rw [h]
@[simp] theorem State.sendFlit_free (dest tc crew cid : Nat) (bs : List Byte) (ps : List Nat) : (State.sendFlit s dest tc crew cid bs ps).free = s.free := by
  obtain ⟨_, _, h⟩ := State.sendFlit_changes s dest tc crew cid bs ps; rw [h]

/-! ## Folds -/

/-- What every step of a fold keeps, the fold keeps. -/
theorem foldl_keeps {α β : Type} (g : State → β) (f : State → α → State) (h : ∀ t x, g (f t x) = g t) (xs : List α) :
    ∀ t : State, g (xs.foldl f t) = g t := by
  induction xs with
  | nil => intro t; rfl
  | cons x xs ih => intro t; rw [List.foldl_cons, ih, h]

/-- A request for S2 or S3 stops streams, and leaves the power as it was. -/
@[simp] theorem State.stopForPower_power (gs : List Nat) : (s.stopForPower gs).power = s.power := by
  unfold State.stopForPower
  refine foldl_keeps (fun t => t.power) _ (fun t x => ?_) _ s
  repeat' (first | rfl | split)
  exact State.stopStream_power t x

/-- The route of the waiting flits leaves the settings as they were. -/
@[simp] theorem State.routeWaiting_settings : s.routeWaiting.settings = s.settings :=
  foldl_keeps (fun t => t.settings) _ (fun t f => State.route_settings t f) _ _

/-- A change of a link's state leaves the settings as they were. -/
@[simp] theorem State.linkTo_settings (i : Nat) (x : LState) : (s.linkTo i x).settings = s.settings := by
  unfold State.linkTo State.giveBack
  dsimp only
  split
  · rfl
  · split
    · exact foldl_keeps (fun t => t.settings) _ (fun t f => State.route_settings t f) _ _
    · rfl

end Sys2Proof.Machine
end

