-- ==== Sys2Proof/Laws/Host.lean ====
section
/-!
SUPPORT. The path of a packet to its command: a packet that `Session` admits is served in the admitted state, and what the
verdict of the handler makes of it.
-/
namespace Sys2Proof.Machine

/-! ## Sources -/

theorem State.source_num {s : State} {n : Nat} {x : Source} (h : s.source n = some x) : x.num = n := by
  simpa using List.find?_some h

theorem find_map_source (n : Nat) (y : Source) (hy : y.num = n) (xs : List Source) (x : Source)
    (h : xs.find? (fun z => z.num = n) = some x) :
    (xs.map (fun z => if z.num = y.num then y else z)).find? (fun z => z.num = n) = some y := by
  induction xs with
  | nil => simp at h
  | cons z zs ih =>
    simp only [List.map_cons, List.find?_cons] at h ⊢
    by_cases hz : z.num = n
    · simp [hz, hy]
    · simp only [hz, decide_false, hy, if_false] at h ⊢
      simpa [hy] using ih h

/-- A live source that is replaced reads as its replacement. -/
theorem State.source_setSource {s : State} {n : Nat} {x y : Source} (h : s.source n = some x) (hy : y.num = n) :
    (s.setSource y).source n = some y := find_map_source n y hy s.sources x h

theorem State.setSource_setSource {s : State} {y z : Source} (h : y.num = z.num) :
    (s.setSource y).setSource z = s.setSource z := by
  unfold State.setSource
  simp only [List.map_map, State.mk.injEq, true_and, and_true]
  refine List.map_congr_left fun a _ => ?_
  by_cases ha : a.num = y.num <;> simp [ha, h]
  simp_all

/-- Whether a find succeeds is the same after a source is replaced. -/
theorem find_map_other (n : Nat) (y : Source) (hy : y.num ≠ n) (xs : List Source) :
    (xs.map (fun z => if z.num = y.num then y else z)).find? (fun z => z.num = n) = xs.find? (fun z => z.num = n) := by
  induction xs with
  | nil => rfl
  | cons z zs ih =>
    simp only [List.map_cons, List.find?_cons]
    by_cases hz : z.num = n
    · have : z.num ≠ y.num := fun h => hy (h ▸ hz)
      simp [hz, ih]
      simp [show n ≠ y.num from fun h => hy h.symm, hz]
    · by_cases hw : z.num = y.num
      · simp [hw, hy, ih]
      · simp [hz, hw, ih]

/-- Another source is as it was. -/
theorem State.source_setSource_ne {s : State} {n : Nat} {y : Source} (hy : y.num ≠ n) :
    (s.setSource y).source n = s.source n := find_map_other n y hy s.sources

/-! ## The admitted state -/

variable {s : State} {op : Op} {p : Packet} {x : Source}

@[simp] theorem State.count_source (id k n : Nat) : (s.count id k).source n = s.source n := by
  simp [State.source]

@[simp] theorem State.corrected_source (k n : Nat) : (s.corrected k).source n = s.source n := by
  simp [State.source]

@[simp] theorem State.received_source (k n : Nat) : (s.received k).source n = s.source n := by
  simp [State.received]

theorem State.admitted_eq (h : s.source p.source = some x) :
    s.admitted op p = (s.received p.port).setSource (x.taken op p) := by
  simp [State.admitted, State.onSource, h]

theorem State.admitted_source (h : s.source p.source = some x) :
    (s.admitted op p).source p.source = some (x.taken op p) := by
  rw [State.admitted_eq h]
  exact State.source_setSource (x := x) (by simpa using h) (show (x.taken op p).num = p.source from State.source_num (x := x) h)

theorem State.admitted_changes : ∃ y z w, s.admitted op p = { s with ctrs := y, sources := z, free := w } := by
  obtain ⟨c, w, hc⟩ := State.corrected_changes s p.port
  obtain ⟨a, ha⟩ := State.count_changes (s.corrected p.port) 0x0600 1
  obtain ⟨b, hb⟩ := State.onSource_changes (s.received p.port) p.source (fun x => x.taken op p)
  exact ⟨a, b, w, by rw [State.admitted, hb, State.received, ha, hc]⟩

@[simp] theorem State.admitted_pending : (s.admitted op p).pending = s.pending := by
  obtain ⟨_, _, _, h⟩ := State.admitted_changes (s := s) (op := op) (p := p); rw [h]
@[simp] theorem State.admitted_now : (s.admitted op p).now = s.now := by
  obtain ⟨_, _, _, h⟩ := State.admitted_changes (s := s) (op := op) (p := p); rw [h]
@[simp] theorem State.admitted_mem : (s.admitted op p).mem = s.mem := by
  obtain ⟨_, _, _, h⟩ := State.admitted_changes (s := s) (op := op) (p := p); rw [h]
@[simp] theorem State.admitted_poison : (s.admitted op p).poison = s.poison := by
  obtain ⟨_, _, _, h⟩ := State.admitted_changes (s := s) (op := op) (p := p); rw [h]
@[simp] theorem State.admitted_tensors : (s.admitted op p).tensors = s.tensors := by
  obtain ⟨_, _, _, h⟩ := State.admitted_changes (s := s) (op := op) (p := p); rw [h]
@[simp] theorem State.admitted_nets : (s.admitted op p).nets = s.nets := by
  obtain ⟨_, _, _, h⟩ := State.admitted_changes (s := s) (op := op) (p := p); rw [h]
@[simp] theorem State.admitted_cores : (s.admitted op p).cores = s.cores := by
  obtain ⟨_, _, _, h⟩ := State.admitted_changes (s := s) (op := op) (p := p); rw [h]
@[simp] theorem State.admitted_actStacks : (s.admitted op p).actStacks = s.actStacks := by
  obtain ⟨_, _, _, h⟩ := State.admitted_changes (s := s) (op := op) (p := p); rw [h]
@[simp] theorem State.admitted_stampCounter : (s.admitted op p).stampCounter = s.stampCounter := by
  obtain ⟨_, _, _, h⟩ := State.admitted_changes (s := s) (op := op) (p := p); rw [h]
@[simp] theorem State.admitted_cmds : (s.admitted op p).cmds = s.cmds := by
  obtain ⟨_, _, _, h⟩ := State.admitted_changes (s := s) (op := op) (p := p); rw [h]
@[simp] theorem State.admitted_nextNo : (s.admitted op p).nextNo = s.nextNo := by
  obtain ⟨_, _, _, h⟩ := State.admitted_changes (s := s) (op := op) (p := p); rw [h]
@[simp] theorem State.admitted_out : (s.admitted op p).out = s.out := by
  obtain ⟨_, _, _, h⟩ := State.admitted_changes (s := s) (op := op) (p := p); rw [h]
@[simp] theorem State.admitted_attention : (s.admitted op p).attention = s.attention := by
  obtain ⟨_, _, _, h⟩ := State.admitted_changes (s := s) (op := op) (p := p); rw [h]
@[simp] theorem State.admitted_i3c : (s.admitted op p).i3c = s.i3c := by
  obtain ⟨_, _, _, h⟩ := State.admitted_changes (s := s) (op := op) (p := p); rw [h]
@[simp] theorem State.admitted_streams : (s.admitted op p).streams = s.streams := by
  obtain ⟨_, _, _, h⟩ := State.admitted_changes (s := s) (op := op) (p := p); rw [h]
@[simp] theorem State.admitted_settings : (s.admitted op p).settings = s.settings := by
  obtain ⟨_, _, _, h⟩ := State.admitted_changes (s := s) (op := op) (p := p); rw [h]
@[simp] theorem State.admitted_portSettings : (s.admitted op p).portSettings = s.portSettings := by
  obtain ⟨_, _, _, h⟩ := State.admitted_changes (s := s) (op := op) (p := p); rw [h]
@[simp] theorem State.admitted_portQueue : (s.admitted op p).portQueue = s.portQueue := by
  obtain ⟨_, _, _, h⟩ := State.admitted_changes (s := s) (op := op) (p := p); rw [h]
@[simp] theorem State.admitted_stintSettings : (s.admitted op p).stintSettings = s.stintSettings := by
  obtain ⟨_, _, _, h⟩ := State.admitted_changes (s := s) (op := op) (p := p); rw [h]
@[simp] theorem State.admitted_stintStart : (s.admitted op p).stintStart = s.stintStart := by
  obtain ⟨_, _, _, h⟩ := State.admitted_changes (s := s) (op := op) (p := p); rw [h]
@[simp] theorem State.admitted_ledger : (s.admitted op p).ledger = s.ledger := by
  obtain ⟨_, _, _, h⟩ := State.admitted_changes (s := s) (op := op) (p := p); rw [h]
@[simp] theorem State.admitted_nextLedger : (s.admitted op p).nextLedger = s.nextLedger := by
  obtain ⟨_, _, _, h⟩ := State.admitted_changes (s := s) (op := op) (p := p); rw [h]
@[simp] theorem State.admitted_commits : (s.admitted op p).commits = s.commits := by
  obtain ⟨_, _, _, h⟩ := State.admitted_changes (s := s) (op := op) (p := p); rw [h]
@[simp] theorem State.admitted_trust : (s.admitted op p).trust = s.trust := by
  obtain ⟨_, _, _, h⟩ := State.admitted_changes (s := s) (op := op) (p := p); rw [h]
@[simp] theorem State.admitted_programs : (s.admitted op p).programs = s.programs := by
  obtain ⟨_, _, _, h⟩ := State.admitted_changes (s := s) (op := op) (p := p); rw [h]
@[simp] theorem State.admitted_freezes : (s.admitted op p).freezes = s.freezes := by
  obtain ⟨_, _, _, h⟩ := State.admitted_changes (s := s) (op := op) (p := p); rw [h]
@[simp] theorem State.admitted_net9 : (s.admitted op p).net9 = s.net9 := by
  obtain ⟨_, _, _, h⟩ := State.admitted_changes (s := s) (op := op) (p := p); rw [h]
@[simp] theorem State.admitted_pair : (s.admitted op p).pair = s.pair := by
  obtain ⟨_, _, _, h⟩ := State.admitted_changes (s := s) (op := op) (p := p); rw [h]
@[simp] theorem State.admitted_power : (s.admitted op p).power = s.power := by
  obtain ⟨_, _, _, h⟩ := State.admitted_changes (s := s) (op := op) (p := p); rw [h]
@[simp] theorem State.admitted_health : (s.admitted op p).health = s.health := by
  obtain ⟨_, _, _, h⟩ := State.admitted_changes (s := s) (op := op) (p := p); rw [h]

/-! ## The path -/

theorem Op.ofCode_code (op : Op) : Op.ofCode op.code = some op := by cases op <;> rfl

theorem State.onSource_some {n : Nat} {f : Source → Source} (h : s.source n = some x) : s.onSource n f = s.setSource (f x) := by
  simp [State.onSource, h]

/-- A packet on a port that takes it, of a source bound there whose open continuation, if any, is of its tag and opcode, comes to its
sequence check. -/
theorem State.takePacket_bound {c : Nat} (ha : s.answers p.port = true) (hl : p.params.length ≤ 4080)
    (hr : s.portFull p.port (16 + p.params.length) = false)
    (hx : s.source p.source = some x) (hp : x.port = p.port) (hc : ∀ k, x.cont = some k → k.tag = p.tag ∧ k.opcode = c) :
    s.takePacket c p = (s.count 0x0600 1).inSequence c p := by
  have hb : (s.count 0x0600 1).source p.source = some x := by simpa using hx
  have hend : (s.count 0x0600 1).endContin c p = s.count 0x0600 1 := by
    simp only [State.endContin, hb, Option.bind_some]
    cases hk : x.cont with
    | none => rfl
    | some k => exact if_pos (hc k hk)
  unfold State.takePacket
  rw [ha, if_neg (by decide), if_neg (by omega), hr, if_neg (by decide)]
  simp only [hb]
  rw [if_neg (by simp [hp]), hend]

/-- A new source is bound. -/
theorem State.takePacket_new {c : Nat} (ha : s.answers p.port = true) (hl : p.params.length ≤ 4080)
    (hr : s.portFull p.port (16 + p.params.length) = false)
    (hx : s.source p.source = none) (hn : s.sources.length < 256) :
    s.takePacket c p = ((s.count 0x0600 1).bindSource p).inSequence c p := by
  have hb : (s.count 0x0600 1).source p.source = none := by simpa using hx
  unfold State.takePacket
  rw [ha, if_neg (by decide), if_neg (by omega), hr, if_neg (by decide)]
  simp only [hb]
  rw [if_pos (by simpa using hn)]

theorem State.gathered_source (hx : s.source p.source = some x) : s.gathered p.source = x.gathered := by
  unfold State.gathered
  rw [hx]
  rfl

/-- The last packet of a parameter block. -/
theorem State.gather_whole {c : Nat} (hx : s.source p.source = some x) (hl : (x.gathered ++ p.params).length ≤ 65536)
    (hw : continued p.flags = false) :
    s.gather c p = (s.setSource { x with cont := none }).dispatch c p (x.gathered ++ p.params) := by
  unfold State.gather
  simp only [State.gathered_source hx, hw, Bool.false_eq_true, if_false]
  rw [if_neg (by omega), State.onSource_some hx]

/-- A packet in sequence, or of a command outside it. -/
theorem State.inSequence_ok (hx : s.source p.source = some x) (hl : (x.gathered ++ p.params).length ≤ 65536)
    (hw : continued p.flags = false) (hq : op.exempt = true ∨ x.seq = none ∨ x.seq = some p.seq) :
    s.inSequence op.code p = (s.setSource (x.taken op p)).dispatch op.code p (x.gathered ++ p.params) := by
  have hn := State.source_num (x := x) hx
  unfold State.inSequence
  simp only [Op.ofCode_code]
  by_cases he : op.exempt = true
  · rw [if_pos he, State.gather_whole hx hl hw]
    simp [Source.taken, he]
  · rw [if_neg he]
    have hs := State.source_setSource (x := x) (y := { x with seq := some ((p.seq + 1) % 2 ^ 32) }) hx hn
    have hgo : ((s.onSource p.source (fun x => { x with seq := some ((p.seq + 1) % 2 ^ 32) })).gather op.code p)
        = (s.setSource (x.taken op p)).dispatch op.code p (x.gathered ++ p.params) := by
      rw [State.onSource_some hx, State.gather_whole hs hl hw, State.setSource_setSource (by exact rfl)]
      simp [Source.taken, he, Source.gathered]
    simp only [hx, Option.bind_some]
    rcases hq with h1 | h1 | h1
    · exact absurd h1 he
    · simp only [h1, if_true, hgo]
    · simp only [h1, if_true, hgo]

/-- R347: a packet out of sequence. -/
theorem State.inSequence_gap {e : Nat} (hx : s.source p.source = some x) (he : op.exempt = false)
    (hq : x.seq = some e) (hne : p.seq ≠ e) :
    s.inSequence op.code p = ((s.setSource { x with seq := some ((p.seq + 1) % 2 ^ 32), cont := none }).countGap).answerTo p.port
      op.code p.source p.tag .seqGap (leBytes 4 e ++ leBytes 4 p.seq) := by
  have hs := State.source_setSource (x := x) (y := { x with seq := some ((p.seq + 1) % 2 ^ 32) }) hx (State.source_num (x := x) hx)
  unfold State.inSequence
  simp only [Op.ofCode_code, he, Bool.false_eq_true, if_false, hx, Option.bind_some, hq]
  rw [if_neg hne, State.onSource_some hx, State.onSource_some hs, State.setSource_setSource (by exact rfl)]

/-- The checks of R350 from its step 4 on, in a state whose source may send the command. -/
theorem State.dispatch_taken {t : State} {ps : List Byte} (hp : t.power.phase = .ready) (hf : t.power.failed = false)
    (hx : t.source p.source = some x) (hl : x.role ≠ .none ∨ t.loginFree (some op) = true)
    (hc : op.exempt = true ∨ t.credits p.source ≠ 0)
    (hb : fenceBefore p.flags = true → op.exempt = false ∧ (op.immediate ps = false ∨ ∀ c ∈ t.cmds, c.acked = false))
    (hu : op.immediate ps = true → op.usesCores = false → ∀ c ∈ t.cmds, c.acked = true → c.body ≠ .fence [])
    (ht : t.cmd p.source p.tag = none) (hm : t.mayRole op x.role = true) :
    t.dispatch op.code p ps = t.serve (x.req op { p with params := ps }) := by
  have hst : t.stateCode ≠ 0 ∧ t.stateCode ≠ 7 := by
    unfold State.stateCode
    simp only [hp, hf, ne_eq, not_true_eq_false, if_false, Bool.false_eq_true]
    constructor <;> (repeat' split) <;> decide
  have hlo : t.lockedOut (some op) = false := by
    unfold State.lockedOut
    split <;> simp_all
  have hro : t.roleOf p.source = x.role := by simp [State.roleOf, hx]
  have hmh : t.mustHold (x.req op { p with params := ps }) = false := by
    unfold State.mustHold
    show (op.immediate ps && (fenceBefore p.flags && t.cmds.any (fun c => c.acked)
      || !op.usesCores && t.cmds.any (fun c => c.acked && decide (c.body = .fence [])))) = false
    cases hi : op.immediate ps with
    | false => rfl
    | true =>
      have h1 : (fenceBefore p.flags && t.cmds.any (fun c => c.acked)) = false := by
        cases h : fenceBefore p.flags with
        | false => rfl
        | true => simpa [hi] using (hb h).2
      have h2 : (!op.usesCores && t.cmds.any (fun c => c.acked && decide (c.body = .fence []))) = false := by
        cases h : op.usesCores with
        | true => rfl
        | false => simpa using hu hi h
      simp [h1, h2]
  have hex : (op.exempt && fenceBefore p.flags) = false := by
    cases h : fenceBefore p.flags with
    | false => simp
    | true => simp [(hb h).1]
  have hnr : (decide (x.role = .none) && !t.loginFree (some op)) = false := by
    rcases hl with h | h <;> simp [h]
  have hcr : (!op.exempt && decide (t.credits p.source = 0)) = false := by
    rcases hc with h | h <;> simp [h]
  have htg : (t.cmd p.source p.tag).isSome = false := by simp [ht]
  have hrq : t.request op p ps = x.req op { p with params := ps } := by simp [State.request, hx, Source.req]
  have hm' : t.mayRole op (x.req op { p with params := ps }).role = true := hm
  unfold State.dispatch
  simp only [Op.ofCode_code, hlo, hro, hnr, hcr, hrq, hex, htg, hm', hmh, Bool.not_true, Bool.false_eq_true, if_false]

variable {last : Packet}

theorem Session.admitted_dispatch (h : Session s op p last x) :
    (s.admitted op p).dispatch op.code last p.params = (s.admitted op p).serve ((x.taken op p).req op p) := by
  have hb := h.block
  have hsrc : last.source = p.source := by rw [hb]
  have htag : last.tag = p.tag := by rw [hb]
  have hfl : last.flags = p.flags := by rw [hb]
  have hp : { last with params := p.params } = p := by rw [hb]
  have := State.dispatch_taken (t := s.admitted op p) (p := last) (x := x.taken op p) (op := op) (ps := p.params)
    (by simpa using h.ready) (by simpa using h.running) (by rw [hsrc]; exact State.admitted_source h.bound)
    (by simpa [State.loginFree, Source.taken] using h.login)
    (by simpa [State.credits, State.acting, State.slotsHeld, hsrc] using h.credit)
    (by rw [hfl]; simpa using h.unheld) (by simpa using h.unfenced) (by simpa [State.cmd, hsrc, htag] using h.tag)
    (by simpa [State.mayRole, Source.taken] using h.role)
  rw [this, hp]

/-- A packet that `Session` admits is served in the admitted state. -/
theorem recvCommand_session (h : Session s op p last x) :
    recvCommand op last s = .next ((s.admitted op p).serve ((x.taken op p).req op p)) := by
  have hb := h.block
  have hsrc : last.source = p.source := by rw [hb]
  have hport : last.port = p.port := by rw [hb]
  have hseq : last.seq = p.seq := by rw [hb]
  have hps : x.gathered ++ last.params = p.params := by rw [hb]
  have hbd : (s.received p.port).source last.source = some x := by simpa [hsrc] using h.bound
  have hport' : ∀ k, (s.corrected k).answers p.port = s.answers p.port ∧ (s.corrected k).portFull p.port = s.portFull p.port := by
    intro k
    obtain ⟨y, z, e⟩ := State.corrected_changes s k
    rw [e]
    exact ⟨rfl, rfl⟩
  have ht : x.taken op last = x.taken op p := by simp [Source.taken, hseq]
  unfold recvCommand recvPacket
  rw [if_neg (by rw [h.ready]; decide),
    State.takePacket_bound (by rw [hport, (hport' _).1]; exact h.port) h.short (by rw [hport, (hport' _).2]; exact h.room)
      (by rw [hsrc]; simpa using h.bound) (by rw [hport]; exact h.samePort) h.opened,
    show ((s.corrected last.port).count 0x0600 1) = s.received p.port by rw [hport]; rfl,
    State.inSequence_ok hbd (by rw [hps]; exact h.small) h.whole (by rw [hseq]; exact h.inSeq), ht, ← State.admitted_eq h.bound,
    hps, h.admitted_dispatch]

/-! ## What a verdict makes of the state -/

/-- A module that is awake needs no waking. -/
theorem State.wakeFor_awake {t : State} (h : t.power.sleep = .awake) (o : Op) (ps : List Byte) (m : Bool) :
    t.wakeFor o ps m = t := by
  unfold State.wakeFor State.wakeModule
  split
  · rfl
  · simp [h]

/-- A single reply OK. -/
theorem State.serve_done {t : State} {q : Req} {ps : List Byte} {u : State} {a : After} (hv : handle q t = .done .ok ps u a)
    (hu : u.power.sleep = .awake) : t.serve q = u.single q .ok ps a := by
  simp [State.serve, State.verdict, hv, Verdict.taken, Verdict.mapState, conclude, State.wakeFor_awake hu]

/-- A refusal. -/
theorem State.serve_refused {t : State} {q : Req} {r : Res} {ps : List Byte} {u : State} {a : After}
    (hv : handle q t = .done r ps u a) (hr : r ≠ .ok) : t.serve q = u.single q r ps a := by
  simp [State.serve, State.verdict, hv, Verdict.taken, conclude, hr]

/-- An acceptance. -/
theorem State.serve_accepted {t : State} {q : Req} {ps : List Byte} {b : Body} {n : Option Nat} {u : State}
    (hv : handle q t = .accept ps b n u) (hu : u.power.sleep = .awake) : t.serve q = u.accepted q ps b n := by
  simp [State.serve, State.verdict, hv, Verdict.taken, Verdict.mapState, conclude, State.wakeFor_awake hu]

/-- A wait for bulk data. -/
theorem State.serve_await {t : State} {q : Req} {n : Nat} {u : State}
    (hv : handle q t = .await n u) (hu : u.power.sleep = .awake) :
    t.serve q = u.addCmd (q.cmd u.nextNo u.now false (some n) (.held q.port q.role q.keyIndex)) := by
  simp [State.serve, State.verdict, hv, Verdict.taken, Verdict.mapState, conclude, State.wakeFor_awake hu]

/-! ## Rows of the host -/

/-- What reads neither the counters nor the sources is the same in the admitted state. -/
theorem State.admitted_keeps {α : Type} (f : State → α) (s : State) (op : Op) (p : Packet)
    (h : ∀ y z w, f { s with ctrs := y, sources := z, free := w } = f s) : f (s.admitted op p) = f s := by
  obtain ⟨y, z, w, e⟩ := State.admitted_changes (s := s) (op := op) (p := p)
  rw [e, h]

/-- Every row of the host is the receipt of its packet. -/
theorem exec_of_carried {i : Instr} {op : Op} {p : Packet} (h : carried i = some (op, p)) (s : State) :
    exec i s = recvCommand op p s := by
  cases i <;> simp only [carried, Option.some.injEq, Prod.mk.injEq, reduceCtorEq] at h <;> (obtain ⟨rfl, rfl⟩ := h; rfl)

/-- A row whose handler answers OK. -/
theorem exec_of_done {s u : State} {p last : Packet} {x : Source} {op : Op} {i : Instr} {ps : List Byte} {a : After}
    (hi : exec i s = recvCommand op last s) (h : Session s op p last x)
    (hv : handle ((x.taken op p).req op p) (s.admitted op p) = .done .ok ps u a) (hu : u.power.sleep = .awake) :
    exec i s = .next (u.single ((x.taken op p).req op p) .ok ps a) := by
  rw [hi, recvCommand_session h, State.serve_done hv hu]

/-- A row whose handler refuses. -/
theorem exec_of_refused {s u : State} {p last : Packet} {x : Source} {op : Op} {i : Instr} {r : Res} {ps : List Byte} {a : After}
    (hi : exec i s = recvCommand op last s) (h : Session s op p last x)
    (hv : handle ((x.taken op p).req op p) (s.admitted op p) = .done r ps u a) (hr : r ≠ .ok) :
    exec i s = .next (u.single ((x.taken op p).req op p) r ps a) := by
  rw [hi, recvCommand_session h, State.serve_refused hv hr]

/-- A row whose handler accepts. -/
theorem exec_of_accepted {s u : State} {p last : Packet} {x : Source} {op : Op} {i : Instr} {ps : List Byte} {b : Body}
    {n : Option Nat} (hi : exec i s = recvCommand op last s) (h : Session s op p last x)
    (hv : handle ((x.taken op p).req op p) (s.admitted op p) = .accept ps b n u) (hu : u.power.sleep = .awake) :
    exec i s = .next (u.accepted ((x.taken op p).req op p) ps b n) := by
  rw [hi, recvCommand_session h, State.serve_accepted hv hu]

/-- A row whose handler waits for bulk data. -/
theorem exec_of_awaited {s u : State} {p last : Packet} {x : Source} {op : Op} {i : Instr} {n : Nat}
    (hi : exec i s = recvCommand op last s) (h : Session s op p last x)
    (hv : handle ((x.taken op p).req op p) (s.admitted op p) = .await n u) (hu : u.power.sleep = .awake) :
    let q := (x.taken op p).req op p
    exec i s = .next (u.addCmd (q.cmd u.nextNo u.now false (some n) (.held q.port q.role q.keyIndex))) := by
  intro q
  rw [hi, recvCommand_session h, State.serve_await hv hu]

end Sys2Proof.Machine
end

