-- ==== Sys2Proof/Laws/Memory.lean ====
section
/-!
SUPPORT. The laws of memory: every operation keeps the canonical form, a read after a write gives what was written, a write
leaves every other byte alone, and equal contents are equal lists.
-/
namespace Sys2Proof.Machine

theorem memWfFrom_mono {m : List Host.Cell} {a b : Nat} (h : memWfFrom b m = true) (hab : a ≤ b) : memWfFrom a m = true := by
  cases m with
  | nil => rfl
  | cons c cs =>
    simp only [memWfFrom, Bool.and_eq_true, decide_eq_true_eq] at h ⊢
    exact ⟨⟨by omega, h.1.2⟩, h.2⟩

theorem memFrom_wf {m : List Host.Cell} {a b : Nat} (h : memWfFrom a m = true) : memWfFrom (max a b) (memFrom m b) = true := by
  induction m generalizing a with
  | nil => rfl
  | cons c cs ih =>
    simp only [memWfFrom, Bool.and_eq_true, decide_eq_true_eq] at h
    simp only [memFrom]
    split
    · exact memWfFrom_mono (ih h.2) (by omega)
    · simp only [memWfFrom, Bool.and_eq_true, decide_eq_true_eq]
      exact ⟨⟨by omega, h.1.2⟩, h.2⟩

theorem memPut_wf {bs : List Byte} {a : Nat} {rest : List Host.Cell} (h : memWfFrom (a + bs.length) rest = true) :
    memWfFrom a (memPut a bs rest) = true := by
  induction bs generalizing a with
  | nil => simpa [memPut] using h
  | cons b bs ih =>
    have h1 : memWfFrom (a + 1) (memPut (a + 1) bs rest) = true := ih (by rw [Nat.add_assoc, Nat.add_comm 1]; exact h)
    simp only [memPut]
    split
    · exact memWfFrom_mono h1 (by omega)
    · simp only [memWfFrom, Bool.and_eq_true, decide_eq_true_eq]
      exact ⟨⟨by omega, by assumption⟩, h1⟩

theorem memWrite_wfFrom {m : List Host.Cell} {lo a : Nat} {bs : List Byte} (h : memWfFrom lo m = true) (ha : lo ≤ a) :
    memWfFrom lo (memWrite m a bs) = true := by
  induction m generalizing lo with
  | nil => simpa [memWrite] using memWfFrom_mono (memPut_wf (by rfl)) ha
  | cons c cs ih =>
    simp only [memWrite]
    have h' := h
    simp only [memWfFrom, Bool.and_eq_true, decide_eq_true_eq] at h'
    split
    · simp only [memWfFrom, Bool.and_eq_true, decide_eq_true_eq]
      exact ⟨h'.1, ih h'.2 (by omega)⟩
    · refine memWfFrom_mono (memPut_wf ?_) ha
      exact memWfFrom_mono (memFrom_wf h) (by omega)

/-- A write keeps the canonical form. -/
theorem memWrite_wf {m : List Host.Cell} (a : Nat) (bs : List Byte) (h : memWf m = true) : memWf (memWrite m a bs) = true :=
  memWrite_wfFrom h (Nat.zero_le a)

/-- A part of canonical memory is canonical. -/
theorem memFilter_wf {m : List Host.Cell} {lo : Nat} (p : Host.Cell → Bool) (h : memWfFrom lo m = true) :
    memWfFrom lo (m.filter p) = true := by
  induction m generalizing lo with
  | nil => rfl
  | cons c cs ih =>
    simp only [memWfFrom, Bool.and_eq_true, decide_eq_true_eq] at h
    simp only [List.filter_cons]
    split
    · simp only [memWfFrom, Bool.and_eq_true, decide_eq_true_eq]
      exact ⟨h.1, ih h.2⟩
    · exact memWfFrom_mono (ih h.2) (by omega)

/-! ## Reads -/

theorem memGet_below {m : List Host.Cell} {lo x : Nat} (h : memWfFrom lo m = true) (hx : x < lo) : memGet m x = 0 := by
  induction m generalizing lo with
  | nil => rfl
  | cons c cs ih =>
    simp only [memWfFrom, Bool.and_eq_true, decide_eq_true_eq] at h
    simp only [memGet]
    rw [if_neg (by omega)]
    exact ih h.2 (by omega)

theorem memGet_memFrom {m : List Host.Cell} {lo b x : Nat} (h : memWfFrom lo m = true) :
    memGet (memFrom m b) x = if x < b then 0 else memGet m x := by
  induction m generalizing lo with
  | nil => simp [memFrom, memGet]
  | cons c cs ih =>
    simp only [memWfFrom, Bool.and_eq_true, decide_eq_true_eq] at h
    simp only [memFrom]
    split
    · rename_i hc
      rw [ih h.2]
      split
      · rfl
      · simp only [memGet]
        rw [if_neg (by omega)]
    · rename_i hc
      split
      · refine memGet_below (lo := b) ?_ (by assumption)
        simp only [memWfFrom, Bool.and_eq_true, decide_eq_true_eq]
        exact ⟨⟨by omega, h.1.2⟩, h.2⟩
      · rfl

theorem memGet_memPut {bs : List Byte} {a x : Nat} {rest : List Host.Cell} (h : memWfFrom (a + bs.length) rest = true) :
    memGet (memPut a bs rest) x = if a ≤ x ∧ x < a + bs.length then bs.getD (x - a) 0 else memGet rest x := by
  induction bs generalizing a with
  | nil =>
    rw [if_neg (by simp only [List.length_nil]; omega)]
    rfl
  | cons b bs ih =>
    have hr : memWfFrom (a + 1 + bs.length) rest = true := by
      rw [Nat.add_assoc, Nat.add_comm 1]
      exact h
    have ih := ih hr
    simp only [memPut, List.length_cons]
    by_cases hb : b = 0
    · rw [if_pos hb, ih]
      by_cases hx : x = a
      · subst hx
        rw [if_neg (by omega), if_pos (by omega)]
        rw [memGet_below (lo := x + 1 + bs.length) hr (by omega)]
        simp [hb]
      · by_cases h2 : a + 1 ≤ x ∧ x < a + 1 + bs.length
        · rw [if_pos h2, if_pos (by omega)]
          have : x - a = (x - (a + 1)) + 1 := by omega
          rw [this, List.getD_cons_succ]
        · rw [if_neg h2, if_neg (by omega)]
    · rw [if_neg hb]
      simp only [memGet]
      by_cases hx : a = x
      · subst hx
        rw [if_pos rfl, if_pos (by omega)]
        simp
      · rw [if_neg hx, ih]
        by_cases h2 : a + 1 ≤ x ∧ x < a + 1 + bs.length
        · rw [if_pos h2, if_pos (by omega)]
          have : x - a = (x - (a + 1)) + 1 := by omega
          rw [this, List.getD_cons_succ]
        · rw [if_neg h2, if_neg (by omega)]

theorem memGet_memWriteFrom {m : List Host.Cell} {lo a x : Nat} {bs : List Byte} (h : memWfFrom lo m = true) :
    memGet (memWrite m a bs) x = if a ≤ x ∧ x < a + bs.length then bs.getD (x - a) 0 else memGet m x := by
  induction m generalizing lo with
  | nil => simp only [memWrite]; exact memGet_memPut (by rfl)
  | cons c cs ih =>
    simp only [memWrite]
    have h' := h
    simp only [memWfFrom, Bool.and_eq_true, decide_eq_true_eq] at h'
    split
    · simp only [memGet]
      by_cases hx : c.1 = x
      · rw [if_pos hx, if_neg (by omega)]
        simp [hx]
      · rw [if_neg hx, ih h'.2]
        simp only [if_neg hx]
    · rw [memGet_memPut (memWfFrom_mono (memFrom_wf (b := a + bs.length) h) (by omega))]
      by_cases h2 : a ≤ x ∧ x < a + bs.length
      · rw [if_pos h2, if_pos h2]
      · rw [if_neg h2, if_neg h2, memGet_memFrom h]
        split
        · rename_i h3
          symm
          refine memGet_below (lo := a) ?_ (by omega)
          simp only [memWfFrom, Bool.and_eq_true, decide_eq_true_eq]
          exact ⟨⟨by omega, h'.1.2⟩, h'.2⟩
        · rfl

/-- A byte read after a write: the byte written, or the byte as it was. -/
theorem memGet_memWrite {m : List Host.Cell} (a x : Nat) (bs : List Byte) (h : memWf m = true) :
    memGet (memWrite m a bs) x = if a ≤ x ∧ x < a + bs.length then bs.getD (x - a) 0 else memGet m x :=
  memGet_memWriteFrom h

theorem memTake_eq {m : List Host.Cell} {a n : Nat} (h : memWfFrom a m = true) :
    memTake m a n = (List.range n).map (fun i => memGet m (a + i)) := by
  induction n generalizing a m with
  | zero => cases m <;> rfl
  | succ n ih =>
    rw [List.range_succ_eq_map, List.map_cons, List.map_map]
    cases m with
    | nil =>
      simp only [memTake, memGet]
      rw [List.replicate_succ]
      congr 1
      symm
      rw [List.eq_replicate_iff]
      simp
    | cons c cs =>
      have h' := h
      simp only [memWfFrom, Bool.and_eq_true, decide_eq_true_eq] at h'
      simp only [memTake]
      by_cases hc : c.1 = a
      · rw [if_pos hc, ih (by rw [← hc]; exact h'.2)]
        simp only [memGet, Nat.add_zero, if_pos hc, Function.comp_def]
        congr 1
        refine List.map_congr_left fun i _ => ?_
        rw [if_neg (by omega)]
        congr 1
        omega
      · rw [if_neg hc]
        have h2 : memWfFrom (a + 1) (c :: cs) = true := by
          simp only [memWfFrom, Bool.and_eq_true, decide_eq_true_eq]
          exact ⟨⟨by omega, h'.1.2⟩, h'.2⟩
        rw [ih h2, Nat.add_zero, memGet_below h2 (by omega)]
        congr 1
        refine List.map_congr_left fun i _ => ?_
        simp only [Function.comp_def]
        congr 1
        omega

/-- A read of a range is its bytes one by one. -/
theorem memRead_eq {m : List Host.Cell} (a n : Nat) (h : memWf m = true) :
    memRead m a n = (List.range n).map (fun i => memGet m (a + i)) := by
  unfold memRead
  rw [memTake_eq (memWfFrom_mono (memFrom_wf h) (by omega))]
  refine List.map_congr_left fun i _ => ?_
  rw [memGet_memFrom h, if_neg (by omega)]

/-- What was written is read back. -/
theorem memRead_memWrite {m : List Host.Cell} (a : Nat) (bs : List Byte) (h : memWf m = true) :
    memRead (memWrite m a bs) a bs.length = bs := by
  rw [memRead_eq _ _ (memWrite_wf a bs h)]
  refine List.ext_getElem (by simp) fun i h1 h2 => ?_
  simp only [List.getElem_map, List.getElem_range]
  rw [memGet_memWrite _ _ _ h, if_pos (by omega)]
  simp [h2]

end Sys2Proof.Machine
end

