-- ==== Sys2Proof/Laws/Kept.lean ====
section
/-!
SUPPORT. How soundness, and what no command undoes, pass through an update of the state: one law for a record update, and one
for each field they speak of.
-/
namespace Sys2Proof.Machine

variable {n : Nat} {org s : State}

/-- A state `s` that is sound, and that has come from `org` with nothing undone that no command undoes. -/
structure Kept (n : Nat) (org s : State) : Prop extends Sound n s, Onward org s

theorem Kept.refl (h : Sound n s) : Kept n s s :=
  { h with pending := rfl, free := Nat.le_refl _, next := Nat.le_refl _, exported := Nat.le_refl _, rollback := Nat.le_refl _,
           boots := Nat.le_refl _ }

/-- A record update that leaves the forms and the bounds as they were, and undoes nothing. -/
theorem Kept.upd (h : Kept n org s) {now written nets cores actStacks stampCounter sources cmds nextNo out attention i3c streams
    portSettings portQueue stintSettings stintStart nextLedger trust programs freezes net9 pair power health ctrs free}
    (h1 : cores.length = s.cores.length) (h2 : actStacks.length = s.actStacks.length)
    (h3 : sources.length ≤ s.sources.length) (h4 : cmds.length ≤ s.cmds.length)
    (h5 : (Trust.audit trust).records.length ≤ s.trust.audit.records.length)
    (h6 : (Net9.links net9).length = s.net9.links.length)
    (h7 : (Power.groups power).length = s.power.groups.length) (h8 : (Health.map health).length = s.health.map.length)
    (h9 : s.free ≤ free) (h10 : s.trust.audit.next ≤ trust.audit.next) (h11 : s.trust.audit.exported ≤ trust.audit.exported)
    (h12 : s.trust.firmware.rollback ≤ trust.firmware.rollback) (h13 : s.trust.firmware.bootCount ≤ trust.firmware.bootCount) :
    Kept n org ⟨s.pending, now, s.mem, s.poison, written, s.tensors, nets, cores, actStacks, stampCounter, sources, cmds, nextNo, out,
      attention, i3c, streams, s.settings, portSettings, portQueue, stintSettings, stintStart, s.ledger, nextLedger, s.commits,
      trust, programs, freezes, net9, pair, power, health, ctrs, free⟩ :=
  { mem := h.mem, poison := h.poison, tensors := h.tensors, cores := h1.trans h.cores, actStacks := h2.trans h.actStacks,
    groups := h7.trans h.groups, links := h6.trans h.links, map := h8.trans h.map, sources := h3.trans h.sources,
    cmds := h4.trans h.cmds, audit := h5.trans h.audit, settings := h.settings, ledger := h.ledger, commits := h.commits,
    pending := h.pending, free := h.free.trans h9, next := h.next.trans h10, exported := h.exported.trans h11,
    rollback := h.rollback.trans h12, boots := h.boots.trans h13 }

/-- The open Ledger replaced by one whose staged values are in range, or closed. -/
theorem Kept.setLedger (h : Kept n org s) {x : Option Ledger} (hx : ∀ l, x = some l → settingsOk l.keys) :
    Kept n org { s with ledger := x } := { h with ledger := hx }

/-- The commits replaced. -/
theorem Kept.setCommits (h : Kept n org s) {x : List Commit} (hx : ∀ c ∈ x, settingsOk c.keys) :
    Kept n org { s with commits := x } := { h with commits := hx }

/-- A fold of operations that each keep soundness. -/
theorem Kept.foldl {α : Type} (xs : List α) (f : State → α → State) (h : Kept n org s)
    (hf : ∀ a x, Kept n org a → Kept n org (f a x)) : Kept n org (xs.foldl f s) := by
  induction xs generalizing s with
  | nil => exact h
  | cons x xs ih => exact ih (hf s x h)

/-- The same from the right. -/
theorem Kept.foldr {α : Type} (xs : List α) (f : α → State → State) (h : Kept n org s)
    (hf : ∀ x a, Kept n org a → Kept n org (f x a)) : Kept n org (xs.foldr f s) := by
  induction xs with
  | nil => exact h
  | cons x xs ih => exact hf x _ ih

/-- A fold that carries the state with another value. -/
theorem Kept.foldlFst {α β : Type} (xs : List α) (f : State × β → α → State × β) {a : State × β} (h : Kept n org a.1)
    (hf : ∀ a x, Kept n org a.1 → Kept n org (f a x).1) : Kept n org (xs.foldl f a).1 := by
  induction xs generalizing a with
  | nil => exact h
  | cons x xs ih => exact ih (hf a x h)

theorem Kept.foldlSnd {α β : Type} (xs : List α) (f : β × State → α → β × State) {a : β × State} (h : Kept n org a.2)
    (hf : ∀ a x, Kept n org a.2 → Kept n org (f a x).2) : Kept n org (xs.foldl f a).2 := by
  induction xs generalizing a with
  | nil => exact h
  | cons x xs ih => exact ih (hf a x h)

theorem Kept.mono {m : Nat} (h : Kept n org s) (hm : n ≤ m) : Kept m org s := { h with cmds := h.cmds.trans hm }

theorem Kept.narrow {m : Nat} (h : Kept n org s) (hm : s.cmds.length ≤ m) : Kept m org s := { h with cmds := hm }

/-- The state of a verdict is sound. -/
def Verdict.Kept (n : Nat) (org : State) : Verdict → Prop
  | .done _ _ s _ => Machine.Kept n org s
  | .accept _ _ _ s => Machine.Kept n org s
  | .await _ s => Machine.Kept n org s

/-- The next state of an outcome, if it has one, is sound. -/
def KeptOut (n : Nat) (org : State) (o : Host.Outcome State Fault Refusal) : Prop := ∀ t, o = .next t → Kept n org t

theorem KeptOut.next (h : Kept n org s) : KeptOut n org (.next s) := by
  intro t ht
  cases ht
  exact h

theorem KeptOut.fault {f : Fault} : KeptOut n org (.fault f) := by
  intro t ht
  cases ht

theorem Verdict.Kept.done {r : Res} {p : List Byte} {a : After} (h : Machine.Kept n org s) : Verdict.Kept n org (.done r p s a) := h
theorem Verdict.Kept.accept {p : List Byte} {b : Body} {k : Option Nat} (h : Machine.Kept n org s) :
    Verdict.Kept n org (.accept p b k s) := h
theorem Verdict.Kept.await {k : Nat} (h : Machine.Kept n org s) : Verdict.Kept n org (.await k s) := h

/-! ## Lengths -/

theorem listUpd_length {α : Type} (xs : List α) (i : Nat) (f : α → α) : (listUpd xs i f).length = xs.length := by
  unfold listUpd
  split <;> simp

end Sys2Proof.Machine
end

