-- ==== Sys2Proof/Laws/KeptMem.lean ====
section
/-!
SUPPORT. The functions of Machine/Mem.lean keep a sound block sound, and undo nothing that no command undoes (`Kept`).
-/
namespace Sys2Proof.Machine

theorem writeEach_wf {s : State} {bs : List Byte} {m : List Host.Cell} {a : Nat} (h : memWf m = true) :
    memWf (writeEach s m a bs) = true := by
  induction bs generalizing m a with
  | nil => exact h
  | cons b bs ih =>
    refine ih ?_
    split
    · exact h
    · exact memWrite_wf a [b] h

theorem poisonAdd_mem {p : List Nat} {u x : Nat} (h : x ∈ poisonAdd p u) : x = u ∨ x ∈ p := by
  induction p with
  | nil => exact Or.inl (by simpa [poisonAdd] using h)
  | cons y ys ih =>
    simp only [poisonAdd] at h
    split at h
    · simpa using h
    · split at h
      · exact Or.inr h
      · rcases List.mem_cons.1 h with h | h
        · exact Or.inr (by simp [h])
        · rcases ih h with h | h
          · exact Or.inl h
          · exact Or.inr (by simp [h])

theorem poisonAdd_sorted {p : List Nat} (u : Nat) (h : p.Pairwise (· < ·)) : (poisonAdd p u).Pairwise (· < ·) := by
  induction p with
  | nil => simp [poisonAdd]
  | cons y ys ih =>
    have h' := List.pairwise_cons.1 h
    simp only [poisonAdd]
    split
    · refine List.pairwise_cons.2 ⟨fun x hx => ?_, h⟩
      rcases List.mem_cons.1 hx with rfl | hx
      · assumption
      · exact Nat.lt_trans (by assumption) (h'.1 x hx)
    · split
      · exact h
      · refine List.pairwise_cons.2 ⟨fun x hx => ?_, ih h'.2⟩
        rcases poisonAdd_mem hx with rfl | hx
        · omega
        · exact h'.1 x hx

theorem poisonAdd_foldl_sorted {us p : List Nat} (h : p.Pairwise (· < ·)) : (us.foldl poisonAdd p).Pairwise (· < ·) := by
  induction us generalizing p with
  | nil => exact h
  | cons u us ih => exact ih (poisonAdd_sorted u h)

theorem State.write_kept {lim : Nat} {org s : State} (h : Kept lim org s) (a : Nat) (bs : List Byte) : Kept lim org (State.write s a bs) :=
  { h with
    mem := by
      show memWf (if _ then _ else _) = true
      split
      · exact writeEach_wf h.mem
      · exact memWrite_wf a bs h.mem
    poison := h.poison.filter _ }

theorem State.poisonUnits_kept {lim : Nat} {org s : State} (h : Kept lim org s) (us : List Nat) : Kept lim org (State.poisonUnits s us) :=
  { h with poison := poisonAdd_foldl_sorted h.poison }

theorem State.copy_kept {lim : Nat} {org : State} {s : State} (h : Kept lim org s) (src : Nat) (dst : Nat) (n : Nat) :
    Kept lim org (State.copy s src dst n) := by
  unfold State.copy
  try dsimp only
  repeat' (first
    | with_reducible assumption
    | dsimp only
    | split
    | with_reducible apply State.write_kept
    | with_reducible apply State.poisonUnits_kept)

end Sys2Proof.Machine
end

