-- ==== Sys2Proof/Laws/KeptOps.lean ====
section
/-!
SUPPORT. The functions of Machine/Ops.lean keep a sound block sound, and undo nothing that no command undoes (`Kept`).
-/
namespace Sys2Proof.Machine

theorem State.fresh_kept {lim : Nat} {org : State} {s : State} (h : Kept lim org s)  :
    Kept lim org (State.fresh s).2 := by
  unfold State.fresh
  try dsimp only
  repeat' (first
    | with_reducible assumption
    | dsimp only
    | split
    | with_reducible apply Kept.foldl
    | with_reducible apply Kept.upd
    | intro _
    | with_reducible rfl
    | with_reducible exact Nat.le_refl _
    | exact Nat.le_succ _)

theorem State.freeBytes_kept {lim : Nat} {org : State} {s : State} (h : Kept lim org s) (n : Nat) :
    Kept lim org (State.freeBytes s n).2 := by
  unfold State.freeBytes
  try dsimp only
  repeat' (first
    | with_reducible assumption
    | dsimp only
    | split
    | with_reducible apply Kept.foldl
    | with_reducible apply Kept.upd
    | intro _
    | with_reducible rfl
    | with_reducible exact Nat.le_refl _
    | exact Nat.le_succ _
    | simp )

theorem State.freeNat_kept {lim : Nat} {org : State} {s : State} (h : Kept lim org s)  :
    Kept lim org (State.freeNat s).2 := by
  unfold State.freeNat
  try dsimp only
  repeat' (first
    | with_reducible assumption
    | dsimp only
    | split
    | with_reducible apply Kept.foldl
    | with_reducible apply Kept.upd
    | intro _
    | with_reducible rfl
    | with_reducible exact Nat.le_refl _
    | exact Nat.le_succ _)

theorem State.count_kept {lim : Nat} {org : State} {s : State} (h : Kept lim org s) (id : Nat) (n : Nat) :
    Kept lim org (State.count s id n) := by
  unfold State.count
  try dsimp only
  repeat' (first
    | with_reducible assumption
    | dsimp only
    | split
    | with_reducible apply Kept.foldl
    | with_reducible apply Kept.upd
    | intro _
    | with_reducible rfl)

theorem State.setCore_kept {lim : Nat} {org : State} {s : State} (h : Kept lim org s) (c : Nat) (k : Core) :
    Kept lim org (State.setCore s c k) := by
  unfold State.setCore
  try dsimp only
  repeat' (first
    | with_reducible assumption
    | dsimp only
    | split
    | with_reducible apply Kept.foldl
    | with_reducible apply Kept.upd
    | intro _
    | with_reducible rfl
    | with_reducible exact Nat.le_refl _
    | exact Nat.le_succ _
    | simp )

theorem State.mapCore_kept {lim : Nat} {org : State} {s : State} (h : Kept lim org s) (c : Nat) (f : Core → Core) :
    Kept lim org (State.mapCore s c f) := by
  unfold State.mapCore
  try dsimp only
  repeat' (first
    | with_reducible assumption
    | dsimp only
    | split
    | with_reducible apply State.setCore_kept)

theorem State.countCore_kept {lim : Nat} {org : State} {s : State} (h : Kept lim org s) (c : Nat) (id : Nat) (n : Nat) :
    Kept lim org (State.countCore s c id n) := by
  unfold State.countCore
  try dsimp only
  repeat' (first
    | with_reducible assumption
    | dsimp only
    | split
    | with_reducible apply State.count_kept
    | with_reducible apply State.setCore_kept)

theorem State.raiseAttn_kept {lim : Nat} {org : State} {s : State} (h : Kept lim org s) (bits : BitVec 8) :
    Kept lim org (State.raiseAttn s bits) := by
  unfold State.raiseAttn
  try dsimp only
  repeat' (first
    | with_reducible assumption
    | dsimp only
    | split
    | with_reducible apply Kept.foldl
    | with_reducible apply Kept.upd
    | intro _
    | with_reducible rfl)

theorem State.raiseFault_kept {lim : Nat} {org : State} {s : State} (h : Kept lim org s) (unit : Nat) :
    Kept lim org (State.raiseFault s unit) := by
  unfold State.raiseFault
  try dsimp only
  repeat' (first
    | with_reducible assumption
    | dsimp only
    | split
    | with_reducible apply Kept.foldl
    | with_reducible apply Kept.upd
    | intro _
    | with_reducible rfl)

theorem State.spareEvent_kept {lim : Nat} {org : State} {s : State} (h : Kept lim org s)  :
    Kept lim org (State.spareEvent s) := by
  unfold State.spareEvent
  try dsimp only
  repeat' (first
    | with_reducible assumption
    | dsimp only
    | split
    | with_reducible apply Kept.foldl
    | with_reducible apply Kept.upd
    | intro _
    | with_reducible rfl)

theorem State.countOverrun_kept {lim : Nat} {org : State} {s : State} (h : Kept lim org s) (n : Nat) :
    Kept lim org (State.countOverrun s n) := by
  unfold State.countOverrun
  try dsimp only
  repeat' (first
    | with_reducible assumption
    | dsimp only
    | split
    | with_reducible apply Kept.upd
    | intro _
    | with_reducible rfl
    | with_reducible exact Nat.le_refl _)

theorem State.overrun_kept {lim : Nat} {org : State} {s : State} (h : Kept lim org s) (n : Nat) :
    Kept lim org (State.overrun s n) := by
  unfold State.overrun
  try dsimp only
  repeat' (first
    | with_reducible assumption
    | dsimp only
    | split
    | with_reducible apply Kept.foldl
    | with_reducible apply Kept.upd
    | intro _
    | with_reducible rfl)

theorem State.raiseService_kept {lim : Nat} {org : State} {s : State} (h : Kept lim org s) (bit : Nat) :
    Kept lim org (State.raiseService s bit) := by
  unfold State.raiseService
  try dsimp only
  repeat' (first
    | with_reducible assumption
    | dsimp only
    | split
    | with_reducible apply Kept.foldl
    | with_reducible apply Kept.upd
    | intro _
    | with_reducible rfl)

theorem State.poisonSeen_kept {lim : Nat} {org : State} {s : State} (h : Kept lim org s) (first : Nat) (k : Nat) :
    Kept lim org (State.poisonSeen s first k) := by
  unfold State.poisonSeen
  try dsimp only
  repeat' (first
    | with_reducible assumption
    | dsimp only
    | split
    | with_reducible apply State.count_kept
    | with_reducible apply Kept.foldl
    | with_reducible apply Kept.upd
    | intro _
    | with_reducible rfl)

theorem State.notePoison_kept {lim : Nat} {org : State} {s : State} (h : Kept lim org s) (a : Nat) (n : Nat) :
    Kept lim org (State.notePoison s a n) := by
  unfold State.notePoison
  try dsimp only
  repeat' (first
    | with_reducible assumption
    | dsimp only
    | split
    | with_reducible apply State.poisonSeen_kept)

theorem State.noteRead_kept {lim : Nat} {org : State} {s : State} (h : Kept lim org s) (a : Nat) (n : Nat) :
    Kept lim org (State.noteRead s a n) := by
  unfold State.noteRead
  try dsimp only
  repeat' (first
    | with_reducible assumption
    | dsimp only
    | split
    | with_reducible apply State.notePoison_kept)

end Sys2Proof.Machine
end

