-- ==== Sys2Proof/Laws/KeptStint.lean ====
section
/-!
SUPPORT. The functions of Machine/Stint.lean keep a sound block sound, and undo nothing that no command undoes (`Kept`).
-/
namespace Sys2Proof.Machine

theorem State.requestOn_kept {lim : Nat} {org : State} {s : State} (h : Kept lim org s) (cls : Activity) (kind : Nat) (inst : Nat) (n : Nat) :
    Kept lim org (State.requestOn s cls kind inst n) := by
  unfold State.requestOn
  try dsimp only
  repeat' (first
    | with_reducible assumption
    | dsimp only
    | split
    | with_reducible apply Kept.foldl
    | with_reducible apply Kept.upd
    | intro _
    | with_reducible rfl)

theorem State.atCeiling_kept {lim : Nat} {org : State} {s : State} (h : Kept lim org s) (cls : Activity) (kind : Nat) (inst : Nat) :
    Kept lim org (State.atCeiling s cls kind inst) := by
  unfold State.atCeiling
  try dsimp only
  repeat' (first
    | with_reducible assumption
    | dsimp only
    | split
    | with_reducible apply Kept.foldl
    | with_reducible apply Kept.upd
    | intro _
    | with_reducible rfl)

theorem State.charge_kept {lim : Nat} {org : State} {s : State} (h : Kept lim org s) (cls : Activity) (ms : Moves) :
    Kept lim org (State.charge s cls ms) := by
  unfold State.charge
  try dsimp only
  repeat' (first
    | with_reducible assumption
    | dsimp only
    | split
    | with_reducible apply State.requestOn_kept
    | with_reducible apply Kept.foldl
    | with_reducible apply Kept.foldlFst
    | with_reducible apply Kept.foldlSnd
    | with_reducible apply Kept.upd
    | intro _
    | with_reducible rfl)

theorem State.waitAt_kept {lim : Nat} {org : State} {s : State} (h : Kept lim org s) (cls : Activity) (ms : Moves) :
    Kept lim org (State.waitAt s cls ms) := by
  unfold State.waitAt
  try dsimp only
  repeat' (first
    | with_reducible assumption
    | dsimp only
    | split
    | with_reducible apply State.atCeiling_kept
    | with_reducible apply Kept.foldl
    | with_reducible apply Kept.foldlFst
    | with_reducible apply Kept.foldlSnd
    | with_reducible apply Kept.upd
    | intro _
    | with_reducible rfl)

theorem State.moving_kept {lim : Nat} {org s : State} (h : Kept lim org s) (cls : Activity) (ms : Moves) (act : State → State)
    (ha : ∀ t, Kept lim org t → Kept lim org (act t)) : Kept lim org (State.moving s cls ms act) := by
  unfold State.moving
  split
  · exact ha _ (State.charge_kept h cls ms)
  · exact State.waitAt_kept h cls ms

theorem State.countStint_kept {lim : Nat} {org : State} {s : State} (h : Kept lim org s) (kind : Nat) (cls : Nat) (which : Nat) (n : Nat) :
    Kept lim org (State.countStint s kind cls which n) := by
  unfold State.countStint
  try dsimp only
  repeat' (first
    | with_reducible assumption
    | dsimp only
    | split
    | with_reducible apply State.count_kept)

theorem State.settleClass_kept {lim : Nat} {org : State} {s : State} (h : Kept lim org s) (kind : Nat) (inst : Nat) (cls : Nat) (g : Grants) (lost : Nat) :
    Kept lim org (State.settleClass s kind inst cls g lost) := by
  unfold State.settleClass
  try dsimp only
  repeat' (first
    | with_reducible assumption
    | dsimp only
    | split
    | with_reducible apply State.atCeiling_kept
    | with_reducible apply State.countStint_kept
    | with_reducible apply Kept.foldl
    | with_reducible apply Kept.upd
    | intro _
    | with_reducible rfl)

theorem State.withheld_kept {lim : Nat} {org : State} {s : State} (h : Kept lim org s) (want : List Nat) :
    Kept lim org (State.withheld s want).2 := by
  unfold State.withheld
  split
  · refine Kept.foldlSnd _ _ h (fun a x ha => ?_)
    dsimp only
    split
    · exact State.freeNat_kept ha
    · exact ha
  · exact h

theorem State.settleInstance_kept {lim : Nat} {org : State} {s : State} (h : Kept lim org s) (kind : Nat) (inst : Nat) :
    Kept lim org (State.settleInstance s kind inst) :=
  Kept.foldl _ _ (State.withheld_kept h _) (fun _ _ ha => State.settleClass_kept ha _ _ _ _ _)

theorem State.settleStint_kept {lim : Nat} {org : State} {s : State} (h : Kept lim org s)  :
    Kept lim org (State.settleStint s) := by
  unfold State.settleStint
  try dsimp only
  repeat' (first
    | with_reducible assumption
    | dsimp only
    | split
    | with_reducible apply State.settleInstance_kept
    | with_reducible apply Kept.foldl
    | with_reducible apply Kept.foldlFst
    | with_reducible apply Kept.foldlSnd
    | with_reducible apply Kept.upd
    | intro _
    | with_reducible rfl)

end Sys2Proof.Machine
end

