-- ==== Sys2Proof/Laws/KeptSession.lean ====
section
/-!
SUPPORT. The functions of Machine/Session.lean keep a sound block sound, and undo nothing that no command undoes (`Kept`).
-/
namespace Sys2Proof.Machine

theorem AuditLog.push_next (a : AuditLog) (body : List Byte) : (a.push body).next = a.next + 1 := by
  unfold AuditLog.push
  dsimp only
  split
  · rfl
  · split <;> rfl

theorem AuditLog.push_exported (a : AuditLog) (body : List Byte) : (a.push body).exported = a.exported := by
  unfold AuditLog.push
  dsimp only
  split
  · rfl
  · split <;> rfl

theorem AuditLog.push_length {a : AuditLog} (h : a.records.length ≤ 65536) (body : List Byte) :
    (a.push body).records.length ≤ 65536 := by
  unfold AuditLog.push
  dsimp only
  split
  · simp
  · rename_i o os heq
    split
    · simp only [List.length_append, List.length_cons, List.length_nil]
      rw [heq, List.length_cons] at h
      omega
    · simp only [List.length_append, List.length_cons, List.length_nil]
      omega

theorem State.degradeCheck_kept {lim : Nat} {org : State} {s : State} (h : Kept lim org s) (was : Bool) :
    Kept lim org (State.degradeCheck s was) := by
  unfold State.degradeCheck
  try dsimp only
  repeat' (first
    | with_reducible assumption
    | dsimp only
    | split
    | with_reducible apply State.raiseAttn_kept)

theorem State.lookAtInlet_kept {lim : Nat} {org : State} {s : State} (h : Kept lim org s) :
    Kept lim org (State.lookAtInlet s) := by
  unfold State.lookAtInlet
  try dsimp only
  repeat' (first
    | with_reducible assumption
    | dsimp only
    | split
    | with_reducible apply State.raiseAttn_kept
    | with_reducible apply Kept.upd
    | intro _
    | with_reducible rfl
    | with_reducible exact Nat.le_refl _)

theorem State.setSource_kept {lim : Nat} {org : State} {s : State} (h : Kept lim org s) (x : Source) :
    Kept lim org (State.setSource s x) := by
  unfold State.setSource
  try dsimp only
  repeat' (first
    | with_reducible assumption
    | dsimp only
    | split
    | with_reducible apply Kept.foldl
    | with_reducible apply Kept.upd
    | intro _
    | with_reducible rfl
    | with_reducible exact Nat.le_refl _
    | exact Nat.le_succ _
    | simp )

theorem State.setCmd_kept {lim : Nat} {org : State} {s : State} (h : Kept lim org s) (c : Cmd) :
    Kept lim org (State.setCmd s c) := by
  unfold State.setCmd
  try dsimp only
  repeat' (first
    | with_reducible assumption
    | dsimp only
    | split
    | with_reducible apply Kept.foldl
    | with_reducible apply Kept.upd
    | intro _
    | with_reducible rfl
    | with_reducible exact Nat.le_refl _
    | exact Nat.le_succ _
    | simp )

theorem State.dropCmd_kept {lim : Nat} {org : State} {s : State} (h : Kept lim org s) (c : Cmd) :
    Kept lim org (State.dropCmd s c) := by
  unfold State.dropCmd
  try dsimp only
  repeat' (first
    | with_reducible assumption
    | dsimp only
    | split
    | with_reducible apply Kept.foldl
    | with_reducible apply Kept.upd
    | intro _
    | with_reducible rfl
    | with_reducible exact Nat.le_refl _
    | exact Nat.le_succ _
    | simp [List.length_filter_le])

theorem State.endTag_kept {lim : Nat} {org : State} {s : State} (h : Kept lim org s) (source : Nat) (e : TagEntry) :
    Kept lim org (State.endTag s source e) := by
  unfold State.endTag
  try dsimp only
  repeat' (first
    | with_reducible assumption
    | dsimp only
    | split
    | with_reducible apply State.setSource_kept)

theorem State.recordTag_kept {lim : Nat} {org : State} {s : State} (h : Kept lim org s) (source : Nat) (e : TagEntry) :
    Kept lim org (State.recordTag s source e) := by
  unfold State.recordTag
  try dsimp only
  repeat' (first
    | with_reducible assumption
    | dsimp only
    | split
    | with_reducible apply State.setSource_kept)

theorem State.unbind_kept {lim : Nat} {org : State} {s : State} (h : Kept lim org s) (n : Nat) :
    Kept lim org (State.unbind s n) := by
  unfold State.unbind
  try dsimp only
  repeat' (first
    | with_reducible assumption
    | dsimp only
    | split
    | with_reducible apply Kept.foldl
    | with_reducible apply Kept.upd
    | intro _
    | with_reducible rfl
    | with_reducible exact Nat.le_refl _
    | exact Nat.le_succ _
    | simp [List.length_filter_le])

theorem State.afterCmd_kept {lim : Nat} {org : State} {s : State} (h : Kept lim org s) (n : Nat) :
    Kept lim org (State.afterCmd s n) := by
  unfold State.afterCmd
  try dsimp only
  repeat' (first
    | with_reducible assumption
    | dsimp only
    | split
    | with_reducible apply State.unbind_kept
    | with_reducible apply State.setSource_kept)

theorem State.corrected_kept {lim : Nat} {org : State} {s : State} (h : Kept lim org s) (port : Nat) :
    Kept lim org (State.corrected s port) := by
  unfold State.corrected
  split
  · exact State.count_kept (State.freeNat_kept h) _ _
  · exact h

theorem State.send_kept {lim : Nat} {org : State} {s : State} (h : Kept lim org s) (k : OutPkt) :
    Kept lim org (State.send s k) := by
  unfold State.send
  try dsimp only
  repeat' (first
    | with_reducible assumption
    | dsimp only
    | split
    | with_reducible apply State.count_kept
    | with_reducible apply State.overrun_kept
    | with_reducible apply Kept.foldl
    | with_reducible apply Kept.upd
    | intro _
    | with_reducible rfl)

theorem State.replyOn_kept {lim : Nat} {org : State} {s : State} (h : Kept lim org s) (port : Nat) (opcode : Nat) (k : Kind) (source : Nat) (tag : Nat) (res : Nat) (params : List Byte) :
    Kept lim org (State.replyOn s port opcode k source tag res params) := by
  unfold State.replyOn
  try dsimp only
  repeat' (first
    | with_reducible assumption
    | dsimp only
    | split
    | with_reducible apply State.send_kept)

theorem State.reply_kept {lim : Nat} {org : State} {s : State} (h : Kept lim org s) (op : Op) (k : Kind) (source : Nat) (tag : Nat) (res : Res) (params : List Byte) :
    Kept lim org (State.reply s op k source tag res params) := by
  unfold State.reply
  try dsimp only
  repeat' (first
    | with_reducible assumption
    | dsimp only
    | split
    | with_reducible apply State.replyOn_kept)

theorem State.sendBulk_kept {lim : Nat} {org : State} {s : State} (h : Kept lim org s) (k : OutPkt) :
    Kept lim org (State.sendBulk s k) := State.count_kept (State.send_kept h k) _ _

theorem State.sendData_kept {lim : Nat} {org : State} {s : State} (h : Kept lim org s) (c : Cmd) (extra : List Byte) (bs : List Byte) :
    Kept lim org (State.sendData s c extra bs) := by
  unfold State.sendData
  split
  · exact h
  · exact Kept.foldl _ _ (State.reply_kept h _ _ _ _ _ _) (fun _ _ ha => State.sendBulk_kept ha _)

theorem State.complete_kept {lim : Nat} {org : State} {s : State} (h : Kept lim org s) (c : Cmd) (res : Res) (block : List Byte) :
    Kept lim org (State.complete s c res block) := by
  unfold State.complete
  try dsimp only
  repeat' (first
    | with_reducible assumption
    | dsimp only
    | split
    | with_reducible apply State.endTag_kept
    | with_reducible apply State.dropCmd_kept
    | with_reducible apply State.afterCmd_kept
    | with_reducible apply State.reply_kept)

theorem State.completeGeneric_kept {lim : Nat} {org : State} {s : State} (h : Kept lim org s) (c : Cmd) (res : Res) (flags : FlagWord) (cause : Nat) (detail : Nat) :
    Kept lim org (State.completeGeneric s c res flags cause detail) := by
  unfold State.completeGeneric
  try dsimp only
  repeat' (first
    | with_reducible assumption
    | dsimp only
    | split
    | with_reducible apply State.complete_kept)

theorem State.startCmd_kept {lim : Nat} {org : State} {s : State} (h : Kept lim org s) (c : Cmd) :
    Kept lim org (State.startCmd s c) := by
  unfold State.startCmd
  try dsimp only
  repeat' (first
    | with_reducible assumption
    | dsimp only
    | split
    | with_reducible apply State.setCmd_kept)

theorem State.auditPush_kept {lim : Nat} {org s : State} (h : Kept lim org s) (e : AuditEvent) : Kept lim org (State.auditPush s e) :=
  { h with
    audit := AuditLog.push_length h.audit _
    next := h.next.trans (by rw [show (State.auditPush s e).trust.audit = s.trust.audit.push (auditBody s e) from rfl, AuditLog.push_next]; exact Nat.le_succ _)
    exported := by rw [show (State.auditPush s e).trust.audit = s.trust.audit.push (auditBody s e) from rfl, AuditLog.push_exported]; exact h.exported }

theorem State.audit_kept {lim : Nat} {org s : State} (h : Kept lim org s) (e : AuditEvent) : Kept lim org (State.audit s e) := by
  have last : ∀ t : State, Kept lim org t →
      Kept lim org (if t.trust.audit.exported + 49152 < t.trust.audit.next then t.raiseService 3 else t) := by
    intro t ht
    split
    · exact State.raiseService_kept ht 3
    · exact ht
  have h1 := State.auditPush_kept h e
  unfold State.audit
  split
  · exact State.raiseFault_kept h _
  · refine last _ ?_
    dsimp only
    split
    · refine State.raiseAttn_kept ?_ _
      exact Kept.upd (State.auditPush_kept h1 _) rfl rfl (Nat.le_refl _) (Nat.le_refl _) (Nat.le_refl _) rfl rfl rfl (Nat.le_refl _) (Nat.le_refl _) (Nat.le_refl _) (Nat.le_refl _) (Nat.le_refl _)
    · split
      · exact h1
      · exact Kept.upd h1 rfl rfl (Nat.le_refl _) (Nat.le_refl _) (Nat.le_refl _) rfl rfl rfl (Nat.le_refl _) (Nat.le_refl _) (Nat.le_refl _) (Nat.le_refl _) (Nat.le_refl _)

theorem refuse_kept {lim : Nat} {org : State} {s : State} (h : Kept lim org s) (r : Res) :
    Verdict.Kept lim org (refuse r s) := by
  unfold refuse
  try dsimp only
  repeat' (first
    | with_reducible assumption
    | dsimp only
    | split
    | with_reducible apply Kept.foldl
    | with_reducible apply Verdict.Kept.done)

theorem okReply_kept {lim : Nat} {org : State} {s : State} (h : Kept lim org s) (params : List Byte) :
    Verdict.Kept lim org (okReply params s) := by
  unfold okReply
  try dsimp only
  repeat' (first
    | with_reducible assumption
    | dsimp only
    | split
    | with_reducible apply Kept.foldl
    | with_reducible apply Verdict.Kept.done)

end Sys2Proof.Machine
end

