-- ==== Sys2Proof/Laws/KeptLayout.lean ====
section
/-!
SUPPORT. The functions of Machine/Layout.lean keep a sound block sound, and undo nothing that no command undoes (`Kept`).
-/
namespace Sys2Proof.Machine

theorem tensorPut_mem {ts : List Tensor} {t x : Tensor} (h : x ∈ tensorPut ts t) : x = t ∨ x ∈ ts := by
  induction ts with
  | nil => exact Or.inl (by simpa [tensorPut] using h)
  | cons u us ih =>
    simp only [tensorPut] at h
    split at h
    · rcases List.mem_cons.1 h with h | h
      · exact Or.inr (by simp [h])
      · rcases ih h with h | h
        · exact Or.inl h
        · exact Or.inr (by simp [h])
    · split at h
      · rcases List.mem_cons.1 h with h | h
        · exact Or.inl h
        · exact Or.inr (by simp [h])
      · rcases List.mem_cons.1 h with h | h
        · exact Or.inl h
        · exact Or.inr h

/-- A descriptor put into the table keeps one per handle. -/
theorem tensorPut_ok {ts : List Tensor} (t : Tensor) (h : tensorsOk ts) : tensorsOk (tensorPut ts t) := by
  induction ts with
  | nil => simp [tensorPut, tensorsOk]
  | cons u us ih =>
    have h' := List.pairwise_cons.1 h
    simp only [tensorPut]
    split
    · refine List.pairwise_cons.2 ⟨fun x hx => ?_, ih h'.2⟩
      rcases tensorPut_mem hx with rfl | hx
      · assumption
      · exact h'.1 x hx
    · split
      · rename_i e
        exact List.pairwise_cons.2 ⟨fun x hx => by rw [← e]; exact h'.1 x hx, h'.2⟩
      · refine List.pairwise_cons.2 ⟨fun x hx => ?_, h⟩
        rcases List.mem_cons.1 hx with rfl | hx
        · omega
        · exact Nat.lt_trans (by omega) (h'.1 x hx)

theorem State.setTensor_kept {lim : Nat} {org s : State} (h : Kept lim org s) (t : Tensor) : Kept lim org (State.setTensor s t) :=
  { h with
    tensors := by
      refine List.pairwise_map.2 (h.tensors.imp fun {a b} hab => ?_)
      have e : ∀ u : Tensor, (if u.handle = t.handle then t else u).handle = u.handle := by
        intro u
        split
        · exact Eq.symm (by assumption)
        · rfl
      rw [e, e]
      exact hab }

theorem State.writeCover_kept {lim : Nat} {org s : State} (h : Kept lim org s) (a : Nat) (bs : List Byte) (cov : List Bool) :
    Kept lim org (State.writeCover s a bs cov) :=
  { State.write_kept h a bs with poison := h.poison.filter _ }

theorem State.putBlock_kept {lim : Nat} {org : State} {s : State} (h : Kept lim org s) (t : Tensor) (p : Nat) (bi : Nat) (bj : Nat) (new : Nat → Option Nat) :
    Kept lim org (State.putBlock s t p bi bj new) := by
  unfold State.putBlock
  try dsimp only
  repeat' (first
    | with_reducible assumption
    | dsimp only
    | split
    | with_reducible apply State.writeCover_kept)

theorem State.putRegion_kept {lim : Nat} {org : State} {s : State} (h : Kept lim org s) (t : Tensor) (p : Nat) (r0 : Nat) (nr : Nat) (c0 : Nat) (nc : Nat) (code : Nat → Nat → Option Nat) :
    Kept lim org (State.putRegion s t p r0 nr c0 nc code) := by
  unfold State.putRegion
  try dsimp only
  repeat' (first
    | with_reducible assumption
    | dsimp only
    | split
    | with_reducible apply State.putBlock_kept
    | with_reducible apply Kept.foldl
    | with_reducible apply Kept.foldlFst
    | with_reducible apply Kept.foldlSnd
    | with_reducible apply Kept.upd
    | intro _
    | with_reducible rfl)

theorem State.putRows8_kept {lim : Nat} {org : State} {s : State} (h : Kept lim org s) (t : Tensor) (p : Nat) (r0 : Nat) (nr : Nat) (c0 : Nat) (nc : Nat) (row : Nat → Nat → Option (List Nat × Nat)) :
    Kept lim org (State.putRows8 s t p r0 nr c0 nc row) := by
  unfold State.putRows8
  try dsimp only
  repeat' (first
    | with_reducible assumption
    | dsimp only
    | split
    | with_reducible apply State.putBlock_kept
    | with_reducible apply Kept.foldl
    | with_reducible apply Kept.foldlFst
    | with_reducible apply Kept.foldlSnd
    | with_reducible apply Kept.upd
    | intro _
    | with_reducible rfl)

theorem State.putElem_kept {lim : Nat} {org : State} {s : State} (h : Kept lim org s) (t : Tensor) (p : Nat) (r : Nat) (c : Nat) (code : Nat) :
    Kept lim org (State.putElem s t p r c code) := by
  unfold State.putElem
  try dsimp only
  repeat' (first
    | with_reducible assumption
    | dsimp only
    | split
    | with_reducible apply State.putRegion_kept)

theorem State.retag_kept {lim : Nat} {org : State} {s : State} (h : Kept lim org s) (h : Nat) :
    Kept lim org (State.retag s h) := by
  unfold State.retag
  try dsimp only
  repeat' (first
    | with_reducible assumption
    | dsimp only
    | split
    | with_reducible apply State.setTensor_kept)

theorem State.untag_kept {lim : Nat} {org : State} {s : State} (h : Kept lim org s) (h : Nat) :
    Kept lim org (State.untag s h) := by
  unfold State.untag
  try dsimp only
  repeat' (first
    | with_reducible assumption
    | dsimp only
    | split
    | with_reducible apply State.setTensor_kept)

theorem State.scramble_kept {lim : Nat} {org : State} {s : State} (h : Kept lim org s) (h : Nat) :
    Kept lim org (State.scramble s h) := by
  unfold State.scramble
  try dsimp only
  repeat' (first
    | with_reducible assumption
    | dsimp only
    | split
    | with_reducible apply State.freeBytes_kept
    | with_reducible apply State.untag_kept
    | with_reducible apply State.write_kept)

theorem State.defineTensor_kept {lim : Nat} {org s : State} (h : Kept lim org s) (t : Tensor) :
    Kept lim org (State.defineTensor s t) := { h with tensors := tensorPut_ok t h.tensors }

theorem State.releaseTensor_kept {lim : Nat} {org s : State} (h : Kept lim org s) (t : Tensor) :
    Kept lim org (State.releaseTensor s t) := { h with tensors := h.tensors.filter _ }

end Sys2Proof.Machine
end

