-- ==== Sys2Proof/Laws/KeptLogin.lean ====
section
/-!
SUPPORT. The functions of Machine/Login.lean keep a sound block sound, and undo nothing that no command undoes (`Kept`).
-/
namespace Sys2Proof.Machine

theorem State.rollback_kept {lim : Nat} {org s : State} (h : Kept lim org s) (c : RollCause) (e : AuditEvent) :
    Kept lim org (State.rollback s c e) := by
  unfold State.rollback
  split
  · exact h
  · split
    · exact h
    · split
      · exact State.raiseFault_kept h _
      · exact State.audit_kept (h.setLedger (fun l e => by cases e)) _

theorem State.endRole_kept {lim : Nat} {org : State} {s : State} (h : Kept lim org s) (n : Nat) :
    Kept lim org (State.endRole s n) := by
  unfold State.endRole
  try dsimp only
  repeat' (first
    | with_reducible assumption
    | dsimp only
    | split
    | with_reducible apply State.rollback_kept
    | with_reducible apply State.setSource_kept)

theorem getStatus_kept {lim : Nat} {org : State} {s : State} (h : Kept lim org s) (_q : Req) :
    Verdict.Kept lim org (getStatus _q s) := by
  unfold getStatus
  try dsimp only
  repeat' (first
    | with_reducible assumption
    | dsimp only
    | split
    | with_reducible apply okReply_kept)

theorem readAttention_kept {lim : Nat} {org : State} {s : State} (h : Kept lim org s) (_q : Req) :
    Verdict.Kept lim org (readAttention _q s) := by
  unfold readAttention
  try dsimp only
  repeat' (first
    | with_reducible assumption
    | dsimp only
    | split
    | with_reducible apply okReply_kept
    | with_reducible apply Kept.foldl
    | with_reducible apply Kept.foldlFst
    | with_reducible apply Kept.foldlSnd
    | with_reducible apply Verdict.Kept.done
    | with_reducible apply Verdict.Kept.accept
    | with_reducible apply Verdict.Kept.await
    | with_reducible apply Kept.upd
    | intro _
    | with_reducible rfl)

theorem State.enrol_kept {lim : Nat} {org : State} {s : State} (h : Kept lim org s) (r : Role) (i : Nat) (pub : List Byte) :
    Kept lim org (State.enrol s r i pub) := by
  unfold State.enrol
  try dsimp only
  repeat' (first
    | with_reducible assumption
    | dsimp only
    | split
    | with_reducible apply Kept.foldl
    | with_reducible apply Kept.upd
    | intro _
    | with_reducible rfl)

theorem loginChallenge_kept {lim : Nat} {org : State} {s : State} (h : Kept lim org s) (q : Req) :
    Verdict.Kept lim org (loginChallenge q s) := by
  unfold loginChallenge
  try dsimp only
  repeat' (first
    | with_reducible assumption
    | dsimp only
    | split
    | with_reducible apply refuse_kept
    | with_reducible apply State.setSource_kept
    | with_reducible apply okReply_kept
    | with_reducible apply Kept.foldl
    | with_reducible apply Verdict.Kept.done
    | with_reducible apply Verdict.Kept.accept
    | with_reducible apply Verdict.Kept.await
    | with_reducible apply Kept.upd
    | intro _
    | with_reducible rfl)

theorem State.setFails_kept {lim : Nat} {org : State} {s : State} (h : Kept lim org s) (f : KeyFails) :
    Kept lim org (State.setFails s f) := by
  unfold State.setFails
  try dsimp only
  repeat' (first
    | with_reducible assumption
    | dsimp only
    | split
    | with_reducible apply Kept.foldl
    | with_reducible apply Kept.upd
    | intro _
    | with_reducible rfl)

theorem State.loginFailed_kept {lim : Nat} {org : State} {s : State} (h : Kept lim org s) (source : Nat) (c : Challenge) (locked : Bool) :
    Kept lim org (State.loginFailed s source c locked) := by
  unfold State.loginFailed
  try dsimp only
  repeat' (first
    | with_reducible assumption
    | dsimp only
    | split
    | with_reducible apply State.audit_kept
    | with_reducible apply Kept.foldl
    | with_reducible apply Kept.upd
    | intro _
    | with_reducible rfl)

theorem State.countFail_kept {lim : Nat} {org : State} {s : State} (h : Kept lim org s) (source : Nat) (c : Challenge) :
    Kept lim org (State.countFail s source c) := by
  unfold State.countFail
  try dsimp only
  repeat' (first
    | with_reducible assumption
    | dsimp only
    | split
    | with_reducible apply State.count_kept
    | with_reducible apply State.setFails_kept
    | with_reducible apply State.audit_kept)

theorem State.closeChallenge_kept {lim : Nat} {org : State} {s : State} (h : Kept lim org s) (n : Nat) :
    Kept lim org (State.closeChallenge s n) := by
  unfold State.closeChallenge
  try dsimp only
  repeat' (first
    | with_reducible assumption
    | dsimp only
    | split
    | with_reducible apply State.setSource_kept)

theorem State.takeRole_kept {lim : Nat} {org : State} {s : State} (h : Kept lim org s) (n : Nat) (r : Role) (i : Nat) :
    Kept lim org (State.takeRole s n r i) := by
  unfold State.takeRole
  try dsimp only
  repeat' (first
    | with_reducible assumption
    | dsimp only
    | split
    | with_reducible apply State.setSource_kept)

theorem State.loginOk_kept {lim : Nat} {org : State} {s : State} (h : Kept lim org s) (source : Nat) (c : Challenge) (claimed : Option (List Byte)) :
    Kept lim org (State.loginOk s source c claimed) := by
  unfold State.loginOk
  try dsimp only
  repeat' (first
    | with_reducible assumption
    | dsimp only
    | split
    | with_reducible apply State.takeRole_kept
    | with_reducible apply State.setFails_kept
    | with_reducible apply State.audit_kept
    | with_reducible apply State.enrol_kept)

theorem loginResponse_kept {lim : Nat} {org : State} {s : State} (h : Kept lim org s) (q : Req) :
    Verdict.Kept lim org (loginResponse q s) := by
  unfold loginResponse
  try dsimp only
  repeat' (first
    | with_reducible assumption
    | dsimp only
    | split
    | with_reducible apply refuse_kept
    | with_reducible apply State.loginFailed_kept
    | with_reducible apply State.closeChallenge_kept
    | with_reducible apply State.raiseFault_kept
    | with_reducible apply okReply_kept
    | with_reducible apply State.loginOk_kept
    | with_reducible apply State.countFail_kept)

theorem nop_kept {lim : Nat} {org : State} {s : State} (h : Kept lim org s) (_q : Req) :
    Verdict.Kept lim org (nop _q s) := by
  unfold nop
  try dsimp only
  repeat' (first
    | with_reducible assumption
    | dsimp only
    | split
    | with_reducible apply okReply_kept)

theorem logout_kept {lim : Nat} {org : State} {s : State} (h : Kept lim org s) (q : Req) :
    Verdict.Kept lim org (logout q s) := by
  unfold logout
  try dsimp only
  repeat' (first
    | with_reducible assumption
    | dsimp only
    | split
    | with_reducible apply State.endRole_kept
    | with_reducible apply State.setSource_kept
    | with_reducible apply Kept.foldl
    | with_reducible apply Verdict.Kept.done)

theorem keyEnrol_kept {lim : Nat} {org : State} {s : State} (h : Kept lim org s) (q : Req) :
    Verdict.Kept lim org (keyEnrol q s) := by
  unfold keyEnrol
  try dsimp only
  repeat' (first
    | with_reducible assumption
    | dsimp only
    | split
    | with_reducible apply refuse_kept
    | with_reducible apply State.raiseFault_kept
    | with_reducible apply okReply_kept
    | with_reducible apply State.audit_kept
    | with_reducible apply State.enrol_kept
    | with_reducible apply Kept.foldl
    | with_reducible apply Verdict.Kept.done
    | with_reducible apply Verdict.Kept.accept
    | with_reducible apply Verdict.Kept.await
    | with_reducible apply Kept.upd
    | intro _
    | with_reducible rfl)

theorem State.endLogins_kept {lim : Nat} {org : State} {s : State} (h : Kept lim org s) (r : Role) (i : Nat) :
    Kept lim org (State.endLogins s r i) := by
  unfold State.endLogins
  try dsimp only
  repeat' (first
    | with_reducible assumption
    | dsimp only
    | split
    | with_reducible apply State.endRole_kept
    | with_reducible apply Kept.foldl
    | with_reducible apply Kept.foldlFst
    | with_reducible apply Kept.foldlSnd
    | with_reducible apply Kept.upd
    | intro _
    | with_reducible rfl)

theorem State.reach_kept {lim : Nat} {org : State} {s : State} (h : Kept lim org s) (t : Nat) :
    Kept lim org (State.reach s t) := by
  unfold State.reach
  try dsimp only
  repeat' (first
    | with_reducible assumption
    | dsimp only
    | split
    | with_reducible apply Kept.foldl
    | with_reducible apply Kept.upd
    | intro _
    | with_reducible rfl)

theorem execSourceExpiry_kept {lim : Nat} {org : State} {s : State} (h : Kept lim org s) (source : Nat) :
    KeptOut lim org (execSourceExpiry source s) := by
  unfold execSourceExpiry
  try dsimp only
  repeat' (first
    | with_reducible assumption
    | dsimp only
    | split
    | with_reducible apply State.unbind_kept
    | with_reducible apply State.reach_kept
    | with_reducible apply Kept.foldl
    | with_reducible apply KeptOut.next)

theorem execChallengeExpiry_kept {lim : Nat} {org : State} {s : State} (h : Kept lim org s) (source : Nat) :
    KeptOut lim org (execChallengeExpiry source s) := by
  unfold execChallengeExpiry
  try dsimp only
  repeat' (first
    | with_reducible assumption
    | dsimp only
    | split
    | with_reducible apply State.closeChallenge_kept
    | with_reducible apply State.reach_kept
    | with_reducible apply Kept.foldl
    | with_reducible apply KeptOut.next)

theorem execLockoutExpiry_kept {lim : Nat} {org : State} {s : State} (h : Kept lim org s) (role : Nat) (index : Nat) :
    KeptOut lim org (execLockoutExpiry role index s) := by
  unfold execLockoutExpiry
  try dsimp only
  repeat' (first
    | with_reducible assumption
    | dsimp only
    | split
    | with_reducible apply State.setFails_kept
    | with_reducible apply State.reach_kept
    | with_reducible apply Kept.foldl
    | with_reducible apply KeptOut.next)

end Sys2Proof.Machine
end

