-- ==== Sys2Proof/Laws/KeptLink.lean ====
section
/-!
SUPPORT. The functions of Machine/Link.lean keep a sound block sound, and undo nothing that no command undoes (`Kept`).
-/
namespace Sys2Proof.Machine

theorem State.setLink_kept {lim : Nat} {org : State} {s : State} (h : Kept lim org s) (i : Nat) (l : Link) :
    Kept lim org (State.setLink s i l) := by
  unfold State.setLink
  try dsimp only
  repeat' (first
    | with_reducible assumption
    | dsimp only
    | split
    | with_reducible apply Kept.foldl
    | with_reducible apply Kept.upd
    | intro _
    | with_reducible rfl
    | with_reducible exact Nat.le_refl _
    | exact Nat.le_succ _
    | simp )

theorem State.linkChanged_kept {lim : Nat} {org : State} {s : State} (h : Kept lim org s) (i : Nat) :
    Kept lim org (State.linkChanged s i) := by
  unfold State.linkChanged
  try dsimp only
  repeat' (first
    | with_reducible assumption
    | dsimp only
    | split
    | with_reducible apply Kept.foldl
    | with_reducible apply Kept.upd
    | intro _
    | with_reducible rfl)

theorem State.route_kept {lim : Nat} {org : State} {s : State} (h : Kept lim org s) (f : Flit) :
    Kept lim org (State.route s f) := by
  unfold State.route
  try dsimp only
  repeat' (first
    | with_reducible assumption
    | dsimp only
    | split
    | with_reducible apply State.count_kept
    | with_reducible apply State.setLink_kept
    | with_reducible apply Kept.foldl
    | with_reducible apply Kept.upd
    | intro _
    | with_reducible rfl)

theorem State.routeWaiting_kept {lim : Nat} {org : State} {s : State} (h : Kept lim org s)  :
    Kept lim org (State.routeWaiting s) := by
  unfold State.routeWaiting
  try dsimp only
  repeat' (first
    | with_reducible assumption
    | dsimp only
    | split
    | with_reducible apply State.route_kept
    | with_reducible apply Kept.foldl
    | with_reducible apply Kept.foldlFst
    | with_reducible apply Kept.foldlSnd
    | with_reducible apply Kept.upd
    | intro _
    | with_reducible rfl)

theorem State.forward_kept {lim : Nat} {org : State} {s : State} (h : Kept lim org s) (f : Flit) :
    Kept lim org (State.forward s f) := by
  unfold State.forward
  try dsimp only
  repeat' (first
    | with_reducible assumption
    | dsimp only
    | split
    | with_reducible apply State.count_kept
    | with_reducible apply State.route_kept)

theorem State.sendFlitFrom_kept {lim : Nat} {org : State} {s : State} (h : Kept lim org s) (src : Option Nat) (dest : Nat) (tc : Nat) (crew : Nat) (cid : Nat) (bs : List Byte) (poison : List Nat) :
    Kept lim org (State.sendFlitFrom s src dest tc crew cid bs poison) := by
  unfold State.sendFlitFrom
  try dsimp only
  repeat' (first
    | with_reducible assumption
    | dsimp only
    | split
    | with_reducible apply State.route_kept
    | with_reducible apply Kept.foldl
    | with_reducible apply Kept.upd
    | intro _
    | with_reducible rfl)

theorem State.sendFlit_kept {lim : Nat} {org : State} {s : State} (h : Kept lim org s) (dest : Nat) (tc : Nat) (crew : Nat) (cid : Nat) (bs : List Byte) (poison : List Nat) :
    Kept lim org (State.sendFlit s dest tc crew cid bs poison) :=
  State.sendFlitFrom_kept h s.devAddr dest tc crew cid bs poison

theorem State.dataPassed_kept {lim : Nat} {org : State} {s : State} (h : Kept lim org s) :
    Kept lim org (State.dataPassed s) := by
  unfold State.dataPassed
  apply Kept.upd h <;> rfl

theorem State.emit_kept {lim : Nat} {org : State} {s : State} (h : Kept lim org s) (i : Nat) (x : LinkFlit) :
    Kept lim org (State.emit s i x) := by
  unfold State.emit
  try dsimp only
  repeat' (first
    | with_reducible assumption
    | dsimp only
    | split
    | with_reducible apply State.setLink_kept
    | with_reducible apply Kept.foldl
    | with_reducible apply Kept.upd
    | intro _
    | with_reducible rfl)

theorem State.pushCtrl_kept {lim : Nat} {org : State} {s : State} (h : Kept lim org s) (i : Nat) (x : LinkFlit) :
    Kept lim org (State.pushCtrl s i x) := by
  unfold State.pushCtrl
  try dsimp only
  repeat' (first
    | with_reducible assumption
    | dsimp only
    | split
    | with_reducible apply State.setLink_kept)

theorem State.sendPeerKeepalive_kept {lim : Nat} {org : State} {s : State} (h : Kept lim org s) (dest : Nat) (state : Nat) :
    Kept lim org (State.sendPeerKeepalive s dest state) := by
  unfold State.sendPeerKeepalive
  try dsimp only
  repeat' (first
    | with_reducible assumption
    | dsimp only
    | split
    | with_reducible apply State.pushCtrl_kept
    | with_reducible apply State.count_kept)

theorem State.passPeerKeepalive_kept {lim : Nat} {org : State} {s : State} (h : Kept lim org s) (f : Flit) :
    Kept lim org (State.passPeerKeepalive s f) := by
  unfold State.passPeerKeepalive
  try dsimp only
  repeat' (first
    | with_reducible assumption
    | dsimp only
    | split
    | with_reducible apply State.count_kept
    | with_reducible apply State.freeNat_kept
    | with_reducible apply State.pushCtrl_kept)

theorem State.giveBack_kept {lim : Nat} {org : State} {s : State} (h : Kept lim org s) (i : Nat) :
    Kept lim org (State.giveBack s i) := by
  unfold State.giveBack
  try dsimp only
  repeat' (first
    | with_reducible assumption
    | dsimp only
    | split
    | with_reducible apply State.setLink_kept
    | with_reducible apply State.route_kept
    | with_reducible apply Kept.foldl
    | with_reducible apply Kept.foldlFst
    | with_reducible apply Kept.foldlSnd
    | with_reducible apply Kept.upd
    | intro _
    | with_reducible rfl)

theorem State.linkTo_kept {lim : Nat} {org : State} {s : State} (h : Kept lim org s) (i : Nat) (x : LState) :
    Kept lim org (State.linkTo s i x) := by
  unfold State.linkTo
  try dsimp only
  repeat' (first
    | with_reducible assumption
    | dsimp only
    | split
    | with_reducible apply State.linkChanged_kept
    | with_reducible apply State.setLink_kept
    | with_reducible apply State.giveBack_kept)

theorem State.retrain_kept {lim : Nat} {org : State} {s : State} (h : Kept lim org s) (i : Nat) :
    Kept lim org (State.retrain s i) := by
  unfold State.retrain
  try dsimp only
  repeat' (first
    | with_reducible assumption
    | dsimp only
    | split
    | with_reducible apply State.linkTo_kept
    | with_reducible apply State.setLink_kept)

theorem State.retrainAll_kept {lim : Nat} {org : State} {s : State} (h : Kept lim org s)  :
    Kept lim org (State.retrainAll s) := by
  unfold State.retrainAll
  try dsimp only
  repeat' (first
    | with_reducible assumption
    | dsimp only
    | split
    | with_reducible apply State.retrain_kept
    | with_reducible apply Kept.foldl
    | with_reducible apply Kept.foldlFst
    | with_reducible apply Kept.foldlSnd
    | with_reducible apply Kept.upd
    | intro _
    | with_reducible rfl)

theorem State.applyEnable_kept {lim : Nat} {org : State} {s : State} (h : Kept lim org s)  :
    Kept lim org (State.applyEnable s) := by
  unfold State.applyEnable
  try dsimp only
  repeat' (first
    | with_reducible assumption
    | dsimp only
    | split
    | with_reducible apply State.linkTo_kept
    | with_reducible apply State.retrain_kept
    | with_reducible apply Kept.foldl
    | with_reducible apply Kept.foldlFst
    | with_reducible apply Kept.foldlSnd
    | with_reducible apply Kept.upd
    | intro _
    | with_reducible rfl)

theorem State.laneFail_kept {lim : Nat} {org : State} {s : State} (h : Kept lim org s) (i : Nat) (lane : Nat) :
    Kept lim org (State.laneFail s i lane) := by
  unfold State.laneFail
  try dsimp only
  repeat' (first
    | with_reducible assumption
    | dsimp only
    | split
    | with_reducible apply State.setLink_kept
    | with_reducible apply State.count_kept
    | with_reducible apply State.spareEvent_kept
    | with_reducible apply State.linkChanged_kept
    | with_reducible apply State.linkTo_kept)

theorem State.linkHeard_kept {lim : Nat} {org : State} {s : State} (h : Kept lim org s) (i : Nat) :
    Kept lim org (State.linkHeard s i) := by
  unfold State.linkHeard
  try dsimp only
  repeat' (first
    | with_reducible assumption
    | dsimp only
    | split
    | with_reducible apply State.setLink_kept)

theorem execLinkTrainingDone_kept {lim : Nat} {org : State} {s : State} (h : Kept lim org s) (link : Nat) (ok : Bool) :
    KeptOut lim org (execLinkTrainingDone link ok s) := by
  unfold execLinkTrainingDone
  try dsimp only
  repeat' (first
    | with_reducible assumption
    | dsimp only
    | split
    | with_reducible apply State.linkTo_kept
    | with_reducible apply State.linkHeard_kept
    | with_reducible apply State.routeWaiting_kept
    | with_reducible apply State.setLink_kept
    | with_reducible apply Kept.foldl
    | with_reducible apply KeptOut.next)

theorem execLinkRetryTimer_kept {lim : Nat} {org : State} {s : State} (h : Kept lim org s) (link : Nat) :
    KeptOut lim org (execLinkRetryTimer link s) := by
  unfold execLinkRetryTimer
  try dsimp only
  repeat' (first
    | with_reducible assumption
    | dsimp only
    | split
    | with_reducible apply State.retrain_kept
    | with_reducible apply Kept.foldl
    | with_reducible apply KeptOut.next
    | with_reducible apply KeptOut.fault
    | with_reducible apply Kept.upd
    | intro _
    | with_reducible rfl)

theorem execBadFlit_kept {lim : Nat} {org : State} {s : State} (h : Kept lim org s) (link : Nat) (codeword : Bool) (data : Bool) :
    KeptOut lim org (execBadFlit link codeword data s) := by
  unfold execBadFlit
  try dsimp only
  repeat' (first
    | with_reducible assumption
    | dsimp only
    | split
    | with_reducible apply State.count_kept
    | with_reducible apply State.setLink_kept
    | with_reducible apply State.pushCtrl_kept
    | with_reducible apply Kept.foldl
    | with_reducible apply KeptOut.next)

theorem execAckFlit_kept {lim : Nat} {org : State} {s : State} (h : Kept lim org s) (link : Nat) (lseq : Nat) :
    KeptOut lim org (execAckFlit link lseq s) := by
  unfold execAckFlit
  try dsimp only
  repeat' (first
    | with_reducible assumption
    | dsimp only
    | split
    | with_reducible apply State.setLink_kept
    | with_reducible apply State.linkHeard_kept
    | with_reducible apply Kept.foldl
    | with_reducible apply KeptOut.next)

theorem execNakFlit_kept {lim : Nat} {org : State} {s : State} (h : Kept lim org s) (link : Nat) (lseq : Nat) :
    KeptOut lim org (execNakFlit link lseq s) := by
  unfold execNakFlit
  try dsimp only
  repeat' (first
    | with_reducible assumption
    | dsimp only
    | split
    | with_reducible apply State.linkHeard_kept
    | with_reducible apply State.count_kept
    | with_reducible apply State.setLink_kept
    | with_reducible apply State.retrain_kept
    | with_reducible apply Kept.foldl
    | with_reducible apply KeptOut.next)

theorem execCreditFlit_kept {lim : Nat} {org : State} {s : State} (h : Kept lim org s) (link : Nat) (payload : List Byte) :
    KeptOut lim org (execCreditFlit link payload s) := by
  unfold execCreditFlit
  try dsimp only
  repeat' (first
    | with_reducible assumption
    | dsimp only
    | split
    | with_reducible apply State.routeWaiting_kept
    | with_reducible apply State.linkHeard_kept
    | with_reducible apply State.setLink_kept
    | with_reducible apply Kept.foldl
    | with_reducible apply KeptOut.next)

theorem execKeepaliveFlit_kept {lim : Nat} {org : State} {s : State} (h : Kept lim org s) (link : Nat) (addr : Option Nat) (peerLink : Nat) (crew : Nat) (_state : Nat) :
    KeptOut lim org (execKeepaliveFlit link addr peerLink crew _state s) := by
  unfold execKeepaliveFlit
  try dsimp only
  repeat' (first
    | with_reducible assumption
    | dsimp only
    | split
    | with_reducible apply State.linkHeard_kept
    | with_reducible apply State.setLink_kept
    | with_reducible apply State.linkTo_kept
    | with_reducible apply Kept.foldl
    | with_reducible apply KeptOut.next)

theorem execIdleFlit_kept {lim : Nat} {org : State} {s : State} (h : Kept lim org s) (link : Nat) :
    KeptOut lim org (execIdleFlit link s) := by
  unfold execIdleFlit
  try dsimp only
  repeat' (first
    | with_reducible assumption
    | dsimp only
    | split
    | with_reducible apply State.linkHeard_kept
    | with_reducible apply Kept.foldl
    | with_reducible apply KeptOut.next)

theorem execLaneCtrl_kept {lim : Nat} {org : State} {s : State} (h : Kept lim org s) (link : Nat) (lane : Nat) :
    KeptOut lim org (execLaneCtrl link lane s) := by
  unfold execLaneCtrl
  try dsimp only
  repeat' (first
    | with_reducible assumption
    | dsimp only
    | split
    | with_reducible apply State.linkHeard_kept
    | with_reducible apply State.laneFail_kept
    | with_reducible apply Kept.foldl
    | with_reducible apply KeptOut.next)

theorem execLaneLossOfLock_kept {lim : Nat} {org : State} {s : State} (h : Kept lim org s) (link : Nat) (lane : Nat) :
    KeptOut lim org (execLaneLossOfLock link lane s) := by
  unfold execLaneLossOfLock
  try dsimp only
  repeat' (first
    | with_reducible assumption
    | dsimp only
    | split
    | with_reducible apply State.laneFail_kept
    | with_reducible apply State.pushCtrl_kept
    | with_reducible apply Kept.foldl
    | with_reducible apply KeptOut.next)

theorem execSerWindow_kept {lim : Nat} {org : State} {s : State} (h : Kept lim org s) (link : Nat) (errors : List Nat) (total : Nat) :
    KeptOut lim org (execSerWindow link errors total s) := by
  unfold execSerWindow
  try dsimp only
  repeat' (first
    | with_reducible assumption
    | dsimp only
    | split
    | with_reducible apply State.freeNat_kept
    | with_reducible apply State.count_kept
    | with_reducible apply State.setLink_kept
    | with_reducible apply State.laneFail_kept
    | with_reducible apply State.pushCtrl_kept
    | with_reducible apply Kept.foldl
    | with_reducible apply Kept.foldlFst
    | with_reducible apply Kept.foldlSnd
    | with_reducible apply KeptOut.next
    | with_reducible apply KeptOut.fault
    | with_reducible apply Kept.upd
    | intro _
    | with_reducible rfl)

theorem execAckTimer_kept {lim : Nat} {org : State} {s : State} (h : Kept lim org s) (link : Nat) :
    KeptOut lim org (execAckTimer link s) := by
  unfold execAckTimer
  try dsimp only
  repeat' (first
    | with_reducible assumption
    | dsimp only
    | split
    | with_reducible apply State.emit_kept
    | with_reducible apply State.setLink_kept
    | with_reducible apply Kept.foldl
    | with_reducible apply KeptOut.next)

theorem execKeepaliveSend_kept {lim : Nat} {org : State} {s : State} (h : Kept lim org s) (link : Nat) :
    KeptOut lim org (execKeepaliveSend link s) := by
  unfold execKeepaliveSend
  try dsimp only
  repeat' (first
    | with_reducible assumption
    | dsimp only
    | split
    | with_reducible apply State.emit_kept
    | with_reducible apply Kept.foldl
    | with_reducible apply KeptOut.next
    | with_reducible apply KeptOut.fault
    | with_reducible apply Kept.upd
    | intro _
    | with_reducible rfl)

theorem execLinkSilenceTimeout_kept {lim : Nat} {org : State} {s : State} (h : Kept lim org s) (link : Nat) :
    KeptOut lim org (execLinkSilenceTimeout link s) := by
  unfold execLinkSilenceTimeout
  try dsimp only
  repeat' (first
    | with_reducible assumption
    | dsimp only
    | split
    | with_reducible apply State.linkTo_kept
    | with_reducible apply Kept.foldl
    | with_reducible apply KeptOut.next
    | with_reducible apply KeptOut.fault
    | with_reducible apply Kept.upd
    | intro _
    | with_reducible rfl)

theorem State.classesWait_kept {lim : Nat} {org : State} {s : State} (h : Kept lim org s) (i : Nat) (tcs : List Nat) :
    Kept lim org (State.classesWait s i tcs) := by
  unfold State.classesWait
  try dsimp only
  repeat' (first
    | with_reducible assumption
    | dsimp only
    | split
    | with_reducible apply State.atCeiling_kept
    | with_reducible apply Kept.foldl
    | with_reducible apply Kept.foldlFst
    | with_reducible apply Kept.foldlSnd
    | with_reducible apply Kept.upd
    | intro _
    | with_reducible rfl)

theorem State.sendNew_kept {lim : Nat} {org : State} {s : State} (h : Kept lim org s) (i : Nat) :
    Kept lim org (State.sendNew s i) := by
  unfold State.sendNew
  try dsimp only
  repeat' (first
    | with_reducible assumption
    | dsimp only
    | split
    | with_reducible apply State.classesWait_kept
    | with_reducible apply State.dataPassed_kept
    | with_reducible apply State.setLink_kept
    | with_reducible apply State.requestOn_kept
    | with_reducible apply State.count_kept
    | with_reducible apply State.emit_kept
    | with_reducible rfl)

theorem execFlitSend_kept {lim : Nat} {org : State} {s : State} (h : Kept lim org s) (link : Nat) :
    KeptOut lim org (execFlitSend link s) := by
  unfold execFlitSend
  try dsimp only
  repeat' (first
    | with_reducible assumption
    | dsimp only
    | split
    | with_reducible apply State.emit_kept
    | with_reducible apply State.dataPassed_kept
    | with_reducible apply State.setLink_kept
    | with_reducible apply State.count_kept
    | with_reducible apply State.sendNew_kept
    | with_reducible apply Kept.foldl
    | with_reducible apply KeptOut.next)

theorem linkStatus_kept {lim : Nat} {org : State} {s : State} (h : Kept lim org s) (q : Req) :
    Verdict.Kept lim org (linkStatus q s) := by
  unfold linkStatus
  try dsimp only
  repeat' (first
    | with_reducible assumption
    | dsimp only
    | split
    | with_reducible apply refuse_kept
    | with_reducible apply okReply_kept)

theorem routeLoad_kept {lim : Nat} {org : State} {s : State} (h : Kept lim org s) (q : Req) :
    Verdict.Kept lim org (routeLoad q s) := by
  unfold routeLoad
  try dsimp only
  repeat' (first
    | with_reducible assumption
    | dsimp only
    | split
    | with_reducible apply refuse_kept
    | with_reducible apply okReply_kept
    | with_reducible apply Kept.foldl
    | with_reducible apply Kept.foldlFst
    | with_reducible apply Kept.foldlSnd
    | with_reducible apply Verdict.Kept.done
    | with_reducible apply Verdict.Kept.accept
    | with_reducible apply Verdict.Kept.await
    | with_reducible apply Kept.upd
    | intro _
    | with_reducible rfl)

end Sys2Proof.Machine
end

