-- ==== Sys2Proof/Laws/KeptPair.lean ====
section
/-!
SUPPORT. The functions of Machine/Pair.lean keep a sound block sound, and undo nothing that no command undoes (`Kept`).
-/
namespace Sys2Proof.Machine

theorem State.refreshFlags_kept {lim : Nat} {org : State} {s : State} (h : Kept lim org s)  :
    Kept lim org (State.refreshFlags s) := by
  unfold State.refreshFlags
  try dsimp only
  repeat' (first
    | with_reducible assumption
    | dsimp only
    | split
    | with_reducible apply State.raiseAttn_kept
    | with_reducible apply Kept.foldl
    | with_reducible apply Kept.upd
    | intro _
    | with_reducible rfl)

theorem State.feedsChanged_kept {lim : Nat} {org : State} {s : State} (h : Kept lim org s)  :
    Kept lim org (State.feedsChanged s) := by
  unfold State.feedsChanged
  try dsimp only
  repeat' (first
    | with_reducible assumption
    | dsimp only
    | split
    | with_reducible apply State.sendFlit_kept
    | with_reducible apply State.refreshFlags_kept)

theorem State.setPeer_kept {lim : Nat} {org : State} {s : State} (h : Kept lim org s) (p : Peer) :
    Kept lim org (State.setPeer s p) := by
  unfold State.setPeer
  try dsimp only
  repeat' (first
    | with_reducible assumption
    | dsimp only
    | split
    | with_reducible apply Kept.foldl
    | with_reducible apply Kept.upd
    | intro _
    | with_reducible rfl)

theorem State.watchPeer_kept {lim : Nat} {org : State} {s : State} (h : Kept lim org s) (a : Nat) :
    Kept lim org (State.watchPeer s a) := by
  unfold State.watchPeer
  try dsimp only
  repeat' (first
    | with_reducible assumption
    | dsimp only
    | split
    | with_reducible apply State.setPeer_kept)

theorem State.heard_kept {lim : Nat} {org : State} {s : State} (h : Kept lim org s) (a : Nat) (keepalive : Bool) :
    Kept lim org (State.heard s a keepalive) := by
  unfold State.heard
  try dsimp only
  repeat' (first
    | with_reducible assumption
    | dsimp only
    | split
    | with_reducible apply State.setPeer_kept
    | with_reducible apply State.count_kept
    | with_reducible apply Kept.foldl
    | with_reducible apply Kept.upd
    | intro _
    | with_reducible rfl)

end Sys2Proof.Machine
end

