-- ==== Sys2Proof/Laws/KeptLedger.lean ====
section
/-!
SUPPORT. The functions of Machine/Ledger.lean keep a sound block sound, and undo nothing that no command undoes (`Kept`).
-/
namespace Sys2Proof.Machine

theorem assocPut_mem {α : Type} {xs : List (Nat × α)} {k : Nat} {v : α} {x : Nat × α} (h : x ∈ assocPut xs k v) :
    x = (k, v) ∨ x ∈ xs := by
  induction xs with
  | nil => exact Or.inl (by simpa [assocPut] using h)
  | cons y ys ih =>
    simp only [assocPut] at h
    split at h
    · rcases List.mem_cons.1 h with h | h
      · exact Or.inr (by simp [h])
      · rcases ih h with h | h
        · exact Or.inl h
        · exact Or.inr (by simp [h])
    · split at h
      · rcases List.mem_cons.1 h with h | h
        · exact Or.inl h
        · exact Or.inr (by simp [h])
      · rcases List.mem_cons.1 h with h | h
        · exact Or.inl h
        · exact Or.inr h

/-- A value in its key's range put into a list of such values. -/
theorem assocPut_settingsOk {xs : List (Nat × Nat)} {k v : Nat} (h : settingsOk xs) (hv : keyValueOk k v = true) :
    settingsOk (assocPut xs k v) := by
  intro x hx
  rcases assocPut_mem hx with rfl | hx
  · exact hv
  · exact h x hx

theorem settingPut_settingsOk {xs : List (Nat × Nat)} {k v : Nat} (h : settingsOk xs) (hv : keyValueOk k v = true) :
    settingsOk (settingPut xs k v) := by
  unfold settingPut
  split
  · split
    · intro x hx
      exact h x (List.mem_filter.1 hx).1
    · exact assocPut_settingsOk h hv
  · exact h

/-- A key and value that pass the check are in range (R383). -/
theorem keyRefusal_none {r : Role} {k v : Nat} (h : keyRefusal r k v = none) : keyValueOk k v = true := by
  unfold keyRefusal at h
  split at h
  · cases h
  · split at h
    · cases h
    · split at h
      · cases h
      · rename_i hn
        simp only [not_or] at hn
        simpa using hn.2

theorem State.touchLedger_kept {lim : Nat} {org s : State} (h : Kept lim org s) (f : Ledger → Ledger)
    (hf : ∀ l, s.ledger = some l → settingsOk (f l).keys) : Kept lim org (State.touchLedger s f) := by
  unfold State.touchLedger
  split
  · rename_i l hl
    exact h.setLedger (fun l' e => by cases e; exact hf l hl)
  · exact h

theorem freezeSet_kept {lim : Nat} {org s : State} (h : Kept lim org s) (q : Req) : Verdict.Kept lim org (freezeSet q s) := by
  have touch : ∀ ms, Kept lim org (s.touchLedger (fun l => { l with masks := ms })) := fun ms =>
    State.touchLedger_kept h _ (fun l hl => h.ledger l hl)
  unfold freezeSet
  dsimp only
  repeat' (first
    | with_reducible assumption
    | split
    | with_reducible apply refuse_kept
    | with_reducible apply okReply_kept
    | with_reducible apply State.notePoison_kept
    | exact touch _)

theorem settingGet_kept {lim : Nat} {org : State} {s : State} (h : Kept lim org s) (q : Req) :
    Verdict.Kept lim org (settingGet q s) := by
  unfold settingGet
  try dsimp only
  repeat' (first
    | with_reducible assumption
    | dsimp only
    | split
    | with_reducible apply refuse_kept
    | with_reducible apply okReply_kept)

theorem settingSet_kept {lim : Nat} {org s : State} (h : Kept lim org s) (q : Req) : Verdict.Kept lim org (settingSet q s) := by
  unfold settingSet
  dsimp only
  split
  · exact refuse_kept h _
  · split
    · exact refuse_kept h _
    · rename_i hk
      have one : settingsOk [(fld q.params 0 2, fld q.params 8 8)] := by
        intro x hx
        rw [List.mem_singleton] at hx
        subst hx
        exact keyRefusal_none hk
      have two : ∀ (y : Nat × Nat → Commit), (y (fld q.params 0 2, fld q.params 8 8)).keys = [(fld q.params 0 2, fld q.params 8 8)] →
          Kept lim org { s with commits := s.commits ++ [y (fld q.params 0 2, fld q.params 8 8)] } := by
        intro y hy
        refine h.setCommits (fun c hc => ?_)
        rcases List.mem_append.1 hc with hc | hc
        · exact h.commits c hc
        · rw [List.mem_singleton] at hc
          subst hc
          rw [hy]
          exact one
      repeat' (first
        | with_reducible assumption
        | split
        | with_reducible apply refuse_kept
        | with_reducible apply Verdict.Kept.accept)
      all_goals exact two (fun x => ⟨q.source, q.tag, 0, q.role, q.keyIndex, [x], [], s.now + 50000, none⟩) rfl

theorem ledgerBegin_kept {lim : Nat} {org s : State} (h : Kept lim org s) (q : Req) : Verdict.Kept lim org (ledgerBegin q s) := by
  unfold ledgerBegin
  split
  · exact refuse_kept h _
  · refine okReply_kept ?_ _
    exact { h with ledger := fun l e => by cases e; exact fun x hx => by cases hx }

theorem ledgerSet_kept {lim : Nat} {org s : State} (h : Kept lim org s) (q : Req) : Verdict.Kept lim org (ledgerSet q s) := by
  unfold ledgerSet
  dsimp only
  repeat' (first
    | with_reducible assumption
    | split
    | with_reducible apply refuse_kept
    | with_reducible apply okReply_kept)
  rename_i l hk hl _
  refine State.touchLedger_kept h _ (fun l' e => ?_)
  rw [hl] at e
  cases e
  exact assocPut_settingsOk (h.ledger l hl) (keyRefusal_none hk)

theorem ledgerRollback_kept {lim : Nat} {org : State} {s : State} (h : Kept lim org s) (q : Req) :
    Verdict.Kept lim org (ledgerRollback q s) := by
  unfold ledgerRollback
  try dsimp only
  repeat' (first
    | with_reducible assumption
    | dsimp only
    | split
    | with_reducible apply refuse_kept
    | with_reducible apply State.raiseFault_kept
    | with_reducible apply okReply_kept
    | with_reducible apply State.rollback_kept)

theorem ledgerCommit_kept {lim : Nat} {org s : State} (h : Kept lim org s) (q : Req) : Verdict.Kept lim org (ledgerCommit q s) := by
  unfold ledgerCommit
  split
  · exact refuse_kept h _
  · exact refuse_kept h _
  · rename_i l _ hl
    refine Verdict.Kept.accept ?_
    exact { h with
      ledger := fun l' e => by cases e; exact h.ledger l hl
      commits := fun c hc => by
        rcases List.mem_append.1 hc with hc | hc
        · exact h.commits c hc
        · rw [List.mem_singleton] at hc
          subst hc
          exact h.ledger l hl }

theorem State.keyActs_kept {lim : Nat} {org : State} {s : State} (h : Kept lim org s) (k : Nat) :
    Kept lim org (State.keyActs s k) := by
  unfold State.keyActs
  try dsimp only
  repeat' (first
    | with_reducible assumption
    | dsimp only
    | split
    | with_reducible apply State.retrainAll_kept
    | with_reducible apply State.applyEnable_kept)

theorem State.applyKey_kept {lim : Nat} {org s : State} (h : Kept lim org s) (c : Commit) (x : Nat × Nat)
    (hx : keyValueOk x.1 x.2 = true) : Kept lim org (State.applyKey s c x) := by
  unfold State.applyKey
  dsimp only
  refine State.audit_kept (State.keyActs_kept ?_ _) _
  exact { h with settings := settingPut_settingsOk h.settings hx }

theorem State.applyMask_kept {lim : Nat} {org : State} {s : State} (h : Kept lim org s) (c : Commit) (m : StagedMask) :
    Kept lim org (State.applyMask s c m) := by
  unfold State.applyMask
  try dsimp only
  repeat' (first
    | with_reducible assumption
    | dsimp only
    | split
    | with_reducible apply State.audit_kept
    | with_reducible apply Kept.foldl
    | with_reducible apply Kept.upd
    | intro _
    | with_reducible rfl)

theorem State.endCommit_kept {lim : Nat} {org s : State} (h : Kept lim org s) (c : Commit) : Kept lim org (State.endCommit s c) := by
  have key : ∀ rest : List Commit, (∀ d ∈ rest, settingsOk d.keys) →
      Kept lim org { s with commits := rest, ledger := if c.ledger = 0 then s.ledger else none } := fun rest hr =>
    { h with
      commits := hr
      ledger := fun l e => by
        have e' : (if c.ledger = 0 then s.ledger else none) = some l := e
        split at e'
        · exact h.ledger l e'
        · cases e' }
  unfold State.endCommit
  refine key _ ?_
  intro d hd
  obtain ⟨x, hx, rfl⟩ := List.mem_map.1 hd
  have hk := h.commits x (List.mem_filter.1 hx).1
  split <;> exact hk

theorem State.finishCommit_kept {lim : Nat} {org : State} {s : State} (h : Kept lim org s) (c : Commit) (res : Res) (cause : Nat) (detail : Nat) :
    Kept lim org (State.finishCommit s c res cause detail) := by
  unfold State.finishCommit
  try dsimp only
  repeat' (first
    | with_reducible assumption
    | dsimp only
    | split
    | with_reducible apply State.completeGeneric_kept)

theorem State.failCommit_kept {lim : Nat} {org : State} {s : State} (h : Kept lim org s) (c : Commit) (cause : RollCause) (key : Nat) :
    Kept lim org (State.failCommit s c cause key) := by
  unfold State.failCommit
  try dsimp only
  repeat' (first
    | with_reducible assumption
    | dsimp only
    | split
    | with_reducible apply State.audit_kept
    | with_reducible apply State.endCommit_kept
    | with_reducible apply State.finishCommit_kept)

theorem State.applyCommit_kept {lim : Nat} {org s : State} (h : Kept lim org s) (c : Commit) (hc : settingsOk c.keys) :
    Kept lim org (State.applyCommit s c) := by
  have keys : ∀ (xs : List (Nat × Nat)) (t : State), settingsOk xs → Kept lim org t →
      Kept lim org (xs.foldl (fun t x => t.applyKey c x) t) := by
    intro xs
    induction xs with
    | nil => exact fun t _ ht => ht
    | cons x xs ih =>
      exact fun t hx ht => ih _ (fun y hy => hx y (by simp [hy])) (State.applyKey_kept ht c x (hx x (by simp)))
  have h2 := Kept.foldl c.masks (fun t m => t.applyMask c m) (keys c.keys s hc h) (fun a x ha => State.applyMask_kept ha c x)
  unfold State.applyCommit
  split
  · exact State.finishCommit_kept (State.endCommit_kept (State.raiseFault_kept h _) c) c _ _ _
  dsimp only
  have feeds : ∀ (b : Bool) (t : State), Kept lim org t → Kept lim org (if b = true then t.feedsChanged else t) := by
    intro b t ht
    split
    · exact State.feedsChanged_kept ht
    · exact ht
  have inlet : ∀ (b : Bool) (t : State), Kept lim org t → Kept lim org (if b = true then t.lookAtInlet else t) := by
    intro b t ht
    split
    · exact State.lookAtInlet_kept ht
    · exact ht
  refine State.finishCommit_kept (State.endCommit_kept (inlet _ _ ?_) c) c _ _ _
  split
  · exact feeds _ _ h2
  · exact Kept.upd (feeds _ _ h2) rfl rfl (Nat.le_refl _) (Nat.le_refl _) (Nat.le_refl _) rfl rfl rfl (Nat.le_refl _) (Nat.le_refl _) (Nat.le_refl _) (Nat.le_refl _) (Nat.le_refl _)

/-- The commits that are due are among those the machine holds. -/
theorem State.openCommits_mem {s : State} {c : Commit} (h : c ∈ s.openCommits) : c ∈ s.commits := by
  have free : ∀ (xs seen : List Commit), c ∈ freeCommits seen xs → c ∈ xs := by
    intro xs
    induction xs with
    | nil => exact fun _ hx => by simp [freeCommits] at hx
    | cons x xs ih =>
      intro seen hx
      unfold freeCommits at hx
      rcases List.mem_append.1 hx with hx | hx
      · split at hx
        · cases hx
        · simp_all
      · exact List.mem_cons_of_mem _ (ih _ hx)
  exact free _ _ (List.mem_filter.1 h).1

theorem execLedgerApply_kept {lim : Nat} {org s : State} (h : Kept lim org s) : KeptOut lim org (execLedgerApply s) := by
  unfold execLedgerApply
  split
  · exact KeptOut.next h
  · rename_i c e
    have hc : settingsOk c.keys := h.commits c (State.openCommits_mem (List.mem_of_find?_eq_some e))
    split
    · exact KeptOut.next (State.failCommit_kept h c _ _)
    · exact KeptOut.next (State.applyCommit_kept h c hc)
    · exact KeptOut.next h

theorem execLedgerCommitTimeout_kept {lim : Nat} {org : State} {s : State} (h : Kept lim org s)  :
    KeptOut lim org (execLedgerCommitTimeout s) := by
  unfold execLedgerCommitTimeout
  try dsimp only
  repeat' (first
    | with_reducible assumption
    | dsimp only
    | split
    | with_reducible apply State.failCommit_kept
    | with_reducible apply State.reach_kept
    | with_reducible apply Kept.foldl
    | with_reducible apply KeptOut.next)

theorem execLedgerIdleTimeout_kept {lim : Nat} {org : State} {s : State} (h : Kept lim org s)  :
    KeptOut lim org (execLedgerIdleTimeout s) := by
  unfold execLedgerIdleTimeout
  try dsimp only
  repeat' (first
    | with_reducible assumption
    | dsimp only
    | split
    | with_reducible apply State.rollback_kept
    | with_reducible apply State.reach_kept
    | with_reducible apply Kept.foldl
    | with_reducible apply KeptOut.next)

end Sys2Proof.Machine
end

