-- ==== Sys2Proof/Laws/KeptData.lean ====
section
/-!
SUPPORT. The functions of Machine/Data.lean keep a sound block sound, and undo nothing that no command undoes (`Kept`).
-/
namespace Sys2Proof.Machine

theorem tensorDefine_kept {lim : Nat} {org : State} {s : State} (h : Kept lim org s) (q : Req) :
    Verdict.Kept lim org (tensorDefine q s) := by
  unfold tensorDefine
  try dsimp only
  repeat' (first
    | with_reducible assumption
    | dsimp only
    | split
    | with_reducible apply refuse_kept
    | with_reducible apply okReply_kept
    | with_reducible apply State.releaseTensor_kept
    | with_reducible apply State.defineTensor_kept)

theorem assayRead_kept {lim : Nat} {org : State} {s : State} (h : Kept lim org s) (q : Req) :
    Verdict.Kept lim org (assayRead q s) := by
  unfold assayRead
  try dsimp only
  repeat' (first
    | with_reducible assumption
    | dsimp only
    | split
    | with_reducible apply refuse_kept
    | with_reducible apply okReply_kept
    | with_reducible apply State.setTensor_kept)

theorem tensorWrite_kept {lim : Nat} {org : State} {s : State} (h : Kept lim org s) (q : Req) :
    Verdict.Kept lim org (tensorWrite q s) := by
  unfold tensorWrite
  try dsimp only
  repeat' (first
    | with_reducible assumption
    | dsimp only
    | split
    | with_reducible apply refuse_kept
    | with_reducible apply Kept.foldl
    | with_reducible apply Verdict.Kept.done
    | with_reducible apply Verdict.Kept.accept)

theorem State.writeRegion_kept {lim : Nat} {org : State} {s : State} (h : Kept lim org s) (t : Tensor) (a : Access) (w : Fmt) (bs : List Byte) :
    Kept lim org (State.writeRegion s t a w bs).1 := by
  unfold State.writeRegion
  try dsimp only
  repeat' (first
    | with_reducible assumption
    | dsimp only
    | split
    | with_reducible apply State.putRegion_kept)

theorem State.writeRegion8_kept {lim : Nat} {org : State} {s : State} (h : Kept lim org s) (t : Tensor) (a : Access) (w : Fmt) (bs : List Byte) :
    Kept lim org (State.writeRegion8 s t a w bs).1 := by
  unfold State.writeRegion8
  try dsimp only
  repeat' (first
    | with_reducible assumption
    | dsimp only
    | split
    | with_reducible apply State.putRows8_kept)

theorem State.doWrite_kept {lim : Nat} {org : State} {s : State} (h : Kept lim org s) (c : Cmd) (bs : List Byte) :
    Kept lim org (State.doWrite s c bs).1 := by
  unfold State.doWrite
  try dsimp only
  repeat' (first
    | with_reducible assumption
    | dsimp only
    | split
    | with_reducible apply State.write_kept
    | with_reducible apply State.writeRegion8_kept
    | with_reducible apply State.writeRegion_kept
    | with_reducible apply State.retag_kept)

theorem tensorRead_kept {lim : Nat} {org : State} {s : State} (h : Kept lim org s) (q : Req) :
    Verdict.Kept lim org (tensorRead q s) := by
  unfold tensorRead
  try dsimp only
  repeat' (first
    | with_reducible assumption
    | dsimp only
    | split
    | with_reducible apply refuse_kept
    | with_reducible apply Kept.foldl
    | with_reducible apply Verdict.Kept.done
    | with_reducible apply Verdict.Kept.accept)

theorem State.doRead_kept {lim : Nat} {org : State} {s : State} (h : Kept lim org s) (c : Cmd) :
    Kept lim org (State.doRead s c) := by
  unfold State.doRead
  try dsimp only
  repeat' (first
    | with_reducible assumption
    | dsimp only
    | split
    | with_reducible apply State.completeGeneric_kept
    | with_reducible apply State.notePoison_kept
    | with_reducible apply State.sendData_kept)

theorem tensorCopy_kept {lim : Nat} {org : State} {s : State} (h : Kept lim org s) (q : Req) :
    Verdict.Kept lim org (tensorCopy q s) := by
  unfold tensorCopy
  try dsimp only
  repeat' (first
    | with_reducible assumption
    | dsimp only
    | split
    | with_reducible apply refuse_kept
    | with_reducible apply Kept.foldl
    | with_reducible apply Verdict.Kept.done
    | with_reducible apply Verdict.Kept.accept)

theorem State.doCopy_kept {lim : Nat} {org : State} {s : State} (h : Kept lim org s) (c : Cmd) :
    Kept lim org (State.doCopy s c) := by
  unfold State.doCopy
  try dsimp only
  repeat' (first
    | with_reducible assumption
    | dsimp only
    | split
    | with_reducible apply State.completeGeneric_kept
    | with_reducible apply State.copy_kept
    | with_reducible apply State.noteRead_kept
    | with_reducible apply State.retag_kept)

theorem tensorFill_kept {lim : Nat} {org : State} {s : State} (h : Kept lim org s) (q : Req) :
    Verdict.Kept lim org (tensorFill q s) := by
  unfold tensorFill
  try dsimp only
  repeat' (first
    | with_reducible assumption
    | dsimp only
    | split
    | with_reducible apply refuse_kept
    | with_reducible apply Kept.foldl
    | with_reducible apply Verdict.Kept.done
    | with_reducible apply Verdict.Kept.accept)

theorem State.doFill_kept {lim : Nat} {org : State} {s : State} (h : Kept lim org s) (c : Cmd) :
    Kept lim org (State.doFill s c) := by
  unfold State.doFill
  try dsimp only
  repeat' (first
    | with_reducible assumption
    | dsimp only
    | split
    | with_reducible apply State.completeGeneric_kept
    | with_reducible apply State.write_kept
    | with_reducible apply State.retag_kept
    | with_reducible apply Kept.foldl
    | with_reducible apply Kept.foldlFst
    | with_reducible apply Kept.foldlSnd
    | with_reducible apply Kept.upd
    | intro _
    | with_reducible rfl)

theorem State.startRead_kept {lim : Nat} {org : State} {s : State} (h : Kept lim org s) (c : Cmd) :
    Kept lim org (State.startRead s c) := by
  unfold State.startRead
  try dsimp only
  repeat' (first
    | with_reducible assumption
    | dsimp only
    | split
    | with_reducible apply State.startCmd_kept
    | with_reducible apply State.setCmd_kept
    | with_reducible exact Nat.le_refl _)

theorem State.dataWork_kept {lim : Nat} {org : State} {s : State} (h : Kept lim org s) (c : Cmd) :
    Kept lim org (State.dataWork s c) := by
  unfold State.dataWork
  try dsimp only
  repeat' (first
    | with_reducible assumption
    | dsimp only
    | split
    | with_reducible apply State.doWrite_kept
    | with_reducible apply State.completeGeneric_kept
    | with_reducible apply State.doRead_kept
    | with_reducible apply State.doCopy_kept
    | with_reducible apply State.doFill_kept)

theorem execTensorCommandDone_kept {lim : Nat} {org : State} {s : State} (h : Kept lim org s) (source : Nat) (tag : Nat) :
    KeptOut lim org (execTensorCommandDone source tag s) := by
  unfold execTensorCommandDone
  try dsimp only
  repeat' (first
    | with_reducible assumption
    | dsimp only
    | split
    | with_reducible apply State.moving_kept
    | with_reducible apply State.dataWork_kept
    | with_reducible apply Kept.foldl
    | with_reducible apply KeptOut.next
    | with_reducible apply KeptOut.fault
    | with_reducible apply Kept.upd
    | intro _
    | with_reducible rfl)

end Sys2Proof.Machine
end

