-- ==== Sys2Proof/Laws/KeptOpsCheck.lean ====
section
/-!
SUPPORT. The functions of Machine/OpsCheck.lean keep a sound block sound, and undo nothing that no command undoes (`Kept`).
-/
namespace Sys2Proof.Machine

theorem runRecords_kept {lim : Nat} {org : State} {s : State} (h : Kept lim org s) (q : Req) (n : Net) (graph : Bool) (binds : List Nat) (rs : List NetRec) :
    Verdict.Kept lim org (runRecords q n graph binds rs s) := by
  unfold runRecords
  try dsimp only
  repeat' (first
    | with_reducible assumption
    | dsimp only
    | split
    | with_reducible apply refuse_kept
    | with_reducible apply Kept.foldl
    | with_reducible apply Verdict.Kept.done
    | with_reducible apply Verdict.Kept.accept
    | with_reducible apply Verdict.Kept.await
    | with_reducible apply Kept.upd
    | intro _
    | with_reducible rfl)

theorem opRun_kept {lim : Nat} {org : State} {s : State} (h : Kept lim org s) (q : Req) :
    Verdict.Kept lim org (opRun q s) := by
  unfold opRun
  try dsimp only
  repeat' (first
    | with_reducible assumption
    | dsimp only
    | split
    | with_reducible apply refuse_kept
    | with_reducible apply runRecords_kept)

theorem graphRun_kept {lim : Nat} {org : State} {s : State} (h : Kept lim org s) (q : Req) :
    Verdict.Kept lim org (graphRun q s) := by
  unfold graphRun
  try dsimp only
  repeat' (first
    | with_reducible assumption
    | dsimp only
    | split
    | with_reducible apply refuse_kept
    | with_reducible apply runRecords_kept)

end Sys2Proof.Machine
end

