-- ==== Sys2Proof/Laws/KeptCollective.lean ====
section
/-!
SUPPORT. The functions of Machine/Collective.lean keep a sound block sound, and undo nothing that no command undoes (`Kept`).
-/
namespace Sys2Proof.Machine

theorem State.collSend_kept {lim : Nat} {org : State} {s : State} (h : Kept lim org s) (r : CollRun) (dest : Nat) (step : Nat) (xs : List (Nat × List Byte)) :
    Kept lim org (State.collSend s r dest step xs) := by
  unfold State.collSend
  try dsimp only
  repeat' (first
    | with_reducible assumption
    | dsimp only
    | split
    | with_reducible apply State.sendFlit_kept
    | with_reducible apply Kept.foldl
    | with_reducible apply Kept.foldlFst
    | with_reducible apply Kept.foldlSnd
    | with_reducible apply Kept.upd
    | intro _
    | with_reducible rfl)

theorem State.putUnit_kept {lim : Nat} {org : State} {s : State} (h : Kept lim org s) (h : Nat) (x : Nat) (bs : List Byte) :
    Kept lim org (State.putUnit s h x bs) := by
  unfold State.putUnit
  try dsimp only
  repeat' (first
    | with_reducible assumption
    | dsimp only
    | split
    | with_reducible apply State.charge_kept
    | with_reducible apply State.write_kept)

theorem State.putWire_kept {lim : Nat} {org : State} {s : State} (h : Kept lim org s) (r : CollRun) (h : Nat) (x : Nat) (bs : List Byte) :
    Kept lim org (State.putWire s r h x bs) := by
  unfold State.putWire
  try dsimp only
  repeat' (first
    | with_reducible assumption
    | dsimp only
    | split
    | with_reducible apply State.putUnit_kept)

theorem State.closeSegment_kept {lim : Nat} {org : State} {s : State} (h : Kept lim org s) (x : Nat) (acc : List (Nat × Tal)) :
    Kept lim org (State.closeSegment s x acc).1 := by
  unfold State.closeSegment
  split
  · exact h
  · dsimp only
    split
    · exact Kept.foldlFst _ _ h (fun _ _ ha => State.putUnit_kept ha _ _ _)
    · exact Kept.foldlFst _ _ h (fun _ _ ha => State.putElem_kept (State.charge_kept ha _ _) _ _ _ _ _)

theorem State.keepResult_kept {lim : Nat} {org : State} {s : State} (h : Kept lim org s) (r : CollRun) (x : Nat) (c : Combined) :
    Kept lim org (State.keepResult s r x c).1 := by
  unfold State.keepResult
  try dsimp only
  repeat' (first
    | with_reducible assumption
    | dsimp only
    | split
    | with_reducible apply State.putUnit_kept)

theorem State.keepGathered_kept {lim : Nat} {org : State} {s : State} (h : Kept lim org s) (r : CollRun) (packed : Bool) (x : Nat) (bs : List Byte) :
    Kept lim org (State.keepGathered s r packed x bs).1 := by
  unfold State.keepGathered
  try dsimp only
  repeat' (first
    | with_reducible assumption
    | dsimp only
    | split
    | with_reducible apply State.putUnit_kept
    | with_reducible apply State.putWire_kept)

theorem State.reduceDone_kept {lim : Nat} {org : State} {s : State} (h : Kept lim org s) (r : CollRun) :
    Kept lim org (State.reduceDone s r).1 := by
  unfold State.reduceDone
  try dsimp only
  repeat' (first
    | with_reducible assumption
    | dsimp only
    | split
    | with_reducible apply State.closeSegment_kept
    | with_reducible apply State.collSend_kept)

theorem State.collTake_kept {lim : Nat} {org : State} {s : State} (h : Kept lim org s) (r : CollRun) (f : Flit) :
    Kept lim org (State.collTake s r f).1 := by
  unfold State.collTake
  try dsimp only
  repeat' (first
    | with_reducible assumption
    | dsimp only
    | split
    | with_reducible apply State.count_kept
    | with_reducible apply State.collSend_kept
    | with_reducible apply State.keepResult_kept
    | with_reducible apply State.reduceDone_kept
    | with_reducible apply State.keepGathered_kept
    | with_reducible apply Kept.foldl
    | with_reducible apply Kept.foldlFst
    | with_reducible apply Kept.foldlSnd
    | with_reducible apply Kept.upd
    | intro _
    | with_reducible rfl)

theorem State.collBegin_kept {lim : Nat} {org : State} {s : State} (h : Kept lim org s) (r : CollRun) :
    Kept lim org (State.collBegin s r).1 := by
  unfold State.collBegin
  try dsimp only
  repeat' (first
    | with_reducible assumption
    | dsimp only
    | split
    | with_reducible apply State.putWire_kept
    | with_reducible apply State.collSend_kept
    | with_reducible apply State.keepResult_kept
    | with_reducible apply State.reduceDone_kept
    | with_reducible apply Kept.foldl
    | with_reducible apply Kept.foldlFst
    | with_reducible apply Kept.foldlSnd
    | with_reducible apply Kept.upd
    | intro _
    | with_reducible rfl)

theorem State.padOut_kept {lim : Nat} {org : State} {s : State} (h : Kept lim org s) (r : CollRun) :
    Kept lim org (State.padOut s r) := by
  unfold State.padOut
  try dsimp only
  repeat' (first
    | with_reducible assumption
    | dsimp only
    | split
    | with_reducible apply State.charge_kept
    | with_reducible apply State.putBlock_kept
    | with_reducible apply Kept.foldl
    | with_reducible apply Kept.foldlFst
    | with_reducible apply Kept.foldlSnd
    | with_reducible apply Kept.upd
    | intro _
    | with_reducible rfl)

theorem State.trimCrews_kept {lim : Nat} {org : State} {s : State} (h : Kept lim org s)  :
    Kept lim org (State.trimCrews s) := by
  unfold State.trimCrews
  try dsimp only
  repeat' (first
    | with_reducible assumption
    | dsimp only
    | split
    | with_reducible apply Kept.foldl
    | with_reducible apply Kept.upd
    | intro _
    | with_reducible rfl)

theorem State.endUpdate_kept {lim : Nat} {org : State} {s : State} (h : Kept lim org s) (c : Cmd) (r : UpdRun) (cause : Nat) :
    Kept lim org (State.endUpdate s c r cause) := by
  unfold State.endUpdate
  try dsimp only
  repeat' (first
    | with_reducible assumption
    | dsimp only
    | split
    | with_reducible apply State.complete_kept
    | with_reducible apply State.trimCrews_kept
    | with_reducible apply State.count_kept)

theorem State.failColl_kept {lim : Nat} {org : State} {s : State} (h : Kept lim org s) (c : Cmd) (cause : Nat) (detail : Nat) :
    Kept lim org (State.failColl s c cause detail) := by
  unfold State.failColl
  try dsimp only
  repeat' (first
    | with_reducible assumption
    | dsimp only
    | split
    | with_reducible apply State.scramble_kept
    | with_reducible apply State.trimCrews_kept
    | with_reducible apply State.completeGeneric_kept
    | with_reducible apply State.endUpdate_kept)

theorem State.holdFlit_kept {lim : Nat} {org : State} {s : State} (h : Kept lim org s) (link : Option Nat) (cancel : Bool) (f : Flit) :
    Kept lim org (State.holdFlit s link cancel f) := by
  unfold State.holdFlit
  try dsimp only
  repeat' (first
    | with_reducible assumption
    | dsimp only
    | split
    | with_reducible apply Kept.foldl
    | with_reducible apply Kept.upd
    | intro _
    | with_reducible rfl)

theorem State.freeBuffer_kept {lim : Nat} {org : State} {s : State} (h : Kept lim org s) (link : Option Nat) (f : Flit) :
    Kept lim org (State.freeBuffer s link f) := by
  unfold State.freeBuffer
  try dsimp only
  repeat' (first
    | with_reducible assumption
    | dsimp only
    | split
    | with_reducible apply State.setLink_kept)

theorem State.stale_kept {lim : Nat} {org : State} {s : State} (h : Kept lim org s) (f : Flit) :
    Kept lim org (State.stale s f) := by
  unfold State.stale
  try dsimp only
  repeat' (first
    | with_reducible assumption
    | dsimp only
    | split
    | with_reducible apply State.count_kept
    | with_reducible apply State.sendFlit_kept
    | with_reducible apply Kept.foldl
    | with_reducible apply Kept.upd
    | intro _
    | with_reducible rfl)

theorem State.crewEnd_kept {lim : Nat} {org : State} {s : State} (h : Kept lim org s) (c : Cmd) (cancel : Bool) (f : Flit) :
    Kept lim org (State.crewEnd s c cancel f) := by
  unfold State.crewEnd
  try dsimp only
  repeat' (first
    | with_reducible assumption
    | dsimp only
    | split
    | with_reducible apply State.failColl_kept)

theorem State.crewOther_kept {lim : Nat} {org : State} {s : State} (h : Kept lim org s) (link : Option Nat) (cancel : Bool) (f : Flit) :
    Kept lim org (State.crewOther s link cancel f) := by
  unfold State.crewOther
  try dsimp only
  repeat' (first
    | with_reducible assumption
    | dsimp only
    | split
    | with_reducible apply State.freeBuffer_kept
    | with_reducible apply State.count_kept
    | with_reducible apply State.stale_kept
    | with_reducible apply State.holdFlit_kept)

theorem State.crewTake_kept {lim : Nat} {org : State} {s : State} (h : Kept lim org s) (link : Option Nat) (cancel : Bool) (f : Flit) :
    Kept lim org (State.crewTake s link cancel f) := by
  unfold State.crewTake
  try dsimp only
  repeat' (first
    | with_reducible assumption
    | dsimp only
    | split
    | with_reducible apply State.crewOther_kept
    | with_reducible apply State.freeBuffer_kept
    | with_reducible apply State.crewEnd_kept
    | with_reducible apply State.collTake_kept
    | with_reducible apply State.setCmd_kept
    | with_reducible apply State.holdFlit_kept)

theorem State.crewFlit_kept {lim : Nat} {org : State} {s : State} (h : Kept lim org s) (link : Option Nat) (cancel : Bool) (f : Flit) :
    Kept lim org (State.crewFlit s link cancel f) := by
  unfold State.crewFlit
  try dsimp only
  repeat' (first
    | with_reducible assumption
    | dsimp only
    | split
    | with_reducible apply State.crewTake_kept
    | with_reducible apply Kept.foldl
    | with_reducible apply Kept.upd
    | intro _
    | with_reducible rfl)

theorem State.unstick_kept {lim : Nat} {org : State} {s : State} (h : Kept lim org s)  :
    Kept lim org (State.unstick s) := by
  unfold State.unstick
  try dsimp only
  repeat' (first
    | with_reducible assumption
    | dsimp only
    | split
    | with_reducible apply State.crewFlit_kept
    | with_reducible apply Kept.foldl
    | with_reducible apply Kept.foldlFst
    | with_reducible apply Kept.foldlSnd
    | with_reducible apply Kept.upd
    | intro _
    | with_reducible rfl)

theorem State.takeHeld_kept {lim : Nat} {org : State} {s : State} (h : Kept lim org s) (crew : Nat) (cid : Nat) :
    Kept lim org (State.takeHeld s crew cid) := by
  unfold State.takeHeld
  try dsimp only
  repeat' (first
    | with_reducible assumption
    | dsimp only
    | split
    | with_reducible apply State.unstick_kept
    | with_reducible apply State.crewTake_kept
    | with_reducible apply State.freeBuffer_kept
    | with_reducible apply Kept.foldl
    | with_reducible apply Kept.foldlFst
    | with_reducible apply Kept.foldlSnd
    | with_reducible apply Kept.upd
    | intro _
    | with_reducible rfl)

theorem State.dropStale_kept {lim : Nat} {org : State} {s : State} (h : Kept lim org s)  :
    Kept lim org (State.dropStale s) := by
  unfold State.dropStale
  try dsimp only
  repeat' (first
    | with_reducible assumption
    | dsimp only
    | split
    | with_reducible apply State.unstick_kept
    | with_reducible apply State.freeBuffer_kept
    | with_reducible apply State.stale_kept
    | with_reducible apply Kept.foldl
    | with_reducible apply Kept.foldlFst
    | with_reducible apply Kept.foldlSnd
    | with_reducible apply Kept.upd
    | intro _
    | with_reducible rfl)

theorem State.newCrew_kept {lim : Nat} {org : State} {s : State} (h : Kept lim org s) (c : Crew) :
    Kept lim org (State.newCrew s c) := by
  unfold State.newCrew
  try dsimp only
  repeat' (first
    | with_reducible assumption
    | dsimp only
    | split
    | with_reducible apply State.dropStale_kept
    | with_reducible apply State.trimCrews_kept
    | with_reducible apply Kept.foldl
    | with_reducible apply Kept.upd
    | intro _
    | with_reducible rfl)

theorem State.moveStep_kept {lim : Nat} {org : State} {s : State} (h : Kept lim org s) (step : Nat) :
    Kept lim org (State.moveStep s step) := by
  unfold State.moveStep
  try dsimp only
  repeat' (first
    | with_reducible assumption
    | dsimp only
    | split
    | with_reducible apply State.newCrew_kept
    | with_reducible apply Kept.foldl
    | with_reducible apply Kept.upd
    | intro _
    | with_reducible rfl)

theorem crewListSet_kept {lim : Nat} {org : State} {s : State} (h : Kept lim org s) (q : Req) :
    Verdict.Kept lim org (crewListSet q s) := by
  unfold crewListSet
  try dsimp only
  repeat' (first
    | with_reducible assumption
    | dsimp only
    | split
    | with_reducible apply refuse_kept
    | with_reducible apply Kept.foldl
    | with_reducible apply Verdict.Kept.done
    | with_reducible apply Verdict.Kept.accept
    | with_reducible apply Verdict.Kept.await)

theorem State.crewListDone_kept {lim : Nat} {org : State} {s : State} (h : Kept lim org s) (params : List Byte) (bs : List Byte) :
    Kept lim org (State.crewListDone s params bs).2 := by
  unfold State.crewListDone
  try dsimp only
  repeat' (first
    | with_reducible assumption
    | dsimp only
    | split
    | with_reducible apply State.newCrew_kept
    | with_reducible apply Kept.foldl
    | with_reducible apply Kept.upd
    | intro _
    | with_reducible rfl)

theorem collectiveRun_kept {lim : Nat} {org : State} {s0 : State} (h : Kept lim org s0) (q : Req) :
    Verdict.Kept lim org (collectiveRun q s0) := by
  unfold collectiveRun
  try dsimp only
  repeat' (first
    | with_reducible assumption
    | dsimp only
    | split
    | with_reducible apply State.moveStep_kept
    | with_reducible apply refuse_kept
    | with_reducible apply Kept.foldl
    | with_reducible apply Verdict.Kept.done
    | with_reducible apply Verdict.Kept.accept)

theorem execCollectiveCommit_kept {lim : Nat} {org : State} {s : State} (h : Kept lim org s) (source : Nat) (tag : Nat) :
    KeptOut lim org (execCollectiveCommit source tag s) := by
  unfold execCollectiveCommit
  try dsimp only
  repeat' (first
    | with_reducible assumption
    | dsimp only
    | split
    | with_reducible apply State.padOut_kept
    | with_reducible apply State.retag_kept
    | with_reducible apply State.trimCrews_kept
    | with_reducible apply State.completeGeneric_kept
    | with_reducible apply Kept.foldl
    | with_reducible apply KeptOut.next
    | with_reducible apply KeptOut.fault
    | with_reducible apply Kept.upd
    | intro _
    | with_reducible rfl)

theorem execCollectiveStallTimeout_kept {lim : Nat} {org : State} {s : State} (h : Kept lim org s) (source : Nat) (tag : Nat) :
    KeptOut lim org (execCollectiveStallTimeout source tag s) := by
  unfold execCollectiveStallTimeout
  try dsimp only
  repeat' (first
    | with_reducible assumption
    | dsimp only
    | split
    | with_reducible apply State.failColl_kept
    | with_reducible apply State.reach_kept
    | with_reducible apply Kept.foldl
    | with_reducible apply KeptOut.next)

theorem execLinkEngineFault_kept {lim : Nat} {org : State} {s : State} (h : Kept lim org s) (engine : Nat) :
    KeptOut lim org (execLinkEngineFault engine s) := by
  unfold execLinkEngineFault
  try dsimp only
  repeat' (first
    | with_reducible assumption
    | dsimp only
    | split
    | with_reducible apply State.failColl_kept
    | with_reducible apply State.raiseFault_kept
    | with_reducible apply Kept.foldl
    | with_reducible apply Kept.foldlFst
    | with_reducible apply Kept.foldlSnd
    | with_reducible apply KeptOut.next
    | with_reducible apply KeptOut.fault
    | with_reducible apply Kept.upd
    | intro _
    | with_reducible rfl)

end Sys2Proof.Machine
end

