-- ==== Sys2Proof/Laws/KeptTinker.lean ====
section
/-!
SUPPORT. The functions of Machine/Tinker.lean keep a sound block sound, and undo nothing that no command undoes (`Kept`).
-/
namespace Sys2Proof.Machine

theorem updateProgramLoad_kept {lim : Nat} {org : State} {s : State} (h : Kept lim org s) (q : Req) :
    Verdict.Kept lim org (updateProgramLoad q s) := by
  unfold updateProgramLoad
  try dsimp only
  repeat' (first
    | with_reducible assumption
    | dsimp only
    | split
    | with_reducible apply refuse_kept
    | with_reducible apply okReply_kept
    | with_reducible apply Kept.foldl
    | with_reducible apply Verdict.Kept.done
    | with_reducible apply Verdict.Kept.accept
    | with_reducible apply Verdict.Kept.await
    | with_reducible apply Kept.upd
    | intro _
    | with_reducible rfl)

theorem updateRun_kept {lim : Nat} {org s0 : State} (h : Kept lim org s0) (q : Req) : Verdict.Kept lim org (updateRun q s0) := by
  have h1 := State.moveStep_kept h (fld q.params 40 4)
  unfold updateRun
  extract_lets ps s
  have hs : Kept lim org s := h1
  clear_value s
  repeat' (first
    | with_reducible apply State.fresh_kept
    | exact refuse_kept hs _
    | exact hs
    | split)

theorem execUpdatePass1Start_kept {lim : Nat} {org : State} {s : State} (h : Kept lim org s) (source : Nat) (tag : Nat) (tinker : Nat) :
    KeptOut lim org (execUpdatePass1Start source tag tinker s) := by
  unfold execUpdatePass1Start
  try dsimp only
  repeat' (first
    | with_reducible assumption
    | dsimp only
    | split
    | with_reducible apply State.endUpdate_kept
    | with_reducible apply State.setCmd_kept
    | with_reducible apply Kept.foldl
    | with_reducible apply Kept.foldlFst
    | with_reducible apply Kept.foldlSnd
    | with_reducible apply KeptOut.next)

theorem State.startNorm_kept {lim : Nat} {org : State} {s : State} (h : Kept lim org s) (c : Cmd) (r : UpdRun) :
    Kept lim org (State.startNorm s c r) := by
  unfold State.startNorm
  try dsimp only
  repeat' (first
    | with_reducible assumption
    | dsimp only
    | split
    | with_reducible apply State.fresh_kept
    | with_reducible apply State.setCmd_kept
    | with_reducible apply State.watchPeer_kept
    | with_reducible apply State.collBegin_kept
    | with_reducible apply State.takeHeld_kept
    | with_reducible apply Kept.foldl
    | with_reducible apply Kept.foldlFst
    | with_reducible apply Kept.foldlSnd
    | with_reducible apply Kept.upd
    | intro _
    | with_reducible rfl)

theorem State.pass1Done_kept {lim : Nat} {org : State} {s : State} (h : Kept lim org s) (c : Cmd) (r : UpdRun) (tinker : Nat) (qs : List Nat) (gs : List Tensor) :
    Kept lim org (State.pass1Done s c r tinker qs gs) := by
  unfold State.pass1Done
  try dsimp only
  repeat' (first
    | with_reducible assumption
    | dsimp only
    | split
    | with_reducible apply State.count_kept
    | with_reducible apply State.startNorm_kept
    | with_reducible apply State.setCmd_kept)

theorem execUpdatePass1End_kept {lim : Nat} {org : State} {s : State} (h : Kept lim org s) (source : Nat) (tag : Nat) (tinker : Nat) :
    KeptOut lim org (execUpdatePass1End source tag tinker s) := by
  unfold execUpdatePass1End
  try dsimp only
  repeat' (first
    | with_reducible assumption
    | dsimp only
    | split
    | with_reducible apply State.endUpdate_kept
    | with_reducible apply State.notePoison_kept
    | with_reducible apply State.moving_kept
    | with_reducible apply State.pass1Done_kept
    | with_reducible apply Kept.foldl
    | with_reducible apply KeptOut.next
    | with_reducible apply KeptOut.fault
    | with_reducible apply Kept.upd
    | intro _
    | with_reducible rfl)

theorem execUpdateNorms_kept {lim : Nat} {org : State} {s : State} (h : Kept lim org s) (source : Nat) (tag : Nat) :
    KeptOut lim org (execUpdateNorms source tag s) := by
  unfold execUpdateNorms
  try dsimp only
  repeat' (first
    | with_reducible assumption
    | dsimp only
    | split
    | with_reducible apply State.write_kept
    | with_reducible apply State.trimCrews_kept
    | with_reducible apply State.setCmd_kept
    | with_reducible apply Kept.foldl
    | with_reducible apply KeptOut.next
    | with_reducible apply KeptOut.fault
    | with_reducible apply Kept.upd
    | intro _
    | with_reducible rfl)

theorem State.byTinker_kept {lim : Nat} {org : State} {s : State} {t : State} (h : Kept lim org s) (h1 : Kept lim org t) :
    Kept lim org (State.byTinker s t) := by
  unfold State.byTinker
  try dsimp only
  repeat' (first
    | with_reducible assumption
    | dsimp only
    | split
    | with_reducible apply Kept.upd
    | intro _
    | with_reducible rfl
    | with_reducible exact Nat.le_refl _)

theorem State.putCodes_kept {lim : Nat} {org : State} {s : State} (h : Kept lim org s) (pad : Bool) (h : Nat) (code : Nat → Nat → Nat → Option Nat) :
    Kept lim org (State.putCodes s pad h code) := by
  unfold State.putCodes
  try dsimp only
  repeat' (first
    | with_reducible assumption
    | dsimp only
    | split
    | with_reducible apply State.putRegion_kept
    | with_reducible apply Kept.foldl
    | with_reducible apply Kept.foldlFst
    | with_reducible apply Kept.foldlSnd
    | with_reducible apply Kept.upd
    | intro _
    | with_reducible rfl)

theorem State.putCopy_kept {lim : Nat} {org : State} {s : State} (h : Kept lim org s) (h : Nat) (old : Nat → Nat → Nat → LVal) (w : Nat → Nat → Nat → Option LVal) :
    Kept lim org (State.putCopy s h old w).1 := by
  unfold State.putCopy
  try dsimp only
  repeat' (first
    | with_reducible assumption
    | dsimp only
    | split
    | with_reducible apply State.putRows8_kept
    | with_reducible apply State.putRegion_kept
    | with_reducible apply Kept.foldl
    | with_reducible apply Kept.foldlFst
    | with_reducible apply Kept.foldlSnd
    | with_reducible apply Kept.upd
    | intro _
    | with_reducible rfl)

theorem State.putLower_kept {lim : Nat} {org : State} {s : State} (h : Kept lim org s) (h : Nat) (m : Mat) (tri : Bool) :
    Kept lim org (State.putLower s h m tri) := by
  unfold State.putLower
  try dsimp only
  repeat' (first
    | with_reducible assumption
    | dsimp only
    | split
    | with_reducible apply State.freeNat_kept
    | with_reducible apply State.putCodes_kept
    | with_reducible apply Kept.foldl
    | with_reducible apply Kept.upd
    | intro _
    | with_reducible rfl
    | with_reducible exact Nat.le_refl _
    | exact Nat.le_succ _
    | simp )

theorem State.writeEntry_kept {lim : Nat} {org : State} {s : State} (h : Kept lim org s) (e : UEntry) (w : Tensor) (o : EntryOut) :
    Kept lim org (State.writeEntry s e w o).1 := by
  unfold State.writeEntry
  try dsimp only
  repeat' (first
    | with_reducible assumption
    | dsimp only
    | split
    | with_reducible apply State.putCodes_kept
    | with_reducible apply State.putLower_kept
    | with_reducible apply State.putCopy_kept)

theorem State.scrambleRanges_kept {lim : Nat} {org : State} {s : State} (h : Kept lim org s) (rs : List (Nat × Nat)) :
    Kept lim org (State.scrambleRanges s rs) := by
  unfold State.scrambleRanges
  try dsimp only
  repeat' (first
    | with_reducible assumption
    | dsimp only
    | split
    | with_reducible apply State.freeBytes_kept
    | with_reducible apply State.write_kept
    | with_reducible apply Kept.foldl
    | with_reducible apply Kept.foldlFst
    | with_reducible apply Kept.foldlSnd
    | with_reducible apply Kept.upd
    | intro _
    | with_reducible rfl)

theorem State.countEntry_kept {lim : Nat} {org : State} {s : State} (h : Kept lim org s) (e : UEntry) (w : Tensor) (o : EntryOut) (n : Nat) (rd : Nat) (rows8 : Nat) (kept : Bool) :
    Kept lim org (State.countEntry s e w o n rd rows8 kept) := by
  unfold State.countEntry
  try dsimp only
  repeat' (first
    | with_reducible assumption
    | dsimp only
    | split
    | with_reducible apply State.freeNat_kept
    | with_reducible apply State.count_kept
    | with_reducible apply Kept.foldl
    | with_reducible apply Kept.upd
    | intro _
    | with_reducible rfl
    | with_reducible exact Nat.le_refl _
    | exact Nat.le_succ _)

theorem State.entryWork_kept {lim : Nat} {org : State} {s : State} (h : Kept lim org s) (c : Cmd) (r : UpdRun) (ix : Nat) (e : UEntry) (w : Tensor) (o : EntryOut) :
    Kept lim org (State.entryWork s c r ix e w o) := by
  unfold State.entryWork
  try dsimp only
  repeat' (first
    | with_reducible assumption
    | dsimp only
    | split
    | with_reducible apply State.byTinker_kept
    | with_reducible apply State.writeEntry_kept
    | with_reducible apply State.countEntry_kept
    | with_reducible apply State.count_kept
    | with_reducible apply State.setCmd_kept)

theorem execUpdateEntry_kept {lim : Nat} {org : State} {s : State} (h : Kept lim org s) (source : Nat) (tag : Nat) (tinker : Nat) :
    KeptOut lim org (execUpdateEntry source tag tinker s) := by
  unfold execUpdateEntry
  try dsimp only
  repeat' (first
    | with_reducible assumption
    | dsimp only
    | split
    | with_reducible apply State.byTinker_kept
    | with_reducible apply State.setCmd_kept
    | with_reducible apply State.scrambleRanges_kept
    | with_reducible apply State.notePoison_kept
    | with_reducible apply State.moving_kept
    | with_reducible apply State.entryWork_kept
    | with_reducible apply Kept.foldl
    | with_reducible apply KeptOut.next
    | with_reducible apply KeptOut.fault
    | with_reducible apply Kept.upd
    | intro _
    | with_reducible rfl)

theorem execUpdateRunCommit_kept {lim : Nat} {org : State} {s : State} (h : Kept lim org s) (source : Nat) (tag : Nat) :
    KeptOut lim org (execUpdateRunCommit source tag s) := by
  unfold execUpdateRunCommit
  try dsimp only
  repeat' (first
    | with_reducible assumption
    | dsimp only
    | split
    | with_reducible apply State.endUpdate_kept
    | with_reducible apply Kept.foldl
    | with_reducible apply KeptOut.next)

theorem paramWrite_kept {lim : Nat} {org : State} {s : State} (h : Kept lim org s) (q : Req) :
    Verdict.Kept lim org (paramWrite q s) := by
  unfold paramWrite
  try dsimp only
  repeat' (first
    | with_reducible assumption
    | dsimp only
    | split
    | with_reducible apply refuse_kept
    | with_reducible apply Kept.foldl
    | with_reducible apply Verdict.Kept.done
    | with_reducible apply Verdict.Kept.accept)

theorem State.pwWork_kept {lim : Nat} {org : State} {s : State} (h : Kept lim org s) (c : Cmd) (w : Tensor) :
    Kept lim org (State.pwWork s c w) := by
  unfold State.pwWork
  try dsimp only
  repeat' (first
    | with_reducible assumption
    | dsimp only
    | split
    | with_reducible apply State.byTinker_kept
    | with_reducible apply State.putCodes_kept
    | with_reducible apply State.putCopy_kept
    | with_reducible apply State.completeGeneric_kept
    | with_reducible apply State.count_kept)

theorem execParamWriteStart_kept {lim : Nat} {org : State} {s : State} (h : Kept lim org s) (source : Nat) (tag : Nat) :
    KeptOut lim org (execParamWriteStart source tag s) := by
  unfold execParamWriteStart
  try dsimp only
  repeat' (first
    | with_reducible assumption
    | dsimp only
    | split
    | with_reducible apply State.completeGeneric_kept
    | with_reducible apply State.startCmd_kept
    | with_reducible apply State.moving_kept
    | with_reducible apply State.pwWork_kept
    | with_reducible apply Kept.foldl
    | with_reducible apply KeptOut.next
    | with_reducible apply KeptOut.fault
    | with_reducible apply Kept.upd
    | intro _
    | with_reducible rfl)

theorem State.openBytes_kept {lim : Nat} {org : State} {s : State} (h : Kept lim org s) (a : Nat) (bs : List Byte) :
    Kept lim org (State.openBytes s a bs).2 := by
  unfold State.openBytes
  split
  · exact Kept.upd h rfl rfl (Nat.le_refl _) (Nat.le_refl _) (Nat.le_refl _) rfl rfl rfl (Nat.le_add_right _ _) (Nat.le_refl _) (Nat.le_refl _) (Nat.le_refl _) (Nat.le_refl _)
  · exact h

theorem State.readPiece_kept {lim : Nat} {org : State} {s : State} (h : Kept lim org s) (t : Tensor) (x : Nat × Nat) :
    Kept lim org (State.readPiece s t x).2 := by
  unfold State.readPiece
  try dsimp only
  repeat' (first
    | with_reducible assumption
    | dsimp only
    | split
    | with_reducible apply State.openBytes_kept
    | with_reducible apply State.noteRead_kept)

theorem State.bufferPiece_kept {lim : Nat} {org : State} {s : State} (h : Kept lim org s) (x : Nat × Nat) :
    Kept lim org (State.bufferPiece s x) := by
  unfold State.bufferPiece
  try dsimp only
  repeat' (first
    | with_reducible assumption
    | dsimp only
    | split
    | with_reducible apply State.readPiece_kept
    | with_reducible apply State.freeNat_kept
    | with_reducible apply State.setCmd_kept
    | with_reducible apply State.count_kept)

theorem execCopyBeforeWrite_kept {lim : Nat} {org : State} {s : State} (h : Kept lim org s) (tensor : Nat) (piece : Nat) :
    KeptOut lim org (execCopyBeforeWrite tensor piece s) := by
  unfold execCopyBeforeWrite
  try dsimp only
  repeat' (first
    | with_reducible assumption
    | dsimp only
    | split
    | with_reducible apply State.moving_kept
    | with_reducible apply State.bufferPiece_kept
    | with_reducible apply Kept.foldl
    | with_reducible apply KeptOut.next
    | with_reducible apply KeptOut.fault
    | with_reducible apply Kept.upd
    | intro _
    | with_reducible rfl)

theorem State.bufferNow_kept {lim : Nat} {org : State} {s : State} (h : Kept lim org s) (x : Nat × Nat) :
    Kept lim org (State.bufferNow s x) := by
  unfold State.bufferNow
  try dsimp only
  repeat' (first
    | with_reducible assumption
    | dsimp only
    | split
    | with_reducible apply State.charge_kept
    | with_reducible apply State.bufferPiece_kept
    | with_reducible apply Kept.upd
    | intro _
    | with_reducible rfl
    | with_reducible exact Nat.le_refl _)

theorem State.loseRanges_kept {lim : Nat} {org : State} {s : State} (h : Kept lim org s) (rs : List (Nat × Nat)) :
    Kept lim org (State.loseRanges s rs) := by
  unfold State.loseRanges
  try dsimp only
  repeat' (first
    | with_reducible assumption
    | dsimp only
    | split
    | with_reducible apply State.bufferNow_kept
    | with_reducible apply State.byTinker_kept
    | with_reducible apply State.bufferPiece_kept
    | with_reducible apply State.scrambleRanges_kept
    | with_reducible apply State.write_kept
    | with_reducible apply State.poisonUnits_kept
    | with_reducible apply Kept.foldl
    | with_reducible apply Kept.foldlFst
    | with_reducible apply Kept.foldlSnd
    | with_reducible apply Kept.upd
    | intro _
    | with_reducible rfl)

theorem State.tinkerFailCmd_kept {lim : Nat} {org : State} {s : State} (h : Kept lim org s) (served : List Nat) (c : Cmd) :
    Kept lim org (State.tinkerFailCmd s served c) := by
  unfold State.tinkerFailCmd
  try dsimp only
  repeat' (first
    | with_reducible assumption
    | dsimp only
    | split
    | with_reducible apply State.endUpdate_kept
    | with_reducible apply State.loseRanges_kept
    | with_reducible apply State.setCmd_kept
    | with_reducible apply State.completeGeneric_kept)

theorem State.retireTinker_kept {lim : Nat} {org : State} {s : State} (h : Kept lim org s) (t : Nat) :
    Kept lim org (State.retireTinker s t) := by
  unfold State.retireTinker
  try dsimp only
  repeat' (first
    | with_reducible assumption
    | dsimp only
    | split
    | with_reducible apply State.tinkerFailCmd_kept
    | with_reducible apply State.degradeCheck_kept
    | with_reducible apply State.spareEvent_kept
    | with_reducible apply Kept.foldl
    | with_reducible apply Kept.foldlFst
    | with_reducible apply Kept.foldlSnd
    | with_reducible apply Kept.upd
    | intro _
    | with_reducible rfl)

theorem execTinkerHardFault_kept {lim : Nat} {org : State} {s : State} (h : Kept lim org s) (tinker : Nat) :
    KeptOut lim org (execTinkerHardFault tinker s) := by
  unfold execTinkerHardFault
  try dsimp only
  repeat' (first
    | with_reducible assumption
    | dsimp only
    | split
    | with_reducible apply State.retireTinker_kept
    | with_reducible apply State.raiseFault_kept
    | with_reducible apply Kept.foldl
    | with_reducible apply KeptOut.next)

end Sys2Proof.Machine
end

