-- ==== Sys2Proof/Laws/KeptPartner.lean ====
section
/-!
SUPPORT. The functions of Machine/Partner.lean keep a sound block sound, and undo nothing that no command undoes (`Kept`).
-/
namespace Sys2Proof.Machine

theorem State.setPslot_kept {lim : Nat} {org : State} {s : State} (h : Kept lim org s) (k : Nat) (x : PartnerSlot) :
    Kept lim org (State.setPslot s k x) := by
  unfold State.setPslot
  try dsimp only
  repeat' (first
    | with_reducible assumption
    | dsimp only
    | split
    | with_reducible apply Kept.foldl
    | with_reducible apply Kept.upd
    | intro _
    | with_reducible rfl)

theorem State.dropFilling_kept {lim : Nat} {org : State} {s : State} (h : Kept lim org s)  :
    Kept lim org (State.dropFilling s) := by
  unfold State.dropFilling
  try dsimp only
  repeat' (first
    | with_reducible assumption
    | dsimp only
    | split
    | with_reducible apply Kept.foldl
    | with_reducible apply Kept.upd
    | intro _
    | with_reducible rfl)

theorem State.abortSecure_kept {lim : Nat} {org : State} {s : State} (h : Kept lim org s) (c : Cmd) (r : SecureRun) (cause : Nat) :
    Kept lim org (State.abortSecure s c r cause) := by
  unfold State.abortSecure
  try dsimp only
  repeat' (first
    | with_reducible assumption
    | dsimp only
    | split
    | with_reducible apply State.count_kept
    | with_reducible apply State.complete_kept)

theorem State.endServe_kept {lim : Nat} {org : State} {s : State} (h : Kept lim org s) (c : Cmd) (r : ServeRun) (cause : Nat) :
    Kept lim org (State.endServe s c r cause) := by
  unfold State.endServe
  try dsimp only
  repeat' (first
    | with_reducible assumption
    | dsimp only
    | split
    | with_reducible apply State.complete_kept)

theorem State.endSecures_kept {lim : Nat} {org : State} {s : State} (h : Kept lim org s) (cause : Nat) :
    Kept lim org (State.endSecures s cause) := by
  unfold State.endSecures
  try dsimp only
  repeat' (first
    | with_reducible assumption
    | dsimp only
    | split
    | with_reducible apply State.abortSecure_kept
    | with_reducible apply Kept.foldl
    | with_reducible apply Kept.foldlFst
    | with_reducible apply Kept.foldlSnd
    | with_reducible apply Kept.upd
    | intro _
    | with_reducible rfl)

theorem State.bindStart_kept {lim : Nat} {org : State} {s : State} (h : Kept lim org s) (c : Cmd) :
    Kept lim org (State.bindStart s c) := by
  unfold State.bindStart
  try dsimp only
  repeat' (first
    | with_reducible assumption
    | dsimp only
    | split
    | with_reducible apply State.watchPeer_kept
    | with_reducible apply State.setCmd_kept
    | with_reducible apply State.sendFlit_kept
    | with_reducible apply Kept.foldl
    | with_reducible apply Kept.upd
    | intro _
    | with_reducible rfl)

theorem pairSet_kept {lim : Nat} {org : State} {s : State} (h : Kept lim org s) (q : Req) :
    Verdict.Kept lim org (pairSet q s) := by
  unfold pairSet
  try dsimp only
  repeat' (first
    | with_reducible assumption
    | dsimp only
    | split
    | with_reducible apply refuse_kept
    | with_reducible apply State.abortSecure_kept
    | with_reducible apply State.sendFlit_kept
    | with_reducible apply okReply_kept
    | with_reducible apply State.refreshFlags_kept
    | with_reducible apply Kept.foldl
    | with_reducible apply Kept.foldlFst
    | with_reducible apply Kept.foldlSnd
    | with_reducible apply Verdict.Kept.done
    | with_reducible apply Verdict.Kept.accept
    | with_reducible apply Verdict.Kept.await
    | with_reducible apply Kept.upd
    | intro _
    | with_reducible rfl)

theorem execBindTimeout_kept {lim : Nat} {org : State} {s : State} (h : Kept lim org s) (source : Nat) (tag : Nat) :
    KeptOut lim org (execBindTimeout source tag s) := by
  unfold execBindTimeout
  try dsimp only
  repeat' (first
    | with_reducible assumption
    | dsimp only
    | split
    | with_reducible apply State.reach_kept
    | with_reducible apply State.completeGeneric_kept
    | with_reducible apply Kept.foldl
    | with_reducible apply KeptOut.next
    | with_reducible apply KeptOut.fault
    | with_reducible apply Kept.upd
    | intro _
    | with_reducible rfl)

theorem secure_kept {lim : Nat} {org : State} {s : State} (h : Kept lim org s) (q : Req) :
    Verdict.Kept lim org (secure q s) := by
  unfold secure
  try dsimp only
  repeat' (first
    | with_reducible assumption
    | dsimp only
    | split
    | with_reducible apply refuse_kept
    | with_reducible apply Kept.foldl
    | with_reducible apply Verdict.Kept.done
    | with_reducible apply Verdict.Kept.accept
    | with_reducible apply Verdict.Kept.await
    | with_reducible apply Kept.upd
    | intro _
    | with_reducible rfl)

theorem State.sendBytes_kept {lim : Nat} {org s : State} (h : Kept lim org s) (src : Option Nat) (dest tc cid msg tidx arg k off : Nat)
    (bs : List Byte) (bad : List Nat) : Kept lim org (State.sendBytes s src dest tc cid msg tidx arg k off bs bad) := by
  induction k generalizing s off bs bad with
  | zero => exact h
  | succ k ih =>
    simp only [State.sendBytes]
    split
    · exact h
    · exact ih (State.sendFlitFrom_kept h _ _ _ _ _ _ _) _ _ _

theorem execSecureCut_kept {lim : Nat} {org : State} {s : State} (h : Kept lim org s) (source : Nat) (tag : Nat) :
    KeptOut lim org (execSecureCut source tag s) := by
  have cut : ∀ c : Cmd, Kept lim org { s.setCmd c with written := [] } := fun c => by
    apply Kept.upd (State.setCmd_kept h c) <;> first | rfl | exact Nat.le_refl _
  unfold execSecureCut
  try dsimp only
  repeat' (first
    | with_reducible assumption
    | dsimp only
    | split
    | exact cut _
    | with_reducible apply State.abortSecure_kept
    | with_reducible apply State.setCmd_kept
    | with_reducible apply State.sendBytes_kept
    | with_reducible apply Kept.foldl
    | with_reducible apply KeptOut.next)

theorem State.sendPiece_kept {lim : Nat} {org : State} {s : State} (h : Kept lim org s) (c : Cmd) (r : SecureRun) (h : Nat) (p : CowPiece) :
    Kept lim org (State.sendPiece s c r h p) := by
  unfold State.sendPiece
  try dsimp only
  repeat' (first
    | with_reducible assumption
    | dsimp only
    | split
    | with_reducible apply State.count_kept
    | with_reducible apply State.sendBytes_kept
    | with_reducible apply State.setCmd_kept
    | with_reducible apply State.sendFlit_kept)

theorem execSecurePieceSend_kept {lim : Nat} {org s : State} (h : Kept lim org s) (source tag : Nat) :
    KeptOut lim org (execSecurePieceSend source tag s) := by
  have send : ∀ (c : Cmd) (r1 : SecureRun) (d : Nat) (t : Tensor) (x : Nat × Nat) (ms : Moves),
      Kept lim org (s.moving .secure ms (fun s => (s.readPiece t x).2.sendPiece c r1 d (s.readPiece t x).1)) := fun _ _ _ _ _ _ =>
    State.moving_kept h _ _ _ (fun s ht => State.sendPiece_kept (State.readPiece_kept ht _ _) _ _ _ _)
  unfold execSecurePieceSend
  repeat' (first
    | exact KeptOut.next h
    | exact KeptOut.next (State.sendPiece_kept (State.openBytes_kept h _ _) _ _ _ _)
    | exact KeptOut.next (send _ _ _ _ _ _)
    | split)

theorem State.answer_kept {lim : Nat} {org : State} {s : State} (h : Kept lim org s) (f : Flit) (tc : Nat) (msg : Nat) (arg : Nat) (data : List Byte) :
    Kept lim org (State.answer s f tc msg arg data) := by
  unfold State.answer
  try dsimp only
  repeat' (first
    | with_reducible assumption
    | dsimp only
    | split
    | with_reducible apply State.sendFlitFrom_kept
    | with_reducible apply State.sendFlit_kept)

theorem State.onPairReq_kept {lim : Nat} {org : State} {s : State} (h : Kept lim org s) (f : Flit) :
    Kept lim org (State.onPairReq s f) := by
  unfold State.onPairReq
  try dsimp only
  repeat' (first
    | with_reducible assumption
    | dsimp only
    | split
    | with_reducible apply State.answer_kept
    | with_reducible apply State.dropFilling_kept
    | with_reducible apply State.watchPeer_kept
    | with_reducible apply State.refreshFlags_kept
    | with_reducible apply Kept.foldl
    | with_reducible apply Kept.upd
    | intro _
    | with_reducible rfl)

theorem State.onPairAck_kept {lim : Nat} {org : State} {s : State} (h : Kept lim org s) (f : Flit) :
    Kept lim org (State.onPairAck s f) := by
  unfold State.onPairAck
  try dsimp only
  repeat' (first
    | with_reducible assumption
    | dsimp only
    | split
    | with_reducible apply State.completeGeneric_kept
    | with_reducible apply State.refreshFlags_kept
    | with_reducible apply Kept.foldl
    | with_reducible apply Kept.upd
    | intro _
    | with_reducible rfl)

theorem State.onUnbind_kept {lim : Nat} {org : State} {s : State} (h : Kept lim org s) (f : Flit) :
    Kept lim org (State.onUnbind s f) := by
  unfold State.onUnbind
  try dsimp only
  repeat' (first
    | with_reducible assumption
    | dsimp only
    | split
    | with_reducible apply State.refreshFlags_kept
    | with_reducible apply Kept.foldl
    | with_reducible apply Kept.upd
    | intro _
    | with_reducible rfl)

theorem State.onFeedUpdate_kept {lim : Nat} {org : State} {s : State} (h : Kept lim org s) (f : Flit) :
    Kept lim org (State.onFeedUpdate s f) := by
  unfold State.onFeedUpdate
  try dsimp only
  repeat' (first
    | with_reducible assumption
    | dsimp only
    | split
    | with_reducible apply State.refreshFlags_kept
    | with_reducible apply Kept.foldl
    | with_reducible apply Kept.upd
    | intro _
    | with_reducible rfl)

theorem State.endCopy_kept {lim : Nat} {org : State} {s : State} (h : Kept lim org s) (cid : Nat) :
    Kept lim org (State.endCopy s cid) := by
  unfold State.endCopy
  try dsimp only
  repeat' (first
    | with_reducible assumption
    | dsimp only
    | split
    | with_reducible apply Kept.foldl
    | with_reducible apply Kept.upd
    | intro _
    | with_reducible rfl)

theorem State.openSlot_kept {lim : Nat} {org : State} {s : State} (h : Kept lim org s) (cid : Nat) :
    Kept lim org (State.openSlot s cid).2 := by
  unfold State.openSlot
  try dsimp only
  repeat' (first
    | with_reducible assumption
    | dsimp only
    | split
    | with_reducible apply State.setPslot_kept)

theorem State.land_kept {lim : Nat} {org : State} {s : State} (h : Kept lim org s) (a : Nat) (f : Flit) :
    Kept lim org (State.land s a f) := by
  unfold State.land
  try dsimp only
  repeat' (first
    | with_reducible assumption
    | dsimp only
    | split
    | with_reducible apply State.poisonUnits_kept
    | with_reducible apply State.write_kept
    | with_reducible apply State.charge_kept)

theorem State.gotRange_kept {lim : Nat} {org : State} {s : State} (h : Kept lim org s) (k : Nat) (i : Nat) (off : Nat) (n : Nat) :
    Kept lim org (State.gotRange s k i off n) := by
  unfold State.gotRange
  try dsimp only
  repeat' (first
    | with_reducible assumption
    | dsimp only
    | split
    | with_reducible apply State.setPslot_kept)

theorem State.putPiece_kept {lim : Nat} {org : State} {s : State} (h : Kept lim org s) (k : Nat) (f : Flit) :
    Kept lim org (State.putPiece s k f) := by
  unfold State.putPiece
  try dsimp only
  repeat' (first
    | with_reducible assumption
    | dsimp only
    | split
    | with_reducible apply State.gotRange_kept
    | with_reducible apply State.land_kept)

theorem State.slotDone_kept {lim : Nat} {org : State} {s : State} (h : Kept lim org s) (k : Nat) (src : Nat) :
    Kept lim org (State.slotDone s k src) := by
  unfold State.slotDone
  try dsimp only
  repeat' (first
    | with_reducible assumption
    | dsimp only
    | split
    | with_reducible apply State.endCopy_kept
    | with_reducible apply State.setPslot_kept
    | with_reducible apply State.sendFlit_kept)

theorem State.onSlotBegin_kept {lim : Nat} {org : State} {s : State} (h : Kept lim org s) (f : Flit) :
    Kept lim org (State.onSlotBegin s f) := by
  unfold State.onSlotBegin
  try dsimp only
  repeat' (first
    | with_reducible assumption
    | dsimp only
    | split
    | with_reducible apply State.openSlot_kept
    | with_reducible apply State.gotRange_kept
    | with_reducible apply State.land_kept
    | with_reducible apply State.setPslot_kept
    | with_reducible apply State.slotDone_kept
    | with_reducible apply State.putPiece_kept
    | with_reducible apply Kept.foldl
    | with_reducible apply Kept.foldlFst
    | with_reducible apply Kept.foldlSnd
    | with_reducible apply Kept.upd
    | intro _
    | with_reducible rfl)

theorem State.onPiece_kept {lim : Nat} {org : State} {s : State} (h : Kept lim org s) (f : Flit) :
    Kept lim org (State.onPiece s f) := by
  unfold State.onPiece
  try dsimp only
  repeat' (first
    | with_reducible assumption
    | dsimp only
    | split
    | with_reducible apply State.openSlot_kept
    | with_reducible apply State.slotDone_kept
    | with_reducible apply State.putPiece_kept
    | with_reducible apply State.setPslot_kept)

theorem State.onSlotEnd_kept {lim : Nat} {org : State} {s : State} (h : Kept lim org s) (f : Flit) :
    Kept lim org (State.onSlotEnd s f) := by
  unfold State.onSlotEnd
  try dsimp only
  repeat' (first
    | with_reducible assumption
    | dsimp only
    | split
    | with_reducible apply State.openSlot_kept
    | with_reducible apply State.slotDone_kept
    | with_reducible apply State.setPslot_kept)

theorem State.onSecured_kept {lim : Nat} {org : State} {s : State} (h : Kept lim org s) (f : Flit) :
    Kept lim org (State.onSecured s f) := by
  unfold State.onSecured
  try dsimp only
  repeat' (first
    | with_reducible assumption
    | dsimp only
    | split
    | with_reducible apply State.count_kept
    | with_reducible apply State.complete_kept
    | with_reducible apply Kept.foldl
    | with_reducible apply Kept.upd
    | intro _
    | with_reducible rfl)

theorem State.onSecureCancel_kept {lim : Nat} {org : State} {s : State} (h : Kept lim org s) (f : Flit) :
    Kept lim org (State.onSecureCancel s f) := by
  unfold State.onSecureCancel
  try dsimp only
  repeat' (first
    | with_reducible assumption
    | dsimp only
    | split
    | with_reducible apply State.endCopy_kept
    | with_reducible apply State.abortSecure_kept
    | with_reducible apply Kept.foldl
    | with_reducible apply Kept.upd
    | intro _
    | with_reducible rfl)

theorem restoreServe_kept {lim : Nat} {org : State} {s : State} (h : Kept lim org s) (q : Req) :
    Verdict.Kept lim org (restoreServe q s) := by
  unfold restoreServe
  try dsimp only
  repeat' (first
    | with_reducible assumption
    | dsimp only
    | split
    | with_reducible apply refuse_kept
    | with_reducible apply Kept.foldl
    | with_reducible apply Verdict.Kept.done
    | with_reducible apply Verdict.Kept.accept)

theorem State.serveNext_kept {lim : Nat} {org : State} {s : State} (h : Kept lim org s) (c : Cmd) (r : ServeRun) :
    Kept lim org (State.serveNext s c r) := by
  unfold State.serveNext
  try dsimp only
  repeat' (first
    | with_reducible assumption
    | dsimp only
    | split
    | with_reducible apply State.sendFlitFrom_kept
    | with_reducible apply State.sendBytes_kept
    | with_reducible apply State.noteRead_kept
    | with_reducible apply State.sendFlit_kept
    | with_reducible apply State.setCmd_kept
    | with_reducible apply State.count_kept)

theorem execRestoreTargetSilent_kept {lim : Nat} {org : State} {s : State} (h : Kept lim org s) (source : Nat) (tag : Nat) :
    KeptOut lim org (execRestoreTargetSilent source tag s) := by
  unfold execRestoreTargetSilent
  try dsimp only
  repeat' (first
    | with_reducible assumption
    | dsimp only
    | split
    | with_reducible apply State.endServe_kept
    | with_reducible apply State.reach_kept
    | with_reducible apply Kept.foldl
    | with_reducible apply KeptOut.next)

theorem State.setServe_kept {lim : Nat} {org : State} {s : State} (h : Kept lim org s) (x : TargetServe) :
    Kept lim org (State.setServe s x) := by
  unfold State.setServe
  try dsimp only
  repeat' (first
    | with_reducible assumption
    | dsimp only
    | split
    | with_reducible apply Kept.foldl
    | with_reducible apply Kept.upd
    | intro _
    | with_reducible rfl)

theorem State.dropServe_kept {lim : Nat} {org : State} {s : State} (h : Kept lim org s) (holder : Nat) (id : Nat) :
    Kept lim org (State.dropServe s holder id) := by
  unfold State.dropServe
  try dsimp only
  repeat' (first
    | with_reducible assumption
    | dsimp only
    | split
    | with_reducible apply Kept.foldl
    | with_reducible apply Kept.upd
    | intro _
    | with_reducible rfl)

theorem State.spoilServed_kept {lim : Nat} {org : State} {s : State} (h : Kept lim org s) (h : Nat) (gs : List (Nat × Nat)) :
    Kept lim org (State.spoilServed s h gs) := by
  unfold State.spoilServed
  try dsimp only
  repeat' (first
    | with_reducible assumption
    | dsimp only
    | split
    | with_reducible apply State.scrambleRanges_kept
    | with_reducible apply State.untag_kept
    | with_reducible exact Nat.le_refl _)

theorem State.undoServe_kept {lim : Nat} {org s : State} (h : Kept lim org s) (x : TargetServe) : Kept lim org (State.undoServe s x) := by
  unfold State.undoServe
  try dsimp only
  repeat' (first
    | with_reducible assumption
    | split
    | with_reducible apply State.spoilServed_kept
    | with_reducible apply State.dropServe_kept)

theorem State.serveOfFlit_kept {lim : Nat} {org s : State} (h : Kept lim org s) (f : Flit) : Kept lim org (State.serveOfFlit s f).2 := by
  unfold State.serveOfFlit
  dsimp only
  split
  · exact h
  · split
    · exact State.undoServe_kept h _
    · exact h

theorem State.serveDone_kept {lim : Nat} {org : State} {s : State} (h : Kept lim org s) (f : Flit) (x : TargetServe) :
    Kept lim org (State.serveDone s f x) := by
  unfold State.serveDone
  try dsimp only
  repeat' (first
    | with_reducible assumption
    | dsimp only
    | split
    | with_reducible apply State.answer_kept
    | with_reducible apply State.retag_kept
    | with_reducible apply State.dropServe_kept
    | with_reducible apply State.setServe_kept)

theorem State.onRestoreData_kept {lim : Nat} {org : State} {s : State} (h : Kept lim org s) (f : Flit) :
    Kept lim org (State.onRestoreData s f) := by
  unfold State.onRestoreData
  try dsimp only
  repeat' (first
    | with_reducible assumption
    | dsimp only
    | split
    | with_reducible apply State.serveOfFlit_kept
    | with_reducible apply State.answer_kept
    | with_reducible apply State.setServe_kept
    | with_reducible apply State.count_kept
    | with_reducible apply State.untag_kept
    | with_reducible apply State.land_kept
    | with_reducible apply State.serveDone_kept)

theorem State.onRestoreEnd_kept {lim : Nat} {org : State} {s : State} (h : Kept lim org s) (f : Flit) :
    Kept lim org (State.onRestoreEnd s f) := by
  unfold State.onRestoreEnd
  try dsimp only
  repeat' (first
    | with_reducible assumption
    | dsimp only
    | split
    | with_reducible apply State.serveDone_kept)

theorem State.onRestoreAck_kept {lim : Nat} {org : State} {s : State} (h : Kept lim org s) (f : Flit) :
    Kept lim org (State.onRestoreAck s f) := by
  unfold State.onRestoreAck
  try dsimp only
  repeat' (first
    | with_reducible assumption
    | dsimp only
    | split
    | with_reducible apply State.endServe_kept)

theorem State.declareLost_kept {lim : Nat} {org : State} {s : State} (h : Kept lim org s) (a : Nat) :
    Kept lim org (State.declareLost s a) := by
  unfold State.declareLost
  try dsimp only
  repeat' (first
    | with_reducible assumption
    | dsimp only
    | split
    | with_reducible apply State.raiseAttn_kept
    | with_reducible apply State.setPeer_kept
    | with_reducible apply State.count_kept
    | with_reducible apply State.failColl_kept
    | with_reducible apply State.endServe_kept
    | with_reducible apply State.endSecures_kept
    | with_reducible apply State.dropFilling_kept
    | with_reducible apply State.refreshFlags_kept
    | with_reducible apply Kept.foldl
    | with_reducible apply Kept.foldlFst
    | with_reducible apply Kept.foldlSnd
    | with_reducible apply Kept.upd
    | intro _
    | with_reducible rfl)

theorem execPeerLossTimeout_kept {lim : Nat} {org : State} {s : State} (h : Kept lim org s) (peer : Nat) :
    KeptOut lim org (execPeerLossTimeout peer s) := by
  unfold execPeerLossTimeout
  try dsimp only
  repeat' (first
    | with_reducible assumption
    | dsimp only
    | split
    | with_reducible apply State.declareLost_kept
    | with_reducible apply State.reach_kept
    | with_reducible apply Kept.foldl
    | with_reducible apply KeptOut.next)

theorem execPeerKeepaliveSend_kept {lim : Nat} {org : State} {s : State} (h : Kept lim org s)  :
    KeptOut lim org (execPeerKeepaliveSend s) := by
  unfold execPeerKeepaliveSend
  try dsimp only
  repeat' (first
    | with_reducible assumption
    | dsimp only
    | split
    | with_reducible apply State.reach_kept
    | with_reducible apply State.sendPeerKeepalive_kept
    | with_reducible apply Kept.foldl
    | with_reducible apply Kept.foldlFst
    | with_reducible apply Kept.foldlSnd
    | with_reducible apply KeptOut.next
    | with_reducible apply KeptOut.fault
    | with_reducible apply Kept.upd
    | intro _
    | with_reducible rfl)

theorem execPeerKeepalive_kept {lim : Nat} {org : State} {s : State} (h : Kept lim org s) (f : Flit) :
    KeptOut lim org (execPeerKeepalive f s) := by
  unfold execPeerKeepalive
  try dsimp only
  repeat' (first
    | with_reducible assumption
    | dsimp only
    | split
    | with_reducible apply State.heard_kept
    | with_reducible apply State.passPeerKeepalive_kept
    | with_reducible apply State.setPeer_kept
    | with_reducible apply State.declareLost_kept
    | with_reducible apply Kept.foldl
    | with_reducible apply KeptOut.next)

end Sys2Proof.Machine
end

