-- ==== Sys2Proof/Laws/KeptDeliver.lean ====
section
/-!
SUPPORT. The functions of Machine/Deliver.lean keep a sound block sound, and undo nothing that no command undoes (`Kept`).
-/
namespace Sys2Proof.Machine

theorem State.pairFlit_kept {lim : Nat} {org : State} {s : State} (h : Kept lim org s) (f : Flit) :
    Kept lim org (State.pairFlit s f) := by
  unfold State.pairFlit
  try dsimp only
  repeat' (first
    | with_reducible assumption
    | dsimp only
    | split
    | with_reducible apply State.onPairReq_kept
    | with_reducible apply State.onPairAck_kept
    | with_reducible apply State.onUnbind_kept
    | with_reducible apply State.onFeedUpdate_kept
    | with_reducible apply State.onSlotBegin_kept
    | with_reducible apply State.onPiece_kept
    | with_reducible apply State.onSlotEnd_kept
    | with_reducible apply State.onSecured_kept
    | with_reducible apply State.onSecureCancel_kept
    | with_reducible apply State.onRestoreData_kept
    | with_reducible apply State.onRestoreEnd_kept
    | with_reducible apply State.onRestoreAck_kept
    | with_reducible apply State.count_kept)

theorem State.deliver_kept {lim : Nat} {org : State} {s : State} (h : Kept lim org s) (link : Option Nat) (f : Flit) :
    Kept lim org (State.deliver s link f) := by
  unfold State.deliver
  try dsimp only
  repeat' (first
    | with_reducible assumption
    | dsimp only
    | split
    | with_reducible apply State.crewFlit_kept
    | with_reducible apply State.freeBuffer_kept
    | with_reducible apply State.pairFlit_kept)

theorem State.settle_kept {lim : Nat} {org s : State} (h : Kept lim org s) (k : Nat) : Kept lim org (State.settle k s) := by
  induction k generalizing s with
  | zero => exact h
  | succ k ih =>
    simp only [State.settle]
    split
    · exact h
    · refine ih (Kept.foldl _ _ ?_ (fun a x ha => State.deliver_kept ha none x))
      exact Kept.upd h rfl rfl (Nat.le_refl _) (Nat.le_refl _) (Nat.le_refl _) rfl rfl rfl (Nat.le_refl _) (Nat.le_refl _) (Nat.le_refl _) (Nat.le_refl _) (Nat.le_refl _)

theorem State.arrives_kept {lim : Nat} {org : State} {s : State} (h : Kept lim org s) (f : Flit) :
    Kept lim org (State.arrives s f) := by
  unfold State.arrives
  try dsimp only
  repeat' (first
    | with_reducible assumption
    | dsimp only
    | split
    | with_reducible apply State.dataPassed_kept
    | with_reducible apply Kept.upd
    | intro _
    | with_reducible rfl
    | with_reducible exact Nat.le_refl _)

theorem settled_kept {lim : Nat} {org : State} {s : State} (h : Kept lim org s)  :
    KeptOut lim org (settled s) := by
  unfold settled
  try dsimp only
  repeat' (first
    | with_reducible assumption
    | dsimp only
    | split
    | with_reducible apply State.settle_kept
    | with_reducible apply Kept.foldl
    | with_reducible apply KeptOut.next)

theorem State.gateFlit_kept {lim : Nat} {org : State} {s : State} (h : Kept lim org s) (link : Option Nat) (f : Flit) :
    Kept lim org (State.gateFlit s link f) := by
  unfold State.gateFlit
  try dsimp only
  repeat' (first
    | with_reducible assumption
    | dsimp only
    | split
    | with_reducible apply State.atCeiling_kept
    | with_reducible apply State.waitAt_kept
    | with_reducible apply Kept.upd
    | intro _
    | with_reducible rfl
    | with_reducible exact Nat.le_refl _)

theorem State.admitFlit_kept {lim : Nat} {org : State} {s : State} (h : Kept lim org s) (link : Option Nat) (f : Flit) :
    Kept lim org (State.admitFlit s link f) := by
  unfold State.admitFlit
  try dsimp only
  repeat' (first
    | with_reducible assumption
    | dsimp only
    | split
    | with_reducible apply State.requestOn_kept
    | with_reducible apply State.deliver_kept
    | with_reducible apply State.forward_kept
    | with_reducible apply State.freeBuffer_kept
    | with_reducible exact Nat.le_refl _)

theorem State.takeFlit_kept {lim : Nat} {org : State} {s : State} (h : Kept lim org s) (link : Option Nat) (f : Flit) :
    Kept lim org (State.takeFlit s link f) := by
  unfold State.takeFlit
  try dsimp only
  repeat' (first
    | with_reducible assumption
    | dsimp only
    | split
    | with_reducible apply State.gateFlit_kept
    | with_reducible apply State.admitFlit_kept
    | with_reducible exact Nat.le_refl _)

theorem State.drainFlits_kept {lim : Nat} {org : State} {s : State} (h : Kept lim org s) :
    Kept lim org (State.drainFlits s) := by
  unfold State.drainFlits
  try dsimp only
  repeat' (first
    | with_reducible assumption
    | dsimp only
    | split
    | with_reducible apply State.takeFlit_kept
    | with_reducible apply State.settle_kept
    | with_reducible apply Kept.foldl
    | with_reducible apply Kept.foldlFst
    | with_reducible apply Kept.foldlSnd
    | with_reducible apply Kept.upd
    | intro _
    | with_reducible rfl
    | with_reducible exact Nat.le_refl _)

theorem took_kept {lim : Nat} {org s : State} (h : Kept lim org s) (f : Flit) (g : State → State)
    (hg : ∀ t, Kept lim org t → Kept lim org (g t)) : KeptOut lim org (took f g s) := by
  have h1 := State.heard_kept (State.arrives_kept h f) f.src false
  unfold took
  refine settled_kept ?_
  split
  · exact State.gateFlit_kept h1 _ _
  · exact hg _ h1

theorem State.nakOnce_kept {lim : Nat} {org : State} {s : State} (h : Kept lim org s) (i : Nat) :
    Kept lim org (State.nakOnce s i) := by
  unfold State.nakOnce
  try dsimp only
  repeat' (first
    | with_reducible assumption
    | dsimp only
    | split
    | with_reducible apply State.pushCtrl_kept
    | with_reducible apply State.setLink_kept)

theorem execDataFlit_kept {lim : Nat} {org : State} {s : State} (h : Kept lim org s) (link : Nat) (lseq : Nat) (f : Flit) :
    KeptOut lim org (execDataFlit link lseq f s) := by
  unfold execDataFlit
  try dsimp only
  repeat' (first
    | with_reducible assumption
    | dsimp only
    | split
    | with_reducible apply State.arrives_kept
    | with_reducible apply State.dataPassed_kept
    | with_reducible apply State.takeFlit_kept
    | with_reducible apply State.nakOnce_kept
    | with_reducible apply State.count_kept
    | with_reducible apply State.setLink_kept
    | with_reducible apply State.pushCtrl_kept
    | with_reducible apply State.requestOn_kept
    | with_reducible apply settled_kept
    | with_reducible apply State.deliver_kept
    | with_reducible apply State.heard_kept
    | with_reducible apply State.freeBuffer_kept
    | with_reducible apply State.forward_kept
    | with_reducible apply Kept.foldl
    | with_reducible apply KeptOut.next
    | with_reducible rfl)

theorem execPairReq_kept {lim : Nat} {org : State} {s : State} (h : Kept lim org s) (f : Flit) :
    KeptOut lim org (execPairReq f s) := by
  unfold execPairReq
  try dsimp only
  repeat' (first
    | with_reducible assumption
    | dsimp only
    | split
    | with_reducible apply took_kept
    | with_reducible apply State.onPairReq_kept
    | with_reducible apply Kept.foldl
    | with_reducible apply KeptOut.next
    | with_reducible apply KeptOut.fault
    | with_reducible apply Kept.upd
    | intro _
    | with_reducible rfl)

theorem execPairAck_kept {lim : Nat} {org : State} {s : State} (h : Kept lim org s) (f : Flit) :
    KeptOut lim org (execPairAck f s) := by
  unfold execPairAck
  try dsimp only
  repeat' (first
    | with_reducible assumption
    | dsimp only
    | split
    | with_reducible apply took_kept
    | with_reducible apply State.onPairAck_kept
    | with_reducible apply Kept.foldl
    | with_reducible apply KeptOut.next
    | with_reducible apply KeptOut.fault
    | with_reducible apply Kept.upd
    | intro _
    | with_reducible rfl)

theorem execUnbind_kept {lim : Nat} {org : State} {s : State} (h : Kept lim org s) (f : Flit) :
    KeptOut lim org (execUnbind f s) := by
  unfold execUnbind
  try dsimp only
  repeat' (first
    | with_reducible assumption
    | dsimp only
    | split
    | with_reducible apply took_kept
    | with_reducible apply State.onUnbind_kept
    | with_reducible apply Kept.foldl
    | with_reducible apply KeptOut.next
    | with_reducible apply KeptOut.fault
    | with_reducible apply Kept.upd
    | intro _
    | with_reducible rfl)

theorem execFeedUpdate_kept {lim : Nat} {org : State} {s : State} (h : Kept lim org s) (f : Flit) :
    KeptOut lim org (execFeedUpdate f s) := by
  unfold execFeedUpdate
  try dsimp only
  repeat' (first
    | with_reducible assumption
    | dsimp only
    | split
    | with_reducible apply took_kept
    | with_reducible apply State.onFeedUpdate_kept
    | with_reducible apply Kept.foldl
    | with_reducible apply KeptOut.next
    | with_reducible apply KeptOut.fault
    | with_reducible apply Kept.upd
    | intro _
    | with_reducible rfl)

theorem execSlotBegin_kept {lim : Nat} {org : State} {s : State} (h : Kept lim org s) (f : Flit) :
    KeptOut lim org (execSlotBegin f s) := by
  unfold execSlotBegin
  try dsimp only
  repeat' (first
    | with_reducible assumption
    | dsimp only
    | split
    | with_reducible apply took_kept
    | with_reducible apply State.onSlotBegin_kept
    | with_reducible apply Kept.foldl
    | with_reducible apply KeptOut.next
    | with_reducible apply KeptOut.fault
    | with_reducible apply Kept.upd
    | intro _
    | with_reducible rfl)

theorem execPiece_kept {lim : Nat} {org : State} {s : State} (h : Kept lim org s) (f : Flit) :
    KeptOut lim org (execPiece f s) := by
  unfold execPiece
  try dsimp only
  repeat' (first
    | with_reducible assumption
    | dsimp only
    | split
    | with_reducible apply took_kept
    | with_reducible apply State.onPiece_kept
    | with_reducible apply Kept.foldl
    | with_reducible apply KeptOut.next
    | with_reducible apply KeptOut.fault
    | with_reducible apply Kept.upd
    | intro _
    | with_reducible rfl)

theorem execSlotEnd_kept {lim : Nat} {org : State} {s : State} (h : Kept lim org s) (f : Flit) :
    KeptOut lim org (execSlotEnd f s) := by
  unfold execSlotEnd
  try dsimp only
  repeat' (first
    | with_reducible assumption
    | dsimp only
    | split
    | with_reducible apply took_kept
    | with_reducible apply State.onSlotEnd_kept
    | with_reducible apply Kept.foldl
    | with_reducible apply KeptOut.next
    | with_reducible apply KeptOut.fault
    | with_reducible apply Kept.upd
    | intro _
    | with_reducible rfl)

theorem execSecured_kept {lim : Nat} {org : State} {s : State} (h : Kept lim org s) (f : Flit) :
    KeptOut lim org (execSecured f s) := by
  unfold execSecured
  try dsimp only
  repeat' (first
    | with_reducible assumption
    | dsimp only
    | split
    | with_reducible apply took_kept
    | with_reducible apply State.onSecured_kept
    | with_reducible apply Kept.foldl
    | with_reducible apply KeptOut.next
    | with_reducible apply KeptOut.fault
    | with_reducible apply Kept.upd
    | intro _
    | with_reducible rfl)

theorem execSecureCancel_kept {lim : Nat} {org : State} {s : State} (h : Kept lim org s) (f : Flit) :
    KeptOut lim org (execSecureCancel f s) := by
  unfold execSecureCancel
  try dsimp only
  repeat' (first
    | with_reducible assumption
    | dsimp only
    | split
    | with_reducible apply took_kept
    | with_reducible apply State.onSecureCancel_kept
    | with_reducible apply Kept.foldl
    | with_reducible apply KeptOut.next
    | with_reducible apply KeptOut.fault
    | with_reducible apply Kept.upd
    | intro _
    | with_reducible rfl)

theorem execRestoreData_kept {lim : Nat} {org : State} {s : State} (h : Kept lim org s) (f : Flit) :
    KeptOut lim org (execRestoreData f s) := by
  unfold execRestoreData
  try dsimp only
  repeat' (first
    | with_reducible assumption
    | dsimp only
    | split
    | with_reducible apply took_kept
    | with_reducible apply State.onRestoreData_kept
    | with_reducible apply Kept.foldl
    | with_reducible apply KeptOut.next
    | with_reducible apply KeptOut.fault
    | with_reducible apply Kept.upd
    | intro _
    | with_reducible rfl)

theorem execRestoreEnd_kept {lim : Nat} {org : State} {s : State} (h : Kept lim org s) (f : Flit) :
    KeptOut lim org (execRestoreEnd f s) := by
  unfold execRestoreEnd
  try dsimp only
  repeat' (first
    | with_reducible assumption
    | dsimp only
    | split
    | with_reducible apply took_kept
    | with_reducible apply State.onRestoreEnd_kept
    | with_reducible apply Kept.foldl
    | with_reducible apply KeptOut.next
    | with_reducible apply KeptOut.fault
    | with_reducible apply Kept.upd
    | intro _
    | with_reducible rfl)

theorem execRestoreAck_kept {lim : Nat} {org : State} {s : State} (h : Kept lim org s) (f : Flit) :
    KeptOut lim org (execRestoreAck f s) := by
  unfold execRestoreAck
  try dsimp only
  repeat' (first
    | with_reducible assumption
    | dsimp only
    | split
    | with_reducible apply took_kept
    | with_reducible apply State.onRestoreAck_kept
    | with_reducible apply Kept.foldl
    | with_reducible apply KeptOut.next
    | with_reducible apply KeptOut.fault
    | with_reducible apply Kept.upd
    | intro _
    | with_reducible rfl)

theorem execCollectiveFlit_kept {lim : Nat} {org : State} {s : State} (h : Kept lim org s) (f : Flit) :
    KeptOut lim org (execCollectiveFlit f s) := by
  unfold execCollectiveFlit
  try dsimp only
  repeat' (first
    | with_reducible assumption
    | dsimp only
    | split
    | with_reducible apply took_kept
    | with_reducible apply State.crewFlit_kept
    | with_reducible apply Kept.foldl
    | with_reducible apply KeptOut.next
    | with_reducible apply KeptOut.fault
    | with_reducible apply Kept.upd
    | intro _
    | with_reducible rfl)

theorem execCancel_kept {lim : Nat} {org : State} {s : State} (h : Kept lim org s) (f : Flit) :
    KeptOut lim org (execCancel f s) := by
  unfold execCancel
  try dsimp only
  repeat' (first
    | with_reducible assumption
    | dsimp only
    | split
    | with_reducible apply took_kept
    | with_reducible apply State.crewFlit_kept
    | with_reducible apply Kept.foldl
    | with_reducible apply KeptOut.next
    | with_reducible apply KeptOut.fault
    | with_reducible apply Kept.upd
    | intro _
    | with_reducible rfl)

theorem execStaleNotice_kept {lim : Nat} {org : State} {s : State} (h : Kept lim org s) (f : Flit) :
    KeptOut lim org (execStaleNotice f s) := by
  unfold execStaleNotice
  try dsimp only
  repeat' (first
    | with_reducible assumption
    | dsimp only
    | split
    | with_reducible apply took_kept
    | with_reducible apply State.crewFlit_kept
    | with_reducible apply Kept.foldl
    | with_reducible apply KeptOut.next
    | with_reducible apply KeptOut.fault
    | with_reducible apply Kept.upd
    | intro _
    | with_reducible rfl)

theorem execCollectiveStart_kept {lim : Nat} {org : State} {s : State} (h : Kept lim org s) (source : Nat) (tag : Nat) :
    KeptOut lim org (execCollectiveStart source tag s) := by
  unfold execCollectiveStart
  try dsimp only
  repeat' (first
    | with_reducible assumption
    | dsimp only
    | split
    | with_reducible apply State.watchPeer_kept
    | with_reducible apply State.startCmd_kept
    | with_reducible apply State.failColl_kept
    | with_reducible apply State.notePoison_kept
    | with_reducible apply settled_kept
    | with_reducible apply State.moving_kept
    | with_reducible apply State.collBegin_kept
    | with_reducible apply State.takeHeld_kept
    | with_reducible apply State.setCmd_kept
    | with_reducible apply Kept.foldl
    | with_reducible apply Kept.foldlFst
    | with_reducible apply Kept.foldlSnd
    | with_reducible apply KeptOut.next
    | with_reducible apply KeptOut.fault
    | with_reducible apply Kept.upd
    | intro _
    | with_reducible rfl)

theorem execRestoreDataSend_kept {lim : Nat} {org : State} {s : State} (h : Kept lim org s) (source : Nat) (tag : Nat) :
    KeptOut lim org (execRestoreDataSend source tag s) := by
  unfold execRestoreDataSend
  try dsimp only
  repeat' (first
    | with_reducible assumption
    | dsimp only
    | split
    | with_reducible apply settled_kept
    | with_reducible apply State.moving_kept
    | with_reducible apply State.serveNext_kept
    | with_reducible apply Kept.foldl
    | with_reducible apply KeptOut.next
    | with_reducible apply KeptOut.fault
    | with_reducible apply Kept.upd
    | intro _
    | with_reducible rfl)

end Sys2Proof.Machine
end

