-- ==== Sys2Proof/Laws/KeptStreams.lean ====
section
/-!
SUPPORT. The functions of Machine/Streams.lean keep a sound block sound, and undo nothing that no command undoes (`Kept`).
-/
namespace Sys2Proof.Machine

theorem State.setStream_kept {lim : Nat} {org : State} {s : State} (h : Kept lim org s) (x : Stream) :
    Kept lim org (State.setStream s x) := by
  unfold State.setStream
  try dsimp only
  repeat' (first
    | with_reducible assumption
    | dsimp only
    | split
    | with_reducible apply Kept.foldl
    | with_reducible apply Kept.upd
    | intro _
    | with_reducible rfl)

theorem State.dropStream_kept {lim : Nat} {org : State} {s : State} (h : Kept lim org s) (id : Nat) :
    Kept lim org (State.dropStream s id) := by
  unfold State.dropStream
  try dsimp only
  repeat' (first
    | with_reducible assumption
    | dsimp only
    | split
    | with_reducible apply Kept.foldl
    | with_reducible apply Kept.upd
    | intro _
    | with_reducible rfl)

theorem State.storeFrame_kept {lim : Nat} {org : State} {s : State} (h : Kept lim org s) (x : Stream) (t : Tensor) (o : OpenFrame) :
    Kept lim org (State.storeFrame s x t o) := by
  unfold State.storeFrame
  try dsimp only
  repeat' (first
    | with_reducible assumption
    | dsimp only
    | split
    | with_reducible apply State.putRegion_kept
    | with_reducible apply State.setStream_kept
    | with_reducible apply State.write_kept
    | with_reducible apply State.charge_kept
    | with_reducible apply State.count_kept
    | with_reducible apply Kept.foldl
    | with_reducible apply Kept.foldlFst
    | with_reducible apply Kept.foldlSnd
    | with_reducible apply Kept.upd
    | intro _
    | with_reducible rfl
    | with_reducible exact Nat.le_refl _)

theorem State.dropFrame_kept {lim : Nat} {org : State} {s : State} (h : Kept lim org s) (t : Tensor) :
    Kept lim org (State.dropFrame s t) := by
  unfold State.dropFrame
  try dsimp only
  repeat' (first
    | with_reducible assumption
    | dsimp only
    | split
    | with_reducible apply State.write_kept
    | with_reducible apply State.count_kept
    | with_reducible apply State.overrun_kept
    | with_reducible apply Kept.upd
    | intro _
    | with_reducible rfl
    | with_reducible exact Nat.le_refl _)

theorem State.flushFrames_kept {lim : Nat} {org : State} {s : State} (h : Kept lim org s) (x : Stream) :
    Kept lim org (State.flushFrames s x) := by
  unfold State.flushFrames
  try dsimp only
  repeat' (first
    | with_reducible assumption
    | dsimp only
    | split
    | with_reducible apply State.setStream_kept
    | with_reducible apply State.dropFrame_kept
    | with_reducible apply State.storeFrame_kept
    | with_reducible apply Kept.foldl
    | with_reducible apply Kept.foldlFst
    | with_reducible apply Kept.foldlSnd
    | with_reducible apply Kept.upd
    | intro _
    | with_reducible rfl
    | with_reducible exact Nat.le_refl _)

theorem streamMap_kept {lim : Nat} {org : State} {s : State} (h : Kept lim org s) (q : Req) :
    Verdict.Kept lim org (streamMap q s) := by
  unfold streamMap
  try dsimp only
  repeat' (first
    | with_reducible assumption
    | dsimp only
    | split
    | with_reducible apply State.flushFrames_kept
    | with_reducible apply refuse_kept
    | with_reducible apply okReply_kept
    | with_reducible apply State.dropStream_kept
    | with_reducible apply Kept.foldl
    | with_reducible apply Verdict.Kept.done
    | with_reducible apply Verdict.Kept.accept
    | with_reducible apply Verdict.Kept.await
    | with_reducible apply Kept.upd
    | intro _
    | with_reducible rfl)

theorem State.startInput_kept {lim : Nat} {org : State} {s : State} (h : Kept lim org s) (x : Stream) :
    Kept lim org (State.startInput s x) := by
  unfold State.startInput
  try dsimp only
  repeat' (first
    | with_reducible assumption
    | dsimp only
    | split
    | with_reducible apply State.flushFrames_kept
    | with_reducible apply State.setStream_kept
    | with_reducible apply State.write_kept)

theorem streamStart_kept {lim : Nat} {org : State} {s : State} (h : Kept lim org s) (q : Req) :
    Verdict.Kept lim org (streamStart q s) := by
  unfold streamStart
  try dsimp only
  repeat' (first
    | with_reducible assumption
    | dsimp only
    | split
    | with_reducible apply refuse_kept
    | with_reducible apply okReply_kept
    | with_reducible apply State.startInput_kept
    | with_reducible apply Kept.foldl
    | with_reducible apply Kept.foldlFst
    | with_reducible apply Kept.foldlSnd
    | with_reducible apply Verdict.Kept.done
    | with_reducible apply Verdict.Kept.accept
    | with_reducible apply Verdict.Kept.await
    | with_reducible apply Kept.upd
    | intro _
    | with_reducible rfl)

theorem State.endOutput_kept {lim : Nat} {org : State} {s : State} (h : Kept lim org s) (x : Stream) (res : Res) (cause : Nat) :
    Kept lim org (State.endOutput s x res cause) := by
  unfold State.endOutput
  try dsimp only
  repeat' (first
    | with_reducible assumption
    | dsimp only
    | split
    | with_reducible apply State.dropStream_kept
    | with_reducible apply State.completeGeneric_kept)

theorem State.stopStream_kept {lim : Nat} {org : State} {s : State} (h : Kept lim org s) (x : Stream) :
    Kept lim org (State.stopStream s x) := by
  unfold State.stopStream
  try dsimp only
  repeat' (first
    | with_reducible assumption
    | dsimp only
    | split
    | with_reducible apply State.setStream_kept
    | with_reducible apply State.endOutput_kept)

theorem streamStop_kept {lim : Nat} {org : State} {s : State} (h : Kept lim org s) (q : Req) :
    Verdict.Kept lim org (streamStop q s) := by
  unfold streamStop
  try dsimp only
  repeat' (first
    | with_reducible assumption
    | dsimp only
    | split
    | with_reducible apply refuse_kept
    | with_reducible apply okReply_kept
    | with_reducible apply State.stopStream_kept
    | with_reducible apply Kept.foldl
    | with_reducible apply Kept.foldlFst
    | with_reducible apply Kept.foldlSnd
    | with_reducible apply Verdict.Kept.done
    | with_reducible apply Verdict.Kept.accept
    | with_reducible apply Verdict.Kept.await
    | with_reducible apply Kept.upd
    | intro _
    | with_reducible rfl)

theorem State.openFrame_kept {lim : Nat} {org : State} {s : State} (h : Kept lim org s) (x : Stream) :
    Kept lim org (State.openFrame s x) := by
  unfold State.openFrame
  try dsimp only
  repeat' (first
    | with_reducible assumption
    | dsimp only
    | split
    | with_reducible apply State.countOverrun_kept
    | with_reducible apply State.dropFrame_kept
    | with_reducible apply State.overrun_kept
    | with_reducible apply State.write_kept
    | with_reducible apply State.setStream_kept
    | with_reducible apply State.count_kept)

theorem execFrameStart_kept {lim : Nat} {org : State} {s : State} (h : Kept lim org s) (port : Nat) (vc : Nat) :
    KeptOut lim org (execFrameStart port vc s) := by
  unfold execFrameStart
  try dsimp only
  repeat' (first
    | with_reducible assumption
    | dsimp only
    | split
    | with_reducible apply State.corrected_kept
    | with_reducible apply State.openFrame_kept
    | with_reducible apply Kept.foldl
    | with_reducible apply Kept.foldlFst
    | with_reducible apply Kept.foldlSnd
    | with_reducible apply KeptOut.next
    | with_reducible apply KeptOut.fault
    | with_reducible apply Kept.upd
    | intro _
    | with_reducible rfl)

theorem execSensorLine_kept {lim : Nat} {org : State} {s : State} (h : Kept lim org s) (port : Nat) (vc : Nat) (dt : Nat) (data : List Byte) (crcOk : Bool) (fits : Bool) :
    KeptOut lim org (execSensorLine port vc dt data crcOk fits s) := by
  unfold execSensorLine
  try dsimp only
  repeat' (first
    | with_reducible assumption
    | dsimp only
    | split
    | with_reducible apply State.corrected_kept
    | with_reducible apply State.count_kept
    | with_reducible apply State.overrun_kept
    | with_reducible apply State.setStream_kept
    | with_reducible apply Kept.foldl
    | with_reducible apply KeptOut.next)

theorem State.closeFrame_kept {lim : Nat} {org : State} {s : State} (h : Kept lim org s) (x : Stream) :
    Kept lim org (State.closeFrame s x) := by
  unfold State.closeFrame
  try dsimp only
  repeat' (first
    | with_reducible assumption
    | dsimp only
    | split
    | with_reducible apply State.storeFrame_kept
    | with_reducible apply State.waitAt_kept
    | with_reducible apply State.putRegion_kept
    | with_reducible apply State.setStream_kept
    | with_reducible apply State.count_kept
    | with_reducible apply State.charge_kept
    | with_reducible apply State.write_kept)

theorem State.storeEnded_kept {lim : Nat} {org : State} {s : State} (h : Kept lim org s) (id : Nat) :
    Kept lim org (State.storeEnded s id) := by
  unfold State.storeEnded
  try dsimp only
  repeat' (first
    | with_reducible assumption
    | dsimp only
    | split
    | with_reducible apply State.setStream_kept
    | with_reducible apply State.dropFrame_kept
    | with_reducible apply State.storeFrame_kept
    | with_reducible apply Kept.upd
    | intro _
    | with_reducible rfl
    | with_reducible exact Nat.le_refl _)

theorem State.drainStream_kept {lim : Nat} {org s : State} (h : Kept lim org s) (id n : Nat) :
    Kept lim org (State.drainStream s id n) := by
  induction n generalizing s with
  | zero => exact h
  | succ n ih =>
    unfold State.drainStream
    repeat' (first
      | with_reducible assumption
      | dsimp only
      | split
      | with_reducible exact ih (State.storeEnded_kept h _)
      | with_reducible apply State.waitAt_kept)

theorem State.drainFrames_kept {lim : Nat} {org s : State} (h : Kept lim org s) : Kept lim org (State.drainFrames s) :=
  Kept.foldl _ _ h (fun _ _ ha => State.drainStream_kept ha _ _)

theorem execFrameEnd_kept {lim : Nat} {org : State} {s : State} (h : Kept lim org s) (port : Nat) (vc : Nat) :
    KeptOut lim org (execFrameEnd port vc s) := by
  unfold execFrameEnd
  try dsimp only
  repeat' (first
    | with_reducible assumption
    | dsimp only
    | split
    | with_reducible apply State.corrected_kept
    | with_reducible apply State.closeFrame_kept
    | with_reducible apply Kept.foldl
    | with_reducible apply Kept.foldlFst
    | with_reducible apply Kept.foldlSnd
    | with_reducible apply KeptOut.next
    | with_reducible apply KeptOut.fault
    | with_reducible apply Kept.upd
    | intro _
    | with_reducible rfl)

theorem streamOut_kept {lim : Nat} {org : State} {s : State} (h : Kept lim org s) (q : Req) :
    Verdict.Kept lim org (streamOut q s) := by
  unfold streamOut
  try dsimp only
  repeat' (first
    | with_reducible assumption
    | dsimp only
    | split
    | with_reducible apply refuse_kept
    | with_reducible apply Kept.foldl
    | with_reducible apply Verdict.Kept.done
    | with_reducible apply Verdict.Kept.accept
    | with_reducible apply Verdict.Kept.await
    | with_reducible apply Kept.upd
    | intro _
    | with_reducible rfl)

theorem State.startOutput_kept {lim : Nat} {org : State} {s : State} (h : Kept lim org s) (id : Nat) :
    Kept lim org (State.startOutput s id) := by
  unfold State.startOutput
  try dsimp only
  repeat' (first
    | with_reducible assumption
    | dsimp only
    | split
    | with_reducible apply State.setStream_kept)

theorem execOutputFrameSend_kept {lim : Nat} {org : State} {s : State} (h : Kept lim org s) (stream : Nat) :
    KeptOut lim org (execOutputFrameSend stream s) := by
  unfold execOutputFrameSend
  try dsimp only
  repeat' (first
    | with_reducible assumption
    | dsimp only
    | split
    | with_reducible apply State.send_kept
    | with_reducible apply State.setStream_kept
    | with_reducible apply Kept.foldl
    | with_reducible apply KeptOut.next)

theorem State.sendLines_kept {lim : Nat} {org : State} {s : State} (h : Kept lim org s) (x : Stream) (t : Tensor) (n : Nat) :
    Kept lim org (State.sendLines s x t n) := by
  unfold State.sendLines
  try dsimp only
  repeat' (first
    | with_reducible assumption
    | dsimp only
    | split
    | with_reducible apply State.send_kept
    | with_reducible apply Kept.foldl
    | with_reducible apply Kept.foldlFst
    | with_reducible apply Kept.foldlSnd
    | with_reducible apply Kept.upd
    | intro _
    | with_reducible rfl)

theorem execOutputFrameDone_kept {lim : Nat} {org : State} {s : State} (h : Kept lim org s) (stream : Nat) :
    KeptOut lim org (execOutputFrameDone stream s) := by
  unfold execOutputFrameDone
  try dsimp only
  repeat' (first
    | with_reducible assumption
    | dsimp only
    | split
    | with_reducible apply State.moving_kept
    | with_reducible apply State.endOutput_kept
    | with_reducible apply State.notePoison_kept
    | with_reducible apply State.sendLines_kept
    | with_reducible apply State.count_kept
    | with_reducible apply State.setStream_kept
    | with_reducible apply Kept.foldl
    | with_reducible apply KeptOut.next
    | intro _)

theorem State.abortOutput_kept {lim : Nat} {org : State} {s : State} (h : Kept lim org s) (id : Nat) :
    Kept lim org (State.abortOutput s id) := by
  unfold State.abortOutput
  split
  · exact h
  · split
    · exact State.endOutput_kept h _ _ _
    · split
      · exact State.endOutput_kept (State.sendLines_kept (State.charge_kept (State.freeNat_kept h) _ _) _ _ _) _ _ _
      · exact State.endOutput_kept h _ _ _

theorem execPortSettingsApply_kept {lim : Nat} {org : State} {s : State} (h : Kept lim org s)  :
    KeptOut lim org (execPortSettingsApply s) := by
  unfold execPortSettingsApply
  try dsimp only
  repeat' (first
    | with_reducible assumption
    | dsimp only
    | split
    | with_reducible apply State.reach_kept
    | with_reducible apply State.setStream_kept
    | with_reducible apply Kept.foldl
    | with_reducible apply Kept.foldlFst
    | with_reducible apply Kept.foldlSnd
    | with_reducible apply KeptOut.next
    | with_reducible apply KeptOut.fault
    | with_reducible apply Kept.upd
    | intro _
    | with_reducible rfl)

end Sys2Proof.Machine
end

