-- ==== Sys2Proof/Laws/KeptRun.lean ====
section
/-!
SUPPORT. The functions of Machine/Run.lean keep a sound block sound, and undo nothing that no command undoes (`Kept`).
-/
namespace Sys2Proof.Machine

theorem State.mapOps_kept {lim : Nat} {org : State} {s : State} (h : Kept lim org s) (source : Nat) (tag : Nat) (f : OpsRun → OpsRun) :
    Kept lim org (State.mapOps s source tag f) := by
  unfold State.mapOps
  try dsimp only
  repeat' (first
    | with_reducible assumption
    | dsimp only
    | split
    | with_reducible apply Kept.foldl
    | with_reducible apply Kept.upd
    | intro _
    | with_reducible rfl
    | with_reducible exact Nat.le_refl _
    | exact Nat.le_succ _
    | simp )

theorem State.mapRec_kept {lim : Nat} {org : State} {s : State} (h : Kept lim org s) (o : OpRef) (f : RecRun → RecRun) :
    Kept lim org (State.mapRec s o f) := by
  unfold State.mapRec
  try dsimp only
  repeat' (first
    | with_reducible assumption
    | dsimp only
    | split
    | with_reducible apply State.mapOps_kept)

theorem State.stopOps_kept {lim : Nat} {org : State} {s : State} (h : Kept lim org s) (o : OpRef) (cause : Nat) :
    Kept lim org (State.stopOps s o cause) := by
  unfold State.stopOps
  try dsimp only
  repeat' (first
    | with_reducible assumption
    | dsimp only
    | split
    | with_reducible apply State.mapOps_kept)

theorem State.poisonStop_kept {lim : Nat} {org : State} {s : State} (h : Kept lim org s) (o : OpRef) (g : Nat × Nat) :
    Kept lim org (State.poisonStop s o g) := by
  unfold State.poisonStop
  try dsimp only
  repeat' (first
    | with_reducible assumption
    | dsimp only
    | split
    | with_reducible apply State.stopOps_kept
    | with_reducible apply State.notePoison_kept)

theorem State.recFlags_kept {lim : Nat} {org : State} {s : State} (h : Kept lim org s) (o : OpRef) (f : FlagWord) :
    Kept lim org (State.recFlags s o f) := by
  unfold State.recFlags
  try dsimp only
  repeat' (first
    | with_reducible assumption
    | dsimp only
    | split
    | with_reducible apply State.mapRec_kept)

theorem State.loadTill_kept {lim : Nat} {org : State} {s : State} (h : Kept lim org s) (core : Nat) (o : OpRef) (no : Nat) (graph : Bool) (x : RecRun) (till : List (Option TillVec)) (i : Nat) (h : Nat) :
    Kept lim org (State.loadTill s core o no graph x till i h).1 := by
  unfold State.loadTill
  try dsimp only
  repeat' (first
    | with_reducible assumption
    | dsimp only
    | split
    | with_reducible apply State.mapCore_kept
    | with_reducible apply State.charge_kept
    | with_reducible apply State.setCore_kept
    | with_reducible apply State.recFlags_kept)

theorem State.loadTills_kept {lim : Nat} {org s : State} (h : Kept lim org s) (core : Nat) (o : OpRef) (no : Nat) (graph : Bool) (x : RecRun) :
    Kept lim org (State.loadTills s core o no graph x) := by
  unfold State.loadTills
  dsimp only
  refine Kept.foldl _ _ ?_ (fun a y ha => ?_)
  · split
    · exact State.mapCore_kept h _ _
    · exact h
  · split
    · exact ha
    · rename_i k _
      have hl := State.loadTill_kept ha core o no graph x (s.core core).till y.1 k
      split
      · rename_i b e
        rw [e] at hl
        exact hl
      · rename_i b g e
        rw [e] at hl
        exact State.poisonStop_kept hl _ _

theorem State.mapEntries_kept {lim : Nat} {org : State} {s : State} (h : Kept lim org s) (g : Nat) (f : StackEntry → StackEntry) :
    Kept lim org (State.mapEntries s g f) := by
  unfold State.mapEntries
  try dsimp only
  repeat' (first
    | with_reducible assumption
    | dsimp only
    | split
    | with_reducible apply Kept.foldl
    | with_reducible apply Kept.upd
    | intro _
    | with_reducible rfl
    | with_reducible exact Nat.le_refl _
    | exact Nat.le_succ _
    | simp [listUpd_length])

theorem State.setEntry_kept {lim : Nat} {org : State} {s : State} (h : Kept lim org s) (g : Nat) (stamp : Nat) (f : StackEntry → StackEntry) :
    Kept lim org (State.setEntry s g stamp f) := by
  unfold State.setEntry
  try dsimp only
  repeat' (first
    | with_reducible assumption
    | dsimp only
    | split
    | with_reducible apply State.mapEntries_kept)

theorem State.reenter_kept {lim : Nat} {org : State} {s : State} (h : Kept lim org s) (g : Nat) :
    Kept lim org (State.reenter s g) := by
  unfold State.reenter
  try dsimp only
  repeat' (first
    | with_reducible assumption
    | dsimp only
    | split
    | with_reducible apply State.count_kept
    | with_reducible apply State.mapEntries_kept)

theorem State.stackWindow_kept {lim : Nat} {org : State} {s : State} (h : Kept lim org s) (g : Nat) :
    Kept lim org (State.stackWindow s g) := by
  unfold State.stackWindow
  try dsimp only
  repeat' (first
    | with_reducible assumption
    | dsimp only
    | split
    | with_reducible apply State.reenter_kept
    | with_reducible apply Kept.foldl
    | with_reducible apply Kept.upd
    | intro _
    | with_reducible rfl
    | with_reducible exact Nat.le_refl _
    | exact Nat.le_succ _
    | simp [listUpd_length])

theorem State.stackStart_kept {lim : Nat} {org : State} {s : State} (h : Kept lim org s) (o : OpRef) (x : RecRun) (g : Nat) :
    Kept lim org (State.stackStart s o x g).1 := by
  unfold State.stackStart
  try dsimp only
  repeat' (first
    | with_reducible assumption
    | dsimp only
    | split
    | with_reducible apply State.stackWindow_kept
    | with_reducible apply State.count_kept
    | with_reducible apply Kept.foldl
    | with_reducible apply Kept.upd
    | intro _
    | with_reducible rfl
    | with_reducible exact Nat.le_refl _
    | exact Nat.le_succ _
    | simp [listUpd_length])

theorem State.pairTest_kept {lim : Nat} {org : State} {s : State} (h : Kept lim org s) (o : OpRef) (x : RecRun) :
    Kept lim org (State.pairTest s o x) := by
  unfold State.pairTest
  try dsimp only
  repeat' (first
    | with_reducible assumption
    | dsimp only
    | split
    | with_reducible apply State.poisonStop_kept
    | with_reducible apply State.stopOps_kept)

theorem State.startOps_kept {lim : Nat} {org : State} {s : State} (h : Kept lim org s) (c : Cmd) :
    Kept lim org (State.startOps s c) := by
  unfold State.startOps
  try dsimp only
  repeat' (first
    | with_reducible assumption
    | dsimp only
    | split
    | with_reducible apply State.mapOps_kept
    | with_reducible apply State.startCmd_kept)

theorem State.enterCore_kept {lim : Nat} {org : State} {s : State} (h : Kept lim org s) (o : OpRef) (x : RecRun) (core : Nat) :
    Kept lim org (State.enterCore s o x core) := by
  unfold State.enterCore
  try dsimp only
  repeat' (first
    | with_reducible assumption
    | dsimp only
    | split
    | with_reducible apply State.mapRec_kept
    | with_reducible apply State.setCore_kept)

theorem State.startRec_kept {lim : Nat} {org : State} {s : State} (h : Kept lim org s) (c : Cmd) (r : OpsRun) (o : OpRef) (x : RecRun) (core : Nat) :
    Kept lim org (State.startRec s c r o x core) := by
  unfold State.startRec
  try dsimp only
  repeat' (first
    | with_reducible assumption
    | dsimp only
    | split
    | with_reducible apply State.stopOps_kept
    | with_reducible apply State.startOps_kept
    | with_reducible apply State.pairTest_kept
    | with_reducible apply State.mapRec_kept
    | with_reducible apply State.stackStart_kept
    | with_reducible apply State.loadTills_kept
    | with_reducible apply State.enterCore_kept)

theorem State.startSkip_kept {lim : Nat} {org : State} {s : State} (h : Kept lim org s) (c : Cmd) (o : OpRef) (k : Nat) (field : Nat) (t : Cmp) (thresh : Nat) (n : Nat) :
    Kept lim org (State.startSkip s c o k field t thresh n) := by
  unfold State.startSkip
  try dsimp only
  repeat' (first
    | with_reducible assumption
    | dsimp only
    | split
    | with_reducible apply State.mapOps_kept
    | with_reducible apply State.startOps_kept)

theorem State.startOperator_kept {lim : Nat} {org : State} {s : State} (h : Kept lim org s) (source : Nat) (tag : Nat) (rec : Nat) (core : Nat) :
    Kept lim org (State.startOperator s source tag rec core) := by
  unfold State.startOperator
  try dsimp only
  repeat' (first
    | with_reducible assumption
    | dsimp only
    | split
    | with_reducible apply State.waitAt_kept
    | with_reducible apply State.startSkip_kept
    | with_reducible apply State.stopOps_kept
    | with_reducible apply State.startOps_kept
    | with_reducible apply State.startRec_kept)

theorem State.openTile_kept {lim : Nat} {org : State} {s : State} (h : Kept lim org s) (core : Nat) (o : OpRef) (p : LoomP) :
    Kept lim org (State.openTile s core o p) := by
  unfold State.openTile
  try dsimp only
  repeat' (first
    | with_reducible assumption
    | dsimp only
    | split
    | with_reducible apply State.count_kept
    | with_reducible apply State.poisonStop_kept
    | with_reducible apply State.moving_kept
    | with_reducible apply State.setCore_kept
    | with_reducible apply Kept.foldl
    | with_reducible apply Kept.upd
    | intro _
    | with_reducible rfl)

theorem State.feedTimes_kept {lim : Nat} {org : State} {s : State} (h : Kept lim org s) (core : Nat) (ahead : Bool) (fresh : Bool) (lanes : Nat) :
    Kept lim org (State.feedTimes s core ahead fresh lanes) := by
  unfold State.feedTimes
  try dsimp only
  repeat' (first
    | with_reducible assumption
    | dsimp only
    | split
    | with_reducible apply State.freeNat_kept
    | with_reducible apply State.countCore_kept)

theorem execChunkStart_kept {lim : Nat} {org : State} {s : State} (h : Kept lim org s) (core : Nat) (cluster : Nat) :
    KeptOut lim org (execChunkStart core cluster s) := by
  unfold execChunkStart
  try dsimp only
  repeat' (first
    | with_reducible assumption
    | dsimp only
    | split
    | with_reducible apply State.begin_kept
    | with_reducible apply State.count_kept
    | with_reducible apply State.openTile_kept
    | with_reducible apply State.poisonStop_kept
    | with_reducible apply State.seeing_kept
    | with_reducible apply State.moving_kept
    | with_reducible apply State.feedTimes_kept
    | with_reducible apply State.setCore_kept
    | with_reducible apply Kept.foldl
    | with_reducible apply KeptOut.next
    | with_reducible apply KeptOut.fault
    | with_reducible apply Kept.upd
    | intro _
    | with_reducible rfl)

theorem State.activeOf_kept {lim : Nat} {org : State} {s : State} (h : Kept lim org s) (spent : List Nat) :
    Kept lim org (State.activeOf s spent).2 := by
  unfold State.activeOf
  try dsimp only
  repeat' (first
    | with_reducible assumption
    | dsimp only
    | split
    | with_reducible apply State.freeNat_kept
    | with_reducible apply Kept.foldl
    | with_reducible apply Kept.foldlFst
    | with_reducible apply Kept.foldlSnd
    | with_reducible apply Kept.upd
    | intro _
    | with_reducible rfl
    | with_reducible exact Nat.le_refl _)

theorem State.loomTimes_kept {lim : Nat} {org : State} {s : State} (h : Kept lim org s) (core : Nat) (m : Mode) (l : Live) (ch : InChunk) :
    Kept lim org (State.loomTimes s core m l ch) := by
  unfold State.loomTimes
  try dsimp only
  repeat' (first
    | with_reducible assumption
    | dsimp only
    | split
    | with_reducible apply State.activeOf_kept
    | with_reducible apply State.mapCore_kept
    | with_reducible apply State.freeNat_kept
    | with_reducible apply State.countCore_kept)

theorem execChunkComplete_kept {lim : Nat} {org : State} {s : State} (h : Kept lim org s) (core : Nat) (cluster : Nat) :
    KeptOut lim org (execChunkComplete core cluster s) := by
  unfold execChunkComplete
  try dsimp only
  repeat' (first
    | with_reducible assumption
    | dsimp only
    | split
    | with_reducible apply State.count_kept
    | with_reducible apply State.recFlags_kept
    | with_reducible apply State.loomTimes_kept
    | with_reducible apply State.setCore_kept
    | with_reducible apply Kept.foldl
    | with_reducible apply KeptOut.next)

theorem State.writeTal_kept {lim : Nat} {org : State} {s : State} (h : Kept lim org s) (t : Tensor) (p : Nat) (r0 : Nat) (nr : Nat) (c0 : Nat) (nc : Nat) (tile : Array Tal) :
    Kept lim org (State.writeTal s t p r0 nr c0 nc tile) := by
  unfold State.writeTal
  try dsimp only
  repeat' (first
    | with_reducible assumption
    | dsimp only
    | split
    | with_reducible apply State.fresh_kept
    | with_reducible apply State.settle_kept
    | with_reducible apply State.putRegion_kept)

theorem State.closeTile_kept {lim : Nat} {org : State} {s : State} (h : Kept lim org s) (core : Nat) (o : OpRef) (r : OpsRun) (x : RecRun) (p : LoomP) (l : Live) :
    Kept lim org (State.closeTile s core o r x p l) := by
  unfold State.closeTile
  try dsimp only
  repeat' (first
    | with_reducible assumption
    | dsimp only
    | split
    | with_reducible apply State.count_kept
    | with_reducible apply State.setCore_kept
    | with_reducible apply State.writeTal_kept
    | with_reducible apply State.recFlags_kept)

theorem execFinishEnqueue_kept {lim : Nat} {org : State} {s : State} (h : Kept lim org s) (core : Nat) :
    KeptOut lim org (execFinishEnqueue core s) := by
  unfold execFinishEnqueue
  try dsimp only
  repeat' (first
    | with_reducible assumption
    | dsimp only
    | split
    | with_reducible apply State.freeNat_kept
    | with_reducible apply State.mapCore_kept
    | with_reducible apply State.countCore_kept
    | with_reducible apply Kept.foldl
    | with_reducible apply Kept.foldlFst
    | with_reducible apply Kept.foldlSnd
    | with_reducible apply KeptOut.next)

end Sys2Proof.Machine
end

