-- ==== Sys2Proof/Laws/KeptPasses.lean ====
section
/-!
SUPPORT. The functions of Machine/Passes.lean keep a sound block sound, and undo nothing that no command undoes (`Kept`).
-/
namespace Sys2Proof.Machine

theorem State.emitOut_kept {lim : Nat} {org s : State} (h : Kept lim org s) (t : Tensor) (p r0 nr c0 nc : Nat)
    (v : Nat → Nat → Option XVal) (q : Nat → Nat → Bool) :
    Kept lim org (State.emitOut s t p r0 nr c0 nc v q).s := by
  unfold State.emitOut
  split
  · unfold State.emitRows8
    dsimp only
    exact State.putRows8_kept h _ _ _ _ _ _ _
  · unfold State.emitPlain
    dsimp only
    exact State.putRegion_kept h _ _ _ _ _ _ _

theorem State.emitPairs_kept {lim : Nat} {org s : State} (h : Kept lim org s) (t : Tensor) (p r0 nr c0 nc : Nat)
    (v : Nat → Nat → Enc × Nat) : Kept lim org (State.emitPairs s t p r0 nr c0 nc v).s := by
  unfold State.emitPairs
  dsimp only
  exact State.putRegion_kept h _ _ _ _ _ _ _

theorem State.recAssay_kept {lim : Nat} {org : State} {s : State} (h : Kept lim org s) (o : OpRef) (h : Nat) (a : Assay) :
    Kept lim org (State.recAssay s o h a) := by
  unfold State.recAssay
  try dsimp only
  repeat' (first
    | with_reducible assumption
    | dsimp only
    | split
    | with_reducible apply State.mapRec_kept)

theorem State.putBits_kept {lim : Nat} {org : State} {s : State} (h : Kept lim org s) (t : Tensor) (pitch : Nat) (r : Nat) (n : Nat) (bit : Nat → Option Bool) :
    Kept lim org (State.putBits s t pitch r n bit) := by
  unfold State.putBits
  try dsimp only
  repeat' (first
    | with_reducible assumption
    | dsimp only
    | split
    | with_reducible apply State.writeCover_kept)

theorem State.countSeen_kept {lim : Nat} {org : State} {s : State} (h : Kept lim org s) (core : Nat) (n : TalSeen) :
    Kept lim org (State.countSeen s core n) := by
  unfold State.countSeen
  try dsimp only
  repeat' (first
    | with_reducible assumption
    | dsimp only
    | split
    | with_reducible apply State.countCore_kept)

theorem State.redsOut_kept {lim : Nat} {org s : State} (hs : Kept lim org s) (t : Tensor) (reds : List (Nat × RedAcc)) (adopt : Bool)
    (op : RedOp) (axis fmt n : Nat) : Kept lim org (State.redsOut s t reds adopt op axis fmt n).s := by
  have vals : ∀ (nr nc : Nat) (v : Nat → Nat → Option XVal) (q : Nat → Nat → Bool) (zs : List Tal) (fl f1 f2 : FlagWord),
      Kept lim org (if fmt = 0x10 then (⟨s.writeTal t 0 0 nr 0 nc zs.toArray, fl, Assay.empty⟩ : OutRes)
        else { s.emitOut t 0 0 nr 0 nc v q with flags := f1 ||| (s.emitOut t 0 0 nr 0 nc v q).flags ||| f2 }).s := by
    intro nr nc v q zs fl f1 f2
    split
    · exact State.writeTal_kept hs _ _ _ _ _ _ _
    · exact State.emitOut_kept hs t 0 0 nr 0 nc v q
  unfold State.redsOut
  cases op <;> first
    | exact State.write_kept hs _ _
    | exact vals _ _ _ _ _ _ _ _

theorem State.writeReds_kept {lim : Nat} {org s : State} (hs : Kept lim org s) (o : OpRef) (x : RecRun) (adopt : Bool) (op : RedOp)
    (axis fmt n h : Nat) (counts : Bool) : Kept lim org (State.writeReds s o x adopt op axis fmt n h counts) := by
  unfold State.writeReds
  split
  · exact hs
  · dsimp only
    have h1 : ∀ t, Kept lim org ((s.redsOut t x.reds adopt op axis fmt n).s.recFlags o (s.redsOut t x.reds adopt op axis fmt n).flags) :=
      fun t => State.recFlags_kept (State.redsOut_kept hs t x.reds adopt op axis fmt n) o _
    split
    · exact State.recAssay_kept (h1 _) _ _ _
    · exact h1 _

theorem State.closeReds_kept {lim : Nat} {org : State} {s : State} (h : Kept lim org s) (core : Nat) (o : OpRef) (r : OpsRun) (x : RecRun) :
    Kept lim org (State.closeReds s core o r x) := by
  unfold State.closeReds
  try dsimp only
  repeat' (first
    | with_reducible assumption
    | dsimp only
    | split
    | with_reducible apply State.countSeen_kept
    | with_reducible apply State.writeReds_kept)

theorem State.settleCore_kept {lim : Nat} {org : State} {s : State} (h : Kept lim org s) (core : Nat) (o : OpRef) :
    Kept lim org (State.settleCore s core o) := by
  unfold State.settleCore
  try dsimp only
  repeat' (first
    | with_reducible assumption
    | dsimp only
    | split
    | with_reducible apply State.mapRec_kept
    | with_reducible apply State.setCore_kept
    | with_reducible apply State.closeReds_kept)

theorem execTileClose_kept {lim : Nat} {org : State} {s : State} (h : Kept lim org s) (core : Nat) :
    KeptOut lim org (execTileClose core s) := by
  unfold execTileClose
  try dsimp only
  repeat' (first
    | with_reducible assumption
    | dsimp only
    | split
    | with_reducible apply State.openTile_kept
    | with_reducible apply State.poisonStop_kept
    | with_reducible apply State.moving_kept
    | with_reducible apply State.settleCore_kept
    | with_reducible apply State.closeTile_kept
    | with_reducible apply Kept.foldl
    | with_reducible apply KeptOut.next
    | with_reducible apply KeptOut.fault
    | with_reducible apply Kept.upd
    | intro _
    | with_reducible rfl)

theorem execPassStart_kept {lim : Nat} {org : State} {s : State} (h : Kept lim org s) (core : Nat) :
    KeptOut lim org (execPassStart core s) := by
  unfold execPassStart
  try dsimp only
  repeat' (first
    | with_reducible assumption
    | dsimp only
    | split
    | with_reducible apply State.count_kept
    | with_reducible apply State.setCore_kept
    | with_reducible apply Kept.foldl
    | with_reducible apply KeptOut.next)

theorem State.eightTimes_kept {lim : Nat} {org : State} {s : State} (h : Kept lim org s) (core : Nat) (w : EightWork) :
    Kept lim org (State.eightTimes s core w) := by
  unfold State.eightTimes
  try dsimp only
  repeat' (first
    | with_reducible assumption
    | dsimp only
    | split
    | with_reducible apply State.freeNat_kept
    | with_reducible apply State.countCore_kept)

theorem State.putSummary_kept {lim : Nat} {org : State} {s : State} (h : Kept lim org s) (core : Nat) (o : OpRef) (ch : Chain) (m : Summary) :
    Kept lim org (State.putSummary s core o ch m) := by
  unfold State.putSummary
  try dsimp only
  repeat' (first
    | with_reducible assumption
    | dsimp only
    | split
    | with_reducible apply State.count_kept
    | with_reducible apply State.mapRec_kept
    | with_reducible apply State.setCore_kept)

theorem State.writePieces_kept {lim : Nat} {org s : State} (h : Kept lim org s) (ps : List (Nat × Nat)) (bs : List Byte) :
    Kept lim org (State.writePieces ps bs s) := by
  induction ps generalizing bs s with
  | nil => exact h
  | cons p ps ih => exact ih (State.write_kept h _ _) _

theorem State.saveTile_kept {lim : Nat} {org : State} {s : State} (h : Kept lim org s) (x : RecRun) (core : Nat) (o : OutTile) :
    Kept lim org (State.saveTile s x core o) := by
  unfold State.saveTile
  try dsimp only
  repeat' (first
    | with_reducible assumption
    | dsimp only
    | split
    | with_reducible apply State.charge_kept
    | with_reducible apply State.writePieces_kept)

theorem State.dropPass_kept {lim : Nat} {org : State} {s : State} (h : Kept lim org s) (core : Nat) :
    Kept lim org (State.dropPass s core) := by
  unfold State.dropPass
  try dsimp only
  repeat' (first
    | with_reducible assumption
    | dsimp only
    | split
    | with_reducible apply State.setCore_kept)

theorem State.finishPass_kept {lim : Nat} {org : State} {s : State} (h : Kept lim org s) (core : Nat) (o : OpRef) (r : OpsRun) (x : RecRun) (p : LoomP) (a : Pass) (e : FinishEntry) :
    Kept lim org (State.finishPass s core o r x p a e) := by
  unfold State.finishPass
  try dsimp only
  repeat' (first
    | with_reducible assumption
    | dsimp only
    | split
    | with_reducible apply State.emitOut_kept
    | with_reducible apply State.emitPairs_kept
    | with_reducible apply State.mapRec_kept
    | with_reducible apply State.recAssay_kept
    | with_reducible apply State.recFlags_kept
    | with_reducible apply State.countSeen_kept
    | with_reducible apply State.countCore_kept
    | with_reducible apply State.freeNat_kept
    | with_reducible apply State.eightTimes_kept
    | with_reducible apply State.saveTile_kept
    | with_reducible apply State.putSummary_kept)

theorem State.chainRun_kept {lim : Nat} {org : State} {s : State} (h : Kept lim org s) (core : Nat) (o : OpRef) (r : OpsRun) (x : RecRun) (p : ChainP) (a : Pass) :
    Kept lim org (State.chainRun s core o r x p a) := by
  unfold State.chainRun
  try dsimp only
  repeat' (first
    | with_reducible assumption
    | dsimp only
    | split
    | with_reducible apply State.emitOut_kept
    | with_reducible apply State.emitPairs_kept
    | with_reducible apply State.poisonStop_kept
    | with_reducible apply State.putBits_kept
    | with_reducible apply State.mapRec_kept
    | with_reducible apply State.recFlags_kept
    | with_reducible apply State.recAssay_kept
    | with_reducible apply State.putSummary_kept
    | with_reducible apply State.countSeen_kept
    | with_reducible apply State.countCore_kept
    | with_reducible apply State.write_kept
    | with_reducible apply State.eightTimes_kept
    | with_reducible apply State.saveTile_kept
    | with_reducible apply Kept.foldl
    | with_reducible apply Kept.foldlFst
    | with_reducible apply Kept.foldlSnd
    | with_reducible apply Kept.upd
    | intro _
    | with_reducible rfl)

theorem State.combineRun_kept {lim : Nat} {org : State} {s : State} (h : Kept lim org s) (core : Nat) (o : OpRef) (r : OpsRun) (n : Nat) (ins : List Nat) (out : Nat) :
    Kept lim org (State.combineRun s core o r n ins out) := by
  unfold State.combineRun
  try dsimp only
  repeat' (first
    | with_reducible assumption
    | dsimp only
    | split
    | with_reducible apply State.fresh_kept
    | with_reducible apply State.settle_kept
    | with_reducible apply State.poisonStop_kept
    | with_reducible apply State.putRegion_kept
    | with_reducible apply State.eightTimes_kept
    | with_reducible apply State.countCore_kept
    | with_reducible apply State.recFlags_kept
    | with_reducible apply Kept.foldl
    | with_reducible apply Kept.foldlFst
    | with_reducible apply Kept.foldlSnd
    | with_reducible apply Kept.upd
    | intro _
    | with_reducible rfl)

theorem State.closeRun_kept {lim : Nat} {org : State} {s : State} (h : Kept lim org s) (core : Nat) (o : OpRef) (r : OpsRun) (x : RecRun) (rows : Nat) (cols : Nat) (input : Nat) (out : Nat) (kind : Nat) (sa : Nat) (sb : Nat) (col : Option Nat) :
    Kept lim org (State.closeRun s core o r x rows cols input out kind sa sb col) := by
  unfold State.closeRun
  try dsimp only
  repeat' (first
    | with_reducible assumption
    | dsimp only
    | split
    | with_reducible apply State.emitOut_kept
    | with_reducible apply State.emitPairs_kept
    | with_reducible apply State.poisonStop_kept
    | with_reducible apply State.recAssay_kept
    | with_reducible apply State.recFlags_kept
    | with_reducible apply State.eightTimes_kept
    | with_reducible apply State.countSeen_kept)

theorem State.scatterRun_kept {lim : Nat} {org : State} {s : State} (h : Kept lim org s) (core : Nat) (op : OpRef) (r : OpsRun) (x : RecRun) (rows : Nat) (input : Nat) (index : Nat) (out : Nat) (band : Nat) :
    Kept lim org (State.scatterRun s core op r x rows input index out band) := by
  unfold State.scatterRun
  try dsimp only
  repeat' (first
    | with_reducible assumption
    | dsimp only
    | split
    | with_reducible apply State.poisonStop_kept
    | with_reducible apply State.countCore_kept
    | with_reducible apply State.recFlags_kept
    | with_reducible apply State.writeTal_kept
    | with_reducible apply State.eightTimes_kept
    | with_reducible apply Kept.foldl
    | with_reducible apply Kept.foldlFst
    | with_reducible apply Kept.foldlSnd
    | with_reducible apply Kept.upd
    | intro _
    | with_reducible rfl)

theorem State.rowRun_kept {lim : Nat} {org : State} {s : State} (h : Kept lim org s) (core : Nat) (o : OpRef) (r : OpsRun) (x : RecRun) (p : RowP) (band : Nat) :
    Kept lim org (State.rowRun s core o r x p band) := by
  unfold State.rowRun
  try dsimp only
  repeat' (first
    | with_reducible assumption
    | dsimp only
    | split
    | with_reducible apply State.fresh_kept
    | with_reducible apply State.emitOut_kept
    | with_reducible apply State.emitPairs_kept
    | with_reducible apply State.poisonStop_kept
    | with_reducible apply State.recFlags_kept
    | with_reducible apply State.recAssay_kept
    | with_reducible apply State.writeTal_kept
    | with_reducible apply State.eightTimes_kept
    | with_reducible apply State.countSeen_kept
    | with_reducible apply State.saveTile_kept
    | with_reducible apply Kept.foldl
    | with_reducible apply Kept.foldlFst
    | with_reducible apply Kept.foldlSnd
    | with_reducible apply Kept.upd
    | intro _
    | with_reducible rfl)

theorem State.runPass_kept {lim : Nat} {org : State} {s : State} (h : Kept lim org s) (core : Nat) (o : OpRef) (r : OpsRun) (x : RecRun) (a : Pass) :
    Kept lim org (State.runPass s core o r x a) := by
  unfold State.runPass
  try dsimp only
  repeat' (first
    | with_reducible assumption
    | dsimp only
    | split
    | with_reducible apply State.finishPass_kept
    | with_reducible apply State.chainRun_kept
    | with_reducible apply State.rowRun_kept
    | with_reducible apply State.combineRun_kept
    | with_reducible apply State.closeRun_kept
    | with_reducible apply State.scatterRun_kept)

theorem execPassEnd_kept {lim : Nat} {org : State} {s : State} (h : Kept lim org s) (core : Nat) :
    KeptOut lim org (execPassEnd core s) := by
  unfold execPassEnd
  try dsimp only
  repeat' (first
    | with_reducible assumption
    | dsimp only
    | split
    | with_reducible apply State.waitAt_kept
    | with_reducible apply State.moving_kept
    | with_reducible apply State.settleCore_kept
    | with_reducible apply State.runPass_kept
    | with_reducible apply State.dropPass_kept
    | with_reducible apply Kept.foldl
    | with_reducible apply KeptOut.next
    | with_reducible apply KeptOut.fault
    | with_reducible apply Kept.upd
    | intro _
    | with_reducible rfl)

end Sys2Proof.Machine
end

