-- ==== Sys2Proof/Laws/KeptStacks.lean ====
section
/-!
SUPPORT. The functions of Machine/Stacks.lean keep a sound block sound, and undo nothing that no command undoes (`Kept`).
-/
namespace Sys2Proof.Machine

theorem foldl_listUpd_length {α β : Type} (xs : List α) (i : α → Nat) (f : α → β → β) (a : List β) :
    (xs.foldl (fun a x => listUpd a (i x) (f x)) a).length = a.length := by
  induction xs generalizing a with
  | nil => rfl
  | cons x xs ih => exact (ih _).trans (listUpd_length a _ _)

theorem stackConfig_kept {lim : Nat} {org : State} {s : State} (h : Kept lim org s) (q : Req) :
    Verdict.Kept lim org (stackConfig q s) := by
  unfold stackConfig
  try dsimp only
  repeat' (first
    | with_reducible assumption
    | dsimp only
    | split
    | exact foldl_listUpd_length _ _ _ _
    | with_reducible apply refuse_kept
    | with_reducible apply okReply_kept
    | with_reducible apply Kept.foldl
    | with_reducible apply Kept.foldlFst
    | with_reducible apply Kept.foldlSnd
    | with_reducible apply Verdict.Kept.done
    | with_reducible apply Verdict.Kept.accept
    | with_reducible apply Verdict.Kept.await
    | with_reducible apply Kept.upd
    | intro _
    | with_reducible rfl)

theorem State.makeRoom_kept {lim : Nat} {org : State} {s : State} (h : Kept lim org s) (g : Nat) (size : Nat) :
    Kept lim org (State.makeRoom s g size) := by
  unfold State.makeRoom
  try dsimp only
  repeat' (first
    | with_reducible assumption
    | dsimp only
    | split
    | with_reducible apply Kept.foldl
    | with_reducible apply Kept.upd
    | intro _
    | with_reducible rfl
    | with_reducible exact Nat.le_refl _
    | exact Nat.le_succ _
    | simp [listUpd_length])

theorem State.placeFor_kept {lim : Nat} {org s : State} (h : Kept lim org s) (g size : Nat) : Kept lim org (State.placeFor s g size).2 := by
  unfold State.placeFor
  exact State.freeNat_kept h

theorem State.copyRuns_kept {lim : Nat} {org : State} {s : State} (h : Kept lim org s) (rs : List (Nat × Nat × Nat)) :
    Kept lim org (State.copyRuns s rs) := by
  unfold State.copyRuns
  try dsimp only
  repeat' (first
    | with_reducible assumption
    | dsimp only
    | split
    | with_reducible apply State.copy_kept
    | with_reducible apply State.noteRead_kept
    | with_reducible apply Kept.foldl
    | with_reducible apply Kept.foldlFst
    | with_reducible apply Kept.foldlSnd
    | with_reducible apply Kept.upd
    | intro _
    | with_reducible rfl)

theorem State.settleEntry_kept {lim : Nat} {org : State} {s : State} (h : Kept lim org s) (g : Nat) (e : StackEntry) :
    Kept lim org (State.settleEntry s g e) := by
  unfold State.settleEntry
  try dsimp only
  repeat' (first
    | with_reducible assumption
    | dsimp only
    | split
    | with_reducible apply State.copyRuns_kept
    | with_reducible apply State.setEntry_kept)

theorem State.settleSpills_kept {lim : Nat} {org s : State} (h : Kept lim org s) (g : Nat) : Kept lim org (State.settleSpills s g) := by
  unfold State.settleSpills
  exact Kept.foldl _ _ (Kept.foldr _ _ h (fun e a ha => State.settleEntry_kept ha g e)) (fun a e ha => State.settleEntry_kept ha g e)

theorem State.pushWaits_kept {lim : Nat} {org : State} {s : State} (h : Kept lim org s) (o : OpRef) (g : Nat) :
    Kept lim org (State.pushWaits s o g) := by
  unfold State.pushWaits
  try dsimp only
  repeat' (first
    | with_reducible assumption
    | dsimp only
    | split
    | with_reducible apply State.mapRec_kept)

theorem State.pushOn_kept {lim : Nat} {org s : State} (h : Kept lim org s) (o : OpRef) (x : RecRun) (g : Nat) :
    Kept lim org (State.pushOn s o x g) := by
  unfold State.pushOn
  split
  · exact h
  · split
    · exact State.atCeiling_kept h _ _ _
    · have h1 := State.makeRoom_kept h g (s.newEntry o x g).size
      dsimp only
      split
      · refine State.settleSpills_kept (State.count_kept (State.count_kept ?_ _ _) _ _) g
        have h2 := State.placeFor_kept h1 g (s.newEntry o x g).size
        split
        · refine State.freeNat_kept ?_
          exact Kept.upd h2 rfl (listUpd_length _ _ _) (Nat.le_refl _) (Nat.le_refl _) (Nat.le_refl _) rfl rfl rfl (Nat.le_refl _) (Nat.le_refl _) (Nat.le_refl _) (Nat.le_refl _) (Nat.le_refl _)
        · exact Kept.upd h2 rfl (listUpd_length _ _ _) (Nat.le_refl _) (Nat.le_refl _) (Nat.le_refl _) rfl rfl rfl (Nat.le_refl _) (Nat.le_refl _) (Nat.le_refl _) (Nat.le_refl _) (Nat.le_refl _)
      · exact State.pushWaits_kept h1 o g

theorem execStackPush_kept {lim : Nat} {org : State} {s : State} (h : Kept lim org s) (source : Nat) (tag : Nat) (rec : Nat) :
    KeptOut lim org (execStackPush source tag rec s) := by
  unfold execStackPush
  try dsimp only
  repeat' (first
    | with_reducible assumption
    | dsimp only
    | split
    | with_reducible apply State.pushOn_kept
    | with_reducible apply Kept.foldl
    | with_reducible apply Kept.foldlFst
    | with_reducible apply Kept.foldlSnd
    | with_reducible apply KeptOut.next
    | with_reducible apply KeptOut.fault
    | with_reducible apply Kept.upd
    | intro _
    | with_reducible rfl)

theorem execSpillStart_kept {lim : Nat} {org : State} {s : State} (h : Kept lim org s) (group : Nat) :
    KeptOut lim org (execSpillStart group s) := by
  unfold execSpillStart
  try dsimp only
  repeat' (first
    | with_reducible assumption
    | dsimp only
    | split
    | with_reducible apply State.setEntry_kept
    | with_reducible apply Kept.foldl
    | with_reducible apply KeptOut.next)

theorem execSpillComplete_kept {lim : Nat} {org : State} {s : State} (h : Kept lim org s) (group : Nat) (stamp : Nat) :
    KeptOut lim org (execSpillComplete group stamp s) := by
  unfold execSpillComplete
  try dsimp only
  repeat' (first
    | with_reducible assumption
    | dsimp only
    | split
    | with_reducible apply State.moving_kept
    | with_reducible apply State.count_kept
    | with_reducible apply State.setEntry_kept
    | with_reducible apply State.copyRuns_kept
    | with_reducible apply Kept.foldl
    | with_reducible apply KeptOut.next
    | with_reducible apply KeptOut.fault
    | with_reducible apply Kept.upd
    | intro _
    | with_reducible rfl)

theorem execFillStart_kept {lim : Nat} {org s : State} (h : Kept lim org s) (group : Nat) : KeptOut lim org (execFillStart group s) := by
  unfold execFillStart
  dsimp only
  split
  · exact KeptOut.next h
  · split
    · exact KeptOut.next h
    · rename_i e _
      have h1 := State.makeRoom_kept h group e.size
      split
      · exact KeptOut.next (State.setEntry_kept (State.placeFor_kept h1 group e.size) _ _ _)
      · exact KeptOut.next h1

theorem execFillComplete_kept {lim : Nat} {org : State} {s : State} (h : Kept lim org s) (group : Nat) (stamp : Nat) :
    KeptOut lim org (execFillComplete group stamp s) := by
  unfold execFillComplete
  try dsimp only
  repeat' (first
    | with_reducible assumption
    | dsimp only
    | split
    | with_reducible apply State.moving_kept
    | with_reducible apply State.count_kept
    | with_reducible apply State.setEntry_kept
    | with_reducible apply State.copyRuns_kept
    | with_reducible apply Kept.foldl
    | with_reducible apply KeptOut.next
    | with_reducible apply KeptOut.fault
    | with_reducible apply Kept.upd
    | intro _
    | with_reducible rfl)

theorem State.popTile_kept {lim : Nat} {org : State} {s : State} (h : Kept lim org s) (t : Tensor) (e : StackEntry) (data : List Byte) (o : OutTile) :
    Kept lim org (State.popTile s t e data o) := by
  unfold State.popTile
  try dsimp only
  repeat' (first
    | with_reducible assumption
    | dsimp only
    | split
    | with_reducible apply State.write_kept
    | with_reducible apply Kept.foldl
    | with_reducible apply Kept.foldlFst
    | with_reducible apply Kept.foldlSnd
    | with_reducible apply Kept.upd
    | intro _
    | with_reducible rfl)

theorem State.popEntry_kept {lim : Nat} {org : State} {s : State} (h : Kept lim org s) (t : Tensor) (e : StackEntry) :
    Kept lim org (State.popEntry s t e) := by
  unfold State.popEntry
  try dsimp only
  repeat' (first
    | with_reducible assumption
    | dsimp only
    | split
    | with_reducible apply State.popTile_kept
    | with_reducible apply Kept.foldl
    | with_reducible apply Kept.foldlFst
    | with_reducible apply Kept.foldlSnd
    | with_reducible apply Kept.upd
    | intro _
    | with_reducible rfl)

theorem State.popRun_kept {lim : Nat} {org : State} {s : State} (h : Kept lim org s) (o : OpRef) (expect : Nat) (out : Option Nat) (discard : Bool) (cores : List Nat) (late : Bool) :
    Kept lim org (State.popRun s o expect out discard cores late) := by
  unfold State.popRun
  try dsimp only
  repeat' (first
    | with_reducible assumption
    | dsimp only
    | split
    | with_reducible apply State.pushWaits_kept
    | with_reducible apply State.freeNat_kept
    | with_reducible apply State.mapRec_kept
    | with_reducible apply State.count_kept
    | with_reducible apply State.poisonStop_kept
    | with_reducible apply State.moving_kept
    | with_reducible apply State.popEntry_kept
    | with_reducible apply Kept.foldl
    | with_reducible apply Kept.foldlFst
    | with_reducible apply Kept.foldlSnd
    | with_reducible apply Kept.upd
    | intro _
    | with_reducible rfl)

theorem State.stackWindows_kept {lim : Nat} {org : State} {s : State} (h : Kept lim org s) (gs : List Nat) :
    Kept lim org (State.stackWindows s gs) := by
  unfold State.stackWindows
  try dsimp only
  repeat' (first
    | with_reducible assumption
    | dsimp only
    | split
    | with_reducible apply State.stackWindow_kept
    | with_reducible apply Kept.foldl
    | with_reducible apply Kept.foldlFst
    | with_reducible apply Kept.foldlSnd
    | with_reducible apply Kept.upd
    | intro _
    | with_reducible rfl)

theorem execStackPop_kept {lim : Nat} {org : State} {s : State} (h : Kept lim org s) (source : Nat) (tag : Nat) (rec : Nat) :
    KeptOut lim org (execStackPop source tag rec s) := by
  unfold execStackPop
  try dsimp only
  repeat' (first
    | with_reducible assumption
    | dsimp only
    | split
    | with_reducible apply State.startOps_kept
    | with_reducible apply State.popRun_kept
    | with_reducible apply State.stopOps_kept
    | with_reducible apply State.startCmd_kept
    | with_reducible apply State.stackWindows_kept
    | with_reducible apply State.count_kept
    | with_reducible apply State.mapRec_kept
    | with_reducible apply Kept.foldl
    | with_reducible apply KeptOut.next)

theorem State.popCommit_kept {lim : Nat} {org : State} {s : State} (h : Kept lim org s) (expect : Nat) (cores : List Nat) :
    Kept lim org (State.popCommit s expect cores) := by
  unfold State.popCommit
  try dsimp only
  repeat' (first
    | with_reducible assumption
    | dsimp only
    | split
    | with_reducible apply State.settleSpills_kept
    | with_reducible apply State.reenter_kept
    | with_reducible apply State.count_kept
    | with_reducible apply Kept.foldl
    | with_reducible apply Kept.foldlFst
    | with_reducible apply Kept.foldlSnd
    | with_reducible apply Kept.upd
    | intro _
    | with_reducible rfl
    | with_reducible exact Nat.le_refl _
    | exact Nat.le_succ _
    | simp [listUpd_length])

theorem State.pushCommit_kept {lim : Nat} {org : State} {s : State} (h : Kept lim org s) (x : RecRun) :
    Kept lim org (State.pushCommit s x) := by
  unfold State.pushCommit
  try dsimp only
  repeat' (first
    | with_reducible assumption
    | dsimp only
    | split
    | with_reducible apply State.setEntry_kept
    | with_reducible apply Kept.foldl
    | with_reducible apply Kept.foldlFst
    | with_reducible apply Kept.foldlSnd
    | with_reducible apply Kept.upd
    | intro _
    | with_reducible rfl)

theorem State.pushDrop_kept {lim : Nat} {org : State} {s : State} (h : Kept lim org s) (x : RecRun) :
    Kept lim org (State.pushDrop s x) := by
  unfold State.pushDrop
  try dsimp only
  repeat' (first
    | with_reducible assumption
    | dsimp only
    | split
    | with_reducible apply State.settleSpills_kept
    | with_reducible apply State.reenter_kept
    | with_reducible apply Kept.foldl
    | with_reducible apply Kept.foldlFst
    | with_reducible apply Kept.foldlSnd
    | with_reducible apply Kept.upd
    | intro _
    | with_reducible rfl
    | with_reducible exact Nat.le_refl _
    | exact Nat.le_succ _
    | simp [listUpd_length])

end Sys2Proof.Machine
end

