-- ==== Sys2Proof/Laws/KeptCommit.lean ====
section
/-!
SUPPORT. The functions of Machine/Commit.lean keep a sound block sound, and undo nothing that no command undoes (`Kept`).
-/
namespace Sys2Proof.Machine

theorem State.touchGroups_kept {lim : Nat} {org : State} {s : State} (h : Kept lim org s) (gs : List Nat) :
    Kept lim org (State.touchGroups s gs) := by
  unfold State.touchGroups
  try dsimp only
  repeat' (first
    | with_reducible assumption
    | dsimp only
    | split
    | with_reducible apply Kept.foldl
    | with_reducible apply Kept.upd
    | intro _
    | with_reducible rfl
    | with_reducible exact Nat.le_refl _
    | exact Nat.le_succ _
    | simp )

theorem State.commitSlots_kept {lim : Nat} {org : State} {s : State} (h : Kept lim org s) (p : OpP) :
    Kept lim org (State.commitSlots s p) := by
  unfold State.commitSlots
  try dsimp only
  repeat' (first
    | with_reducible assumption
    | dsimp only
    | split
    | with_reducible apply State.setCore_kept)

theorem State.commitAssays_kept {lim : Nat} {org : State} {s : State} (h : Kept lim org s) (x : RecRun) :
    Kept lim org (State.commitAssays s x) := by
  unfold State.commitAssays
  try dsimp only
  repeat' (first
    | with_reducible assumption
    | dsimp only
    | split
    | with_reducible apply State.setTensor_kept
    | with_reducible apply Kept.foldl
    | with_reducible apply Kept.foldlFst
    | with_reducible apply Kept.foldlSnd
    | with_reducible apply Kept.upd
    | intro _
    | with_reducible rfl)

theorem State.commitPop_kept {lim : Nat} {org s : State} (h : Kept lim org s) (p : OpP) : Kept lim org (State.commitPop s p) := by
  cases p <;> first
    | exact h
    | exact State.popCommit_kept h _ _

theorem State.commitRec_kept {lim : Nat} {org : State} {s : State} (h : Kept lim org s) (x : RecRun) :
    Kept lim org (State.commitRec s x) := by
  unfold State.commitRec
  try dsimp only
  repeat' (first
    | with_reducible assumption
    | dsimp only
    | split
    | with_reducible apply State.commitPop_kept
    | with_reducible apply State.pushCommit_kept
    | with_reducible apply State.commitAssays_kept
    | with_reducible apply State.commitSlots_kept
    | with_reducible apply State.retag_kept
    | with_reducible apply Kept.foldl
    | with_reducible apply Kept.foldlFst
    | with_reducible apply Kept.foldlSnd
    | with_reducible apply Kept.upd
    | intro _
    | with_reducible rfl)

theorem State.endOps_kept {lim : Nat} {org : State} {s : State} (h : Kept lim org s) (source : Nat) (tag : Nat) (rec : Nat) :
    Kept lim org (State.endOps s source tag rec) := by
  unfold State.endOps
  try dsimp only
  repeat' (first
    | with_reducible assumption
    | dsimp only
    | split
    | with_reducible apply State.touchGroups_kept
    | with_reducible apply State.complete_kept)

theorem State.commitOperator_kept {lim : Nat} {org : State} {s : State} (h : Kept lim org s) (source : Nat) (tag : Nat) (rec : Nat) :
    Kept lim org (State.commitOperator s source tag rec) := by
  unfold State.commitOperator
  try dsimp only
  repeat' (first
    | with_reducible assumption
    | dsimp only
    | split
    | with_reducible apply State.endOps_kept
    | with_reducible apply State.mapRec_kept
    | with_reducible apply State.commitRec_kept)

theorem State.spoilSlots_kept {lim : Nat} {org : State} {s : State} (h : Kept lim org s) (p : OpP) :
    Kept lim org (State.spoilSlots s p) := by
  unfold State.spoilSlots
  try dsimp only
  repeat' (first
    | with_reducible assumption
    | dsimp only
    | split
    | with_reducible apply State.setCore_kept)

theorem State.stopRec_kept {lim : Nat} {org : State} {s : State} (h : Kept lim org s) (abort : Bool) (x : RecRun) :
    Kept lim org (State.stopRec s abort x) := by
  unfold State.stopRec
  try dsimp only
  repeat' (first
    | with_reducible assumption
    | dsimp only
    | split
    | with_reducible apply State.pushDrop_kept
    | with_reducible apply State.spoilSlots_kept
    | with_reducible apply State.scramble_kept
    | with_reducible apply Kept.foldl
    | with_reducible apply Kept.foldlFst
    | with_reducible apply Kept.foldlSnd
    | with_reducible apply Kept.upd
    | intro _
    | with_reducible rfl)

theorem State.cutPass_kept {lim : Nat} {org : State} {s : State} (h : Kept lim org s) (core : Nat) (a : Pass) :
    Kept lim org (State.cutPass s core a) :=
  State.eightTimes_kept (State.freeNat_kept (State.freeNat_kept h)) core _

theorem State.leaveCores_kept {lim : Nat} {org : State} {s : State} (h : Kept lim org s) (source : Nat) (tag : Nat) :
    Kept lim org (State.leaveCores s source tag) := by
  unfold State.leaveCores
  refine Kept.foldl _ _ ?_ (fun _ _ ha => State.cutPass_kept ha _ _)
  apply Kept.upd h <;> first | exact List.length_map _ | rfl | exact Nat.le_refl _

theorem execOperatorStop_kept {lim : Nat} {org : State} {s : State} (h : Kept lim org s) (source : Nat) (tag : Nat) :
    KeptOut lim org (execOperatorStop source tag s) := by
  unfold execOperatorStop
  try dsimp only
  repeat' (first
    | with_reducible assumption
    | dsimp only
    | split
    | with_reducible apply State.leaveCores_kept
    | with_reducible apply State.stopRec_kept
    | with_reducible apply State.touchGroups_kept
    | with_reducible apply State.complete_kept
    | with_reducible apply Kept.foldl
    | with_reducible apply Kept.foldlFst
    | with_reducible apply Kept.foldlSnd
    | with_reducible apply KeptOut.next
    | with_reducible apply KeptOut.fault
    | with_reducible apply Kept.upd
    | intro _
    | simp )

theorem networkLoad_kept {lim : Nat} {org : State} {s : State} (h : Kept lim org s) (q : Req) :
    Verdict.Kept lim org (networkLoad q s) := by
  unfold networkLoad
  try dsimp only
  repeat' (first
    | with_reducible assumption
    | dsimp only
    | split
    | with_reducible apply Kept.foldl
    | with_reducible apply Verdict.Kept.done
    | with_reducible apply Verdict.Kept.accept
    | with_reducible apply Verdict.Kept.await)

theorem State.networkDone_kept {lim : Nat} {org : State} {s : State} (h : Kept lim org s) (bs : List Byte) :
    Kept lim org (State.networkDone s bs).2.2 := by
  unfold State.networkDone
  try dsimp only
  repeat' (first
    | with_reducible assumption
    | dsimp only
    | split
    | with_reducible apply Kept.foldl
    | with_reducible apply Kept.foldlFst
    | with_reducible apply Kept.foldlSnd
    | with_reducible apply Kept.upd
    | intro _
    | with_reducible rfl)

theorem networkActivate_kept {lim : Nat} {org : State} {s : State} (h : Kept lim org s) (q : Req) :
    Verdict.Kept lim org (networkActivate q s) := by
  unfold networkActivate
  try dsimp only
  repeat' (first
    | with_reducible assumption
    | dsimp only
    | split
    | with_reducible apply refuse_kept
    | with_reducible apply Kept.foldl
    | with_reducible apply Verdict.Kept.done
    | with_reducible apply Verdict.Kept.accept)

theorem networkUnload_kept {lim : Nat} {org : State} {s : State} (h : Kept lim org s) (q : Req) :
    Verdict.Kept lim org (networkUnload q s) := by
  unfold networkUnload
  try dsimp only
  repeat' (first
    | with_reducible assumption
    | dsimp only
    | split
    | with_reducible apply refuse_kept
    | with_reducible apply okReply_kept
    | with_reducible apply Kept.foldl
    | with_reducible apply Verdict.Kept.done
    | with_reducible apply Verdict.Kept.accept
    | with_reducible apply Verdict.Kept.await
    | with_reducible apply Kept.upd
    | intro _
    | with_reducible rfl)

theorem execNetworkSwitch_kept {lim : Nat} {org : State} {s : State} (h : Kept lim org s) (source : Nat) (tag : Nat) (core : Nat) :
    KeptOut lim org (execNetworkSwitch source tag core s) := by
  unfold execNetworkSwitch
  try dsimp only
  repeat' (first
    | with_reducible assumption
    | dsimp only
    | split
    | with_reducible apply State.completeGeneric_kept
    | with_reducible apply State.startCmd_kept
    | with_reducible apply State.setCore_kept
    | with_reducible apply State.setCmd_kept
    | with_reducible apply Kept.foldl
    | with_reducible apply KeptOut.next)

theorem fence_kept {lim : Nat} {org : State} {s : State} (h : Kept lim org s) (q : Req) :
    Verdict.Kept lim org (fence q s) := by
  unfold fence
  try dsimp only
  repeat' (first
    | with_reducible assumption
    | dsimp only
    | split
    | with_reducible apply refuse_kept
    | with_reducible apply Kept.foldl
    | with_reducible apply Verdict.Kept.done
    | with_reducible apply Verdict.Kept.accept)

theorem execFenceComplete_kept {lim : Nat} {org : State} {s : State} (h : Kept lim org s) (source : Nat) (tag : Nat) :
    KeptOut lim org (execFenceComplete source tag s) := by
  unfold execFenceComplete
  try dsimp only
  repeat' (first
    | with_reducible assumption
    | dsimp only
    | split
    | with_reducible apply State.completeGeneric_kept
    | with_reducible apply State.startCmd_kept
    | with_reducible apply Kept.foldl
    | with_reducible apply KeptOut.next)

end Sys2Proof.Machine
end

