-- ==== Sys2Proof/Laws/KeptTrust.lean ====
section
/-!
SUPPORT. The functions of Machine/Trust.lean keep a sound block sound, and undo nothing that no command undoes (`Kept`).
-/
namespace Sys2Proof.Machine

theorem Firmware.setIdle_counts (f : Firmware) (stage : Nat) (x : Option FwStage) :
    (f.setIdle stage x).rollback = f.rollback ∧ (f.setIdle stage x).bootCount = f.bootCount := by
  unfold Firmware.setIdle
  split <;> exact ⟨rfl, rfl⟩

theorem foldl_max_ge {α : Type} (xs : List α) (g : α → Nat) (m : Nat) : m ≤ xs.foldl (fun m x => max m (g x)) m := by
  induction xs generalizing m with
  | nil => exact Nat.le_refl m
  | cons x xs ih => exact (Nat.le_max_left m (g x)).trans (ih _)

theorem identityGet_kept {lim : Nat} {org : State} {s : State} (h : Kept lim org s) (_q : Req) :
    Verdict.Kept lim org (identityGet _q s) := by
  unfold identityGet
  try dsimp only
  repeat' (first
    | with_reducible assumption
    | dsimp only
    | split
    | with_reducible apply okReply_kept)

theorem attest_kept {lim : Nat} {org : State} {s : State} (h : Kept lim org s) (q : Req) :
    Verdict.Kept lim org (attest q s) := by
  unfold attest
  try dsimp only
  repeat' (first
    | with_reducible assumption
    | dsimp only
    | split
    | with_reducible apply refuse_kept
    | with_reducible apply Kept.foldl
    | with_reducible apply Verdict.Kept.done
    | with_reducible apply Verdict.Kept.accept)

theorem State.finishAttest_kept {lim : Nat} {org : State} {s : State} (h : Kept lim org s) (c : Cmd) :
    Kept lim org (State.finishAttest s c) := by
  unfold State.finishAttest
  try dsimp only
  repeat' (first
    | with_reducible assumption
    | dsimp only
    | split
    | with_reducible apply State.completeGeneric_kept
    | with_reducible apply State.sendData_kept)

theorem auditRead_kept {lim : Nat} {org : State} {s : State} (h : Kept lim org s) (q : Req) :
    Verdict.Kept lim org (auditRead q s) := by
  unfold auditRead
  try dsimp only
  repeat' (first
    | with_reducible assumption
    | dsimp only
    | split
    | with_reducible apply State.audit_kept
    | with_reducible apply refuse_kept
    | with_reducible apply Kept.foldl
    | with_reducible apply Verdict.Kept.done
    | with_reducible apply Verdict.Kept.accept)

theorem State.finishAudit_kept {lim : Nat} {org : State} {s : State} (h : Kept lim org s) (c : Cmd) :
    Kept lim org (State.finishAudit s c) := by
  unfold State.finishAudit
  try dsimp only
  repeat' (first
    | with_reducible assumption
    | dsimp only
    | split
    | with_reducible apply State.audit_kept
    | exact foldl_max_ge _ _ _
    | with_reducible apply State.sendData_kept
    | with_reducible apply State.raiseFault_kept
    | with_reducible apply State.completeGeneric_kept
    | with_reducible apply Kept.foldl
    | with_reducible apply Kept.foldlFst
    | with_reducible apply Kept.foldlSnd
    | with_reducible apply Kept.upd
    | intro _
    | with_reducible rfl)

theorem fwStage_kept {lim : Nat} {org : State} {s : State} (h : Kept lim org s) (q : Req) :
    Verdict.Kept lim org (fwStage q s) := by
  unfold fwStage
  try dsimp only
  repeat' (first
    | with_reducible assumption
    | dsimp only
    | split
    | with_reducible apply refuse_kept
    | with_reducible apply Kept.foldl
    | with_reducible apply Verdict.Kept.done
    | with_reducible apply Verdict.Kept.accept)

theorem State.spoilStage_kept {lim : Nat} {org : State} {s : State} (h : Kept lim org s) (stage : Nat) (version : BitVec 64) :
    Kept lim org (State.spoilStage s stage version) := by
  unfold State.spoilStage
  try dsimp only
  repeat' (first
    | with_reducible assumption
    | dsimp only
    | split
    | exact (Firmware.setIdle_counts _ _ _).1.ge
    | exact (Firmware.setIdle_counts _ _ _).2.ge
    | with_reducible apply Kept.foldl
    | with_reducible apply Kept.upd
    | intro _
    | with_reducible rfl)

theorem State.dropStage_kept {lim : Nat} {org : State} {s : State} (h : Kept lim org s) (stage : Nat) :
    Kept lim org (State.dropStage s stage) := State.spoilStage_kept (State.freeNat_kept h) _ _

theorem State.refuseStage_kept {lim : Nat} {org : State} {s : State} (h : Kept lim org s) (stage : Nat) (img : List Byte) :
    Kept lim org (State.refuseStage s stage img) := by
  unfold State.refuseStage
  try dsimp only
  repeat' (first
    | with_reducible assumption
    | dsimp only
    | split
    | exact (Firmware.setIdle_counts _ _ _).1.ge
    | exact (Firmware.setIdle_counts _ _ _).2.ge
    | with_reducible apply Kept.foldl
    | with_reducible apply Kept.upd
    | intro _
    | with_reducible rfl)

theorem State.finishFwStage_kept {lim : Nat} {org : State} {s : State} (h : Kept lim org s) (c : Cmd) (img : List Byte) :
    Kept lim org (State.finishFwStage s c img) := by
  unfold State.finishFwStage
  try dsimp only
  repeat' (first
    | with_reducible assumption
    | dsimp only
    | split
    | with_reducible apply State.raiseAttn_kept
    | exact (Firmware.setIdle_counts _ _ _).1.ge
    | exact (Firmware.setIdle_counts _ _ _).2.ge
    | with_reducible apply State.completeGeneric_kept
    | with_reducible apply State.raiseFault_kept
    | with_reducible apply State.spoilStage_kept
    | with_reducible apply State.refuseStage_kept
    | with_reducible apply State.raiseService_kept
    | with_reducible apply State.audit_kept
    | with_reducible apply Kept.foldl
    | with_reducible apply Kept.upd
    | intro _
    | with_reducible rfl)

theorem fwActivate_kept {lim : Nat} {org : State} {s : State} (h : Kept lim org s) (q : Req) :
    Verdict.Kept lim org (fwActivate q s) := by
  unfold fwActivate
  try dsimp only
  repeat' (first
    | with_reducible assumption
    | dsimp only
    | split
    | with_reducible apply refuse_kept
    | with_reducible apply State.raiseFault_kept
    | with_reducible apply State.audit_kept
    | with_reducible apply Kept.foldl
    | with_reducible apply Verdict.Kept.done
    | with_reducible apply Verdict.Kept.accept
    | with_reducible apply Verdict.Kept.await
    | with_reducible apply Kept.upd
    | intro _
    | with_reducible rfl)

end Sys2Proof.Machine
end

