-- ==== Sys2Proof/Laws/KeptAbort.lean ====
section
/-!
SUPPORT. The functions of Machine/Abort.lean keep a sound block sound, and undo nothing that no command undoes (`Kept`).
-/
namespace Sys2Proof.Machine

theorem State.freeRange_kept {lim : Nat} {org : State} {s : State} (h : Kept lim org s) (a : Nat) (n : Nat) :
    Kept lim org (State.freeRange s a n) := by
  unfold State.freeRange
  try dsimp only
  repeat' (first
    | with_reducible assumption
    | dsimp only
    | split
    | with_reducible apply State.freeBytes_kept
    | with_reducible apply State.write_kept)

theorem State.spoilWrite_kept {lim : Nat} {org : State} {s : State} (h : Kept lim org s) (c : Cmd) :
    Kept lim org (State.spoilWrite s c) := by
  unfold State.spoilWrite
  try dsimp only
  repeat' (first
    | with_reducible assumption
    | dsimp only
    | split
    | with_reducible apply State.freeBytes_kept
    | with_reducible apply State.untag_kept
    | with_reducible apply State.write_kept
    | with_reducible apply State.writeRegion8_kept
    | with_reducible apply State.writeRegion_kept)

theorem State.spoilPlanes_kept {lim : Nat} {org : State} {s : State} (h : Kept lim org s) (h : Nat) (p0 : Nat) (np : Nat) :
    Kept lim org (State.spoilPlanes s h p0 np) := by
  unfold State.spoilPlanes
  try dsimp only
  repeat' (first
    | with_reducible assumption
    | dsimp only
    | split
    | with_reducible apply State.freeRange_kept
    | with_reducible apply State.untag_kept)

theorem State.spoilData_kept {lim : Nat} {org : State} {s : State} (h : Kept lim org s) (c : Cmd) :
    Kept lim org (State.spoilData s c) := by
  unfold State.spoilData
  try dsimp only
  repeat' (first
    | with_reducible assumption
    | dsimp only
    | split
    | with_reducible apply State.dropStage_kept
    | with_reducible apply State.spoilWrite_kept
    | with_reducible apply State.spoilPlanes_kept
    | with_reducible apply State.spoilStage_kept)

theorem State.failBulk_kept {lim : Nat} {org : State} {s : State} (h : Kept lim org s) (c : Cmd) :
    Kept lim org (State.failBulk s c) := by
  unfold State.failBulk
  try dsimp only
  repeat' (first
    | with_reducible assumption
    | dsimp only
    | split
    | with_reducible apply State.completeGeneric_kept
    | with_reducible apply State.spoilData_kept)

theorem State.sendCancels_kept {lim : Nat} {org : State} {s : State} (h : Kept lim org s) (r : CollRun) :
    Kept lim org (State.sendCancels s r) := by
  unfold State.sendCancels
  try dsimp only
  repeat' (first
    | with_reducible assumption
    | dsimp only
    | split
    | with_reducible apply State.sendFlit_kept
    | with_reducible apply Kept.foldl
    | with_reducible apply Kept.foldlFst
    | with_reducible apply Kept.foldlSnd
    | with_reducible apply Kept.upd
    | intro _
    | with_reducible rfl)

theorem State.killOps_kept {lim : Nat} {org : State} {s : State} (h : Kept lim org s) (c : Cmd) (r : OpsRun) (cause : Nat) :
    Kept lim org (State.killOps s c r cause) := by
  unfold State.killOps
  try dsimp only
  repeat' (first
    | with_reducible assumption
    | dsimp only
    | split
    | with_reducible apply State.leaveCores_kept
    | with_reducible apply State.stopRec_kept
    | with_reducible apply State.touchGroups_kept
    | with_reducible apply State.complete_kept
    | with_reducible apply Kept.foldl
    | with_reducible apply Kept.foldlFst
    | with_reducible apply Kept.foldlSnd
    | with_reducible apply Kept.upd
    | intro _
    | simp )

theorem State.killCmd_kept {lim : Nat} {org : State} {s : State} (h : Kept lim org s) (c : Cmd) (cause : Nat) :
    Kept lim org (State.killCmd s c cause) := by
  unfold State.killCmd
  try dsimp only
  repeat' (first
    | with_reducible assumption
    | dsimp only
    | split
    | with_reducible apply State.killOps_kept
    | with_reducible apply State.endUpdate_kept
    | with_reducible apply State.abortSecure_kept
    | with_reducible apply State.endServe_kept
    | with_reducible apply State.failColl_kept
    | with_reducible apply State.endOutput_kept
    | with_reducible apply State.completeGeneric_kept
    | with_reducible apply State.complete_kept)

theorem State.abortUpdate_kept {lim : Nat} {org : State} {s : State} (h : Kept lim org s) (c : Cmd) (r : UpdRun) :
    Kept lim org (State.abortUpdate s c r) := by
  unfold State.abortUpdate
  try dsimp only
  repeat' (first
    | with_reducible assumption
    | dsimp only
    | split
    | with_reducible apply State.setCmd_kept
    | with_reducible apply State.sendCancels_kept
    | with_reducible apply State.endUpdate_kept)

theorem State.abortSecuring_kept {lim : Nat} {org : State} {s : State} (h : Kept lim org s) (c : Cmd) (r : SecureRun) :
    Kept lim org (State.abortSecuring s c r) := by
  unfold State.abortSecuring
  try dsimp only
  repeat' (first
    | with_reducible assumption
    | dsimp only
    | split
    | with_reducible apply State.sendFlit_kept
    | with_reducible apply State.abortSecure_kept)

theorem State.abortServe_kept {lim : Nat} {org s : State} (h : Kept lim org s) (c : Cmd) (r : ServeRun) : Kept lim org (State.abortServe s c r) := by
  unfold State.abortServe
  refine State.endServe_kept ?_ _ _ _
  split <;> split <;> first
    | exact State.spoilServed_kept (State.dropServe_kept h _ _) _ _
    | exact h

theorem State.abortCmd_kept {lim : Nat} {org : State} {s : State} (h : Kept lim org s) (c : Cmd) :
    Kept lim org (State.abortCmd s c) := by
  unfold State.abortCmd
  try dsimp only
  repeat' (first
    | with_reducible assumption
    | dsimp only
    | split
    | with_reducible apply State.setCmd_kept
    | with_reducible apply State.abortUpdate_kept
    | with_reducible apply State.abortSecuring_kept
    | with_reducible apply State.abortServe_kept
    | with_reducible apply State.failColl_kept
    | with_reducible apply State.sendCancels_kept
    | with_reducible apply State.abortOutput_kept
    | with_reducible apply State.completeGeneric_kept
    | with_reducible apply State.spoilData_kept)

theorem abortReply_kept {lim : Nat} {org : State} {s : State} (h : Kept lim org s) (r : Res) (outcome : Nat) (after : After) :
    Verdict.Kept lim org (abortReply r outcome s after) := by
  unfold abortReply
  try dsimp only
  repeat' (first
    | with_reducible assumption
    | dsimp only
    | split
    | with_reducible apply Kept.foldl
    | with_reducible apply Verdict.Kept.done)

theorem State.abortEntry_kept {lim : Nat} {org : State} {s : State} (h : Kept lim org s) (source : Nat) (tag : Nat) :
    Verdict.Kept lim org (State.abortEntry s source tag) := by
  unfold State.abortEntry
  try dsimp only
  repeat' (first
    | with_reducible assumption
    | dsimp only
    | split
    | with_reducible apply abortReply_kept
    | with_reducible apply refuse_kept)

theorem abort_kept {lim : Nat} {org : State} {s : State} (h : Kept lim org s) (q : Req) :
    Verdict.Kept lim org (abort q s) := by
  unfold abort
  try dsimp only
  repeat' (first
    | with_reducible assumption
    | dsimp only
    | split
    | with_reducible apply refuse_kept
    | with_reducible apply State.abortEntry_kept
    | with_reducible apply abortReply_kept)

end Sys2Proof.Machine
end

