-- ==== Sys2Proof/Laws/KeptHealth.lean ====
section
/-!
SUPPORT. The functions of Machine/Health.lean keep a sound block sound, and undo nothing that no command undoes (`Kept`).
-/
namespace Sys2Proof.Machine

theorem State.retireCore_kept {lim : Nat} {org : State} {s : State} (h : Kept lim org s) (g : Nat) (phys : Nat) :
    Kept lim org (State.retireCore s g phys) := by
  unfold State.retireCore
  try dsimp only
  repeat' (first
    | with_reducible assumption
    | dsimp only
    | split
    | with_reducible apply State.count_kept
    | with_reducible apply Kept.foldl
    | with_reducible apply Kept.upd
    | intro _
    | with_reducible rfl)

theorem State.forgetWear_kept {lim : Nat} {org : State} {s : State} (h : Kept lim org s) (core : Nat) :
    Kept lim org (State.forgetWear s core) := by
  unfold State.forgetWear
  try dsimp only
  repeat' (first
    | with_reducible assumption
    | dsimp only
    | split
    | with_reducible apply Kept.foldl
    | with_reducible apply Kept.upd
    | intro _
    | with_reducible rfl)

theorem State.takeSpare_kept {lim : Nat} {org : State} {s : State} (h : Kept lim org s) (g : Nat) :
    Kept lim org (State.takeSpare s g) := by
  unfold State.takeSpare
  try dsimp only
  repeat' (first
    | with_reducible assumption
    | dsimp only
    | split
    | with_reducible apply Kept.foldl
    | with_reducible apply Kept.upd
    | intro _
    | with_reducible rfl)

theorem State.loseCore_kept {lim : Nat} {org : State} {s : State} (h : Kept lim org s) (core : Nat) :
    Kept lim org (State.loseCore s core) := by
  unfold State.loseCore
  try dsimp only
  repeat' (first
    | with_reducible assumption
    | dsimp only
    | split
    | with_reducible apply State.degradeCheck_kept
    | with_reducible apply State.setCore_kept
    | with_reducible apply Kept.foldl
    | with_reducible apply Kept.upd
    | intro _
    | with_reducible rfl
    | with_reducible exact Nat.le_refl _
    | exact Nat.le_succ _
    | simp )

theorem State.faultOps_kept {lim : Nat} {org : State} {s : State} (h : Kept lim org s) (core : Nat) :
    Kept lim org (State.faultOps s core) := by
  unfold State.faultOps
  try dsimp only
  repeat' (first
    | with_reducible assumption
    | dsimp only
    | split
    | with_reducible apply State.killOps_kept
    | with_reducible apply Kept.foldl
    | with_reducible apply Kept.foldlFst
    | with_reducible apply Kept.foldlSnd
    | with_reducible apply Kept.upd
    | intro _
    | with_reducible rfl)

theorem State.callSpare_kept {lim : Nat} {org : State} {s : State} (h : Kept lim org s) (core : Nat) :
    Kept lim org (State.callSpare s core) := by
  unfold State.callSpare
  try dsimp only
  repeat' (first
    | with_reducible assumption
    | dsimp only
    | split
    | with_reducible apply Kept.upd
    | intro _
    | with_reducible rfl
    | with_reducible exact Nat.le_refl _)

theorem State.coreFault_kept {lim : Nat} {org : State} {s : State} (h : Kept lim org s) (core : Nat) :
    Kept lim org (State.coreFault s core) := by
  unfold State.coreFault
  try dsimp only
  repeat' (first
    | with_reducible assumption
    | dsimp only
    | split
    | with_reducible apply State.callSpare_kept
    | with_reducible apply State.forgetWear_kept
    | with_reducible apply State.retireCore_kept
    | with_reducible apply State.faultOps_kept
    | with_reducible apply State.spareEvent_kept
    | with_reducible apply State.raiseFault_kept
    | with_reducible apply State.loseCore_kept
    | with_reducible apply State.takeSpare_kept
    | with_reducible rfl)

theorem execCoreHardFault_kept {lim : Nat} {org : State} {s : State} (h : Kept lim org s) (core : Nat) :
    KeptOut lim org (execCoreHardFault core s) := by
  unfold execCoreHardFault
  try dsimp only
  repeat' (first
    | with_reducible assumption
    | dsimp only
    | split
    | with_reducible apply State.coreFault_kept
    | with_reducible apply Kept.foldl
    | with_reducible apply KeptOut.next)

theorem State.toSpare_kept {lim : Nat} {org : State} {s : State} (h : Kept lim org s) (core : Nat) :
    Kept lim org (State.toSpare s core) := by
  unfold State.toSpare
  try dsimp only
  repeat' (first
    | with_reducible assumption
    | dsimp only
    | split
    | with_reducible apply State.forgetWear_kept
    | with_reducible apply State.takeSpare_kept
    | with_reducible apply Kept.foldl
    | with_reducible apply Kept.upd
    | intro _
    | with_reducible rfl
    | with_reducible exact Nat.le_refl _
    | exact Nat.le_succ _
    | simp )

theorem State.endRepairs_kept {lim : Nat} {org : State} {s : State} (h : Kept lim org s) (unit : Nat) (res : Res) :
    Kept lim org (State.endRepairs s unit res) := by
  unfold State.endRepairs
  try dsimp only
  repeat' (first
    | with_reducible assumption
    | dsimp only
    | split
    | with_reducible apply State.completeGeneric_kept
    | with_reducible apply Kept.foldl
    | with_reducible apply Kept.foldlFst
    | with_reducible apply Kept.foldlSnd
    | with_reducible apply Kept.upd
    | intro _
    | with_reducible rfl)

theorem execSpareTakeover_kept {lim : Nat} {org : State} {s : State} (h : Kept lim org s) (core : Nat) (passed : Bool) :
    KeptOut lim org (execSpareTakeover core passed s) := by
  unfold execSpareTakeover
  try dsimp only
  repeat' (first
    | with_reducible assumption
    | dsimp only
    | split
    | with_reducible apply State.spareEvent_kept
    | with_reducible apply State.setCore_kept
    | with_reducible apply State.endRepairs_kept
    | with_reducible apply State.toSpare_kept
    | with_reducible apply State.loseCore_kept
    | with_reducible apply State.takeSpare_kept
    | with_reducible apply State.retireCore_kept
    | with_reducible apply Kept.foldl
    | with_reducible apply KeptOut.next)

theorem repair_kept {lim : Nat} {org : State} {s : State} (h : Kept lim org s) (q : Req) :
    Verdict.Kept lim org (repair q s) := by
  unfold repair
  try dsimp only
  repeat' (first
    | with_reducible assumption
    | dsimp only
    | split
    | with_reducible apply refuse_kept
    | with_reducible apply Kept.foldl
    | with_reducible apply Verdict.Kept.done
    | with_reducible apply Verdict.Kept.accept)

theorem State.switchCore_kept {lim : Nat} {org : State} {s : State} (h : Kept lim org s) (c : Cmd) (core : Nat) (passed : Bool) :
    Kept lim org (State.switchCore s c core passed) := by
  unfold State.switchCore
  try dsimp only
  repeat' (first
    | with_reducible assumption
    | dsimp only
    | split
    | with_reducible apply State.completeGeneric_kept
    | with_reducible apply State.startCmd_kept
    | with_reducible apply State.retireCore_kept
    | with_reducible apply State.count_kept
    | with_reducible apply State.spareEvent_kept
    | with_reducible apply State.toSpare_kept
    | with_reducible apply State.takeSpare_kept)

theorem State.switchTinker_kept {lim : Nat} {org : State} {s : State} (h : Kept lim org s) (c : Cmd) (t : Nat) :
    Kept lim org (State.switchTinker s c t) := by
  unfold State.switchTinker
  try dsimp only
  repeat' (first
    | with_reducible assumption
    | dsimp only
    | split
    | with_reducible apply State.completeGeneric_kept
    | with_reducible apply State.startCmd_kept
    | with_reducible apply State.count_kept
    | with_reducible apply State.retireTinker_kept)

theorem execRepairSwitch_kept {lim : Nat} {org : State} {s : State} (h : Kept lim org s) (core : Nat) (passed : Bool) :
    KeptOut lim org (execRepairSwitch core passed s) := by
  unfold execRepairSwitch
  try dsimp only
  repeat' (first
    | with_reducible assumption
    | dsimp only
    | split
    | with_reducible apply State.switchCore_kept
    | with_reducible apply State.switchTinker_kept
    | with_reducible apply Kept.foldl
    | with_reducible apply KeptOut.next)

theorem execSpareSelfTest_kept {lim : Nat} {org : State} {s : State} (h : Kept lim org s) (group : Nat) (passed : Bool) :
    KeptOut lim org (execSpareSelfTest group passed s) := by
  unfold execSpareSelfTest
  try dsimp only
  repeat' (first
    | with_reducible assumption
    | dsimp only
    | split
    | with_reducible apply State.spareEvent_kept
    | with_reducible apply State.count_kept
    | with_reducible apply State.takeSpare_kept
    | with_reducible apply State.retireCore_kept
    | with_reducible apply Kept.foldl
    | with_reducible apply KeptOut.next
    | with_reducible apply Kept.upd
    | with_reducible rfl)

theorem selfTest_kept {lim : Nat} {org : State} {s : State} (h : Kept lim org s) (q : Req) :
    Verdict.Kept lim org (selfTest q s) := by
  unfold selfTest
  try dsimp only
  repeat' (first
    | with_reducible assumption
    | dsimp only
    | split
    | with_reducible apply refuse_kept
    | with_reducible apply Kept.foldl
    | with_reducible apply Verdict.Kept.done
    | with_reducible apply Verdict.Kept.accept)

theorem State.testFails_kept {lim : Nat} {org : State} {s : State} (h : Kept lim org s)  :
    Kept lim org (State.testFails s).2 := by
  unfold State.testFails
  try dsimp only
  repeat' (first
    | with_reducible assumption
    | dsimp only
    | split
    | with_reducible apply State.freeNat_kept)

theorem State.testCore_kept {lim : Nat} {org : State} {s : State} (h : Kept lim org s) (c : Cmd) (cs : List Nat) (f : List Nat) (ts : List Nat) (g : List Nat) (core : Nat) :
    Kept lim org (State.testCore s c cs f ts g core) := by
  unfold State.testCore
  try dsimp only
  repeat' (first
    | with_reducible assumption
    | dsimp only
    | split
    | with_reducible apply State.killCmd_kept
    | with_reducible apply State.startCmd_kept
    | with_reducible apply State.testFails_kept
    | with_reducible apply State.setCmd_kept
    | with_reducible apply State.touchGroups_kept
    | with_reducible apply State.coreFault_kept)

theorem execOperatorStart_kept {lim : Nat} {org : State} {s : State} (h : Kept lim org s) (source : Nat) (tag : Nat) (rec : Nat) (core : Nat) :
    KeptOut lim org (execOperatorStart source tag rec core s) := by
  unfold execOperatorStart
  try dsimp only
  repeat' (first
    | with_reducible assumption
    | dsimp only
    | split
    | with_reducible apply State.testCore_kept
    | with_reducible apply State.startOperator_kept
    | with_reducible apply Kept.foldl
    | with_reducible apply KeptOut.next)

theorem State.testTinker_kept {lim : Nat} {org : State} {s : State} (h : Kept lim org s) (t : Nat) :
    Kept lim org (State.testTinker s t).2 := by
  unfold State.testTinker
  try dsimp only
  repeat' (first
    | with_reducible assumption
    | dsimp only
    | split
    | with_reducible apply State.testFails_kept
    | with_reducible apply State.retireTinker_kept
    | with_reducible apply State.raiseFault_kept)

theorem testTinkers_kept {lim : Nat} {org s : State} (h : Kept lim org s) (ts left bad : List Nat) :
    Kept lim org (testTinkers ts s left bad).2.2 := by
  induction ts generalizing s left bad with
  | nil => exact h
  | cons t ts ih =>
    simp only [testTinkers]
    split
    · exact ih (State.testTinker_kept h t) _ _
    · exact ih h _ _

theorem State.endTest_kept {lim : Nat} {org : State} {s : State} (h : Kept lim org s) (c : Cmd) (f : List Nat) (ts : List Nat) (g : List Nat) :
    Kept lim org (State.endTest s c f ts g) := by
  unfold State.endTest
  try dsimp only
  repeat' (first
    | with_reducible assumption
    | dsimp only
    | split
    | with_reducible apply testTinkers_kept
    | with_reducible apply State.startCmd_kept
    | with_reducible apply State.setCmd_kept
    | with_reducible apply State.complete_kept)

theorem execOperatorCommit_kept {lim : Nat} {org : State} {s : State} (h : Kept lim org s) (source : Nat) (tag : Nat) (rec : Nat) :
    KeptOut lim org (execOperatorCommit source tag rec s) := by
  unfold execOperatorCommit
  try dsimp only
  repeat' (first
    | with_reducible assumption
    | dsimp only
    | split
    | with_reducible apply State.endTest_kept
    | with_reducible apply State.commitOperator_kept
    | with_reducible apply Kept.foldl
    | with_reducible apply KeptOut.next)

theorem State.unspared_kept {lim : Nat} {org : State} {s : State} (h : Kept lim org s)  :
    Kept lim org (State.unspared s) := by
  unfold State.unspared
  try dsimp only
  repeat' (first
    | with_reducible assumption
    | dsimp only
    | split
    | with_reducible apply State.degradeCheck_kept
    | with_reducible apply State.spareEvent_kept
    | with_reducible apply Kept.foldl
    | with_reducible apply Kept.upd
    | intro _
    | with_reducible rfl)

theorem State.spareBank_kept {lim : Nat} {org : State} {s : State} (h : Kept lim org s) (bank : Nat) :
    Kept lim org (State.spareBank s bank) := by
  unfold State.spareBank
  try dsimp only
  repeat' (first
    | with_reducible assumption
    | dsimp only
    | split
    | with_reducible apply State.spareEvent_kept
    | with_reducible apply State.count_kept
    | with_reducible apply State.unspared_kept
    | with_reducible apply Kept.foldl
    | with_reducible apply Kept.upd
    | intro _
    | with_reducible rfl)

theorem State.spareRow_kept {lim : Nat} {org : State} {s : State} (h : Kept lim org s) (bank : Nat) :
    Kept lim org (State.spareRow s bank) := by
  unfold State.spareRow
  try dsimp only
  repeat' (first
    | with_reducible assumption
    | dsimp only
    | split
    | with_reducible apply State.spareEvent_kept
    | with_reducible apply State.count_kept
    | with_reducible apply State.spareBank_kept
    | with_reducible apply Kept.foldl
    | with_reducible apply Kept.upd
    | intro _
    | with_reducible rfl)

theorem execScrubPass_kept {lim : Nat} {org : State} {s : State} (h : Kept lim org s) (fixed : List Nat) (bad : List Nat) (banks : List Nat) :
    KeptOut lim org (execScrubPass fixed bad banks s) := by
  unfold execScrubPass
  try dsimp only
  repeat' (first
    | with_reducible assumption
    | dsimp only
    | split
    | with_reducible apply State.moving_kept
    | with_reducible apply State.count_kept
    | with_reducible apply State.poisonUnits_kept
    | with_reducible apply State.spareRow_kept
    | with_reducible apply State.charge_kept
    | with_reducible apply State.spareBank_kept
    | with_reducible apply Kept.foldl
    | with_reducible apply Kept.foldlFst
    | with_reducible apply Kept.foldlSnd
    | with_reducible apply KeptOut.next
    | with_reducible apply KeptOut.fault
    | with_reducible apply Kept.upd
    | intro _
    | with_reducible rfl)

theorem execPatrolScrub_kept {lim : Nat} {org : State} {s : State} (h : Kept lim org s) (fixed : List Nat) (bad : List Nat) :
    KeptOut lim org (execPatrolScrub fixed bad s) := by
  unfold execPatrolScrub
  try dsimp only
  repeat' (first
    | with_reducible assumption
    | dsimp only
    | split
    | with_reducible apply State.moving_kept
    | with_reducible apply State.count_kept
    | with_reducible apply State.poisonUnits_kept
    | with_reducible apply State.charge_kept
    | with_reducible apply Kept.foldl
    | with_reducible apply Kept.foldlFst
    | with_reducible apply Kept.foldlSnd
    | with_reducible apply KeptOut.next
    | with_reducible apply KeptOut.fault
    | with_reducible apply Kept.upd
    | intro _
    | with_reducible rfl)

theorem execLpddrRetrain_kept {lim : Nat} {org : State} {s : State} (h : Kept lim org s) (package : Nat) :
    KeptOut lim org (execLpddrRetrain package s) := by
  unfold execLpddrRetrain
  try dsimp only
  repeat' (first
    | with_reducible assumption
    | dsimp only
    | split
    | with_reducible apply State.freeNat_kept
    | with_reducible apply State.count_kept
    | with_reducible apply Kept.foldl
    | with_reducible apply KeptOut.next
    | with_reducible apply KeptOut.fault
    | with_reducible apply Kept.upd
    | intro _
    | with_reducible rfl)

theorem execLpddrControllerFault_kept {lim : Nat} {org : State} {s : State} (h : Kept lim org s) (package : Nat) :
    KeptOut lim org (execLpddrControllerFault package s) := by
  unfold execLpddrControllerFault
  try dsimp only
  repeat' (first
    | with_reducible assumption
    | dsimp only
    | split
    | with_reducible apply State.tinkerFailCmd_kept
    | with_reducible apply State.degradeCheck_kept
    | with_reducible apply State.raiseFault_kept
    | with_reducible apply Kept.foldl
    | with_reducible apply Kept.foldlFst
    | with_reducible apply Kept.foldlSnd
    | with_reducible apply KeptOut.next
    | with_reducible apply KeptOut.fault
    | with_reducible apply Kept.upd
    | intro _
    | with_reducible rfl)

theorem State.rate_kept {lim : Nat} {org : State} {s : State} (h : Kept lim org s) (u : Nat) (w : Nat) :
    Kept lim org (State.rate s u w) := by
  unfold State.rate
  try dsimp only
  repeat' (first
    | with_reducible assumption
    | dsimp only
    | split
    | with_reducible apply State.spareEvent_kept
    | with_reducible apply Kept.foldl
    | with_reducible apply Kept.upd
    | intro _
    | with_reducible rfl)

theorem execWearEvaluation_kept {lim : Nat} {org : State} {s : State} (h : Kept lim org s) (wear : List (Nat × Nat)) :
    KeptOut lim org (execWearEvaluation wear s) := by
  unfold execWearEvaluation
  try dsimp only
  repeat' (first
    | with_reducible assumption
    | dsimp only
    | split
    | with_reducible apply State.rate_kept
    | with_reducible apply Kept.foldl
    | with_reducible apply Kept.foldlFst
    | with_reducible apply Kept.foldlSnd
    | with_reducible apply KeptOut.next
    | with_reducible apply KeptOut.fault
    | with_reducible apply Kept.upd
    | intro _
    | with_reducible rfl)

theorem spareStatus_kept {lim : Nat} {org : State} {s : State} (h : Kept lim org s) (_q : Req) :
    Verdict.Kept lim org (spareStatus _q s) := by
  unfold spareStatus
  try dsimp only
  repeat' (first
    | with_reducible assumption
    | dsimp only
    | split
    | with_reducible apply okReply_kept)

theorem countersRead_kept {lim : Nat} {org : State} {s : State} (h : Kept lim org s) (q : Req) :
    Verdict.Kept lim org (countersRead q s) := by
  unfold countersRead
  try dsimp only
  repeat' (first
    | with_reducible assumption
    | dsimp only
    | split
    | with_reducible apply refuse_kept
    | with_reducible apply okReply_kept
    | with_reducible apply State.fresh_kept)

end Sys2Proof.Machine
end

