-- ==== Sys2Proof/Laws/KeptPower.lean ====
section
/-!
SUPPORT. The functions of Machine/Power.lean keep a sound block sound, and undo nothing that no command undoes (`Kept`).
-/
namespace Sys2Proof.Machine

theorem State.setGroup_kept {lim : Nat} {org : State} {s : State} (h : Kept lim org s) (g : Nat) (x : GroupPower) :
    Kept lim org (State.setGroup s g x) := by
  unfold State.setGroup
  try dsimp only
  repeat' (first
    | with_reducible assumption
    | dsimp only
    | split
    | with_reducible apply Kept.foldl
    | with_reducible apply Kept.upd
    | intro _
    | with_reducible rfl
    | with_reducible exact Nat.le_refl _
    | exact Nat.le_succ _
    | simp )

theorem State.stopForPower_kept {lim : Nat} {org : State} {s : State} (h : Kept lim org s) (gs : List Nat) :
    Kept lim org (State.stopForPower s gs) := by
  unfold State.stopForPower
  try dsimp only
  repeat' (first
    | with_reducible assumption
    | dsimp only
    | split
    | with_reducible apply State.stopStream_kept
    | with_reducible apply State.setStream_kept
    | with_reducible apply Kept.foldl
    | with_reducible apply Kept.foldlFst
    | with_reducible apply Kept.foldlSnd
    | with_reducible apply Kept.upd
    | intro _
    | with_reducible rfl)

theorem setPowerState_kept {lim : Nat} {org : State} {s : State} (h : Kept lim org s) (q : Req) :
    Verdict.Kept lim org (setPowerState q s) := by
  unfold setPowerState
  try dsimp only
  repeat' (first
    | with_reducible assumption
    | dsimp only
    | split
    | with_reducible apply refuse_kept
    | with_reducible apply State.stopForPower_kept
    | with_reducible apply Kept.foldl
    | with_reducible apply Verdict.Kept.done
    | with_reducible apply Verdict.Kept.accept)

theorem State.ask_kept {lim : Nat} {org : State} {s : State} (h : Kept lim org s) (t : GState) (g : Nat) :
    Kept lim org (State.ask s t g) := by
  unfold State.ask
  try dsimp only
  repeat' (first
    | with_reducible assumption
    | dsimp only
    | split
    | with_reducible apply State.setGroup_kept)

theorem State.powerProgress_kept {lim : Nat} {org : State} {s : State} (h : Kept lim org s)  :
    Kept lim org (State.powerProgress s) := by
  unfold State.powerProgress
  try dsimp only
  repeat' (first
    | with_reducible assumption
    | dsimp only
    | split
    | with_reducible apply State.completeGeneric_kept
    | with_reducible apply State.setCmd_kept
    | with_reducible apply Kept.foldl
    | with_reducible apply Kept.foldlFst
    | with_reducible apply Kept.foldlSnd
    | with_reducible apply Kept.upd
    | intro _
    | with_reducible rfl)

theorem State.cancelFilling_kept {lim : Nat} {org : State} {s : State} (h : Kept lim org s)  :
    Kept lim org (State.cancelFilling s) := by
  unfold State.cancelFilling
  try dsimp only
  repeat' (first
    | with_reducible assumption
    | dsimp only
    | split
    | with_reducible apply State.sendFlit_kept
    | with_reducible apply State.dropFilling_kept
    | with_reducible apply Kept.foldl
    | with_reducible apply Kept.foldlFst
    | with_reducible apply Kept.foldlSnd
    | with_reducible apply Kept.upd
    | intro _
    | with_reducible rfl)

theorem State.powerBegin_kept {lim : Nat} {org : State} {s : State} (h : Kept lim org s) (c : Cmd) :
    Kept lim org (State.powerBegin s c) := by
  unfold State.powerBegin
  try dsimp only
  repeat' (first
    | with_reducible assumption
    | dsimp only
    | split
    | with_reducible apply State.startCmd_kept
    | with_reducible apply State.completeGeneric_kept
    | with_reducible apply State.cancelFilling_kept
    | with_reducible apply State.powerProgress_kept
    | with_reducible apply State.ask_kept
    | with_reducible apply Kept.foldl
    | with_reducible apply Kept.foldlFst
    | with_reducible apply Kept.foldlSnd
    | with_reducible apply Kept.upd
    | intro _
    | with_reducible rfl)

theorem State.powerNext_kept {lim : Nat} {org s : State} (h : Kept lim org s) (k : Nat) : Kept lim org (State.powerNext k s) := by
  induction k generalizing s with
  | zero => exact h
  | succ k ih =>
    simp only [State.powerNext]
    split
    · exact ih (State.powerBegin_kept h _)
    · exact h

theorem State.powerMove_kept {lim : Nat} {org : State} {s : State} (h : Kept lim org s)  :
    Kept lim org (State.powerMove s) := by
  unfold State.powerMove
  try dsimp only
  repeat' (first
    | with_reducible assumption
    | dsimp only
    | split
    | with_reducible apply State.powerNext_kept
    | with_reducible apply State.powerProgress_kept)

theorem State.mapGroup_kept {lim : Nat} {org : State} {s : State} (h : Kept lim org s) (g : Nat) (f : Core → Core) :
    Kept lim org (State.mapGroup s g f) := by
  unfold State.mapGroup
  try dsimp only
  repeat' (first
    | with_reducible assumption
    | dsimp only
    | split
    | with_reducible apply State.setCore_kept
    | with_reducible apply Kept.foldl
    | with_reducible apply Kept.foldlFst
    | with_reducible apply Kept.foldlSnd
    | with_reducible apply Kept.upd
    | intro _
    | with_reducible rfl)

theorem State.sharedFollow_kept {lim : Nat} {org : State} {s : State} (h : Kept lim org s) :
    Kept lim org (State.sharedFollow s) := by
  unfold State.sharedFollow
  try dsimp only
  repeat' (first
    | with_reducible assumption
    | dsimp only
    | split
    | with_reducible apply Kept.upd
    | intro _
    | with_reducible rfl
    | with_reducible exact Nat.le_refl _)

theorem execGroupStateEntry_kept {lim : Nat} {org : State} {s : State} (h : Kept lim org s) (group : Nat) :
    KeptOut lim org (execGroupStateEntry group s) := by
  unfold execGroupStateEntry
  try dsimp only
  repeat' (first
    | with_reducible assumption
    | dsimp only
    | split
    | with_reducible apply State.sharedFollow_kept
    | with_reducible apply State.stopForPower_kept
    | with_reducible apply State.setGroup_kept
    | with_reducible apply State.mapGroup_kept
    | with_reducible apply State.powerMove_kept
    | with_reducible apply Kept.foldl
    | with_reducible apply KeptOut.next
    | with_reducible rfl)

theorem State.autoDeeper_kept {lim : Nat} {org : State} {s : State} (h : Kept lim org s) (g : Nat) (at_ : Nat) (t : GState) :
    Kept lim org (State.autoDeeper s g at_ t) := by
  unfold State.autoDeeper
  try dsimp only
  repeat' (first
    | with_reducible assumption
    | dsimp only
    | split
    | with_reducible apply State.setGroup_kept
    | with_reducible apply State.reach_kept
    | with_reducible apply State.stopForPower_kept)

theorem execAutoLightTimeout_kept {lim : Nat} {org : State} {s : State} (h : Kept lim org s) (group : Nat) :
    KeptOut lim org (execAutoLightTimeout group s) := by
  unfold execAutoLightTimeout
  try dsimp only
  repeat' (first
    | with_reducible assumption
    | dsimp only
    | split
    | with_reducible apply State.autoDeeper_kept
    | with_reducible apply Kept.foldl
    | with_reducible apply KeptOut.next)

theorem execAutoDeepTimeout_kept {lim : Nat} {org : State} {s : State} (h : Kept lim org s) (group : Nat) :
    KeptOut lim org (execAutoDeepTimeout group s) := by
  unfold execAutoDeepTimeout
  try dsimp only
  repeat' (first
    | with_reducible assumption
    | dsimp only
    | split
    | with_reducible apply State.autoDeeper_kept
    | with_reducible apply Kept.foldl
    | with_reducible apply KeptOut.next)

theorem State.lastKeepalives_kept {lim : Nat} {org : State} {s : State} (h : Kept lim org s) (st : Nat) :
    Kept lim org (State.lastKeepalives s st) := by
  unfold State.lastKeepalives
  try dsimp only
  repeat' (first
    | with_reducible assumption
    | dsimp only
    | split
    | with_reducible apply State.sendPeerKeepalive_kept
    | with_reducible apply State.setLink_kept
    | with_reducible apply State.emit_kept
    | with_reducible apply Kept.foldl
    | with_reducible apply Kept.foldlFst
    | with_reducible apply Kept.foldlSnd
    | with_reducible apply Kept.upd
    | intro _
    | with_reducible rfl)

theorem State.stopLinks_kept {lim : Nat} {org : State} {s : State} (h : Kept lim org s)  :
    Kept lim org (State.stopLinks s) := by
  unfold State.stopLinks
  try dsimp only
  repeat' (first
    | with_reducible assumption
    | dsimp only
    | split
    | with_reducible apply State.linkTo_kept
    | with_reducible apply Kept.foldl
    | with_reducible apply Kept.foldlFst
    | with_reducible apply Kept.foldlSnd
    | with_reducible apply Kept.upd
    | intro _
    | with_reducible rfl)

theorem State.loseAsleep_kept {lim : Nat} {org s : State} (h : Kept lim org s) : Kept lim org (State.loseAsleep s) := by
  unfold State.loseAsleep
  dsimp only
  refine State.count_kept ?_ _ _
  exact { h with
    mem := memFilter_wf _ h.mem
    poison := h.poison.filter _
    cores := (List.length_map _).trans h.cores
    actStacks := (List.length_map _).trans h.actStacks }

theorem State.housed_kept {lim : Nat} {org : State} {s : State} (h : Kept lim org s)  :
    Kept lim org (State.housed s) := by
  unfold State.housed
  try dsimp only
  repeat' (first
    | with_reducible assumption
    | dsimp only
    | split
    | with_reducible apply Kept.foldl
    | with_reducible apply Kept.upd
    | intro _
    | with_reducible rfl
    | with_reducible exact Nat.le_refl _
    | exact Nat.le_succ _
    | simp )

theorem execS3Entry_kept {lim : Nat} {org : State} {s : State} (h : Kept lim org s)  :
    KeptOut lim org (execS3Entry s) := by
  unfold execS3Entry
  try dsimp only
  repeat' (first
    | with_reducible assumption
    | dsimp only
    | split
    | with_reducible apply State.powerMove_kept
    | with_reducible apply State.cancelFilling_kept
    | with_reducible apply State.stopForPower_kept
    | with_reducible apply State.housed_kept
    | with_reducible apply State.loseAsleep_kept
    | with_reducible apply State.stopLinks_kept
    | with_reducible apply State.lastKeepalives_kept
    | with_reducible apply State.completeGeneric_kept
    | with_reducible apply Kept.foldl
    | with_reducible apply KeptOut.next)

theorem State.wakeModule_kept {lim : Nat} {org : State} {s : State} (h : Kept lim org s)  :
    Kept lim org (State.wakeModule s) := by
  unfold State.wakeModule
  try dsimp only
  repeat' (first
    | with_reducible assumption
    | dsimp only
    | split
    | with_reducible apply State.housed_kept
    | with_reducible apply State.retrain_kept
    | with_reducible apply Kept.foldl
    | with_reducible apply Kept.foldlFst
    | with_reducible apply Kept.foldlSnd
    | with_reducible apply Kept.upd
    | intro _
    | with_reducible rfl)

theorem State.wakeFor_kept {lim : Nat} {org : State} {s : State} (h : Kept lim org s) (o : Op) (params : List Byte) (masks : Bool) :
    Kept lim org (State.wakeFor s o params masks) := by
  unfold State.wakeFor
  try dsimp only
  repeat' (first
    | with_reducible assumption
    | dsimp only
    | split
    | with_reducible apply State.wakeModule_kept)

theorem execModuleWake_kept {lim : Nat} {org : State} {s : State} (h : Kept lim org s)  :
    KeptOut lim org (execModuleWake s) := by
  unfold execModuleWake
  try dsimp only
  repeat' (first
    | with_reducible assumption
    | dsimp only
    | split
    | with_reducible apply State.wakeModule_kept
    | with_reducible apply Kept.foldl
    | with_reducible apply KeptOut.next)

theorem State.reinitGroup_kept {lim : Nat} {org : State} {s : State} (h : Kept lim org s) (g : Nat) :
    Kept lim org (State.reinitGroup s g) := by
  unfold State.reinitGroup
  try dsimp only
  repeat' (first
    | with_reducible assumption
    | dsimp only
    | split
    | with_reducible apply State.mapGroup_kept
    | with_reducible apply Kept.upd
    | intro _
    | with_reducible rfl
    | with_reducible exact Nat.le_refl _)

theorem execWakeComplete_kept {lim : Nat} {org : State} {s : State} (h : Kept lim org s) (group : Nat) :
    KeptOut lim org (execWakeComplete group s) := by
  unfold execWakeComplete
  try dsimp only
  repeat' (first
    | with_reducible assumption
    | dsimp only
    | split
    | with_reducible apply State.reinitGroup_kept
    | with_reducible apply State.sharedFollow_kept
    | with_reducible apply State.powerMove_kept
    | with_reducible apply State.count_kept
    | with_reducible apply State.setGroup_kept
    | with_reducible apply State.touchGroups_kept
    | with_reducible apply Kept.foldl
    | with_reducible apply KeptOut.next
    | with_reducible apply KeptOut.fault
    | with_reducible apply Kept.upd
    | intro _
    | with_reducible rfl)

theorem State.noteWait_kept {lim : Nat} {org : State} {s : State} (h : Kept lim org s) (c : Cmd) :
    Kept lim org (State.noteWait s c) := by
  unfold State.noteWait
  try dsimp only
  repeat' (first
    | with_reducible assumption
    | dsimp only
    | split
    | with_reducible apply State.raiseAttn_kept
    | with_reducible apply State.setCmd_kept)

theorem execWakeOnDemand_kept {lim : Nat} {org : State} {s : State} (h : Kept lim org s) (source : Nat) (tag : Nat) :
    KeptOut lim org (execWakeOnDemand source tag s) := by
  unfold execWakeOnDemand
  try dsimp only
  repeat' (first
    | with_reducible assumption
    | dsimp only
    | split
    | with_reducible apply State.noteWait_kept
    | with_reducible apply State.setGroup_kept
    | with_reducible apply Kept.foldl
    | with_reducible apply Kept.foldlFst
    | with_reducible apply Kept.foldlSnd
    | with_reducible apply KeptOut.next
    | with_reducible apply KeptOut.fault
    | with_reducible apply Kept.upd
    | intro _
    | with_reducible rfl)

theorem execLinkS2IdleTimeout_kept {lim : Nat} {org : State} {s : State} (h : Kept lim org s)  :
    KeptOut lim org (execLinkS2IdleTimeout s) := by
  unfold execLinkS2IdleTimeout
  try dsimp only
  repeat' (first
    | with_reducible assumption
    | dsimp only
    | split
    | with_reducible apply State.reach_kept
    | with_reducible apply Kept.foldl
    | with_reducible apply KeptOut.next
    | with_reducible apply KeptOut.fault
    | with_reducible apply Kept.upd
    | intro _
    | with_reducible rfl)

theorem State.throttle_kept {lim : Nat} {org : State} {s : State} (h : Kept lim org s)  :
    Kept lim org (State.throttle s) := by
  unfold State.throttle
  try dsimp only
  repeat' (first
    | with_reducible assumption
    | dsimp only
    | split
    | with_reducible apply State.raiseAttn_kept
    | with_reducible apply Kept.foldl
    | with_reducible apply Kept.upd
    | intro _
    | with_reducible rfl)

theorem State.lookAtCap_kept {lim : Nat} {org : State} {s : State} (h : Kept lim org s)  :
    Kept lim org (State.lookAtCap s) := by
  unfold State.lookAtCap
  try dsimp only
  repeat' (first
    | with_reducible assumption
    | dsimp only
    | split
    | with_reducible apply State.raiseAttn_kept
    | with_reducible apply Kept.foldl
    | with_reducible apply Kept.upd
    | intro _
    | with_reducible rfl)

theorem State.capDown_kept {lim : Nat} {org : State} {s : State} (h : Kept lim org s)  :
    Kept lim org (State.capDown s) := by
  unfold State.capDown
  try dsimp only
  repeat' (first
    | with_reducible assumption
    | dsimp only
    | split
    | with_reducible apply State.freeNat_kept
    | with_reducible apply Kept.foldl
    | with_reducible apply Kept.upd
    | intro _
    | with_reducible rfl
    | exact rfl)

theorem State.capUp_kept {lim : Nat} {org : State} {s : State} (h : Kept lim org s)  :
    Kept lim org (State.capUp s) := by
  unfold State.capUp
  try dsimp only
  repeat' (first
    | with_reducible assumption
    | dsimp only
    | split
    | with_reducible apply Kept.foldl
    | with_reducible apply Kept.upd
    | intro _
    | with_reducible rfl)

theorem execPowerSample_kept {lim : Nat} {org : State} {s : State} (h : Kept lim org s) (watts : Nat) :
    KeptOut lim org (execPowerSample watts s) := by
  unfold execPowerSample
  try dsimp only
  repeat' (first
    | with_reducible assumption
    | dsimp only
    | split
    | with_reducible apply State.lookAtCap_kept
    | with_reducible apply State.throttle_kept
    | with_reducible apply State.capDown_kept
    | with_reducible apply State.capUp_kept
    | with_reducible apply State.count_kept
    | with_reducible apply Kept.foldl
    | with_reducible apply Kept.foldlFst
    | with_reducible apply Kept.foldlSnd
    | with_reducible apply KeptOut.next
    | with_reducible apply KeptOut.fault
    | with_reducible apply Kept.upd
    | intro _
    | with_reducible rfl)

theorem State.sense_kept {lim : Nat} {org : State} {s : State} (h : Kept lim org s) (temps : List Int) :
    Kept lim org (State.sense s temps) := by
  unfold State.sense
  try dsimp only
  repeat' (first
    | with_reducible assumption
    | dsimp only
    | split
    | with_reducible apply Kept.foldl
    | with_reducible apply Kept.foldlFst
    | with_reducible apply Kept.foldlSnd
    | with_reducible apply Kept.upd
    | intro _
    | with_reducible rfl)

theorem State.thermalGroup_kept {lim : Nat} {org : State} {s : State} (h : Kept lim org s) (g : Nat) :
    Kept lim org (State.thermalGroup s g) := by
  unfold State.thermalGroup
  try dsimp only
  repeat' (first
    | with_reducible assumption
    | dsimp only
    | split
    | with_reducible apply State.setGroup_kept
    | with_reducible apply State.throttle_kept)

theorem State.killHeld_kept {lim : Nat} {org : State} {s : State} (h : Kept lim org s) (c : Cmd) :
    Kept lim org (State.killHeld s c) := by
  unfold State.killHeld
  try dsimp only
  repeat' (first
    | with_reducible assumption
    | dsimp only
    | split
    | with_reducible apply State.dropCmd_kept
    | with_reducible apply State.recordTag_kept
    | with_reducible apply State.reply_kept
    | with_reducible exact Nat.le_refl _)

theorem State.thermalTrip_kept {lim : Nat} {org s : State} (h : Kept lim org s) : Kept lim org (State.thermalTrip s) := by
  have key : ∀ t : State, Kept lim org t →
      Kept lim org { t with cmds := [], commits := [], ledger := if t.commits.isEmpty then t.ledger else none } := fun t ht =>
    { ht with
      cmds := Nat.zero_le _
      commits := fun c hc => by cases hc
      ledger := fun l e => by
        have e' : (if t.commits.isEmpty = true then t.ledger else none) = some l := e
        split at e'
        · exact ht.ledger l e'
        · cases e' }
  unfold State.thermalTrip
  refine key _ (Kept.foldl _ _ (State.stopLinks_kept ?_) (fun a c ha => ?_))
  · exact Kept.upd h rfl rfl (Nat.le_refl _) (Nat.le_refl _) (Nat.le_refl _) rfl rfl rfl (Nat.le_refl _) (Nat.le_refl _) (Nat.le_refl _) (Nat.le_refl _) (Nat.le_refl _)
  · split
    · exact State.killCmd_kept ha c _
    · exact State.killHeld_kept ha c

theorem State.hotLimit_kept {lim : Nat} {org : State} {s : State} (h : Kept lim org s) :
    Kept lim org (State.hotLimit s) := by
  unfold State.hotLimit
  try dsimp only
  repeat' (first
    | with_reducible assumption
    | dsimp only
    | split
    | with_reducible apply State.throttle_kept
    | with_reducible apply State.raiseAttn_kept
    | with_reducible apply Kept.upd
    | intro _
    | with_reducible rfl
    | with_reducible exact Nat.le_refl _)

theorem execTempSample_kept {lim : Nat} {org : State} {s : State} (h : Kept lim org s) (temps : List Int) :
    KeptOut lim org (execTempSample temps s) := by
  unfold execTempSample
  try dsimp only
  repeat' (first
    | with_reducible assumption
    | dsimp only
    | split
    | with_reducible apply State.lookAtInlet_kept
    | with_reducible apply State.hotLimit_kept
    | with_reducible apply State.sense_kept
    | with_reducible apply State.raiseAttn_kept
    | with_reducible apply State.throttle_kept
    | with_reducible apply State.thermalTrip_kept
    | with_reducible apply State.thermalGroup_kept
    | with_reducible apply State.count_kept
    | with_reducible apply Kept.foldl
    | with_reducible apply Kept.foldlFst
    | with_reducible apply Kept.foldlSnd
    | with_reducible apply KeptOut.next
    | with_reducible apply KeptOut.fault
    | with_reducible apply Kept.upd
    | intro _
    | with_reducible rfl)

theorem execVfLoopStep_kept {lim : Nat} {org : State} {s : State} (h : Kept lim org s) (core : Nat) :
    KeptOut lim org (execVfLoopStep core s) := by
  unfold execVfLoopStep
  try dsimp only
  repeat' (first
    | with_reducible assumption
    | dsimp only
    | split
    | with_reducible apply State.coreFault_kept
    | with_reducible apply State.freeNat_kept
    | with_reducible apply State.count_kept
    | with_reducible apply Kept.foldl
    | with_reducible apply KeptOut.next
    | with_reducible apply KeptOut.fault
    | with_reducible apply Kept.upd
    | intro _
    | with_reducible rfl)

theorem execThermalPlacement_kept {lim : Nat} {org : State} {s : State} (h : Kept lim org s) (advice : List Nat) :
    KeptOut lim org (execThermalPlacement advice s) := by
  unfold execThermalPlacement
  try dsimp only
  repeat' (first
    | with_reducible assumption
    | dsimp only
    | split
    | with_reducible apply Kept.foldl
    | with_reducible apply KeptOut.next
    | with_reducible apply KeptOut.fault
    | with_reducible apply Kept.upd
    | intro _
    | with_reducible rfl
    | with_reducible exact Nat.le_refl _
    | exact Nat.le_succ _
    | simp )

theorem execInletExcursion_kept {lim : Nat} {org : State} {s : State} (h : Kept lim org s) (inlet : Int) :
    KeptOut lim org (execInletExcursion inlet s) := by
  unfold execInletExcursion
  try dsimp only
  repeat' (first
    | with_reducible assumption
    | dsimp only
    | split
    | with_reducible apply State.lookAtInlet_kept
    | with_reducible apply State.raiseAttn_kept
    | with_reducible apply Kept.foldl
    | with_reducible apply KeptOut.next
    | with_reducible apply KeptOut.fault
    | with_reducible apply Kept.upd
    | intro _
    | with_reducible rfl)

theorem State.setFeed_kept {lim : Nat} {org : State} {s : State} (h : Kept lim org s) (feed : Nat) (b : Bool) :
    Kept lim org (State.setFeed s feed b) := by
  unfold State.setFeed
  try dsimp only
  repeat' (first
    | with_reducible assumption
    | dsimp only
    | split
    | with_reducible apply Kept.upd
    | intro _
    | with_reducible rfl
    | with_reducible exact Nat.le_refl _)

theorem execFeedRestore_kept {lim : Nat} {org : State} {s : State} (h : Kept lim org s) (feed : Nat) :
    KeptOut lim org (execFeedRestore feed s) := by
  unfold execFeedRestore
  try dsimp only
  repeat' (first
    | with_reducible assumption
    | dsimp only
    | split
    | with_reducible apply State.setFeed_kept
    | with_reducible apply State.raiseAttn_kept
    | with_reducible apply Kept.foldl
    | with_reducible apply KeptOut.next
    | with_reducible rfl)

theorem execRefclkLoss_kept {lim : Nat} {org : State} {s : State} (h : Kept lim org s)  :
    KeptOut lim org (execRefclkLoss s) := by
  unfold execRefclkLoss
  try dsimp only
  repeat' (first
    | with_reducible assumption
    | dsimp only
    | split
    | with_reducible apply State.raiseAttn_kept
    | with_reducible apply State.linkTo_kept
    | with_reducible apply Kept.foldl
    | with_reducible apply Kept.foldlFst
    | with_reducible apply Kept.foldlSnd
    | with_reducible apply KeptOut.next
    | with_reducible apply KeptOut.fault
    | with_reducible apply Kept.upd
    | intro _
    | with_reducible rfl)

theorem execRefclkReturn_kept {lim : Nat} {org : State} {s : State} (h : Kept lim org s)  :
    KeptOut lim org (execRefclkReturn s) := by
  unfold execRefclkReturn
  try dsimp only
  repeat' (first
    | with_reducible assumption
    | dsimp only
    | split
    | with_reducible apply Kept.foldl
    | with_reducible apply KeptOut.next
    | with_reducible apply KeptOut.fault
    | with_reducible apply Kept.upd
    | intro _
    | with_reducible rfl)

end Sys2Proof.Machine
end

