-- ==== Sys2Proof/Laws/KeptReset.lean ====
section
/-!
SUPPORT. The functions of Machine/Reset.lean keep a sound block sound, and undo nothing that no command undoes (`Kept`).
-/
namespace Sys2Proof.Machine

/-- The machine right after reset is sound, whatever number of commands may wait. -/
theorem State.reset_sound (lim : Nat) : Sound lim State.reset :=
  { mem := rfl, poison := List.Pairwise.nil, tensors := List.Pairwise.nil, cores := List.length_replicate,
    actStacks := List.length_replicate, groups := List.length_replicate, links := List.length_replicate,
    map := (by simp [State.reset, Health.reset]), sources := Nat.zero_le _, cmds := Nat.zero_le _, audit := Nat.zero_le _,
    settings := fun x hx => (by cases hx), ledger := fun l e => (by cases e), commits := fun c hc => (by cases hc) }

theorem Firmware.choose_counts {f g : Firmware} (h : f.choose = some g) :
    g.measured.rollback = f.rollback ∧ g.measured.bootCount = f.bootCount := by
  unfold Firmware.choose at h
  dsimp only at h
  split at h
  · cases h
    exact ⟨rfl, rfl⟩
  · split at h
    · cases h
      exact ⟨rfl, rfl⟩
    · cases h

theorem reset_kept {lim : Nat} {org : State} {s : State} (h : Kept lim org s) (q : Req) :
    Verdict.Kept lim org (reset q s) := by
  unfold reset
  try dsimp only
  repeat' (first
    | with_reducible assumption
    | dsimp only
    | split
    | with_reducible apply refuse_kept
    | with_reducible apply Kept.foldl
    | with_reducible apply Verdict.Kept.done)

theorem State.coresReset_kept {lim : Nat} {org : State} {s : State} (h : Kept lim org s)  :
    Kept lim org (State.coresReset s) := by
  have h1 : Kept lim org (s.cmds.foldl (fun (a : State) c => if c.usesUnits then a.killCmd c 0x41 else a) s) := by
    refine Kept.foldl _ _ h (fun a c ha => ?_)
    split
    · exact State.killCmd_kept ha c _
    · exact ha
  unfold State.coresReset
  generalize s.cmds.foldl _ s = s1 at h1 ⊢
  apply Kept.upd h1 <;> first
    | (simp; exact le_of_eq h1.cores)
    | exact List.length_map _
    | rfl
    | exact Nat.le_refl _

theorem execCoresResetDone_kept {lim : Nat} {org : State} {s : State} (h : Kept lim org s)  :
    KeptOut lim org (execCoresResetDone s) := by
  unfold execCoresResetDone
  try dsimp only
  repeat' (first
    | with_reducible assumption
    | dsimp only
    | split
    | with_reducible apply State.powerMove_kept
    | with_reducible apply Kept.foldl
    | with_reducible apply KeptOut.next
    | with_reducible apply KeptOut.fault
    | with_reducible apply Kept.upd
    | intro _
    | with_reducible rfl)

theorem State.wiped_kept {lim : Nat} {org s : State} (h : Kept lim org s) : Kept lim org (State.wiped s) :=
  { State.reset_sound lim with
    pending := h.pending, free := h.free, next := h.next, exported := h.exported, rollback := h.rollback, boots := h.boots
    links := (List.length_map _).trans h.links, map := h.map, audit := h.audit, settings := h.settings }

theorem State.readKeys_kept {lim : Nat} {org s : State} (h : Kept lim org s) : Kept lim org (State.readKeys s) := by
  unfold State.readKeys
  dsimp only
  split
  · refine State.raiseFault_kept ?_ _
    apply Kept.upd h <;> rfl
  · exact h

theorem State.trainLinks_kept {lim : Nat} {org : State} {s : State} (h : Kept lim org s) :
    Kept lim org (State.trainLinks s) := by
  unfold State.trainLinks
  apply Kept.upd h <;> first
    | rfl
    | exact Nat.le_refl _
    | (simp [h.links])

theorem State.sampleStraps_kept {lim : Nat} {org : State} {s : State} (h : Kept lim org s) :
    Kept lim org (State.sampleStraps s) := by
  unfold State.sampleStraps
  try dsimp only
  repeat' (first
    | with_reducible assumption
    | dsimp only
    | split
    | with_reducible apply State.freeNat_kept
    | with_reducible apply Kept.upd
    | intro _
    | with_reducible rfl
    | with_reducible exact Nat.le_refl _)

theorem State.boot_kept {lim : Nat} {org s : State} (h : Kept lim org s) : Kept lim org (State.boot s) := by
  have h1 : Kept lim org (({ s.readKeys with
      now := 0
      power := { s.readKeys.power with selfHold := false, hotHold := false, tripLow := false } } : State).trainLinks) := by
    refine State.trainLinks_kept ?_
    apply Kept.upd (State.readKeys_kept h) <;> first | rfl | exact Nat.le_refl _
  unfold State.boot
  dsimp only
  generalize State.trainLinks _ = s1 at h1 ⊢
  split
  · refine State.raiseService_kept ?_ _
    apply Kept.upd h1 <;> first | rfl | exact Nat.le_refl _
  · rename_i f hf
    have hc := Firmware.choose_counts hf
    have h2 : Kept lim org { s1 with
        trust := { s1.trust with firmware := f.measured, flashFault := Config.flashFault s1.trust.firmware.bootCount }
        power := { s1.power with phase := .boot, stage := 0 } } := by
      apply Kept.upd h1 <;> first | rfl | exact Nat.le_refl _ | exact hc.1.ge | exact hc.2.ge
    split
    · exact State.raiseFault_kept h2 _
    · exact h2

theorem State.bootTick_kept {lim : Nat} {org : State} {s : State} (h : Kept lim org s) :
    Kept lim org (State.bootTick s) := by
  unfold State.bootTick
  try dsimp only
  repeat' (first
    | with_reducible assumption
    | dsimp only
    | split
    | with_reducible apply Kept.upd
    | intro _
    | with_reducible rfl
    | with_reducible exact Nat.le_refl _)

theorem State.moduleReset_kept {lim : Nat} {org : State} {s : State} (h : Kept lim org s)  :
    Kept lim org (State.moduleReset s) := by
  unfold State.moduleReset
  try dsimp only
  repeat' (first
    | with_reducible assumption
    | dsimp only
    | split
    | with_reducible apply State.lastKeepalives_kept
    | with_reducible apply State.wiped_kept
    | with_reducible apply Kept.foldl
    | with_reducible apply Kept.upd
    | intro _
    | with_reducible rfl)

theorem State.coldStart_kept {lim : Nat} {org : State} {s : State} (h : Kept lim org s)  :
    Kept lim org (State.coldStart s) := by
  unfold State.coldStart
  try dsimp only
  repeat' (first
    | with_reducible assumption
    | dsimp only
    | split
    | with_reducible apply State.rollback_kept
    | with_reducible apply State.moduleReset_kept
    | with_reducible apply State.boot_kept)

theorem State.repairRow_kept {lim : Nat} {org : State} {s : State} (h : Kept lim org s) (row : Nat) :
    Kept lim org (State.repairRow s row) := by
  unfold State.repairRow
  try dsimp only
  repeat' (first
    | with_reducible assumption
    | dsimp only
    | split
    | with_reducible apply State.freeNat_kept
    | with_reducible apply State.count_kept
    | with_reducible apply State.spareEvent_kept
    | with_reducible apply Kept.upd
    | intro _
    | with_reducible rfl
    | with_reducible exact Nat.le_refl _)

theorem State.repairRows_kept {lim : Nat} {org : State} {s : State} (h : Kept lim org s)  :
    Kept lim org (State.repairRows s) := by
  unfold State.repairRows
  try dsimp only
  repeat' (first
    | with_reducible assumption
    | dsimp only
    | split
    | with_reducible apply State.repairRow_kept
    | with_reducible apply State.freeNat_kept
    | with_reducible apply State.count_kept
    | with_reducible apply State.spareEvent_kept
    | with_reducible apply Kept.foldl
    | with_reducible apply Kept.foldlFst
    | with_reducible apply Kept.foldlSnd
    | with_reducible apply Kept.upd
    | intro _
    | with_reducible rfl)

theorem State.raiseRollback_kept {lim : Nat} {org s : State} (h : Kept lim org s) : Kept lim org (State.raiseRollback s) := by
  unfold State.raiseRollback
  dsimp only
  split <;> split <;> first
    | exact h
    | (rename_i hm
       with_reducible apply State.audit_kept
       with_reducible apply Kept.upd
       · exact h
       all_goals first | with_reducible rfl | with_reducible exact Nat.le_refl _ | exact Nat.le_of_lt hm.1)

theorem State.placeGroups_kept {lim : Nat} {org : State} {s : State} (h : Kept lim org s)  :
    Kept lim org (State.placeGroups s) := by
  unfold State.placeGroups
  try dsimp only
  repeat' (first
    | with_reducible assumption
    | dsimp only
    | split
    | with_reducible apply State.touchGroups_kept
    | with_reducible apply State.setGroup_kept
    | with_reducible apply Kept.foldl
    | with_reducible apply Kept.foldlFst
    | with_reducible apply Kept.foldlSnd
    | with_reducible apply Kept.upd
    | intro _
    | with_reducible rfl)

theorem execReady_kept {lim : Nat} {org : State} {s : State} (h : Kept lim org s)  :
    KeptOut lim org (execReady s) := by
  unfold execReady
  try dsimp only
  repeat' (first
    | with_reducible assumption
    | dsimp only
    | split
    | with_reducible apply State.sharedFollow_kept
    | with_reducible apply State.repairRows_kept
    | with_reducible apply State.audit_kept
    | with_reducible apply State.raiseRollback_kept
    | with_reducible apply State.placeGroups_kept
    | with_reducible apply State.powerMove_kept
    | with_reducible apply State.lookAtCap_kept
    | with_reducible apply Kept.foldl
    | with_reducible apply KeptOut.next
    | with_reducible apply KeptOut.fault
    | with_reducible apply Kept.upd
    | intro _
    | with_reducible rfl
    | with_reducible exact Nat.le_refl _
    | exact Nat.le_succ _)

theorem State.powerGone_kept {lim : Nat} {org : State} {s : State} (h : Kept lim org s) :
    Kept lim org (State.powerGone s) := by
  unfold State.powerGone
  try dsimp only
  repeat' (first
    | with_reducible assumption
    | dsimp only
    | split
    | with_reducible apply State.wiped_kept
    | with_reducible apply Kept.upd
    | intro _
    | with_reducible rfl
    | with_reducible exact Nat.le_refl _)

theorem execBothFeedsLost_kept {lim : Nat} {org : State} {s : State} (h : Kept lim org s)  :
    KeptOut lim org (execBothFeedsLost s) := by
  unfold execBothFeedsLost
  try dsimp only
  repeat' (first
    | with_reducible assumption
    | dsimp only
    | split
    | with_reducible apply State.powerGone_kept
    | with_reducible apply State.wiped_kept
    | with_reducible apply Kept.foldl
    | with_reducible apply KeptOut.next
    | with_reducible apply KeptOut.fault
    | with_reducible apply Kept.upd
    | intro _
    | with_reducible rfl)

theorem execFeedLoss_kept {lim : Nat} {org : State} {s : State} (h : Kept lim org s) (feed : Nat) :
    KeptOut lim org (execFeedLoss feed s) := by
  unfold execFeedLoss
  try dsimp only
  repeat' (first
    | with_reducible assumption
    | dsimp only
    | split
    | with_reducible apply State.powerGone_kept
    | with_reducible apply State.setFeed_kept
    | with_reducible apply State.count_kept
    | with_reducible apply State.raiseAttn_kept
    | with_reducible apply KeptOut.next
    | with_reducible apply KeptOut.fault
    | with_reducible apply Kept.upd
    | intro _
    | with_reducible rfl
    | with_reducible exact Nat.le_refl _)

theorem execPowerUp_kept {lim : Nat} {org : State} {s : State} (h : Kept lim org s) (feed : Nat) :
    KeptOut lim org (execPowerUp feed s) := by
  unfold execPowerUp
  try dsimp only
  repeat' (first
    | with_reducible assumption
    | dsimp only
    | split
    | with_reducible apply Kept.foldl
    | with_reducible apply KeptOut.next
    | with_reducible apply KeptOut.fault
    | with_reducible apply Kept.upd
    | intro _
    | with_reducible rfl)

theorem execRailsInRegulation_kept {lim : Nat} {org : State} {s : State} (h : Kept lim org s)  :
    KeptOut lim org (execRailsInRegulation s) := by
  unfold execRailsInRegulation
  try dsimp only
  repeat' (first
    | with_reducible assumption
    | dsimp only
    | split
    | with_reducible apply Kept.foldl
    | with_reducible apply KeptOut.next
    | with_reducible apply KeptOut.fault
    | with_reducible apply Kept.upd
    | intro _
    | with_reducible rfl)

theorem execResetHoldRelease_kept {lim : Nat} {org : State} {s : State} (h : Kept lim org s)  :
    KeptOut lim org (execResetHoldRelease s) := by
  unfold execResetHoldRelease
  try dsimp only
  repeat' (first
    | with_reducible assumption
    | dsimp only
    | split
    | with_reducible apply State.sampleStraps_kept
    | with_reducible apply State.boot_kept
    | with_reducible apply Kept.foldl
    | with_reducible apply KeptOut.next)

theorem execResetNAssert_kept {lim : Nat} {org : State} {s : State} (h : Kept lim org s)  :
    KeptOut lim org (execResetNAssert s) := by
  unfold execResetNAssert
  try dsimp only
  repeat' (first
    | with_reducible assumption
    | dsimp only
    | split
    | with_reducible apply State.moduleReset_kept
    | with_reducible apply Kept.foldl
    | with_reducible apply KeptOut.next
    | with_reducible apply KeptOut.fault
    | with_reducible apply Kept.upd
    | intro _
    | with_reducible rfl)

theorem execResetNRelease_kept {lim : Nat} {org : State} {s : State} (h : Kept lim org s)  :
    KeptOut lim org (execResetNRelease s) := by
  unfold execResetNRelease
  try dsimp only
  repeat' (first
    | with_reducible assumption
    | dsimp only
    | split
    | with_reducible apply State.sampleStraps_kept
    | with_reducible apply State.boot_kept
    | with_reducible apply Kept.foldl
    | with_reducible apply KeptOut.next
    | with_reducible apply KeptOut.fault
    | with_reducible apply Kept.upd
    | intro _
    | with_reducible rfl)

theorem execThermalTripRecovery_kept {lim : Nat} {org : State} {s : State} (h : Kept lim org s)  :
    KeptOut lim org (execThermalTripRecovery s) := by
  unfold execThermalTripRecovery
  try dsimp only
  repeat' (first
    | with_reducible assumption
    | dsimp only
    | split
    | with_reducible apply State.boot_kept
    | with_reducible apply Kept.foldl
    | with_reducible apply KeptOut.next)

end Sys2Proof.Machine
end

