-- ==== Sys2Proof/Laws/KeptHost.lean ====
section
/-!
SUPPORT. The functions of Machine/Host.lean keep a sound block sound, and undo nothing that no command undoes (`Kept`).
-/
namespace Sys2Proof.Machine

theorem State.addCmd_kept {lim : Nat} {org s : State} (h : Kept lim org s) (c : Cmd) : Kept (lim + 1) org (s.addCmd c) :=
  { h with
    cmds := by
      show (s.cmds ++ [c]).length ≤ lim + 1
      rw [List.length_append]
      exact Nat.add_le_add_right h.cmds 1 }

theorem mapState_kept {lim : Nat} {org : State} {v : Verdict} (h : Verdict.Kept lim org v) (f : State → State)
    (hf : ∀ t, Kept lim org t → Kept lim org (f t)) : Verdict.Kept lim org (v.mapState f) := by
  cases v <;> exact hf _ h

/-- A slot is released. -/
theorem State.dropCmd_less {s : State} {c : Cmd} (hc : ∃ d ∈ s.cmds, d.no = c.no) :
    (s.dropCmd c).cmds.length < s.cmds.length := by
  obtain ⟨d, hd, hn⟩ := hc
  exact List.length_filter_lt_length_iff_exists.2 ⟨d, hd, by simp [hn]⟩

theorem State.cmd_mem {s : State} {source tag : Nat} {c : Cmd} (h : s.cmd source tag = some c) : c ∈ s.cmds :=
  List.mem_of_find?_eq_some h

/-- With a credit left, a slot of the shared queue is free (R348). -/
theorem State.credits_pos {s : State} {k : Nat} (h : s.credits k ≠ 0) : s.cmds.length < 1024 := by
  unfold State.credits at h
  omega

theorem State.bindSource_kept {lim : Nat} {org s : State} (h : Kept lim org s) (p : Packet) (hs : s.sources.length < 256) :
    Kept lim org (s.bindSource p) :=
  { h with
    sources := by
      show (s.sources ++ [_]).length ≤ 256
      rw [List.length_append]
      exact hs }

theorem State.answerTo_kept {lim : Nat} {org : State} {s : State} (h : Kept lim org s) (port : Nat) (opcode : Nat) (source : Nat) (tag : Nat) (r : Res) (params : List Byte) :
    Kept lim org (State.answerTo s port opcode source tag r params) := by
  unfold State.answerTo
  try dsimp only
  repeat' (first
    | with_reducible assumption
    | dsimp only
    | split
    | with_reducible apply State.replyOn_kept)

theorem State.countGap_kept {lim : Nat} {org : State} {s : State} (h : Kept lim org s)  :
    Kept lim org (State.countGap s) := by
  unfold State.countGap
  try dsimp only
  repeat' (first
    | with_reducible assumption
    | dsimp only
    | split
    | with_reducible apply State.count_kept
    | with_reducible apply Kept.foldl
    | with_reducible apply Kept.upd
    | intro _
    | with_reducible rfl)

theorem handle_kept {lim : Nat} {org : State} {s : State} (h : Kept lim org s) (q : Req) :
    Verdict.Kept lim org (handle q s) := by
  unfold handle
  try dsimp only
  repeat' (first
    | with_reducible assumption
    | dsimp only
    | split
    | with_reducible apply nop_kept
    | with_reducible apply getStatus_kept
    | with_reducible apply readAttention_kept
    | with_reducible apply loginChallenge_kept
    | with_reducible apply loginResponse_kept
    | with_reducible apply logout_kept
    | with_reducible apply setPowerState_kept
    | with_reducible apply reset_kept
    | with_reducible apply ledgerBegin_kept
    | with_reducible apply ledgerSet_kept
    | with_reducible apply ledgerCommit_kept
    | with_reducible apply ledgerRollback_kept
    | with_reducible apply settingGet_kept
    | with_reducible apply settingSet_kept
    | with_reducible apply tensorWrite_kept
    | with_reducible apply tensorRead_kept
    | with_reducible apply tensorCopy_kept
    | with_reducible apply tensorFill_kept
    | with_reducible apply tensorDefine_kept
    | with_reducible apply assayRead_kept
    | with_reducible apply networkLoad_kept
    | with_reducible apply networkActivate_kept
    | with_reducible apply opRun_kept
    | with_reducible apply graphRun_kept
    | with_reducible apply abort_kept
    | with_reducible apply fence_kept
    | with_reducible apply networkUnload_kept
    | with_reducible apply stackConfig_kept
    | with_reducible apply updateProgramLoad_kept
    | with_reducible apply updateRun_kept
    | with_reducible apply freezeSet_kept
    | with_reducible apply paramWrite_kept
    | with_reducible apply pairSet_kept
    | with_reducible apply secure_kept
    | with_reducible apply restoreServe_kept
    | with_reducible apply linkStatus_kept
    | with_reducible apply routeLoad_kept
    | with_reducible apply crewListSet_kept
    | with_reducible apply collectiveRun_kept
    | with_reducible apply streamMap_kept
    | with_reducible apply streamStart_kept
    | with_reducible apply streamStop_kept
    | with_reducible apply streamOut_kept
    | with_reducible apply countersRead_kept
    | with_reducible apply spareStatus_kept
    | with_reducible apply repair_kept
    | with_reducible apply selfTest_kept
    | with_reducible apply identityGet_kept
    | with_reducible apply attest_kept
    | with_reducible apply fwStage_kept
    | with_reducible apply fwActivate_kept
    | with_reducible apply auditRead_kept
    | with_reducible apply keyEnrol_kept)

theorem State.afterReply_kept {lim : Nat} {org : State} {s : State} (h : Kept lim org s) (source : Nat) (a0 : After) :
    Kept lim org (State.afterReply s source a0) := by
  unfold State.afterReply
  try dsimp only
  repeat' (first
    | with_reducible assumption
    | dsimp only
    | split
    | with_reducible apply State.afterCmd_kept
    | with_reducible apply State.endLogins_kept
    | with_reducible apply State.coresReset_kept
    | with_reducible apply State.coldStart_kept
    | with_reducible apply State.abortCmd_kept)

theorem State.begin_kept {lim : Nat} {org : State} {s : State} (h : Kept lim org s) (c : Cmd) :
    Kept lim org (State.begin s c) := by
  unfold State.begin
  try dsimp only
  repeat' (first
    | with_reducible assumption
    | dsimp only
    | split
    | with_reducible apply State.startRead_kept
    | with_reducible apply State.powerMove_kept
    | with_reducible apply State.finishAttest_kept
    | with_reducible apply State.finishAudit_kept
    | with_reducible apply State.finishFwStage_kept
    | with_reducible apply State.bindStart_kept
    | with_reducible apply State.startOutput_kept
    | with_reducible apply State.startCmd_kept)


theorem State.single_kept {lim : Nat} {org : State} {s : State} (h : Kept lim org s) (q : Req) (r : Res) (params : List Byte) (after : After) :
    Kept lim org (State.single s q r params after) := by
  unfold State.single
  try dsimp only
  repeat' (first
    | with_reducible assumption
    | dsimp only
    | split
    | with_reducible apply State.recordTag_kept
    | with_reducible apply State.afterReply_kept
    | with_reducible apply State.answerTo_kept)

theorem State.accepted_kept {lim : Nat} {org s : State} (h : Kept lim org s) (q : Req) (params : List Byte) (body : Body)
    (bulk : Option Nat) : Kept (lim + 1) org (State.accepted s q params body bulk) := by
  unfold State.accepted
  dsimp only
  exact State.begin_kept (Kept.foldl _ _ (State.answerTo_kept (State.recordTag_kept (State.addCmd_kept h _) _ _) _ _ _ _ _ _)
    (fun a x ha => State.watchPeer_kept ha x)) _

theorem conclude_kept {lim : Nat} {org : State} {v : Verdict} (h : Verdict.Kept lim org v) (q : Req) : Kept (lim + 1) org (conclude q v) := by
  cases v with
  | done r p s a => exact (State.single_kept (s := s) h q r p a).mono (Nat.le_succ lim)
  | accept p b k s => exact State.accepted_kept (s := s) h q p b k
  | await k s => exact State.addCmd_kept (s := s) h _

theorem State.verdict_kept {lim : Nat} {org : State} {s : State} (h : Kept lim org s) (q : Req) :
    Verdict.Kept lim org (State.verdict s q) := by
  unfold State.verdict
  dsimp only
  split
  · exact mapState_kept (handle_kept h q) _ (fun t ht => State.wakeFor_kept ht _ _ _)
  · exact handle_kept h q

/-- A single reply takes no slot. -/
theorem conclude_done_kept {lim : Nat} {org s : State} (h : Kept lim org s) (q : Req) (r : Res) (p : List Byte) (a : After) :
    Kept lim org (conclude q (.done r p s a)) := State.single_kept h q r p a

/-- A command of form X is answered at once: it takes no slot (R170). -/
theorem handle_exempt {q : Req} (s : State) (hq : q.op.exempt = true) : ∃ r p t a, handle q s = .done r p t a := by
  unfold handle
  split <;> rename_i e <;> rw [e] at hq <;> try exact absurd hq (by decide)
  · exact ⟨_, _, _, _, rfl⟩
  · exact ⟨_, _, _, _, rfl⟩
  · have entry : ∀ a b, ∃ r p t c, s.abortEntry a b = .done r p t c := by
      intro a b
      unfold State.abortEntry
      repeat' (first | exact ⟨_, _, _, _, rfl⟩ | dsimp only | split)
    unfold abort
    dsimp only
    repeat' (first | exact entry _ _ | exact ⟨_, _, _, _, rfl⟩ | split)


theorem State.serve_kept {lim : Nat} {org s : State} (h : Kept lim org s) (q : Req) : Kept (lim + 1) org (State.serve s q) :=
  conclude_kept (State.verdict_kept h q) q

theorem State.serve_exempt_kept {lim : Nat} {org s : State} (h : Kept lim org s) (q : Req) (hq : q.op.exempt = true) :
    Kept lim org (State.serve s q) := by
  obtain ⟨r, p, t, a, e⟩ := handle_exempt s hq
  have hv := handle_kept h q
  rw [e] at hv
  unfold State.serve State.verdict
  rw [e]
  dsimp only
  split
  · exact conclude_done_kept (State.wakeFor_kept hv _ _ _) q r p a
  · exact conclude_done_kept hv q r p a

theorem State.hold_kept {lim : Nat} {org s : State} (h : Kept lim org s) (q : Req) : Kept (lim + 1) org (State.hold s q) := by
  unfold State.hold
  split <;> exact State.addCmd_kept h _

/-- The branch of `State.dispatch` for an opcode of Table 12.2. -/
theorem dispatch_op_kept {org s : State} (h : Kept 1024 org s) (o : Op) (p : Packet) (params : List Byte)
    (hc : o.exempt = false → s.cmds.length < 1024) :
    Kept 1024 org (if s.mustHold (s.request o p params) then s.hold (s.request o p params) else s.serve (s.request o p params)) := by
  have hop : (s.request o p params).op = o := by
    unfold State.request
    split <;> rfl
  cases he : o.exempt with
  | true =>
    have hm : s.mustHold (s.request o p params) = false := by
      have hi : o.immediate (s.request o p params).params = false := by
        cases o <;> first | rfl | exact absurd he (by decide)
      unfold State.mustHold
      rw [hop, hi]
      simp
    rw [if_neg (by rw [hm]; decide)]
    exact State.serve_exempt_kept h _ (by rw [hop]; exact he)
  | false =>
    have h1 : Kept 1023 org s := h.narrow (by have := hc he; omega)
    split
    · exact State.hold_kept h1 _
    · exact State.serve_kept h1 _

theorem State.dispatch_kept {org s : State} (h : Kept 1024 org s) (opcode : Nat) (p : Packet) (params : List Byte) :
    Kept 1024 org (State.dispatch s opcode p params) := by
  have say : ∀ (t : State) (r : Res), Kept 1024 org t → Kept 1024 org (t.answerTo p.port opcode p.source p.tag r []) :=
    fun t r ht => State.answerTo_kept ht _ _ _ _ _ _
  unfold State.dispatch
  cases ho : Op.ofCode opcode with
  | none =>
    dsimp only
    repeat' (first
      | exact say _ _ h
      | exact say _ _ (State.overrun_kept (State.count_kept h _ _) _)
      | split)
  | some o =>
    dsimp only
    split
    · exact say _ _ h
    · split
      · exact say _ _ h
      · split
        · exact say _ _ (State.overrun_kept (State.count_kept h _ _) _)
        · rename_i hcredit
          have hc : o.exempt = false → s.cmds.length < 1024 := by
            intro he
            exact State.credits_pos (k := p.source) (by simpa [he] using hcredit)
          split
          · exact say _ _ h
          · split
            · exact say _ _ h
            · split
              · exact say _ _ h
              · exact dispatch_op_kept h o p params hc

theorem State.onSource_kept {lim : Nat} {org : State} {s : State} (h : Kept lim org s) (n : Nat) (f : Source → Source) :
    Kept lim org (State.onSource s n f) := by
  unfold State.onSource
  try dsimp only
  repeat' (first
    | with_reducible assumption
    | dsimp only
    | split
    | with_reducible apply State.setSource_kept)


theorem State.endContin_kept {lim : Nat} {org : State} {s : State} (h : Kept lim org s) (opcode : Nat) (p : Packet) :
    Kept lim org (State.endContin s opcode p) := by
  unfold State.endContin
  try dsimp only
  repeat' (first
    | with_reducible assumption
    | dsimp only
    | split
    | with_reducible apply State.answerTo_kept
    | with_reducible apply State.onSource_kept)

theorem State.gather_kept {org : State} {s : State} (h : Kept 1024 org s) (opcode : Nat) (p : Packet) :
    Kept 1024 org (State.gather s opcode p) := by
  unfold State.gather
  try dsimp only
  repeat' (first
    | with_reducible assumption
    | dsimp only
    | split
    | with_reducible apply State.onSource_kept
    | with_reducible apply State.answerTo_kept
    | with_reducible apply State.dispatch_kept)

theorem State.inSequence_kept {org : State} {s : State} (h : Kept 1024 org s) (opcode : Nat) (p : Packet) :
    Kept 1024 org (State.inSequence s opcode p) := by
  unfold State.inSequence
  try dsimp only
  repeat' (first
    | with_reducible assumption
    | dsimp only
    | split
    | with_reducible apply State.gather_kept
    | with_reducible apply State.onSource_kept
    | with_reducible apply State.answerTo_kept
    | with_reducible apply State.countGap_kept)

theorem State.takePacket_kept {org s : State} (h : Kept 1024 org s) (opcode : Nat) (p : Packet) :
    Kept 1024 org (State.takePacket s opcode p) := by
  have h1 : Kept 1024 org (s.count 0x0600 1) := State.count_kept h _ _
  unfold State.takePacket
  dsimp only
  repeat' (first
    | exact h
    | exact h1
    | exact State.overrun_kept (State.count_kept h _ _) _
    | exact State.count_kept h _ _
    | exact State.count_kept h1 _ _
    | exact State.inSequence_kept (State.endContin_kept h1 _ _) _ _
    | exact State.inSequence_kept (State.bindSource_kept h1 p (by assumption)) _ _
    | exact State.dispatch_kept h1 _ _ _
    | exact State.answerTo_kept h1 _ _ _ _ _ _
    | split)

theorem recvPacket_kept {org : State} {s : State} (h : Kept 1024 org s) (opcode : Nat) (p : Packet) :
    KeptOut 1024 org (recvPacket opcode p s) := by
  unfold recvPacket
  try dsimp only
  repeat' (first
    | with_reducible assumption
    | dsimp only
    | split
    | with_reducible apply State.takePacket_kept
    | with_reducible apply State.corrected_kept
    | with_reducible apply Kept.foldl
    | with_reducible apply KeptOut.next
    | with_reducible apply KeptOut.fault)

theorem recvCommand_kept {org : State} {s : State} (h : Kept 1024 org s) (op : Op) (p : Packet) :
    KeptOut 1024 org (recvCommand op p s) := by
  unfold recvCommand
  try dsimp only
  repeat' (first
    | with_reducible assumption
    | dsimp only
    | split
    | with_reducible apply recvPacket_kept)

theorem execCommandContinuation_kept {org : State} {s : State} (h : Kept 1024 org s) (opcode : Nat) (p : Packet) :
    KeptOut 1024 org (execCommandContinuation opcode p s) := by
  unfold execCommandContinuation
  try dsimp only
  repeat' (first
    | with_reducible assumption
    | dsimp only
    | split
    | with_reducible apply recvPacket_kept)

theorem execPacketDropped_kept {lim : Nat} {org : State} {s : State} (h : Kept lim org s) (port : Nat) :
    KeptOut lim org (execPacketDropped port s) := by
  unfold execPacketDropped
  try dsimp only
  repeat' (first
    | with_reducible assumption
    | dsimp only
    | split
    | with_reducible apply State.corrected_kept
    | with_reducible apply State.count_kept
    | with_reducible apply Kept.foldl
    | with_reducible apply KeptOut.next
    | with_reducible apply KeptOut.fault)

theorem execPacketIgnored_kept {lim : Nat} {org : State} {s : State} (h : Kept lim org s) (port : Nat) :
    KeptOut lim org (execPacketIgnored port s) := by
  unfold execPacketIgnored
  try dsimp only
  repeat' (first
    | with_reducible assumption
    | dsimp only
    | split
    | with_reducible apply State.corrected_kept
    | with_reducible apply State.count_kept
    | with_reducible apply Kept.foldl
    | with_reducible apply KeptOut.next
    | with_reducible apply KeptOut.fault)

theorem State.waitVerdict_kept {lim : Nat} {org : State} {s : State} (h : Kept lim org s) (c : Cmd) :
    Verdict.Kept lim org (State.waitVerdict s c) := by
  unfold State.waitVerdict
  try dsimp only
  repeat' (first
    | with_reducible assumption
    | dsimp only
    | split
    | with_reducible apply State.networkDone_kept
    | with_reducible apply State.crewListDone_kept
    | with_reducible apply State.verdict_kept
    | with_reducible apply Verdict.Kept.done
    | with_reducible exact Nat.le_refl _)

theorem concludeMute_kept {lim : Nat} {org : State} {v : Verdict} (h : Verdict.Kept lim org v) (q : Req) :
    Kept lim org (concludeMute q v) := by
  cases v with
  | done r p s a => exact State.afterReply_kept (s := s) h _ _
  | accept p b k s => exact h
  | await k s => exact h

theorem State.finishWaiting_kept {lim : Nat} {org s : State} (h : Kept lim org s) (c : Cmd) (hc : ∃ d ∈ s.cmds, d.no = c.no) :
    Kept lim org (State.finishWaiting s c) := by
  have hl := State.dropCmd_less hc
  have h1 : Kept (lim - 1) org (s.dropCmd c) := (State.dropCmd_kept h c).narrow (by have := h.cmds; omega)
  have hp : lim - 1 + 1 = lim := by have := h.cmds; omega
  have hv := State.waitVerdict_kept h1 c
  unfold State.finishWaiting
  dsimp only
  split
  · rw [← hp]
    exact State.afterCmd_kept (conclude_kept hv _) _
  · exact (concludeMute_kept hv _).mono (by omega)

theorem execCommandStart_kept {lim : Nat} {org s : State} (h : Kept lim org s) (source tag : Nat) :
    KeptOut lim org (execCommandStart source tag s) := by
  unfold execCommandStart
  split
  · exact KeptOut.next h
  · rename_i c hc
    split
    · exact KeptOut.next (State.begin_kept h c)
    · have fin := State.finishWaiting_kept h c ⟨c, State.cmd_mem hc, rfl⟩
      refine KeptOut.next ?_
      repeat' (first | exact fin | exact h | split)

theorem State.bulkFails_kept {lim : Nat} {org : State} {s : State} (h : Kept lim org s) (c : Cmd) :
    Kept lim org (State.bulkFails s c) := by
  unfold State.bulkFails
  try dsimp only
  repeat' (first
    | with_reducible assumption
    | dsimp only
    | split
    | with_reducible apply State.failBulk_kept
    | with_reducible apply State.dropCmd_kept
    | with_reducible apply State.afterCmd_kept
    | with_reducible apply State.answerTo_kept
    | with_reducible apply State.countGap_kept)

theorem State.bulkGoes_kept {lim : Nat} {org s : State} (h : Kept lim org s) (c : Cmd) (b : BulkIn) (data : List Byte)
    (hc : c ∈ s.cmds) : Kept lim org (State.bulkGoes s c b data) := by
  have h1 : ∀ d : Cmd, Kept lim org ((s.setCmd d).count 0x0601 data.length) := fun d =>
    State.count_kept (State.setCmd_kept h d) _ _
  unfold State.bulkGoes
  dsimp only
  split
  · exact h1 _
  · split
    · exact State.begin_kept (h1 _) _
    · split
      · exact h1 _
      · refine State.finishWaiting_kept (h1 _) _ ⟨{ c with bulk := some { b with data := b.data ++ data, lastAt := s.now } }, ?_, rfl⟩
        rw [State.count_cmds]
        exact List.mem_map.2 ⟨c, hc, if_pos rfl⟩

theorem State.takeBulk_kept {lim : Nat} {org s : State} (h : Kept lim org s) (source tag offset : Nat) (data : List Byte) :
    Kept lim org (State.takeBulk s source tag offset data) := by
  unfold State.takeBulk
  repeat' (first
    | with_reducible assumption
    | split
    | with_reducible apply State.count_kept
    | with_reducible apply State.bulkFails_kept
    | exact State.bulkGoes_kept h _ _ _ (State.cmd_mem (by assumption)))

theorem State.bulkIn_kept {lim : Nat} {org : State} {s : State} (h : Kept lim org s) (b : PortBulk) :
    Kept lim org (State.bulkIn s b) := by
  unfold State.bulkIn
  try dsimp only
  repeat' (first
    | with_reducible assumption
    | dsimp only
    | split
    | with_reducible apply State.count_kept
    | with_reducible apply State.takeBulk_kept)

theorem State.offerBulk_kept {lim : Nat} {org : State} {s : State} (h : Kept lim org s) (b : PortBulk) :
    Kept lim org (State.offerBulk s b) := by
  unfold State.offerBulk
  try dsimp only
  repeat' (first
    | with_reducible assumption
    | dsimp only
    | split
    | with_reducible apply State.waitAt_kept
    | with_reducible apply State.bulkIn_kept
    | with_reducible apply Kept.foldl
    | with_reducible apply Kept.upd
    | intro _
    | with_reducible rfl)

theorem State.recvBulk_kept {lim : Nat} {org : State} {s : State} (h : Kept lim org s) (port : Nat) (source : Nat) (tag : Nat) (offset : Nat) (data : List Byte) :
    Kept lim org (State.recvBulk s port source tag offset data) := by
  unfold State.recvBulk
  try dsimp only
  repeat' (first
    | with_reducible assumption
    | dsimp only
    | split
    | with_reducible apply State.overrun_kept
    | with_reducible apply State.count_kept
    | with_reducible apply State.offerBulk_kept)

theorem State.drainPorts_kept {lim : Nat} {org : State} {s : State} (h : Kept lim org s)  :
    Kept lim org (State.drainPorts s) := by
  unfold State.drainPorts
  try dsimp only
  repeat' (first
    | with_reducible assumption
    | dsimp only
    | split
    | with_reducible apply State.offerBulk_kept
    | with_reducible apply Kept.foldl
    | with_reducible apply Kept.foldlFst
    | with_reducible apply Kept.foldlSnd
    | with_reducible apply Kept.upd
    | intro _
    | with_reducible rfl)

theorem execBulkPacket_kept {lim : Nat} {org : State} {s : State} (h : Kept lim org s) (port : Nat) (source : Nat) (tag : Nat) (offset : Nat) (data : List Byte) :
    KeptOut lim org (execBulkPacket port source tag offset data s) := by
  unfold execBulkPacket
  try dsimp only
  repeat' (first
    | with_reducible assumption
    | dsimp only
    | split
    | with_reducible apply State.recvBulk_kept
    | with_reducible apply State.corrected_kept
    | with_reducible apply Kept.foldl
    | with_reducible apply KeptOut.next
    | with_reducible apply KeptOut.fault)

theorem State.stintPower_kept {lim : Nat} {org : State} {s : State} (h : Kept lim org s) : Kept lim org s.stintPower := by
  unfold State.stintPower
  dsimp only
  apply Kept.upd h <;> rfl

theorem State.redrawHold_kept {lim : Nat} {org : State} {s : State} (h : Kept lim org s) :
    Kept lim org (State.redrawHold s) := by
  unfold State.redrawHold
  try dsimp only
  repeat' (first
    | with_reducible assumption
    | dsimp only
    | split
    | with_reducible apply State.freeNat_kept
    | with_reducible apply Kept.upd
    | intro _
    | with_reducible rfl
    | with_reducible exact Nat.le_refl _)

theorem execStintBoundary_kept {lim : Nat} {org : State} {s : State} (h : Kept lim org s)  :
    KeptOut lim org (execStintBoundary s) := by
  unfold execStintBoundary
  try dsimp only
  repeat' (first
    | with_reducible assumption
    | dsimp only
    | split
    | with_reducible apply State.redrawHold_kept
    | with_reducible apply State.drainFlits_kept
    | with_reducible apply State.drainFrames_kept
    | with_reducible apply State.reach_kept
    | with_reducible apply State.drainPorts_kept
    | with_reducible apply State.settleStint_kept
    | with_reducible apply State.stintPower_kept
    | with_reducible apply Kept.foldl
    | with_reducible apply KeptOut.next
    | with_reducible apply KeptOut.fault
    | with_reducible apply Kept.upd
    | intro _
    | with_reducible rfl)

theorem execBulkGapTimeout_kept {lim : Nat} {org : State} {s : State} (h : Kept lim org s) (source : Nat) (tag : Nat) :
    KeptOut lim org (execBulkGapTimeout source tag s) := by
  unfold execBulkGapTimeout
  try dsimp only
  repeat' (first
    | with_reducible assumption
    | dsimp only
    | split
    | with_reducible apply State.bulkFails_kept
    | with_reducible apply State.reach_kept
    | with_reducible apply Kept.foldl
    | with_reducible apply KeptOut.next)

theorem execNop_kept {org : State} {s : State} (h : Kept 1024 org s) (p : Packet) :
    KeptOut 1024 org (execNop p s) := by
  unfold execNop
  try dsimp only
  repeat' (first
    | with_reducible assumption
    | dsimp only
    | split
    | with_reducible apply recvCommand_kept)

theorem execGetStatus_kept {org : State} {s : State} (h : Kept 1024 org s) (p : Packet) :
    KeptOut 1024 org (execGetStatus p s) := by
  unfold execGetStatus
  try dsimp only
  repeat' (first
    | with_reducible assumption
    | dsimp only
    | split
    | with_reducible apply recvCommand_kept)

theorem execReadAttention_kept {org : State} {s : State} (h : Kept 1024 org s) (p : Packet) :
    KeptOut 1024 org (execReadAttention p s) := by
  unfold execReadAttention
  try dsimp only
  repeat' (first
    | with_reducible assumption
    | dsimp only
    | split
    | with_reducible apply recvCommand_kept)

theorem execLoginChallenge_kept {org : State} {s : State} (h : Kept 1024 org s) (p : Packet) :
    KeptOut 1024 org (execLoginChallenge p s) := by
  unfold execLoginChallenge
  try dsimp only
  repeat' (first
    | with_reducible assumption
    | dsimp only
    | split
    | with_reducible apply recvCommand_kept)

theorem execLoginResponse_kept {org : State} {s : State} (h : Kept 1024 org s) (p : Packet) :
    KeptOut 1024 org (execLoginResponse p s) := by
  unfold execLoginResponse
  try dsimp only
  repeat' (first
    | with_reducible assumption
    | dsimp only
    | split
    | with_reducible apply recvCommand_kept)

theorem execLogout_kept {org : State} {s : State} (h : Kept 1024 org s) (p : Packet) :
    KeptOut 1024 org (execLogout p s) := by
  unfold execLogout
  try dsimp only
  repeat' (first
    | with_reducible assumption
    | dsimp only
    | split
    | with_reducible apply recvCommand_kept)

theorem execSetPowerState_kept {org : State} {s : State} (h : Kept 1024 org s) (p : Packet) :
    KeptOut 1024 org (execSetPowerState p s) := by
  unfold execSetPowerState
  try dsimp only
  repeat' (first
    | with_reducible assumption
    | dsimp only
    | split
    | with_reducible apply recvCommand_kept)

theorem execResetCores_kept {org : State} {s : State} (h : Kept 1024 org s) (p : Packet) :
    KeptOut 1024 org (execResetCores p s) := by
  unfold execResetCores
  try dsimp only
  repeat' (first
    | with_reducible assumption
    | dsimp only
    | split
    | with_reducible apply recvCommand_kept)

theorem execResetModule_kept {org : State} {s : State} (h : Kept 1024 org s) (p : Packet) :
    KeptOut 1024 org (execResetModule p s) := by
  unfold execResetModule
  try dsimp only
  repeat' (first
    | with_reducible assumption
    | dsimp only
    | split
    | with_reducible apply recvCommand_kept)

theorem execLedgerBegin_kept {org : State} {s : State} (h : Kept 1024 org s) (p : Packet) :
    KeptOut 1024 org (execLedgerBegin p s) := by
  unfold execLedgerBegin
  try dsimp only
  repeat' (first
    | with_reducible assumption
    | dsimp only
    | split
    | with_reducible apply recvCommand_kept)

theorem execLedgerSet_kept {org : State} {s : State} (h : Kept 1024 org s) (p : Packet) :
    KeptOut 1024 org (execLedgerSet p s) := by
  unfold execLedgerSet
  try dsimp only
  repeat' (first
    | with_reducible assumption
    | dsimp only
    | split
    | with_reducible apply recvCommand_kept)

theorem execLedgerCommit_kept {org : State} {s : State} (h : Kept 1024 org s) (p : Packet) :
    KeptOut 1024 org (execLedgerCommit p s) := by
  unfold execLedgerCommit
  try dsimp only
  repeat' (first
    | with_reducible assumption
    | dsimp only
    | split
    | with_reducible apply recvCommand_kept)

theorem execLedgerRollback_kept {org : State} {s : State} (h : Kept 1024 org s) (p : Packet) :
    KeptOut 1024 org (execLedgerRollback p s) := by
  unfold execLedgerRollback
  try dsimp only
  repeat' (first
    | with_reducible assumption
    | dsimp only
    | split
    | with_reducible apply recvCommand_kept)

theorem execSettingGet_kept {org : State} {s : State} (h : Kept 1024 org s) (p : Packet) :
    KeptOut 1024 org (execSettingGet p s) := by
  unfold execSettingGet
  try dsimp only
  repeat' (first
    | with_reducible assumption
    | dsimp only
    | split
    | with_reducible apply recvCommand_kept)

theorem execSettingSet_kept {org : State} {s : State} (h : Kept 1024 org s) (p : Packet) :
    KeptOut 1024 org (execSettingSet p s) := by
  unfold execSettingSet
  try dsimp only
  repeat' (first
    | with_reducible assumption
    | dsimp only
    | split
    | with_reducible apply recvCommand_kept)

theorem execTensorWrite_kept {org : State} {s : State} (h : Kept 1024 org s) (p : Packet) :
    KeptOut 1024 org (execTensorWrite p s) := by
  unfold execTensorWrite
  try dsimp only
  repeat' (first
    | with_reducible assumption
    | dsimp only
    | split
    | with_reducible apply recvCommand_kept)

theorem execTensorRead_kept {org : State} {s : State} (h : Kept 1024 org s) (p : Packet) :
    KeptOut 1024 org (execTensorRead p s) := by
  unfold execTensorRead
  try dsimp only
  repeat' (first
    | with_reducible assumption
    | dsimp only
    | split
    | with_reducible apply recvCommand_kept)

theorem execTensorCopy_kept {org : State} {s : State} (h : Kept 1024 org s) (p : Packet) :
    KeptOut 1024 org (execTensorCopy p s) := by
  unfold execTensorCopy
  try dsimp only
  repeat' (first
    | with_reducible assumption
    | dsimp only
    | split
    | with_reducible apply recvCommand_kept)

theorem execTensorFill_kept {org : State} {s : State} (h : Kept 1024 org s) (p : Packet) :
    KeptOut 1024 org (execTensorFill p s) := by
  unfold execTensorFill
  try dsimp only
  repeat' (first
    | with_reducible assumption
    | dsimp only
    | split
    | with_reducible apply recvCommand_kept)

theorem execTensorDefine_kept {org : State} {s : State} (h : Kept 1024 org s) (p : Packet) :
    KeptOut 1024 org (execTensorDefine p s) := by
  unfold execTensorDefine
  try dsimp only
  repeat' (first
    | with_reducible assumption
    | dsimp only
    | split
    | with_reducible apply recvCommand_kept)

theorem execTensorRelease_kept {org : State} {s : State} (h : Kept 1024 org s) (p : Packet) :
    KeptOut 1024 org (execTensorRelease p s) := by
  unfold execTensorRelease
  try dsimp only
  repeat' (first
    | with_reducible assumption
    | dsimp only
    | split
    | with_reducible apply recvCommand_kept)

theorem execAssayRead_kept {org : State} {s : State} (h : Kept 1024 org s) (p : Packet) :
    KeptOut 1024 org (execAssayRead p s) := by
  unfold execAssayRead
  try dsimp only
  repeat' (first
    | with_reducible assumption
    | dsimp only
    | split
    | with_reducible apply recvCommand_kept)

theorem execNetworkLoad_kept {org : State} {s : State} (h : Kept 1024 org s) (p : Packet) :
    KeptOut 1024 org (execNetworkLoad p s) := by
  unfold execNetworkLoad
  try dsimp only
  repeat' (first
    | with_reducible assumption
    | dsimp only
    | split
    | with_reducible apply recvCommand_kept)

theorem execNetworkActivate_kept {org : State} {s : State} (h : Kept 1024 org s) (p : Packet) :
    KeptOut 1024 org (execNetworkActivate p s) := by
  unfold execNetworkActivate
  try dsimp only
  repeat' (first
    | with_reducible assumption
    | dsimp only
    | split
    | with_reducible apply recvCommand_kept)

theorem execNetworkUnload_kept {org : State} {s : State} (h : Kept 1024 org s) (p : Packet) :
    KeptOut 1024 org (execNetworkUnload p s) := by
  unfold execNetworkUnload
  try dsimp only
  repeat' (first
    | with_reducible assumption
    | dsimp only
    | split
    | with_reducible apply recvCommand_kept)

theorem execOpRun_kept {org : State} {s : State} (h : Kept 1024 org s) (p : Packet) :
    KeptOut 1024 org (execOpRun p s) := by
  unfold execOpRun
  try dsimp only
  repeat' (first
    | with_reducible assumption
    | dsimp only
    | split
    | with_reducible apply recvCommand_kept)

theorem execGraphRun_kept {org : State} {s : State} (h : Kept 1024 org s) (p : Packet) :
    KeptOut 1024 org (execGraphRun p s) := by
  unfold execGraphRun
  try dsimp only
  repeat' (first
    | with_reducible assumption
    | dsimp only
    | split
    | with_reducible apply recvCommand_kept)

theorem execAbort_kept {org : State} {s : State} (h : Kept 1024 org s) (p : Packet) :
    KeptOut 1024 org (execAbort p s) := by
  unfold execAbort
  try dsimp only
  repeat' (first
    | with_reducible assumption
    | dsimp only
    | split
    | with_reducible apply recvCommand_kept)

theorem execFence_kept {org : State} {s : State} (h : Kept 1024 org s) (p : Packet) :
    KeptOut 1024 org (execFence p s) := by
  unfold execFence
  try dsimp only
  repeat' (first
    | with_reducible assumption
    | dsimp only
    | split
    | with_reducible apply recvCommand_kept)

theorem execStackConfigure_kept {org : State} {s : State} (h : Kept 1024 org s) (p : Packet) :
    KeptOut 1024 org (execStackConfigure p s) := by
  unfold execStackConfigure
  try dsimp only
  repeat' (first
    | with_reducible assumption
    | dsimp only
    | split
    | with_reducible apply recvCommand_kept)

theorem execStackClear_kept {org : State} {s : State} (h : Kept 1024 org s) (p : Packet) :
    KeptOut 1024 org (execStackClear p s) := by
  unfold execStackClear
  try dsimp only
  repeat' (first
    | with_reducible assumption
    | dsimp only
    | split
    | with_reducible apply recvCommand_kept)

theorem execStackQuery_kept {org : State} {s : State} (h : Kept 1024 org s) (p : Packet) :
    KeptOut 1024 org (execStackQuery p s) := by
  unfold execStackQuery
  try dsimp only
  repeat' (first
    | with_reducible assumption
    | dsimp only
    | split
    | with_reducible apply recvCommand_kept)

theorem execUpdateProgramLoad_kept {org : State} {s : State} (h : Kept 1024 org s) (p : Packet) :
    KeptOut 1024 org (execUpdateProgramLoad p s) := by
  unfold execUpdateProgramLoad
  try dsimp only
  repeat' (first
    | with_reducible assumption
    | dsimp only
    | split
    | with_reducible apply recvCommand_kept)

theorem execUpdateProgramUnload_kept {org : State} {s : State} (h : Kept 1024 org s) (p : Packet) :
    KeptOut 1024 org (execUpdateProgramUnload p s) := by
  unfold execUpdateProgramUnload
  try dsimp only
  repeat' (first
    | with_reducible assumption
    | dsimp only
    | split
    | with_reducible apply recvCommand_kept)

theorem execUpdateRun_kept {org : State} {s : State} (h : Kept 1024 org s) (p : Packet) :
    KeptOut 1024 org (execUpdateRun p s) := by
  unfold execUpdateRun
  try dsimp only
  repeat' (first
    | with_reducible assumption
    | dsimp only
    | split
    | with_reducible apply recvCommand_kept)

theorem execFreezeSet_kept {org : State} {s : State} (h : Kept 1024 org s) (p : Packet) :
    KeptOut 1024 org (execFreezeSet p s) := by
  unfold execFreezeSet
  try dsimp only
  repeat' (first
    | with_reducible assumption
    | dsimp only
    | split
    | with_reducible apply recvCommand_kept)

theorem execParamWrite_kept {org : State} {s : State} (h : Kept 1024 org s) (p : Packet) :
    KeptOut 1024 org (execParamWrite p s) := by
  unfold execParamWrite
  try dsimp only
  repeat' (first
    | with_reducible assumption
    | dsimp only
    | split
    | with_reducible apply recvCommand_kept)

theorem execPairSetBind_kept {org : State} {s : State} (h : Kept 1024 org s) (p : Packet) :
    KeptOut 1024 org (execPairSetBind p s) := by
  unfold execPairSetBind
  try dsimp only
  repeat' (first
    | with_reducible assumption
    | dsimp only
    | split
    | with_reducible apply recvCommand_kept)

theorem execPairSetUnbind_kept {org : State} {s : State} (h : Kept 1024 org s) (p : Packet) :
    KeptOut 1024 org (execPairSetUnbind p s) := by
  unfold execPairSetUnbind
  try dsimp only
  repeat' (first
    | with_reducible assumption
    | dsimp only
    | split
    | with_reducible apply recvCommand_kept)

theorem execPairSetRelease_kept {org : State} {s : State} (h : Kept 1024 org s) (p : Packet) :
    KeptOut 1024 org (execPairSetRelease p s) := by
  unfold execPairSetRelease
  try dsimp only
  repeat' (first
    | with_reducible assumption
    | dsimp only
    | split
    | with_reducible apply recvCommand_kept)

theorem execPairSetQuery_kept {org : State} {s : State} (h : Kept 1024 org s) (p : Packet) :
    KeptOut 1024 org (execPairSetQuery p s) := by
  unfold execPairSetQuery
  try dsimp only
  repeat' (first
    | with_reducible assumption
    | dsimp only
    | split
    | with_reducible apply recvCommand_kept)

theorem execSecure_kept {org : State} {s : State} (h : Kept 1024 org s) (p : Packet) :
    KeptOut 1024 org (execSecure p s) := by
  unfold execSecure
  try dsimp only
  repeat' (first
    | with_reducible assumption
    | dsimp only
    | split
    | with_reducible apply recvCommand_kept)

theorem execRestoreServe_kept {org : State} {s : State} (h : Kept 1024 org s) (p : Packet) :
    KeptOut 1024 org (execRestoreServe p s) := by
  unfold execRestoreServe
  try dsimp only
  repeat' (first
    | with_reducible assumption
    | dsimp only
    | split
    | with_reducible apply recvCommand_kept)

theorem execLinkStatus_kept {org : State} {s : State} (h : Kept 1024 org s) (p : Packet) :
    KeptOut 1024 org (execLinkStatus p s) := by
  unfold execLinkStatus
  try dsimp only
  repeat' (first
    | with_reducible assumption
    | dsimp only
    | split
    | with_reducible apply recvCommand_kept)

theorem execRouteLoad_kept {org : State} {s : State} (h : Kept 1024 org s) (p : Packet) :
    KeptOut 1024 org (execRouteLoad p s) := by
  unfold execRouteLoad
  try dsimp only
  repeat' (first
    | with_reducible assumption
    | dsimp only
    | split
    | with_reducible apply recvCommand_kept)

theorem execCrewListSet_kept {org : State} {s : State} (h : Kept 1024 org s) (p : Packet) :
    KeptOut 1024 org (execCrewListSet p s) := by
  unfold execCrewListSet
  try dsimp only
  repeat' (first
    | with_reducible assumption
    | dsimp only
    | split
    | with_reducible apply recvCommand_kept)

theorem execCollectiveRun_kept {org : State} {s : State} (h : Kept 1024 org s) (p : Packet) :
    KeptOut 1024 org (execCollectiveRun p s) := by
  unfold execCollectiveRun
  try dsimp only
  repeat' (first
    | with_reducible assumption
    | dsimp only
    | split
    | with_reducible apply recvCommand_kept)

theorem execStreamMap_kept {org : State} {s : State} (h : Kept 1024 org s) (p : Packet) :
    KeptOut 1024 org (execStreamMap p s) := by
  unfold execStreamMap
  try dsimp only
  repeat' (first
    | with_reducible assumption
    | dsimp only
    | split
    | with_reducible apply recvCommand_kept)

theorem execStreamUnmap_kept {org : State} {s : State} (h : Kept 1024 org s) (p : Packet) :
    KeptOut 1024 org (execStreamUnmap p s) := by
  unfold execStreamUnmap
  try dsimp only
  repeat' (first
    | with_reducible assumption
    | dsimp only
    | split
    | with_reducible apply recvCommand_kept)

theorem execStreamQuery_kept {org : State} {s : State} (h : Kept 1024 org s) (p : Packet) :
    KeptOut 1024 org (execStreamQuery p s) := by
  unfold execStreamQuery
  try dsimp only
  repeat' (first
    | with_reducible assumption
    | dsimp only
    | split
    | with_reducible apply recvCommand_kept)

theorem execStreamStart_kept {org : State} {s : State} (h : Kept 1024 org s) (p : Packet) :
    KeptOut 1024 org (execStreamStart p s) := by
  unfold execStreamStart
  try dsimp only
  repeat' (first
    | with_reducible assumption
    | dsimp only
    | split
    | with_reducible apply recvCommand_kept)

theorem execStreamStop_kept {org : State} {s : State} (h : Kept 1024 org s) (p : Packet) :
    KeptOut 1024 org (execStreamStop p s) := by
  unfold execStreamStop
  try dsimp only
  repeat' (first
    | with_reducible assumption
    | dsimp only
    | split
    | with_reducible apply recvCommand_kept)

theorem execStreamOut_kept {org : State} {s : State} (h : Kept 1024 org s) (p : Packet) :
    KeptOut 1024 org (execStreamOut p s) := by
  unfold execStreamOut
  try dsimp only
  repeat' (first
    | with_reducible assumption
    | dsimp only
    | split
    | with_reducible apply recvCommand_kept)

theorem execCountersRead_kept {org : State} {s : State} (h : Kept 1024 org s) (p : Packet) :
    KeptOut 1024 org (execCountersRead p s) := by
  unfold execCountersRead
  try dsimp only
  repeat' (first
    | with_reducible assumption
    | dsimp only
    | split
    | with_reducible apply recvCommand_kept)

theorem execSpareStatus_kept {org : State} {s : State} (h : Kept 1024 org s) (p : Packet) :
    KeptOut 1024 org (execSpareStatus p s) := by
  unfold execSpareStatus
  try dsimp only
  repeat' (first
    | with_reducible assumption
    | dsimp only
    | split
    | with_reducible apply recvCommand_kept)

theorem execRepair_kept {org : State} {s : State} (h : Kept 1024 org s) (p : Packet) :
    KeptOut 1024 org (execRepair p s) := by
  unfold execRepair
  try dsimp only
  repeat' (first
    | with_reducible assumption
    | dsimp only
    | split
    | with_reducible apply recvCommand_kept)

theorem execSelfTest_kept {org : State} {s : State} (h : Kept 1024 org s) (p : Packet) :
    KeptOut 1024 org (execSelfTest p s) := by
  unfold execSelfTest
  try dsimp only
  repeat' (first
    | with_reducible assumption
    | dsimp only
    | split
    | with_reducible apply recvCommand_kept)

theorem execIdentityGet_kept {org : State} {s : State} (h : Kept 1024 org s) (p : Packet) :
    KeptOut 1024 org (execIdentityGet p s) := by
  unfold execIdentityGet
  try dsimp only
  repeat' (first
    | with_reducible assumption
    | dsimp only
    | split
    | with_reducible apply recvCommand_kept)

theorem execAttest_kept {org : State} {s : State} (h : Kept 1024 org s) (p : Packet) :
    KeptOut 1024 org (execAttest p s) := by
  unfold execAttest
  try dsimp only
  repeat' (first
    | with_reducible assumption
    | dsimp only
    | split
    | with_reducible apply recvCommand_kept)

theorem execFwStage_kept {org : State} {s : State} (h : Kept 1024 org s) (p : Packet) :
    KeptOut 1024 org (execFwStage p s) := by
  unfold execFwStage
  try dsimp only
  repeat' (first
    | with_reducible assumption
    | dsimp only
    | split
    | with_reducible apply recvCommand_kept)

theorem execFwActivate_kept {org : State} {s : State} (h : Kept 1024 org s) (p : Packet) :
    KeptOut 1024 org (execFwActivate p s) := by
  unfold execFwActivate
  try dsimp only
  repeat' (first
    | with_reducible assumption
    | dsimp only
    | split
    | with_reducible apply recvCommand_kept)

theorem execAuditRead_kept {org : State} {s : State} (h : Kept 1024 org s) (p : Packet) :
    KeptOut 1024 org (execAuditRead p s) := by
  unfold execAuditRead
  try dsimp only
  repeat' (first
    | with_reducible assumption
    | dsimp only
    | split
    | with_reducible apply recvCommand_kept)

theorem execKeyEnrol_kept {org : State} {s : State} (h : Kept 1024 org s) (p : Packet) :
    KeptOut 1024 org (execKeyEnrol p s) := by
  unfold execKeyEnrol
  try dsimp only
  repeat' (first
    | with_reducible assumption
    | dsimp only
    | split
    | with_reducible apply recvCommand_kept)

theorem execKeyRevoke_kept {org : State} {s : State} (h : Kept 1024 org s) (p : Packet) :
    KeptOut 1024 org (execKeyRevoke p s) := by
  unfold execKeyRevoke
  try dsimp only
  repeat' (first
    | with_reducible assumption
    | dsimp only
    | split
    | with_reducible apply recvCommand_kept)

end Sys2Proof.Machine
end

