-- ==== Sys2Proof/Laws/KeptI3c.lean ====
section
/-!
SUPPORT. The functions of Machine/I3c.lean keep a sound block sound, and undo nothing that no command undoes (`Kept`).
-/
namespace Sys2Proof.Machine

theorem State.mailCommand_kept {org : State} {s : State} (h : Kept 1024 org s) (bs : List Byte) :
    Kept 1024 org (State.mailCommand s bs) := by
  unfold State.mailCommand
  try dsimp only
  repeat' (first
    | with_reducible assumption
    | dsimp only
    | split
    | with_reducible apply State.count_kept
    | with_reducible apply State.takePacket_kept
    | with_reducible apply Kept.foldl
    | with_reducible apply Kept.upd
    | intro _
    | with_reducible rfl)

theorem State.mailBulk_kept {lim : Nat} {org : State} {s : State} (h : Kept lim org s) (bs : List Byte) :
    Kept lim org (State.mailBulk s bs) := by
  unfold State.mailBulk
  try dsimp only
  repeat' (first
    | with_reducible assumption
    | dsimp only
    | split
    | with_reducible apply State.recvBulk_kept
    | with_reducible apply Kept.foldl
    | with_reducible apply Kept.upd
    | intro _
    | with_reducible rfl)

theorem State.submit_kept {org : State} {s : State} (h : Kept 1024 org s) (bulk : Bool) (len : Nat) :
    Kept 1024 org (State.submit s bulk len) := by
  unfold State.submit
  try dsimp only
  repeat' (first
    | with_reducible assumption
    | dsimp only
    | split
    | with_reducible apply State.overrun_kept
    | with_reducible apply State.count_kept
    | with_reducible apply State.mailBulk_kept
    | with_reducible apply State.mailCommand_kept)

theorem State.release_kept {lim : Nat} {org : State} {s : State} (h : Kept lim org s)  :
    Kept lim org (State.release s) := by
  unfold State.release
  try dsimp only
  repeat' (first
    | with_reducible assumption
    | dsimp only
    | split
    | with_reducible apply Kept.foldl
    | with_reducible apply Kept.upd
    | intro _
    | with_reducible rfl)

theorem State.clearDrop_kept {lim : Nat} {org : State} {s : State} (h : Kept lim org s)  :
    Kept lim org (State.clearDrop s) := by
  unfold State.clearDrop
  try dsimp only
  repeat' (first
    | with_reducible assumption
    | dsimp only
    | split
    | with_reducible apply Kept.foldl
    | with_reducible apply Kept.upd
    | intro _
    | with_reducible rfl)

theorem execMbxSubmit_kept {org : State} {s : State} (h : Kept 1024 org s) (bulk : Bool) (len : Nat) :
    KeptOut 1024 org (execMbxSubmit bulk len s) := by
  unfold execMbxSubmit
  try dsimp only
  repeat' (first
    | with_reducible assumption
    | dsimp only
    | split
    | with_reducible apply State.submit_kept
    | with_reducible apply Kept.foldl
    | with_reducible apply KeptOut.next
    | with_reducible apply KeptOut.fault)

theorem execMbxRelease_kept {lim : Nat} {org : State} {s : State} (h : Kept lim org s)  :
    KeptOut lim org (execMbxRelease s) := by
  unfold execMbxRelease
  try dsimp only
  repeat' (first
    | with_reducible assumption
    | dsimp only
    | split
    | with_reducible apply State.release_kept
    | with_reducible apply Kept.foldl
    | with_reducible apply KeptOut.next
    | with_reducible apply KeptOut.fault)

theorem execMbxOutDropClear_kept {lim : Nat} {org : State} {s : State} (h : Kept lim org s)  :
    KeptOut lim org (execMbxOutDropClear s) := by
  unfold execMbxOutDropClear
  try dsimp only
  repeat' (first
    | with_reducible assumption
    | dsimp only
    | split
    | with_reducible apply State.clearDrop_kept
    | with_reducible apply Kept.foldl
    | with_reducible apply KeptOut.next
    | with_reducible apply KeptOut.fault)

theorem State.windowWrite_kept {org s : State} (h : Kept 1024 org s) (a : Nat) (bs : List Byte) :
    Kept 1024 org (State.windowWrite s a bs) := by
  have h1 : Kept 1024 org { s with i3c := { s.i3c with window := a % 65536 } } :=
    Kept.upd h rfl rfl (Nat.le_refl _) (Nat.le_refl _) (Nat.le_refl _) rfl rfl rfl (Nat.le_refl _) (Nat.le_refl _) (Nat.le_refl _) (Nat.le_refl _) (Nat.le_refl _)
  unfold State.windowWrite
  dsimp only
  have fin : ∀ t : State, Kept 1024 org t → Kept 1024 org { t with i3c := { t.i3c with mbxIn := writeIn (a % 65536) bs t.i3c.mbxIn } } :=
    fun t ht => Kept.upd ht rfl rfl (Nat.le_refl _) (Nat.le_refl _) (Nat.le_refl _) rfl rfl rfl (Nat.le_refl _) (Nat.le_refl _) (Nat.le_refl _) (Nat.le_refl _) (Nat.le_refl _)
  refine fin _ ?_
  cases covered (a % 65536) bs 0x0014 1 <;> cases covered (a % 65536) bs 0x0010 4 <;> dsimp only <;> repeat' (first
    | exact h1
    | split
    | with_reducible apply State.release_kept
    | with_reducible apply State.submit_kept
    | with_reducible apply State.clearDrop_kept)

theorem execI3cPrivateWrite_kept {org : State} {s : State} (h : Kept 1024 org s) (addr : Nat) (data : List Byte) :
    KeptOut 1024 org (execI3cPrivateWrite addr data s) := by
  unfold execI3cPrivateWrite
  try dsimp only
  repeat' (first
    | with_reducible assumption
    | dsimp only
    | split
    | with_reducible apply State.windowWrite_kept
    | with_reducible apply Kept.foldl
    | with_reducible apply KeptOut.next
    | with_reducible apply KeptOut.fault)

theorem ccc_kept {lim : Nat} {org s : State} (h : Kept lim org s) (f : State → State) (a : Option (List Byte))
    (hf : ∀ t, Kept lim org t → Kept lim org (f t)) : KeptOut lim org (ccc s f a) := by
  unfold ccc
  split
  · exact KeptOut.fault
  · split
    · exact KeptOut.next (Kept.upd (hf s h) rfl rfl (Nat.le_refl _) (Nat.le_refl _) (Nat.le_refl _) rfl rfl rfl (Nat.le_refl _) (Nat.le_refl _) (Nat.le_refl _) (Nat.le_refl _) (Nat.le_refl _))
    · exact KeptOut.next (Kept.upd h rfl rfl (Nat.le_refl _) (Nat.le_refl _) (Nat.le_refl _) rfl rfl rfl (Nat.le_refl _) (Nat.le_refl _) (Nat.le_refl _) (Nat.le_refl _) (Nat.le_refl _))

theorem State.assign_kept {lim : Nat} {org : State} {s : State} (h : Kept lim org s) (a : Nat) :
    Kept lim org (State.assign s a) := by
  unfold State.assign
  try dsimp only
  repeat' (first
    | with_reducible assumption
    | dsimp only
    | split
    | with_reducible apply Kept.foldl
    | with_reducible apply Kept.upd
    | intro _
    | with_reducible rfl)

theorem execEntdaa_kept {lim : Nat} {org : State} {s : State} (h : Kept lim org s) (addr : Nat) :
    KeptOut lim org (execEntdaa addr s) := by
  unfold execEntdaa
  try dsimp only
  repeat' (first
    | with_reducible assumption
    | dsimp only
    | split
    | exact ccc_kept h _ _ (fun t ht => ht)
    | with_reducible apply ccc_kept
    | with_reducible apply State.assign_kept
    | with_reducible apply Kept.foldl
    | with_reducible apply KeptOut.next
    | with_reducible apply KeptOut.fault
    | with_reducible apply Kept.upd
    | intro _
    | with_reducible rfl)

theorem execSetdasa_kept {lim : Nat} {org : State} {s : State} (h : Kept lim org s) (addr : Nat) :
    KeptOut lim org (execSetdasa addr s) := by
  unfold execSetdasa
  try dsimp only
  repeat' (first
    | with_reducible assumption
    | dsimp only
    | split
    | exact ccc_kept h _ _ (fun t ht => ht)
    | with_reducible apply ccc_kept
    | with_reducible apply State.assign_kept
    | with_reducible apply Kept.foldl
    | with_reducible apply KeptOut.next
    | with_reducible apply KeptOut.fault
    | with_reducible apply Kept.upd
    | intro _
    | with_reducible rfl)

theorem execRstdaa_kept {lim : Nat} {org : State} {s : State} (h : Kept lim org s)  :
    KeptOut lim org (execRstdaa s) := by
  unfold execRstdaa
  try dsimp only
  repeat' (first
    | with_reducible assumption
    | dsimp only
    | split
    | exact ccc_kept h _ _ (fun t ht => ht)
    | with_reducible apply ccc_kept
    | with_reducible apply Kept.foldl
    | with_reducible apply KeptOut.next
    | with_reducible apply KeptOut.fault
    | with_reducible apply Kept.upd
    | intro _
    | with_reducible rfl)

theorem execGetpid_kept {lim : Nat} {org : State} {s : State} (h : Kept lim org s)  :
    KeptOut lim org (execGetpid s) := by
  unfold execGetpid
  try dsimp only
  repeat' (first
    | with_reducible assumption
    | dsimp only
    | split
    | exact ccc_kept h _ _ (fun t ht => ht))

theorem execGetbcr_kept {lim : Nat} {org : State} {s : State} (h : Kept lim org s)  :
    KeptOut lim org (execGetbcr s) := by
  unfold execGetbcr
  try dsimp only
  repeat' (first
    | with_reducible assumption
    | dsimp only
    | split
    | exact ccc_kept h _ _ (fun t ht => ht))

theorem execGetdcr_kept {lim : Nat} {org : State} {s : State} (h : Kept lim org s)  :
    KeptOut lim org (execGetdcr s) := by
  unfold execGetdcr
  try dsimp only
  repeat' (first
    | with_reducible assumption
    | dsimp only
    | split
    | exact ccc_kept h _ _ (fun t ht => ht))

theorem execGetstatus_kept {lim : Nat} {org : State} {s : State} (h : Kept lim org s)  :
    KeptOut lim org (execGetstatus s) := by
  unfold execGetstatus
  try dsimp only
  repeat' (first
    | with_reducible assumption
    | dsimp only
    | split
    | exact ccc_kept h _ _ (fun t ht => ht))

theorem execGetmwl_kept {lim : Nat} {org : State} {s : State} (h : Kept lim org s)  :
    KeptOut lim org (execGetmwl s) := by
  unfold execGetmwl
  try dsimp only
  repeat' (first
    | with_reducible assumption
    | dsimp only
    | split
    | exact ccc_kept h _ _ (fun t ht => ht))

theorem execGetmrl_kept {lim : Nat} {org : State} {s : State} (h : Kept lim org s)  :
    KeptOut lim org (execGetmrl s) := by
  unfold execGetmrl
  try dsimp only
  repeat' (first
    | with_reducible assumption
    | dsimp only
    | split
    | exact ccc_kept h _ _ (fun t ht => ht))

theorem execSetmwl_kept {lim : Nat} {org : State} {s : State} (h : Kept lim org s) (len : Nat) :
    KeptOut lim org (execSetmwl len s) := by
  unfold execSetmwl
  try dsimp only
  repeat' (first
    | with_reducible assumption
    | dsimp only
    | split
    | exact ccc_kept h _ _ (fun t ht => ht)
    | with_reducible apply ccc_kept
    | with_reducible apply Kept.foldl
    | with_reducible apply KeptOut.next
    | with_reducible apply KeptOut.fault
    | with_reducible apply Kept.upd
    | intro _
    | with_reducible rfl)

theorem execSetmrl_kept {lim : Nat} {org : State} {s : State} (h : Kept lim org s) (len : Nat) :
    KeptOut lim org (execSetmrl len s) := by
  unfold execSetmrl
  try dsimp only
  repeat' (first
    | with_reducible assumption
    | dsimp only
    | split
    | exact ccc_kept h _ _ (fun t ht => ht)
    | with_reducible apply ccc_kept
    | with_reducible apply Kept.foldl
    | with_reducible apply KeptOut.next
    | with_reducible apply KeptOut.fault
    | with_reducible apply Kept.upd
    | intro _
    | with_reducible rfl)

theorem execEnec_kept {lim : Nat} {org : State} {s : State} (h : Kept lim org s) (_events : Nat) :
    KeptOut lim org (execEnec _events s) := by
  unfold execEnec
  try dsimp only
  repeat' (first
    | with_reducible assumption
    | dsimp only
    | split
    | exact ccc_kept h _ _ (fun t ht => ht))

theorem execDisec_kept {lim : Nat} {org : State} {s : State} (h : Kept lim org s) (_events : Nat) :
    KeptOut lim org (execDisec _events s) := by
  unfold execDisec
  try dsimp only
  repeat' (first
    | with_reducible assumption
    | dsimp only
    | split
    | exact ccc_kept h _ _ (fun t ht => ht))

theorem execUnsupportedCcc_kept {lim : Nat} {org : State} {s : State} (h : Kept lim org s) (_code : Nat) :
    KeptOut lim org (execUnsupportedCcc _code s) := by
  unfold execUnsupportedCcc
  try dsimp only
  repeat' (first
    | with_reducible assumption
    | dsimp only
    | split
    | exact ccc_kept h _ _ (fun t ht => ht))

theorem execRstactNone_kept {lim : Nat} {org : State} {s : State} (h : Kept lim org s)  :
    KeptOut lim org (execRstactNone s) := by
  unfold execRstactNone
  try dsimp only
  repeat' (first
    | with_reducible assumption
    | dsimp only
    | split
    | exact ccc_kept h _ _ (fun t ht => ht))

theorem State.i3cReset_kept {lim : Nat} {org : State} {s : State} (h : Kept lim org s)  :
    Kept lim org (State.i3cReset s) := by
  unfold State.i3cReset
  try dsimp only
  repeat' (first
    | with_reducible assumption
    | dsimp only
    | split
    | with_reducible apply State.unbind_kept
    | with_reducible apply State.endRole_kept
    | with_reducible apply Kept.foldl
    | with_reducible apply Kept.foldlFst
    | with_reducible apply Kept.foldlSnd
    | with_reducible apply Kept.upd
    | intro _
    | with_reducible rfl)

theorem execRstactI3cReset_kept {lim : Nat} {org : State} {s : State} (h : Kept lim org s)  :
    KeptOut lim org (execRstactI3cReset s) := by
  unfold execRstactI3cReset
  try dsimp only
  repeat' (first
    | with_reducible assumption
    | dsimp only
    | split
    | exact ccc_kept h _ _ (fun t ht => ht)
    | with_reducible apply ccc_kept
    | with_reducible apply State.i3cReset_kept)

theorem execRstactModuleReset_kept {lim : Nat} {org : State} {s : State} (h : Kept lim org s)  :
    KeptOut lim org (execRstactModuleReset s) := by
  unfold execRstactModuleReset
  try dsimp only
  repeat' (first
    | with_reducible assumption
    | dsimp only
    | split
    | exact ccc_kept h _ _ (fun t ht => ht)
    | with_reducible apply ccc_kept
    | with_reducible apply State.coldStart_kept)

end Sys2Proof.Machine
end

