-- ==== Sys2Proof/WellFormed.lean ====
section
/-!
DEFINITION. When a command is well formed: every field in the range its layout gives it, and the ACTION or KIND byte of a
packet that of its row.
-/
namespace Sys2Proof

/-- A port that takes packets of the host: a receive port, or the mailbox (12, R334). -/
def portOk (p : Nat) : Bool := decide (p < 8) || decide (p = 12)

/-- A command packet (R339, R340, R343): its fields in the widths of Table 11.4a, at most 4,080 parameter bytes. -/
def Packet.wf (p : Packet) : Bool :=
  portOk p.port && decide (p.flags < 256) && decide (p.source < 2 ^ 16) && decide (p.tag < 2 ^ 16) && decide (p.seq < 2 ^ 32)
    && decide (p.params.length ≤ 4080)

/-- The last packet of a command: CONTINUATION is clear (R343). -/
def Packet.last (p : Packet) : Bool := p.wf && decide (p.flags / 4 % 2 = 0)

/-- The last packet of a command whose parameter block begins with an ACTION or KIND byte of a value. -/
def Packet.action (p : Packet) (a : Nat) : Bool :=
  p.last && (match p.params with | b :: _ => decide (b.toNat = a) | [] => false)

/-- The last packet of an UPDATE_PROGRAM_LOAD: NSTEPS 0 unloads (R240). -/
def Packet.steps (p : Packet) (unload : Bool) : Bool :=
  p.last && (match p.params with | _ :: b :: _ => decide (b.toNat = 0) == unload | _ => false)

/-- A flit beyond its link (Table 9.4): 20-bit addresses, a 4-bit HOPS, seven traffic classes and class 7, 236 payload bytes. -/
def Flit.wf (f : Flit) : Bool :=
  decide (f.dest < 2 ^ 20) && decide (f.hops < 16) && decide (f.src < 2 ^ 20) && decide (f.tc < 8) && decide (f.vc < 2)
    && decide (f.crew < 2 ^ 16) && decide (f.cid < 2 ^ 32) && decide (f.payload.length = 236)
    && f.poison.all (fun i => decide (i < 236))

/-- A source and a tag. -/
def sourceTag (source tag : Nat) : Bool := decide (source < 2 ^ 16) && decide (tag < 2 ^ 16)

/-- A command is well formed. -/
def Instr.wf (i : Instr) : Bool :=
  match i with
  | .nop p | .getStatus p | .readAttention p | .loginChallenge p | .loginResponse p | .logout p | .setPowerState p
  | .ledgerBegin p | .ledgerSet p | .ledgerCommit p | .ledgerRollback p | .settingGet p | .settingSet p | .tensorWrite p
  | .tensorRead p | .tensorCopy p | .tensorFill p | .assayRead p | .networkLoad p | .networkActivate p | .networkUnload p
  | .opRun p | .graphRun p | .abort p | .fence p | .updateRun p | .freezeSet p | .paramWrite p | .secure p | .restoreServe p
  | .linkStatus p | .routeLoad p | .crewListSet p | .collectiveRun p | .streamStart p | .streamStop p | .streamOut p
  | .countersRead p | .spareStatus p | .repair p | .selfTest p | .identityGet p | .attest p | .fwStage p | .fwActivate p
  | .auditRead p => p.last
  | .updateProgramLoad p => p.steps false
  | .updateProgramUnload p => p.steps true
  | .tensorDefine p | .stackConfigure p | .pairSetBind p | .streamMap p | .keyEnrol p => p.action 0
  | .resetCores p | .tensorRelease p | .stackClear p | .pairSetUnbind p | .streamUnmap p | .keyRevoke p => p.action 1
  | .resetModule p | .stackQuery p | .pairSetRelease p | .streamQuery p => p.action 2
  | .pairSetQuery p => p.action 3
  | .commandContinuation opcode p => decide (opcode < 2 ^ 16) && p.wf && decide (p.flags / 4 % 2 = 1)
  | .packetDropped port | .packetIgnored port => portOk port
  | .bulkPacket port source tag offset data =>
    portOk port && sourceTag source tag && decide (offset < 2 ^ 64) && decide (data.length ≤ 16384)
  | .bulkGapTimeout source tag => sourceTag source tag
  | .sourceExpiry source | .challengeExpiry source => decide (source < 2 ^ 16)
  | .lockoutExpiry role index => decide (1 ≤ role) && decide (role ≤ 3) && decide (index < 256)
  | .mbxSubmit _ len => decide (len < 2 ^ 16)
  | .i3cPrivateWrite addr _ => decide (addr < 2 ^ 16)
  | .entdaa addr | .setdasa addr => decide (addr < 128)
  | .setmwl len | .setmrl len => decide (len < 2 ^ 16)
  | .enec events | .disec events => decide (events < 256)
  | .unsupportedCcc code => decide (code < 256)
  | .frameStart port vc | .frameEnd port vc => decide (port < 8) && decide (vc < 16)
  | .sensorLine port vc dt data _ _ => decide (port < 8) && decide (vc < 16) && decide (dt < 64) && decide (data.length < 2 ^ 16)
  | .outputFrameSend stream | .outputFrameDone stream => decide (stream < 64)
  | .commandStart source tag | .fenceComplete source tag | .operatorStop source tag | .updateNorms source tag
  | .updateRunCommit source tag | .paramWriteStart source tag | .secureCut source tag | .securePieceSend source tag
  | .bindTimeout source tag | .collectiveStart source tag | .collectiveCommit source tag | .collectiveStallTimeout source tag
  | .wakeOnDemand source tag | .tensorCommandDone source tag | .restoreDataSend source tag | .restoreTargetSilent source tag =>
    sourceTag source tag
  | .operatorStart source tag rec core => sourceTag source tag && decide (rec < 2 ^ 16) && decide (core < 144)
  | .networkSwitch source tag core => sourceTag source tag && decide (core < 144)
  | .chunkStart core cluster | .chunkComplete core cluster => decide (core < 144) && decide (cluster < 16)
  | .tileClose core | .finishEnqueue core | .passStart core | .passEnd core | .vfLoopStep core | .coreHardFault core
  | .spareTakeover core _ => decide (core < 144)
  | .operatorCommit source tag rec | .stackPush source tag rec | .stackPop source tag rec =>
    sourceTag source tag && decide (rec < 2 ^ 16)
  | .spillStart group | .fillStart group | .spareSelfTest group _ | .autoLightTimeout group | .autoDeepTimeout group
  | .groupStateEntry group | .wakeComplete group => decide (group < 16)
  | .spillComplete group stamp | .fillComplete group stamp => decide (group < 16) && decide (stamp < 2 ^ 32)
  | .updatePass1Start source tag tinker | .updatePass1End source tag tinker | .updateEntry source tag tinker =>
    sourceTag source tag && decide (tinker < 4)
  | .copyBeforeWrite tensor k => decide (tensor < 2 ^ 32) && decide (k < 2 ^ 32)
  | .tinkerHardFault tinker => decide (tinker < 4)
  | .pairReq f | .pairAck f | .unbind f | .feedUpdate f | .slotBegin f | .piece f | .slotEnd f | .secured f
  | .secureCancel f | .restoreData f | .restoreEnd f | .restoreAck f | .peerKeepalive f | .collectiveFlit f | .cancel f
  | .staleNotice f => f.wf
  | .peerLossTimeout peer => decide (peer < 2 ^ 20)
  | .linkTrainingDone link _ | .linkRetryTimer link | .badFlit link _ _ | .idleFlit link | .flitSend link | .ackTimer link
  | .keepaliveSend link | .linkSilenceTimeout link => decide (link < 64)
  | .dataFlit link lseq f => decide (link < 64) && decide (lseq < 4096) && f.wf
  | .ackFlit link lseq | .nakFlit link lseq => decide (link < 64) && decide (lseq < 4096)
  | .creditFlit link payload => decide (link < 64) && decide (payload.length = 236)
  | .keepaliveFlit link addr peerLink crew state =>
    decide (link < 64) && (match addr with | some a => decide (a < 2 ^ 20) | none => true) && decide (peerLink < 64)
      && decide (crew < 2 ^ 32) && decide (state < 256)
  | .laneCtrl link lane | .laneLossOfLock link lane => decide (link < 64) && decide (lane < 5)
  | .serWindow link errors _ => decide (link < 64) && decide (errors.length = 5)
  | .linkEngineFault engine => decide (engine < 64)
  | .scrubPass _ _ _ | .patrolScrub _ _ | .wearEvaluation _ | .powerSample _ | .inletExcursion _ => true
  | .lpddrRetrain package | .lpddrControllerFault package => decide (package < 8)
  | .repairSwitch core _ => decide (core < 144) || (decide (8192 ≤ core) && decide (core < 8196))
  | .feedLoss feed | .feedRestore feed | .powerUp feed => decide (feed < 2)
  | .tempSample temps => decide (temps.length = 158)
  | .thermalPlacement advice => decide (advice.length = 16)
  | .ledgerIdleTimeout | .ledgerApply | .ledgerCommitTimeout | .portSettingsApply | .mbxRelease | .mbxOutDropClear | .rstdaa
  | .getpid | .getbcr | .getdcr | .getstatus | .getmwl | .getmrl | .rstactNone | .rstactI3cReset | .rstactModuleReset
  | .peerKeepaliveSend | .refclkLoss | .refclkReturn | .stintBoundary | .bothFeedsLost | .railsInRegulation | .resetNAssert
  | .resetNRelease | .ready | .coresResetDone | .thermalTripRecovery | .s3Entry | .moduleWake | .linkS2IdleTimeout
  | .resetHoldRelease => true

end Sys2Proof
end

