-- ==== Sys2Proof/Tests/Slice0.lean ====
section
/-!
SUPPORT. The model's own tests: ill-formed commands that the check refuses, a witness of the hypotheses of each statement, and the
manual's worked examples.
-/
namespace Sys2Proof.Tests
open Sys2Proof Sys2Proof.Machine

set_option Elab.async false

/-- A decidable fact that the kernel evaluates. -/
theorem shown {p : Prop} [Decidable p] (h : decide p = true := by decide +kernel) : p := of_decide_eq_true h

/-! ## States for the tests -/

/-- A source 7 on port 0 that has logged in with a role; its next SEQ is 5. -/
def src (r : Role) : Source := ⟨7, 0, some 5, r, 0, none, none, [], false, 0⟩

/-- A packet of source 7 in sequence, with tag 1. -/
def pkt (ps : List Byte) : Packet := ⟨0, 0, 7, 1, 5, ps⟩

/-- A parameter block with little-endian fields, each given by its width and value. -/
def blk (fs : List (Nat × Nat)) : List Byte := fs.flatMap (fun f => leBytes f.1 f.2)

/-- A READY module, all its groups in S0, with the source of `src`; port 0 is a C-PHY port, whose headers no ECC corrects. -/
def up (r : Role) : State :=
  { State.reset with
    sources := [src r], portSettings := [(0x5001, 1)]
    power := { Power.reset with
      phase := .ready, stage := 3, sharedS2 := false, groups := List.replicate 16 ⟨.s0, none, none, 0, 0, 0, 1300, false, 0⟩ } }

/-- The module listens, and the packet fits. -/
def hears (s : State) (p last : Packet) : Bool :=
  decide (s.power.phase = .ready ∧ s.power.sleep = .awake ∧ s.power.failed = false ∧ s.answers p.port = true
    ∧ last.params.length ≤ 4080 ∧ s.portFull p.port (16 + last.params.length) = false)

/-- The packet ends a block that its source has opened, and no fence holds it. -/
def blockOk (s : State) (op : Op) (p last : Packet) (x : Source) : Bool :=
  decide (continued last.flags = false ∧ p = { last with params := x.gathered ++ last.params } ∧ p.params.length ≤ 65536
    ∧ fenceBefore p.flags = false)
  && x.cont.all (fun k => decide (k.tag = last.tag ∧ k.opcode = op.code))
  && s.cmds.all (fun c => decide (c.body ≠ .fence []) || op.usesCores || !op.immediate p.params)

/-- The source is bound, in sequence, and may send the command. -/
def sourceOk (s : State) (op : Op) (p : Packet) (x : Source) : Bool :=
  decide (s.source p.source = some x ∧ x.port = p.port ∧ x.seq = some p.seq ∧ s.credits p.source ≠ 0
    ∧ s.cmd p.source p.tag = none ∧ s.mayRole op x.role = true ∧ (x.role ≠ .none ∨ s.loginFree (some op) = true))

/-- What `Session` asks of a command without FENCE_BEFORE, as a check. -/
def sessOk (s : State) (op : Op) (p last : Packet) (x : Source) : Bool :=
  hears s p last && (blockOk s op p last x && sourceOk s op p x)

theorem sess {s : State} {op : Op} {p last : Packet} {x : Source} (h : sessOk s op p last x = true) : Session s op p last x := by
  obtain ⟨a, bc⟩ := Bool.and_eq_true_iff.mp h
  obtain ⟨b, c⟩ := Bool.and_eq_true_iff.mp bc
  obtain ⟨b, fences⟩ := Bool.and_eq_true_iff.mp b
  obtain ⟨b, opened⟩ := Bool.and_eq_true_iff.mp b
  obtain ⟨ready, awake, running, port, short, room⟩ := of_decide_eq_true a
  obtain ⟨whole, block, small, free⟩ := of_decide_eq_true b
  obtain ⟨bound, samePort, next, credits, tag, role, login⟩ := of_decide_eq_true c
  exact {
    ready, awake, running, port, short, room, whole, block, small, bound, samePort, tag, role, login
    inSeq := .inr (.inr next)
    credit := .inr credits
    opened := fun k hk => by rw [hk] at opened; simpa using opened
    unheld := fun f => absurd (free.symm.trans f) (by decide)
    unfenced := fun now none d hd _ e => by
      have := List.all_eq_true.mp fences d hd
      simp [e, now, none] at this }

/-! ## Hypotheses that are met: the whole machine, memory, packets -/

theorem test_met_StepKeepsSoundness : Inv State.reset ∧ step State.reset = .next { State.reset with now := 1 } :=
  ⟨State.reset_sound 1024, rfl⟩

theorem test_met_StepNeverGoesBack :
    Inv State.reset ∧ step { State.reset with pending := [.refclkReturn] } = exec .refclkReturn State.reset
      ∧ exec .refclkReturn State.reset = .next { State.reset with power := { Power.reset with refclk := true } } :=
  ⟨State.reset_sound 1024, rfl, rfl⟩

theorem test_met_IdleStepCountsTheTimer :
    let early : State := { State.reset with power := { Power.reset with stage := 0 } }
    State.reset.pending = [] ∧ 2 ≤ State.reset.power.stage ∧ early.pending = [] ∧ early.power.phase = .boot ∧ early.power.stage < 2 :=
  ⟨rfl, shown, rfl, rfl, shown⟩

theorem test_met_PoweredModuleNeverStops : State.reset.power.phase ≠ .off := by decide

/-- A module that has lost both feeds. -/
def dark : State := { State.reset with power := { Power.reset with phase := .off } }

theorem test_met_UnpoweredModuleDefinesNothing :
    dark.power.phase = .off ∧ needsPower (.nop (pkt [])) = true ∧ needsPower (.powerUp 0) = false := by decide

theorem test_met_WriteChangesItsBytesAlone : memWf State.reset.mem = true := by decide

theorem test_met_ReplyLayout :
    (0x0805 : Nat) < 2 ^ 16 ∧ 0xFFFF < 2 ^ 16 ∧ (0xFFFFFFFF : Nat) < 2 ^ 32 ∧ ([] : List Byte).length < 2 ^ 32 := by decide

theorem test_met_PacketsTurnedAway :
    let full : State := { up .operator with sources := (List.range 256).map (fun i => { src .operator with num := i + 100 }) }
    let other : State := { up .operator with sources := [{ src .operator with port := 12 }] }
    carried (.nop (pkt [])) = some (.nop, pkt []) ∧ (up .operator).power.phase ≠ .off
      ∧ (up .operator).answers 9 = false
      ∧ (up .operator).answers 0 = true ∧ 4080 < (List.replicate 4081 (0 : Byte)).length
      ∧ other.answers 0 = true ∧ (other.source 7).map Source.port = some 12
      ∧ full.answers 0 = true ∧ full.source 7 = none ∧ 256 ≤ full.sources.length ∧ full.portFull 0 16 = false
      ∧ Op.nop.exempt = false ∧ carried (.getStatus (pkt [])) = some (.getStatus, pkt []) ∧ Op.getStatus.exempt = true
      ∧ continued (pkt []).flags = false := by decide +kernel

/-- A port whose receive buffer is full of bulk packets. -/
def crowded : State :=
  { up .operator with power := { (up .operator).power with buffered := List.replicate 16 ⟨0, 7, 2, 0, List.replicate 16368 0⟩ } }

theorem test_met_PacketsTurnedAway_full : crowded.answers 0 = true ∧ crowded.portFull 0 16 = true := by decide +kernel

theorem test_met_SequenceOfASource :
    let open_ : Source := { src .operator with cont := some ⟨0x0303, 1, 4, [1]⟩ }
    carried (.nop (pkt [])) = some (.nop, pkt []) ∧ (up .operator).answers 0 = true
      ∧ (up .operator).portFull 0 16 = false ∧ (up .operator).source 7 = some (src .operator) ∧ (src .operator).cont = none
      ∧ (src .operator).seq = some 5 ∧ Op.nop.exempt = false ∧ (6 : Nat) ≠ 5 ∧ continued (pkt []).flags = false
      ∧ (src .operator).seq = some (pkt []).seq ∧ (open_.gathered ++ [2]).length ≤ 65536
      ∧ ¬ (open_.cont.any (fun k => decide (k.tag = 1 ∧ k.opcode = 0x0303)) = false) ∧ (0x0303 : Nat) ≠ Op.nop.code
      ∧ State.reset.source 7 = none ∧ State.reset.sources.length < 256 := by decide +kernel

theorem test_met_ChecksInOrder :
    let boot : State := { up .operator with power := { (up .operator).power with phase := .boot } }
    let busy : Cmd := ⟨0, 7, 1, .fence, 0, 5, [], true, false, 0, false, none, .fence []⟩
    let out : State := { up .operator with cmds := List.replicate 64 busy, portSettings := [(0x5100, 64)] }
    boot.lockedOut (some .nop) = true
      ∧ (up .none).lockedOut (some .nop) = false ∧ (src .none).role = .none ∧ (up .none).loginFree (some .nop) = false
      ∧ out.lockedOut (some .nop) = false ∧ out.credits 7 = 0
      ∧ Op.abort.exempt = true ∧ fenceBefore 1 = true
      ∧ ({ up .operator with cmds := [busy] } : State).credits 7 ≠ 0
      ∧ (({ up .operator with cmds := [busy] } : State).cmd 7 1).isSome = true
      ∧ (up .operator).cmd 7 1 = none ∧ (up .operator).mayRole .keyEnrol .operator = false
      ∧ ({ up .operator with cmds := [{ busy with tag := 2 }] } : State).cmd 7 1 = none
      ∧ (up .operator).mayRole .nop .operator = true ∧ Op.nop.immediate [] = true ∧ busy.acked = true
      ∧ Op.nop.usesCores = false ∧ busy.body = .fence [] ∧ fenceBefore 0 = false
      ∧ Op.ofCode 0x7777 = none ∧ (up .operator).lockedOut none = false ∧ (up .operator).credits 7 ≠ 0 := by decide +kernel

theorem test_met_ContinuedBlock :
    let with_ (k : Option Contin) : State := { up .operator with sources := [{ src .operator with cont := k }] }
    ((with_ none).source 7).map Source.cont = some none ∧ (with_ none).answers 0 = true
      ∧ ((with_ (some ⟨0x0303, 1, 4, [1]⟩)).source 7).map Source.cont = some (some ⟨0x0303, 1, 4, [1]⟩)
      ∧ ([1] ++ [2] : List Byte).length ≤ 65536 ∧ 65536 < (List.replicate 65536 (0 : Byte) ++ [0]).length
      ∧ ¬ ((2 : Nat) = 1 ∧ 0x0303 = 0x0303) ∧ (src .operator).seq = some (pkt []).seq := by
  refine ⟨shown, shown, shown, shown, ?_, shown, shown⟩
  rw [List.length_append, List.length_replicate]
  decide

/-! ## Hypotheses that are met: commands of the host -/

theorem test_met_SessionCommands :
    Session (up .none) .getStatus (pkt []) (pkt []) (src .none) ∧ Session (up .operator) .nop (pkt []) (pkt []) (src .operator)
      ∧ Session (up .operator) .readAttention (pkt []) (pkt []) (src .operator)
      ∧ Session (up .operator) .logout (pkt []) (pkt []) (src .operator) ∧ (up .operator).slotsHeld 7 = 0
      ∧ (let busy : State := { up .operator with
            cmds := [⟨0, 7, 2, .fence, 0, 4, [], true, false, 0, false, none, .fence [3]⟩] }
         Session busy .logout (pkt []) (pkt []) (src .operator) ∧ busy.slotsHeld 7 ≠ 0) :=
  ⟨sess shown, sess shown, sess shown, sess shown, shown,
    sess shown, shown⟩

/-- The parameter block of a LOGIN_RESPONSE to challenge 9: longer than a packet, so that its last packet ends the continuation
that its first one opened. -/
@[irreducible] def response : List Byte := [9, 0, 0, 0, 1, 0, 0, 0] ++ List.replicate sigBytes 0

/-- Source 7 with challenge 9 open, and the first packet of its response taken. -/
def responder : Source :=
  { src .none with challenge := some ⟨9, [], .operator, 0, 10000000⟩, cont := some ⟨0x0004, 1, 4, response.take 4080⟩ }

def answering (fails : List KeyFails) : State :=
  { up .none with sources := [responder], trust := { Trust.reset with keys := [⟨.operator, 0, [1]⟩], fails := fails } }

theorem response_length : response.length = 8 + sigBytes := by
  unfold response
  rw [List.length_append, List.length_replicate]
  rfl

theorem answering_source (fails : List KeyFails) : (answering fails).source 7 = some responder :=
  List.find?_cons_of_pos (shown)

theorem test_met_LoginCommands :
    Session (up .none) .loginChallenge (pkt (blk [(1, 3), (1, 0), (2, 0)])) (pkt (blk [(1, 3), (1, 0), (2, 0)])) (src .none)
      ∧ Role.ofCode 3 = some .maker ∧ (up .none).challengeable .maker 0 = true
      ∧ Session (answering []) .loginResponse (pkt response) (pkt (response.drop 4080)) responder
      ∧ response.length = 8 + sigBytes ∧ responder.challenge = some ⟨9, [], .operator, 0, 10000000⟩ ∧ fld response 0 4 = 9
      ∧ fld response 4 1 = 1 ∧ fld response 5 1 = 0 ∧ (fld response 6 1).testBit 0 = false
      ∧ (answering []).keyLocked .operator 0 = false ∧ (answering [⟨.operator, 0, 5, some 9⟩]).keyLocked .operator 0 = true :=
  ⟨sess shown, shown, shown,
    { ready := rfl, awake := rfl, running := rfl, port := by decide +kernel
      short := by rw [show (pkt (response.drop 4080)).params = response.drop 4080 from rfl, List.length_drop, response_length]; decide
      room := by rw [show (pkt (response.drop 4080)).params = response.drop 4080 from rfl, List.length_drop, response_length]; decide +kernel
      whole := by decide
      block := by
        show pkt response = pkt (response.take 4080 ++ response.drop 4080)
        rw [List.take_append_drop]
      small := by rw [show (pkt response).params = response from rfl, response_length]; decide
      opened := by rintro k ⟨⟩; exact ⟨rfl, rfl⟩
      unheld := by intro h; exact absurd h (shown)
      unfenced := by intro _ _ c hc; exact absurd hc (by simp [answering, up, State.reset])
      bound := answering_source [], samePort := rfl, inSeq := .inr (.inr rfl), credit := .inr shown, tag := rfl
      role := rfl, login := .inr rfl },
    response_length, rfl, shown, shown, shown, shown, shown,
    shown⟩

theorem test_met_KeyCommands :
    let ps := blk [(1, 0), (1, 1), (1, 15), (5, 0)] ++ List.replicate keyBytes 0
    let k : KeySlot := ⟨.operator, 15, []⟩
    let one := pkt (blk [(1, 1), (1, 1), (1, 15), (5, 0)])
    let held : State := { up .installer with trust := { Trust.reset with keys := [k] } }
    let twice := pkt (blk [(1, 0), (1, 1), (1, 15), (5, 0)])
    Session held .keyEnrol twice twice (src .installer) ∧ fld twice.params 0 1 = 0 ∧ (held.key .operator 15).isSome = true
      ∧ Session (up .installer) .keyEnrol twice twice (src .installer) ∧ twice.params.length ≠ 8 + keyBytes
      ∧ Session (up .installer) .keyEnrol (pkt ps) (pkt ps) (src .installer) ∧ Role.ofCode (fld ps 1 1) = some .operator
      ∧ 15 < keyLimit .operator ∧ fld ps 0 1 = 0 ∧ ps.length = 8 + keyBytes ∧ (up .installer).key .operator 15 = none
      ∧ Session held .keyEnrol one one (src .installer) ∧ fld one.params 0 1 = 1 ∧ held.key .operator 15 = some k :=
  ⟨sess shown, shown, shown, sess shown, shown, sess shown, shown, shown, shown, shown, shown,
    sess shown, shown, shown⟩

/-- The open Ledger 3 of source 7, and the module that holds it. -/
def led : Ledger := ⟨3, 7, 0, false, [], []⟩
def ledgering : State := { up .operator with ledger := some led }

theorem test_met_LedgerCommands :
    let id := pkt (blk [(4, 3)])
    let set := pkt (blk [(4, 3), (2, 0x3200), (2, 0), (8, 64)])
    Session (up .operator) .ledgerBegin (pkt []) (pkt []) (src .operator) ∧ (up .operator).ledger = none
      ∧ ledgering.ledger = some led ∧ led.committing = false ∧ led.owner = 7 ∧ led.id = fld id.params 0 4
      ∧ Session ledgering .ledgerSet set set (src .operator) ∧ keyRefusal .operator 0x3200 64 = none ∧ led.keys.length < 256
      ∧ Session ledgering .ledgerRollback id id (src .operator) ∧ Session ledgering .ledgerCommit id id (src .operator) :=
  ⟨sess shown, rfl, rfl, rfl, rfl, shown, sess shown, shown, shown,
    sess shown, sess shown⟩

theorem test_met_SettingCommands :
    let get := pkt (blk [(2, 1), (2, 0), (2, 0x1000)])
    let set := pkt (blk [(2, 0x3200), (6, 0), (8, 64)])
    Session (up .operator) .settingGet get get (src .operator) ∧ fld get.params 0 2 = 1 ∧ get.params.length = 4 + 2 * 1
      ∧ ((List.range 1).map (fun i => fld get.params (4 + 2 * i) 2)).all
          (fun k => (keyInfo k).isSome && keyReadable .operator k) = true
      ∧ Session (up .operator) .settingSet set set (src .operator) ∧ set.params.length = 16
      ∧ keyRefusal .operator 0x3200 64 = none ∧ (up .operator).ledger = none ∧ (up .operator).checkKeys [(0x3200, 64)] = none :=
  ⟨sess shown, shown, shown, shown, sess shown, shown,
    shown, rfl, shown⟩

/-- A module whose flash takes no record. -/
def worn (s : State) : State := { s with trust := { s.trust with flashFault := true } }

theorem test_met_flashFault :
    let id := pkt (blk [(4, 3)])
    let key := pkt (blk [(1, 0), (1, 1), (1, 15), (5, 0)])
    let act := pkt (blk [(1, 0), (3, 0)])
    Session (worn (up .installer)) .keyEnrol key key (src .installer) ∧ fld key.params 0 1 ≤ 1 ∧ 8 ≤ key.params.length
      ∧ Session (worn ledgering) .ledgerRollback id id (src .operator) ∧ (worn ledgering).ledger = some led
      ∧ Session (worn (up .maker)) .fwActivate act act (src .maker) ∧ (worn ledgering).trust.flashFault = true
      ∧ (worn (answering [])).keyLocked .operator 0 = false :=
  ⟨sess shown, shown, shown, sess shown, rfl, sess shown, rfl, shown⟩

/-- A BLOCKED tensor of one 32 by 32 block, and a ring of two such slots. -/
def ten (h : Nat) (f : Fmt) (base : Nat) : Tensor := ⟨h, some f, .blocked, 1, 32, 32, base, 0, 0, .empty, none⟩
def ringOf (h : Nat) (f : Fmt) (base : Nat) : Tensor := { ten h f base with layout := .ring, planes := 2 }

/-- Core 0 runs network 3, which has the graph 6 of one CONVERT from handle 1 to handle 2. -/
def convertBlock : List Byte := blk [(4, 1), (4, 2), (4, 0), (18, 1)]
def net3 : Net := ⟨3, .log16, 0, [0], 0, [⟨6, [⟨0x0206, false, 0, convertBlock⟩]⟩]⟩

/-- A module with tensors and network 3. -/
def laid (ts : List Tensor) : State :=
  { up .operator with
    tensors := ts, nets := [net3]
    cores := { Core.reset with net := some 3 } :: List.replicate 143 .reset }

def two : State := laid [ten 1 .lns16 0, ten 2 .lns16 0x1000]

/-- A command of source 7, accepted. -/
def cmdOf (op : Op) (tag : Nat) (ps : List Byte) (b : Body) : Cmd := ⟨0, 7, tag, op, 0, 4, ps, true, false, 0, false, none, b⟩

theorem test_met_TensorTableCommands :
    let ps := blk [(8, 0), (4, 2), (1, 3), (1, 0), (2, 1), (4, 32), (4, 32), (8, 0x1000), (4, 0), (2, 0), (2, 0)]
    let release := blk [(8, 1), (4, 2), (28, 0)]
    let one := laid [ten 1 .lns16 0]
    Session one .tensorDefine (pkt ps) (pkt ps) (src .operator) ∧ ps.length = 40 ∧ one.handleBusy 2 = false ∧ one.freezeOf 2 = none
      ∧ tensorOf (ps.drop 8) = some (ten 2 .lns16 0x1000) ∧ one.badRange (ten 2 .lns16 0x1000) = false ∧ one.tensors.length < 65536
      ∧ Session two .tensorDefine (pkt release) (pkt release) (src .operator) ∧ two.handleBusy (fld release 8 4) = false
      ∧ two.tensor (fld release 8 4) = some (ten 2 .lns16 0x1000)
      ∧ (let rd := pkt (blk [(4, 2), (4, 1)])
         Session two .assayRead rd rd (src .operator) ∧ rd.params.length = 8 ∧ (ten 2 .lns16 0x1000).fmt = some .lns16) :=
  ⟨sess shown, shown, shown, shown, shown, shown,
    shown, sess shown, shown, shown, sess shown, shown, rfl⟩

theorem test_met_DataCommandsAccepted :
    let acc := blk [(4, 1), (1, 0), (3, 0), (8, 0), (8, 0), (8, 0), (4, 2048), (4, 0)]
    let copy := blk [(4, 1), (4, 2), (2, 0), (2, 0)]
    let fill := blk [(4, 1), (4, 0), (2, 0), (2, 1)]
    Session two .tensorWrite (pkt acc) (pkt acc) (src .operator) ∧ acc.length = 40 ∧ two.receiveRing (accessOf acc).handle = false
      ∧ two.tensor (accessOf acc).handle = some (ten 1 .lns16 0) ∧ (accessOf acc).bulkLen (ten 1 .lns16 0) false = some 2048
      ∧ Session two .tensorRead (pkt acc) (pkt acc) (src .operator)
      ∧ Session two .tensorCopy (pkt copy) (pkt copy) (src .operator) ∧ copy.length = 12
      ∧ two.tensor (fld copy 4 4) = some (ten 2 .lns16 0x1000) ∧ overlaps 0 (ten 1 .lns16 0).footprint 0x1000 2048 = false
      ∧ Session two .tensorFill (pkt fill) (pkt fill) (src .operator) ∧ fill.length = 12
      ∧ fillPlanes (ten 1 .lns16 0) 0 1 = some (0, 1) ∧ fillValueOk (ten 1 .lns16 0) 0 = true :=
  ⟨sess shown, shown, shown, shown, shown, sess shown,
    sess shown, shown, shown, shown, sess shown, shown, shown,
    shown⟩

/-- A receive ring at handle 5 whose slot 1 is LAST. -/
def received : State :=
  let s := laid [ringOf 5 .lns16 0x10000]
  { s with streams := [Stream.new 1 false 1 0 0x2E 5 0 7 9], mem := memWrite s.mem 0x10000 (blk [(8, 1), (4, 1)]) }

theorem test_met_DataCommandsAccepted_ring :
    let rd := pkt (blk [(4, 5), (1, 0), (3, 0), (8, 0), (8, 0), (8, 0), (4, 2048), (4, 0)])
    Session received .tensorRead rd rd (src .operator) ∧ received.receiveRing 5 = true ∧ received.ringLast (ringOf 5 .lns16 0x10000) = 1
      ∧ ((accessOf rd.params).bulkLen (ringOf 5 .lns16 0x10000) true).isSome = true
      ∧ (received.admitted .tensorRead rd).startsNow (((src .operator).taken .tensorRead rd).req .tensorRead rd) = true :=
  ⟨sess shown, shown, shown, shown, shown⟩

theorem test_met_NetworkCommands :
    let load := pkt (blk [(4, 2 ^ 20)])
    let act := pkt (blk [(4, 3)])
    let idle : State := { two with cores := two.cores.map (fun k => { k with net := none }) }
    let fence := pkt (blk [(18, 2 ^ 144 - 1)])
    Session two .networkLoad load load (src .operator) ∧ fld load.params 0 4 = 2 ^ 20
      ∧ Session two .networkActivate act act (src .operator) ∧ two.loadedNet 3 = some net3 ∧ net3.cores.all (fun c => !two.lost c) = true
      ∧ Session idle .networkUnload act act (src .operator) ∧ idle.loadedNet 3 ≠ none
      ∧ idle.cores.all (fun k => decide (k.net ≠ some 3)) = true ∧ idle.cmds = []
      ∧ Session two .fence fence fence (src .operator) ∧ fence.params.length = 18
      ∧ (coreSet fence.params 0).all (fun c => !two.lost c) = true :=
  ⟨sess shown, shown, sess shown, shown, shown,
    sess shown, shown, shown, rfl, sess shown, shown, shown⟩

theorem test_met_OperatorsAccepted :
    let run := blk [(2, 3), (2, 0x0206), (4, 0)] ++ convertBlock
    let graph := blk [(2, 3), (2, 6), (4, 0)]
    let x : RecRun := RecRun.new (.rows { RowP.base .convert 1 (some 2) [0] with shift := 0 }) false 0 0
    two.loadedNet 3 = some net3 ∧ 8 ≤ run.length ∧ Session two .opRun (pkt run) (pkt run) (src .operator)
      ∧ ((two.admitted .opRun (pkt run)).bindAll net3 false false [] [⟨0x0206, false, 0, run.drop 8⟩] [] 0).toOption
          = some ([x], [1, 2], 0)
      ∧ Session two .graphRun (pkt graph) (pkt graph) (src .operator) ∧ fld graph 4 2 = 0 ∧ graph.length = 8 + 4 * 0
      ∧ net3.graphs.find? (fun g => g.id = fld graph 2 2) = some ⟨6, [⟨0x0206, false, 0, convertBlock⟩]⟩
      ∧ ((two.admitted .graphRun (pkt graph)).bindAll net3 true false [] [⟨0x0206, false, 0, convertBlock⟩] [] 0).toOption
          = some ([x], [1, 2], 0) :=
  ⟨shown, shown, sess shown, shown, sess shown, shown, shown,
    shown, shown⟩

theorem test_met_AbortCommand :
    let c := cmdOf .tensorRead 2 [] .plain
    let s : State := { up .operator with cmds := [c] }
    let p := pkt (blk [(2, 7), (2, 2)])
    Session s .abort p p (src .operator) ∧ p.params.length = 4 ∧ fld p.params 0 2 = p.source
      ∧ s.cmd (fld p.params 0 2) (fld p.params 2 2) = some c ∧ c.acked = true ∧ c.op.abortable = true ∧ c.stopping = false :=
  ⟨sess shown, shown, shown, shown, rfl, rfl, rfl⟩

theorem test_met_StackCommands :
    let of_ (action : Nat) : Packet := pkt (blk [(1, action), (1, 0), (2, 0xFFFF), (4, 0), (4, 2 ^ 30), (8, lpddrBase), (8, 256)])
    Session (up .operator) .stackConfig (of_ 0) (of_ 0) (src .operator) ∧ (of_ 0).params.length = 28
      ∧ (stackParams (of_ 0).params).action = 0 ∧ (stackParams (of_ 0).params).groups = List.range 16
      ∧ (up .operator).cmds = [] ∧ (stackParams (of_ 0).params).rangesOk = true
      ∧ (List.range 16).all (fun g => decide (((up .operator).stack g).entries = [])) = true
      ∧ (up .operator).setting 0x3201 * 2 ^ 20 ≤ (stackParams (of_ 0).params).sramSize
      ∧ (up .operator).stackAreasOk (stackParams (of_ 0).params) = true
      ∧ Session (up .operator) .stackConfig (of_ 1) (of_ 1) (src .operator) ∧ (stackParams (of_ 1).params).action = 1
      ∧ Session (up .operator) .stackConfig (of_ 2) (of_ 2) (src .operator) ∧ (stackParams (of_ 2).params).action = 2 :=
  ⟨sess shown, shown, shown, shown, rfl, shown, shown, shown,
    shown, sess shown, shown, sess shown, shown⟩

/-- DEVADDR 0x105, both feeds, a partner area in quarter 1, and crew list 1 of this device and 0x206. -/
def addressed (s : State) : State :=
  { s with
    settings := [(0x4000, 2 ^ 31 + 0x105), (0x6000, 5), (0x6001, 6), (0x6002, 1), (0x6010, lpddrBase + quarterBytes),
      (0x6011, 2 ^ 33)]
    net9 := { s.net9 with crew := ⟨1, [0x105, 0x206]⟩ } }

/-- A weight, its momentum and its gradient in quarter 0. -/
def weights : State :=
  laid [ten 1 .lns24 lpddrBase, ten 2 .lns24 (lpddrBase + 0x1000), ten 3 .lns24 (lpddrBase + 0x2000)]

/-- A module with a Ledger of source 7 open. -/
def weightsLedger : State := { weights with ledger := some led }

theorem test_met_UpdateCommands :
    let prog : List Byte := blk [(1, 1), (1, 1), (1, 0), (1, 0), (4, 0), (3, 0), (3, 0x400000), (10, 0)]
      ++ [0x02, 0x02, 0x02, 0x01, 0, 0, 0, 0]
    let unload : List Byte := blk [(1, 1), (1, 0), (1, 0), (1, 0), (4, 0), (3, 0), (3, 0x400000), (10, 0)]
    let stored : State := { up .operator with programs := [programOf prog] }
    let fr : Packet := { pkt (blk [(4, 1), (4, 0xFFFFFFFF), (1, 2), (3, 0)]) with flags := 2 }
    let pw := pkt (blk [(4, 1), (4, 0xFFFFFFFF), (8, 0), (4, 1024), (1, 0x04), (3, 0)])
    Session (up .operator) .updateProgramLoad (pkt prog) (pkt prog) (src .operator) ∧ prog.length = 24 + 8 * 1
      ∧ (programOf prog).id = 1 ∧ (up .operator).programBusy 1 = false ∧ (programOf prog).ok = true
      ∧ Session stored .updateProgramLoad (pkt unload) (pkt unload) (src .operator) ∧ unload.length = 24 ∧ fld unload 1 1 = 0
      ∧ (programOf unload).id = 1 ∧ stored.programBusy 1 = false ∧ (programOf unload).ok = true ∧ stored.program 1 ≠ none
      ∧ Session weightsLedger .freezeSet fr fr (src .operator) ∧ inLedger fr.flags = true ∧ fr.params.length = 12
      ∧ weightsLedger.tensor 1 = some (ten 1 .lns24 lpddrBase) ∧ quarterFor lpddrBase (ten 1 .lns24 lpddrBase).footprint = some 0
      ∧ weightsLedger.weightBusy 1 = false ∧ tref (fld fr.params 4 4) = none ∧ fld fr.params 8 1 = 2
      ∧ ((weightsLedger.masksThen (stagePut led.masks ⟨1, 2, 0, []⟩) 0).map StagedMask.bytes).foldl (· + ·) 0 ≤ 2 ^ 22
      ∧ (weightsLedger.masksThen (stagePut led.masks ⟨1, 2, 0, []⟩) 0).length ≤ 1024
      ∧ Session weights .paramWrite pw pw (src .operator) ∧ pw.params.length = 24 ∧ pwFields pw.params = (1, none, 0, 1024, 0x04)
      ∧ weights.tensor 1 = some (ten 1 .lns24 lpddrBase) ∧ weights.optTensor none = some none
      ∧ 0 + 1024 ≤ (ten 1 .lns24 lpddrBase).positions ∧ weights.server 0 ≠ none :=
  ⟨sess shown, shown, shown, shown, shown, sess shown,
    shown, shown, shown, shown, shown, shown, sess shown, shown,
    shown, shown, shown, shown, shown, shown, shown,
    shown, sess shown, shown, shown, shown, rfl, shown,
    shown⟩

/-- An UPDATE_RUN of one entry of the built-in program. -/
def updBlock : List Byte :=
  blk [(2, 1), (2, 1), (1, 0), (1, 0), (2, 0), (4, 0), (4, 0xFFFFFFFF), (72, 0)]
    ++ blk [(2, 0), (1, 0x40), (1, 0), (4, 1), (4, 2), (4, 3), (4, 0xFFFFFFFF), (4, 0xFFFFFFFF), (4, 0xFFFFFFFF), (4, 0xFFFFFFFF),
      (3, 0), (5, 0)]

/-- An ALL_REDUCE of LNS16 elements from handle 1 to handle 2. -/
def collBlock : List Byte :=
  blk [(1, 0), (1, 1), (1, 0), (1, 0), (4, 1), (4, 8), (8, 0), (4, 0), (4, 1), (4, 2)]

theorem test_met_RunsAccepted :
    (let a := (weights.admitted .updateRun (pkt updBlock)).moveStep (fld updBlock 40 4)
     let es := [a.updateEntry 1 ((updBlock.drop 88).take 40)].filterMap id
     Session weights .updateRun (pkt updBlock) (pkt updBlock) (src .operator) ∧ updBlock.length = 88 + 40 * 1
      ∧ fld updBlock 0 2 = 1 ∧ fld updBlock 2 2 = 1 ∧ fld updBlock 4 1 = 0 ∧ fld updBlock 5 1 = 0 ∧ fld updBlock 8 4 = 0
      ∧ tref (fld updBlock 12 4) = none ∧ es.length = 1 ∧ anyOverlap (a.ranges (es.flatMap UEntry.written)) = false
      ∧ es.all (fun e => decide (a.server e.quarter ≠ none)) = true ∧ a.sharedWorkspace es = true)
    ∧ (let s := addressed two
       let a := (s.admitted .collectiveRun (pkt collBlock)).moveStep (fld collBlock 12 8)
       Session s .collectiveRun (pkt collBlock) (pkt collBlock) (src .operator) ∧ fld collBlock 4 4 = a.crewVersion
        ∧ a.net9.crew.members = [0x105, 0x206] ∧ collFieldsOk collBlock 2 = true
        ∧ (tref (fld collBlock 24 4)).bind a.tensor ≠ none ∧ (tref (fld collBlock 28 4)).bind a.tensor ≠ none
        ∧ collFormats 0 1 0 ((tref (fld collBlock 24 4)).bind a.tensor) ((tref (fld collBlock 28 4)).bind a.tensor) = true
        ∧ tref (fld collBlock 24 4) ≠ tref (fld collBlock 28 4) ∧ s.devAddr = some 0x105
        ∧ [0x105, 0x206].findIdx? (fun m => m = 0x105) = some 0
        ∧ (∀ r : CollRun, r.members = [0x105, 0x206] → r.rank = 0 → a.watchFull r.neighbours = false)
        ∧ (a.collFor (a.crewVersion % 2 ^ 16) (fld collBlock 8 4)).isSome = false) := by
  refine ⟨⟨sess shown, ?_⟩, sess shown, ?_⟩
  · decide +kernel
  · refine ⟨shown, shown, shown, shown, shown, shown,
      shown, shown, shown, ?_, shown⟩
    intro r hm hr
    rw [show r.neighbours = [0x206, 0x206] by simp [CollRun.neighbours, hm, hr]]
    decide +kernel

theorem test_met_PartnerCommands_pair :
    let p (a h : Nat) : Packet := pkt (blk [(1, a), (3, 0), (4, h)])
    let s := addressed (up .operator)
    let bound : State := { s with pair := { s.pair with holder := some 0x206, holderState := .bound } }
    let lost : State := { s with pair := { s.pair with ward := some 0x206, wardState := .lost } }
    Session s .pairSet (p 0 0x206) (p 0 0x206) (src .operator) ∧ (p 0 0x206).params.length = 8 ∧ s.setting 0x6000 ≠ 0
      ∧ s.setting 0x6001 ≠ 0 ∧ s.devAddr ≠ some 0x206 ∧ s.pair.holderState = .none ∧ s.cmds = [] ∧ s.securing = false
      ∧ s.watchFull [0x206] = false
      ∧ Session bound .pairSet (p 1 0) (p 1 0) (src .operator) ∧ bound.pair.holder = some 0x206 ∧ bound.pair.holderState ≠ .binding
      ∧ bound.securing = false ∧ bound.cmds = []
      ∧ Session lost .pairSet (p 2 0) (p 2 0) (src .operator) ∧ lost.pair.wardState = .lost
      ∧ Session s .pairSet (p 3 0) (p 3 0) (src .operator) :=
  ⟨sess shown, shown, shown, shown, shown, rfl, rfl, shown,
    shown, sess shown, rfl, shown, shown, rfl, sess shown, rfl,
    sess shown⟩

/-- A SECURE run as it is accepted. -/
def secureNew : SecureRun := ⟨9, 4, [1], false, 0, [], [], 0, 0, false⟩

theorem test_met_PartnerCommands_unbind :
    let p := pkt (blk [(1, 1), (3, 0), (4, 0)])
    let c := cmdOf .secure 2 [] (.secure secureNew)
    let s : State := { addressed two with
      cmds := [c], pair := { (addressed two).pair with holder := some 0x206, holderState := .bound } }
    Session s .pairSet p p (src .operator) ∧ s.cmds = [] ++ c :: [] ∧ c.body = .secure secureNew ∧ s.pair.holder = some 0x206 :=
  ⟨sess shown, rfl, rfl, rfl⟩

/-- A holder whose slot 0 has a copy of one tensor, of STEP 4. -/
def holding : State :=
  let s := addressed (up .operator)
  { s with
    mem := (s.write (s.slotBase 0) (headerBytes 4 [ten 1 .lns16 0])).mem
    pair := { s.pair with
      ward := some 0x206, wardState := .bound, slots := [{ PartnerSlot.empty with state := .complete }, .empty] } }

theorem test_met_PartnerCommands_copy :
    let sec := pkt (blk [(8, 4), (1, 1), (7, 0), (4, 1)])
    let s : State := { addressed two with
      pair := { (addressed two).pair with holder := some 0x206, holderState := .bound, holderSlot := 2 ^ 30 } }
    let serve := pkt (blk [(4, 0x206), (8, 4), (1, 0), (3, 0), (8, 0), (4, 32), (4, 0x206), (4, 1), (8, 0)])
    Session s .secure sec sec (src .operator) ∧ sec.params.length = 16 + 4 * 1 ∧ fld sec.params 8 1 = 1
      ∧ s.tensor (fld sec.params 16 4) = some (ten 1 .lns16 0) ∧ s.securing = false ∧ s.pair.holderState = .bound
      ∧ s.pair.sameHolder = false ∧ copyBytes [ten 1 .lns16 0] ≤ s.pair.holderSlot
      ∧ Session holding .restoreServe serve serve (src .operator) ∧ serve.params.length = 44 ∧ holding.pair.wardState ≠ .none
      ∧ holding.pair.ward = some (fld serve.params 0 4 % 2 ^ 20) ∧ holding.completeSlot = some 0
      ∧ (holding.slotTensors 0)[fld serve.params 12 1]? = some (ten 1 .lns16 0) ∧ holding.slotStep 0 = fld serve.params 4 8
      ∧ fld serve.params 16 8 % 32 = 0 ∧ fld serve.params 24 4 = 32 ∧ fld serve.params 36 8 % 32 = 0
      ∧ fld serve.params 16 8 + fld serve.params 24 4 ≤ (ten 1 .lns16 0).positions :=
  ⟨sess shown, shown, shown, shown, shown, rfl, rfl, shown,
    sess shown, shown, shown, shown, shown, shown, shown,
    shown, shown, shown, shown⟩

theorem test_met_LinkAndCrewCommands :
    let st := pkt (blk [(8, 0)])
    let r (table first : Nat) : Packet := pkt (blk [(1, table), (1, 0), (2, first), (2, 1), (2, 0), (8, 3)])
    let crew := pkt (blk [(4, 1), (4, 65536), (8, 0)])
    Session (up .operator) .linkStatus st st (src .operator) ∧ st.params.length = 8
      ∧ Session (up .operator) .routeLoad (r 0 255) (r 0 255) (src .operator) ∧ (r 0 255).params.length = 8 + 8 * 1 ∧ 255 + 1 ≤ 256
      ∧ Session (up .operator) .routeLoad (r 1 4095) (r 1 4095) (src .operator) ∧ 4095 + 1 ≤ 4096
      ∧ Session (up .operator) .crewListSet crew crew (src .operator) ∧ crew.params.length = 16 ∧ fld crew.params 4 4 = 65536 :=
  ⟨sess shown, shown, sess shown, shown, shown, sess shown, shown,
    sess shown, shown, shown⟩

/-- A module whose port 1 carries sensors and port 9 outputs, with a ring in SRAM. -/
def ported : State :=
  { laid [ringOf 5 .lin16 0x10000, ten 1 .lin16 0] with portSettings := [(0x5001, 1), (0x5010, 2), (0x5090, 2)] }

theorem test_met_StreamCommands :
    let map (a : Nat) : Packet := pkt (blk [(1, a), (1, 63), (1, 1), (1, 0), (1, 0x2E), (3, 0), (2, 0), (2, 0), (4, 5)])
    let inp : Stream := Stream.new 63 false 1 0 0x2E 5 0 7 9
    let mapped : State := { ported with streams := [inp] }
    let mask := pkt (blk [(8, 2 ^ 63)])
    let out := pkt (blk [(1, 3), (1, 9), (1, 0), (1, 0), (4, 1)])
    Session ported .streamMap (map 0) (map 0) (src .operator) ∧ (map 0).params.length = 16 ∧ ported.mapRefusal (map 0).params = none
      ∧ Session mapped .streamMap (map 1) (map 1) (src .operator) ∧ mapped.stream 63 = some inp ∧ inp.state ≠ .running
      ∧ inp.output = false ∧ Session mapped .streamMap (map 2) (map 2) (src .operator)
      ∧ Session mapped .streamStart mask mask (src .operator) ∧ mapped.badMask (fld mask.params 0 8) = false
      ∧ Session mapped .streamStop mask mask (src .operator)
      ∧ Session ported .streamOut out out (src .operator) ∧ out.params.length = 8 ∧ ported.stream 3 = none
      ∧ ported.portSetting 9 0 = 2 ∧ ported.streams = [] ∧ ported.tensor 1 = some (ten 1 .lin16 0)
      ∧ outType (ten 1 .lin16 0).f = some 0x2E ∧ 32 * (Fmt.lin16.bits / 8) ≤ 16384 :=
  ⟨sess shown, shown, shown, sess shown, shown, shown, rfl,
    sess shown, sess shown, shown, sess shown, sess shown,
    shown, shown, shown, rfl, shown, rfl, shown⟩

theorem test_met_PowerAndResetCommands :
    let p (k : Nat) : Packet := pkt (blk [(1, k), (1, 0), (2, 0)])
    -- a cap that 16 groups in S0 do not meet, and S2 for all of them
    let low : State := { up .operator with
      settings := [(0x1000, 150)]
      power := { (up .operator).power with groups := List.replicate 16 ⟨.s2, none, none, 0, 0, 0, 1300, false, 0⟩ } }
    Session (up .operator) .setPowerState (p 3) (p 3) (src .operator) ∧ fld (p 3).params 0 1 = 3 ∧ (p 3).params.length = 4
      ∧ Session (up .operator) .setPowerState (p 2) (p 2) (src .operator) ∧ (up .operator).overCap (p 2).params = false
      ∧ Session (up .operator) .setPowerState (p 1) (p 1) (src .operator) ∧ (up .operator).overCap (p 1).params = false
      ∧ Session low .setPowerState (p 0) (p 0) (src .operator) ∧ low.overCap (p 0).params = true
      ∧ Session (up .operator) .reset (p 1) (p 1) (src .operator) ∧ Session (up .operator) .reset (p 2) (p 2) (src .operator)
      ∧ Session (up .maker) .reset (p 2) (p 2) (src .maker) :=
  ⟨sess shown, shown, shown, sess shown, shown, sess shown,
    shown, sess shown, shown, sess shown, sess shown,
    sess shown⟩

theorem test_met_HealthCommands :
    let rd := pkt (blk [(2, 143), (2, 1), (2, 0x076D)])
    let rep (u : Nat) : Packet := pkt (blk [(4, u), (4, 0)])
    let st := pkt (blk [(18, 2 ^ 143), (1, 8), (1, 0)])
    let s := up .installer
    Session s .countersRead rd rd (src .installer) ∧ rd.params.length = 4 + 2 * 1 ∧ fld rd.params 2 2 = 1
      ∧ fld rd.params 0 2 = 143 ∧ counterAssigned (fld rd.params 4 2) = true ∧ s.keptCores ≠ []
      ∧ Session s .spareStatus (pkt []) (pkt []) (src .installer)
      ∧ Session s .repair (rep 143) (rep 143) (src .installer) ∧ fld (rep 143).params 0 4 % 65536 = 143 ∧ s.lost 143 = false
      ∧ s.health.spareFree.getD (143 / 9) false = true
      ∧ Session s .repair (rep 0x2003) (rep 0x2003) (src .installer) ∧ fld (rep 0x2003).params 0 4 % 65536 = 0x2003
      ∧ s.health.tinkerRetired.getD 3 true = false ∧ s.health.tinkerRetired.getD (neighbour 3) true = false
      ∧ Session s .selfTest st st (src .installer) ∧ st.params.length = 20 ∧ coreSet st.params 0 = [143]
      ∧ (List.range 4).filter (fun t => (fld st.params 18 1).testBit t) = [3] :=
  ⟨sess shown, shown, shown, shown, shown, shown, sess shown,
    sess shown, shown, shown, shown, sess shown, shown, shown,
    shown, sess shown, shown, shown, shown⟩

theorem test_met_TrustCommands :
    let s := up .installer
    let nonce := pkt (blk [(32, 0)])
    let read := pkt (blk [(8, 0), (4, 65536)])
    let stage := pkt (blk [(1, 4), (3, 0), (4, 2 ^ 26)])
    let act := pkt (blk [(1, 0), (3, 0)])
    Session (up .none) .identityGet (pkt []) (pkt []) (src .none) ∧ Session s .attest nonce nonce (src .installer)
      ∧ nonce.params.length = 32 ∧ Session s .auditRead read read (src .installer) ∧ read.params.length = 12
      ∧ fld read.params 8 4 = 65536 ∧ fld read.params 0 8 < s.trust.audit.next
      ∧ Session s .fwStage stage stage (src .installer) ∧ stage.params.length = 8 ∧ fld stage.params 0 1 = 4
      ∧ fld stage.params 4 4 = 2 ^ 26
      ∧ Session s .fwActivate act act (src .installer) ∧ act.params.length = 4 ∧ fld act.params 0 1 = 0
      ∧ slotResult s.trust.firmware.rollback s.trust.firmware.slotA = .ok :=
  ⟨sess shown, sess shown, shown, sess shown, shown, shown, shown,
    sess shown, shown, shown, shown, sess shown, shown, shown, shown⟩

/-! ## Hypotheses that are met: the host interface -/

/-- A TENSOR_WRITE of source 7 with 4 of its 8 bytes received. -/
def writing : Cmd := { cmdOf .tensorWrite 2 (blk [(4, 1), (1, 0), (3, 0), (8, 0), (8, 0), (8, 0), (4, 8), (4, 0)]) .plain with
  bulk := some ⟨8, [1, 2, 3, 4], 0⟩ }

theorem test_met_BulkData :
    let s : State := { two with cmds := [writing] }
    let w : State := { two with cmds := [{ writing with op := .networkLoad, acked := false }] }
    s.power.phase ≠ .off ∧ s.answers 0 = true ∧ s.source 7 = some (src .operator) ∧ s.cmd 7 2 = some writing
      ∧ writing.bulk.map (fun b => (b.data.length, b.total)) = some (4, 8) ∧ s.fifthBulk writing = false ∧ writing.acked = true
      ∧ (w.cmd 7 2).map Cmd.acked = some false ∧ w.fifthBulk { writing with op := .networkLoad, acked := false } = false
      ∧ s.portFull 0 (16 + 4) = false ∧ s.power.buffered = [] ∧ s.mayMove .ingest (s.bulkMoves 7 2) = true
      ∧ (s.power.buffered.all fun y => decide (¬ (y.source = 7 ∧ y.tag = 2))) = true := by
  decide +kernel

theorem test_met_BulkData_waits :
    let behind : State := { up .operator with power := { (up .operator).power with buffered := [⟨0, 7, 2, 0, []⟩] } }
    (up .operator).listens 0 = true ∧ crowded.portFull 0 (16 + 1) = true ∧ behind.portFull 0 (16 + 1) = false
      ∧ behind.power.buffered.any (fun y => decide (y.port = 0)) = true := by decide +kernel

theorem test_met_CommandStart :
    let held := { cmdOf .nop 2 [] .plain with acked := false, flags := 1 }
    let go (op : Op) : Cmd := cmdOf op 2 [] .plain
    let s (c : Cmd) : State := { up .operator with cmds := [c] }
    (s held).cmd 7 2 = some held ∧ held.bulk = none ∧ (s held).earlier held = []
      ∧ (s (go .attest)).cmd 7 2 = some (go .attest) ∧ (s (go .attest)).mayStart (go .attest) = true ∧ (go .attest).running = false
      ∧ (s (go .auditRead)).mayStart (go .auditRead) = true ∧ (s (go .tensorRead)).mayStart (go .tensorRead) = true
      ∧ held.usesCores = false ∧ (s (go .tensorCopy)).mayStart (go .tensorCopy) = true := by
  decide +kernel

/-- A TENSOR_READ of a tensor that is no receive ring, of a ring with a complete slot, and of one without. -/
theorem test_met_CommandStart_read :
    let rd (h : Nat) : Cmd := cmdOf .tensorRead 2 (blk [(4, h), (1, 0), (3, 0), (8, 0), (8, 0), (8, 0), (4, 2048), (4, 0)]) .plain
    let s (b : State) (h : Nat) : State := { b with cmds := [rd h] }
    (s two 1).mayStart (rd 1) = true ∧ (s two 1).tensor (accessOf (rd 1).params).handle = some (ten 1 .lns16 0)
      ∧ (s two 1).receiveRing 1 = false
      ∧ (s received 5).mayStart (rd 5) = true ∧ (s received 5).tensor (accessOf (rd 5).params).handle = some (ringOf 5 .lns16 0x10000)
      ∧ (s received 5).receiveRing 5 = true ∧ (s received 5).ringLast (ringOf 5 .lns16 0x10000) < 2
      ∧ (let none_ : State := { s received 5 with mem := memWrite received.mem 0x10008 (leBytes 4 0xFFFFFFFF) }
         none_.receiveRing 5 = true ∧ 2 ≤ none_.ringLast (ringOf 5 .lns16 0x10000)) := by decide +kernel

theorem test_met_Expiries :
    let x : Source := { src .none with challenge := some ⟨9, [], .operator, 0, 100⟩ }
    let s : State := { up .none with sources := [x], ledger := some led,
                                     trust := { Trust.reset with fails := [⟨.operator, 255, 5, some 60⟩] } }
    s.source 7 = some x ∧ x.role = .none ∧ s.slotsHeld 7 = 0 ∧ x.challenge = some ⟨9, [], .operator, 0, 100⟩
      ∧ Role.ofCode 1 = some .operator ∧ (s.failsOf .operator 255).lockedUntil = some 60 ∧ s.ledger = some led
      ∧ led.committing = false ∧ s.trust.flashFault = false ∧ (worn s).ledger = some led := by decide +kernel

theorem test_met_CommitRows :
    let c : Commit := ⟨7, 2, 3, .operator, 0, [(0x3200, 64)], [], 50000, none⟩
    let bad : Commit := { c with bad := some 0x3201 }
    let moving : Commit := { c with keys := [(0x4000, 0)] }
    -- a floor above the ceiling that another commit has set since
    let crossed : Commit := { c with keys := [(floorKey 2 3, 200)] }
    let s (c : Commit) (xs : List Cmd) : State := { addressed (up .operator) with commits := [c], cmds := xs }
    let commit := cmdOf .ledgerCommit 2 [] .plain
    let busy := { cmdOf .collectiveRun 9 [] .plain with running := true }
    let low : State := { s crossed [] with settings := [(floorKey 2 3 + 1, 100)] }
    let late : State := { s moving [] with now := 50001 }
    (s c [commit]).commitDue c = true ∧ (s c [commit]).openCommits = [c]
      ∧ ({ s c [commit] with commits := [] } : State).checkKeys c.keys = none ∧ c.bad = none ∧ c.notQuiet (s c [commit]) = none
      ∧ c.quietItem = none ∧ (s c [commit]).trust.flashFault = false ∧ (worn (s c [commit])).openCommits = [c] ∧ c.keys ≠ []
      ∧ (s bad [commit]).openCommits = [bad] ∧ bad.bad = some 0x3201
      ∧ low.openCommits = [crossed] ∧ (({ low with commits := [] } : State).checkKeys crossed.keys).isSome = true
      ∧ (s moving []).openCommits = [moving] ∧ moving.notQuiet (s moving []) = none ∧ moving.quietItem = some 0x4000
      ∧ (s moving []).now ≤ (s moving []).commitLimit moving
      ∧ late.openCommits = [moving] ∧ ({ late with commits := [] } : State).checkKeys moving.keys = none
      ∧ moving.notQuiet late = none ∧ late.commitLimit moving < late.now
      ∧ (s moving [busy]).openCommits = [moving] ∧ (moving.notQuiet (s moving [busy])).isSome = true
      ∧ ({ up .operator with portQueue := [(1000, [(0x5090, 2)])] } : State).portQueue = [(1000, [(0x5090, 2)])]
      ∧ keyPort 0x5090 = some 9 ∧ (up .operator).streams = [] := by decide +kernel

theorem test_met_Mailbox :
    let good : List Byte := blk [(2, 0), (1, 0), (1, 1), (2, 7), (2, 1), (4, 5), (4, 4), (4, 9)]
    let s : State := { up .operator with i3c := { I3c.reset with mbxIn := good, mbxOut := [⟨12, 0, 0, [1]⟩] } }
    s.power.phase ≠ .off ∧ s.answers 12 = true ∧ s.inBusy = false
      ∧ ({ s with power := { s.power with buffered := [⟨12, 7, 2, 0, []⟩] } } : State).inBusy = true ∧ good.length = 20
      ∧ fld (padTo 20 good) 3 1 = 1 ∧ fld (padTo 20 good) 12 4 + 16 = 20
      ∧ fld (padTo 16 good) 12 4 + 16 ≠ 16 ∧ s.i3cUp = true ∧ 0x1000 + 254 ≤ 0x2000 ∧ 254 + 2 ≤ s.i3c.mwl := by decide +kernel

theorem test_met_CommonCommandCodes : (up .operator).i3cUp = true ∧ (up .operator).i3c.addr = none := by decide +kernel

/-! ## Hypotheses that are met: streams and operators -/

/-- An input stream of port 1 into the ring of handle 5, running, and one of its frames open. -/
def camera : Stream := { Stream.new 1 false 1 0 0x2E 5 0 7 9 with state := .running }
def filming (x : Stream) : State := { ported with streams := [x] }

/-- A ring slot that a record pins. -/
def pinning (s : State) : State :=
  let pin : RecRun := { RecRun.new (.rows (RowP.base .convert 5 (some 1) [0])) false 0 0 with pins := [(5, 0)] }
  { s with cmds := [cmdOf .opRun 2 [] (.ops ⟨3, false, false, [pin], [], 0, none⟩)] }

theorem test_met_FrameRows_frames :
    let open_ : Stream := { camera with frame := some .empty }
    let behind : Stream := { open_ with ended := [.empty] }
    let ms : Moves := [(true, 0x10000, 2048), (true, 0x10000, 64)]
    (filming camera).inputs 1 0 = [camera] ∧ (filming camera).tensor camera.ring = some (ringOf 5 .lin16 0x10000)
      ∧ camera.frame = none ∧ open_.frame = some .empty
      ∧ (filming camera).slotPinned 5 ((camera.nextSlot + camera.ended.length) % 2) = false
      ∧ (pinning (filming camera)).slotPinned 5 ((camera.nextSlot + camera.ended.length) % 2) = true
      ∧ (pinning (filming open_)).slotPinned 5 ((open_.nextSlot + open_.ended.length) % 2) = true
      ∧ (filming open_).slotPinned 5 ((open_.nextSlot + open_.ended.length) % 2) = false
      ∧ open_.ended = [] ∧ behind.ended ≠ [] ∧ (filming open_).mayMove .ingest ms = true
      ∧ ({ filming open_ with stintSettings := [(floorKey 5 3 + 1, 0)] } : State).mayMove .ingest ms = false := by decide +kernel

/-- The tensors are those of the state behind `State.corrected` too, by `State.corrected_tensors`. -/
theorem test_met_FrameRows_lines :
    let x (dt lines : Nat) : Stream := { camera with dt := dt, frame := some { OpenFrame.empty with lines := lines } }
    let at_ (dt lines : Nat) : Bool := decide ((filming (x dt lines)).inputs 1 0 = [x dt lines])
      && decide ((filming (x dt lines)).tensor 5 = some (ringOf 5 .lin16 0x10000))
    at_ 0x2E 0 = true ∧ at_ 0x2E 32 = true ∧ pixelType 0x2E = true ∧ (0 : Nat) < 32 ∧ at_ 0x35 0 = true ∧ audioType 0x35 = true
      ∧ planarType 0x35 = true ∧ at_ 0x32 0 = true ∧ audioType 0x32 = true ∧ planarType 0x32 = false
      ∧ ((filming camera).inputs 1 0).all (fun y => decide (y.dt ≠ 0x2A)) = true := by decide +kernel

theorem test_met_FrameRows_output :
    let x (mode : Nat) : Stream := { Stream.new 3 true 9 0 0 (if mode = 0 then 1 else 5) mode 7 2 with state := .running }
    let s (y : Stream) : State := { ported with streams := [y], mem := memWrite ported.mem 0x10000 (blk [(8, 1), (4, 1)]) }
    let y : Stream := { x 0 with sending := true }
    let wide : Tensor := { ten 1 .lin16 0 with planes := 2 }
    let more : State := { s y with tensors := [wide] }
    let ms := y.lineMoves (ten 1 .lin16 0) 32
    let bad : State := { s y with poison := [0] }
    (s (x 0)).stream 3 = some (x 0) ∧ (s (x 0)).tensor (x 0).ring = some (ten 1 .lin16 0) ∧ (x 0).output = true
      ∧ (x 0).state = .running ∧ (x 0).sending = false ∧ (x 0).stopping = false ∧ (x 0).mode = 0
      -- MODE 1: a new slot, and one already sent
      ∧ (s (x 1)).tensor (x 1).ring = some (ringOf 5 .lin16 0x10000) ∧ (s (x 1)).ringLast (ringOf 5 .lin16 0x10000) = 1
      ∧ (x 1).lastSent ≠ some ((s (x 1)).ringCompleted (ringOf 5 .lin16 0x10000))
      ∧ ({ x 1 with lastSent := some 1 } : Stream).lastSent = some ((s (x 1)).ringCompleted (ringOf 5 .lin16 0x10000))
      -- the end of a frame: the last, one before it, one at the ceiling, and one that meets poison
      ∧ y.sending = true ∧ (s y).outPoison y (ten 1 .lin16 0) = none ∧ (s y).mayMove .ingest ms = true
      ∧ ({ s y with stintSettings := [(floorKey 5 2 + 1, 0)] } : State).mayMove .ingest ms = false
      ∧ (ten 1 .lin16 0).planes ≤ y.slot + 1 ∧ y.slot + 1 < wide.planes ∧ more.outPoison y wide = none
      ∧ bad.outPoison y (ten 1 .lin16 0) = some 0 ∧ bad.mayMove .ingest (y.lineMoves (ten 1 .lin16 0) 0) = true := by decide +kernel

/-- The CONVERT of `convertBlock` as a record, and OP_RUN 2 with it. -/
def convert : RecRun := RecRun.new (.rows { RowP.base .convert 1 (some 2) [0] with shift := 0 }) false 0 0
def runOf (xs : List RecRun) : Cmd := cmdOf .opRun 2 [] (.ops ⟨3, false, false, xs, [1, 2], 0, none⟩)
def operating (xs : List RecRun) (k : Core) : State :=
  { two with
    cmds := [runOf xs], cores := { k with net := some 3 } :: List.replicate 143 .reset }

theorem test_met_StartRows :
    let s := operating [convert] .reset
    let both : RecRun := { convert with op := .rows (RowP.base .convert 1 (some 2) [0, 1]), phase := .running, started := [1] }
    let second := operating [both] .reset
    let gone : State := { s with health := { s.health with map := none :: List.replicate 143 (some 0) } }
    let skip : RecRun := RecRun.new (.skipIf 0 3 .ne 0 1) false 0 0
    let done_ : RecRun := { convert with phase := .committed }
    let skipping := operating [done_, skip] .reset
    let moving : State := { two with cmds := [cmdOf .networkActivate 2 [] (.activate 3 [0])] }
    let fence : State := { two with cmds := [cmdOf .fence 2 [] (.fence [0])] }
    s.opRec ⟨7, 2, 0⟩ = some (runOf [convert], ⟨3, false, false, [convert], [1, 2], 0, none⟩, convert)
      ∧ s.turnOf (runOf [convert]) ⟨3, false, false, [convert], [1, 2], 0, none⟩ 0 convert 0 = true ∧ s.lost 0 = false
      ∧ s.mayMove .compute (s.tillMoves 0 0 false convert) = true
      ∧ s.coreUp 0 = true ∧ s.askedAway ⟨3, false, false, [convert], [1, 2], 0, none⟩ 0 = false ∧ convert.stack = 0
      ∧ convert.started = [] ∧ s.slotMissing convert = false ∧ s.ringsOf convert.op = []
      ∧ (((s.startOps (runOf [convert])).mapRec ⟨7, 2, 0⟩ (fun _ => convert)).pairTest ⟨7, 2, 0⟩ convert).opRec ⟨7, 2, 0⟩ ≠ none
      ∧ unitsOn convert.op.cores ((s.startOps (runOf [convert])).units convert.op) 0 = [0]
      ∧ gone.turnOf (runOf [convert]) ⟨3, false, false, [convert], [1, 2], 0, none⟩ 0 convert 0 = true ∧ gone.lost 0 = true
      ∧ second.turnOf (runOf [both]) ⟨3, false, false, [both], [1, 2], 0, none⟩ 0 both 0 = true ∧ both.started ≠ []
      ∧ second.lost 0 = false ∧ second.coreUp 0 = true
      ∧ (skipping.opRec ⟨7, 2, 1⟩).isSome = true ∧ skipping.mayStart (runOf [done_, skip]) = true ∧ skip.phase = .waiting
      ∧ recReady [done_, skip] 1 false = true ∧ done_.open = false
      ∧ (moving.cmd 7 2).isSome = true ∧ moving.mayStart (cmdOf .networkActivate 2 [] (.activate 3 [0])) = true
      ∧ moving.coreTurn (cmdOf .networkActivate 2 [] (.activate 3 [0])) 0 = true ∧ moving.lost 0 = false
      ∧ fence.mayStart (cmdOf .fence 2 [] (.fence [0])) = true
      ∧ fence.earlier (cmdOf .fence 2 [] (.fence [0])) = [] ∧ fence.lost 0 = false := by decide +kernel

/-- A Loom operator of one 32 by 32 by 32 product on core 0, with its tile live. -/
def product : LoomP :=
  { kind := .plain, m := 32, n := 32, k := 32, kbase := 0, a := 1, b := 2, c := none, tal := none, src := 0, srcSlot := 0, close := 0,
    closeSlot := 0, outFmt := 0, scaleA := 0, scaleB := 0, colScale := none, tills := [none, none, none, none], cores := [0],
    batch := 1, red := none, redFmt := 0, chain := .plain, scalars := [] }
def loomRec : RecRun := { RecRun.new (.loom product) false 0 0 with phase := .running, started := [0] }
def looming (l : Live) (es : List FinishEntry) : State :=
  operating [loomRec] { Core.reset with cur := some ⟨7, 2, 0⟩, live := some l, held := es }
def tile0 (done : Nat) (busy : List InChunk) : Live := ⟨0, 32, 32, [], done :: List.replicate 15 0, busy, [], []⟩

theorem test_met_LoomRows :
    let s := looming (tile0 0 []) []
    let ch : InChunk := ⟨0, 32, [], 0, 32, 0⟩
    let e : FinishEntry := ⟨⟨7, 2, 0⟩, 0, 32, 32, [], 0, false⟩
    let capped (s : State) : State := { s with power := { s.power with holdClusters := true, holdUs := 100 } }
    ((s.loomOn 0).map (fun x => x.2.2.2)) = some product ∧ product.k ≠ 0 ∧ (s.openTile 0 ⟨7, 2, 0⟩ product).clustersHeld = false
      ∧ ((capped s).loomOn 0).isSome = true ∧ ((capped s).openTile 0 ⟨7, 2, 0⟩ product).clustersHeld = true
      ∧ ((s.openTile 0 ⟨7, 2, 0⟩ product).core 0).live = some (tile0 0 [])
      ∧ (s.openTile 0 ⟨7, 2, 0⟩ product).view loomRec 1 = some (ten 1 .lns16 0)
      ∧ (s.openTile 0 ⟨7, 2, 0⟩ product).view loomRec 2 = some (ten 2 .lns16 0x1000)
      ∧ (tile0 0 []).mayStart product.chunks 0 = true
      ∧ (looming (tile0 0 [ch]) []).loomBusy 0 = some (⟨7, 2, 0⟩, ⟨3, false, false, [loomRec], [1, 2], 0, none⟩, product)
      ∧ ((looming (tile0 0 [ch]) []).core 0).live = some (tile0 0 [ch]) ∧ (tile0 0 [ch]).busy.find? (fun b => b.cluster = 0) = some ch
      ∧ ((looming (tile0 1 []) []).core 0).live = some (tile0 1 []) ∧ (tile0 1 []).complete product.chunks = true
      ∧ (looming (tile0 1 []) []).colPoison loomRec product = none
      ∧ (looming (tile0 1 []) []).mayMove .compute [] = true ∧ (looming (tile0 1 []) [e]).finishStalled 0 = false
      ∧ ((looming (tile0 1 []) [e]).core 0).held = [e] ∧ ((looming (tile0 1 []) [e]).core 0).finish = [] := by decide +kernel

/-- The chunk's operands reach the cluster from the feeders, and nothing stops one that reads what is not poisoned. -/
theorem test_met_LoomRows_feed :
    let s := looming (tile0 0 []) []
    let s1 := s.openTile 0 ⟨7, 2, 0⟩ product
    let j := s1.jobOf 0 0 ⟨3, false, false, [loomRec], [1, 2], 0, none⟩ product (ten 1 .lns16 0) (ten 2 .lns16 0x1000) (tile0 0 [])
    let q := feedReqs product j (tileOf 32 32 0) 0
    let bad : State := { s1 with poison := [0] }
    (s1.feed (s1.core 0).feedA q.1).toOption.isSome = true ∧ (s1.feed (s1.core 0).feedB q.2).toOption.isSome = true
      ∧ (bad.feed (bad.core 0).feedA q.1).toOption.isSome = false
      ∧ s1.mayMove .compute [] = true := by decide +kernel

theorem test_met_PassRows :
    let e : FinishEntry := ⟨⟨7, 2, 0⟩, 0, 32, 32, [], 0, false⟩
    let s := operating [loomRec] { Core.reset with cur := some ⟨7, 2, 0⟩, finish := [e] }
    let a : Pass := ⟨⟨7, 2, 0⟩, some e, 0, 32, 32, []⟩
    let p := operating [loomRec] { Core.reset with pass := some a }
    let done_ : RecRun := { convert with phase := .running, started := [0], finished := [0] }
    let test : State := { up .operator with cmds := [cmdOf .selfTest 2 [] (.selfTest [] [] [] [])] }
    let stop : Cmd := cmdOf .opRun 2 [] (.ops ⟨3, false, false, [convert], [], 0, some (0x04, 0xFFFF)⟩)
    (s.core 0).pass = none ∧ (s.core 0).finish = [e] ∧ (s.opRec e.op).isSome = true ∧ s.pushed loomRec 0 = true
      ∧ (p.core 0).pass = some a ∧ p.mayMove .compute (p.passMoves loomRec a.unit) = true
      ∧ p.mayMove .stack (p.saveMoves loomRec 0 a.unit) = true ∧ (p.opRec a.op).isSome = true
      ∧ ((operating [done_] .reset).opRec ⟨7, 2, 0⟩).isSome = true ∧ (operating [done_] .reset).recDone done_ = true
      ∧ (test.cmd 7 2).map Cmd.body = some (.selfTest [] [] [] [])
      ∧ ({ two with cmds := [stop] } : State).cmd 7 2 = some stop ∧ two.cores.all (fun k => !k.chunksOf 7 2) = true := by decide +kernel

/-- An entry of group 0's stack, and a state whose stack of group 0 holds it. -/
def entry (stamp : Nat) (st : EntryState) : StackEntry :=
  ⟨stamp, [0], false, .lns16, 32, 32, [], 64, st, if st = .spilled then [] else [(2 ^ 28, 64)], 0, 7, 1⟩
def stacked (es : List StackEntry) (xs : List RecRun) : State :=
  { operating xs .reset with
    actStacks := ⟨true, 2 ^ 28, 2 ^ 24, lpddrBase, 2 ^ 20, 1, 0, es⟩ :: List.replicate 15 .reset }

theorem test_met_StackRows :
    let save : RecRun := { convert with stack := 1, stamp := 9, phase := .running, started := [0] }
    let push := stacked [] [save]
    let e := push.newEntry ⟨7, 2, 0⟩ save 0
    let below := stacked [entry 1 .resident, entry 2 .resident] []
    let sp := stacked [entry 1 .spilling] []
    let up_ := stacked [entry 1 .spilled] []
    let fi := stacked [entry 1 .filling] []
    let pop (x : Nat) : RecRun := RecRun.new (.pop x none true [0]) false 0 0
    let popping (x : Nat) := stacked [entry 1 .resident] [pop x]
    let r (x : Nat) : OpsRun := ⟨3, false, false, [pop x], [1, 2], 0, none⟩
    (push.opRec ⟨7, 2, 0⟩).isSome = true ∧ push.pushDue save 0 = true ∧ push.groupUp 0 = true
      ∧ ((push.makeRoom 0 e.size).stack 0).used + e.size ≤ ((push.makeRoom 0 e.size).stack 0).sramSize
      ∧ below.groupUp 0 = true ∧ (below.stack 0).entries.all (fun d => decide (d.state ≠ .spilling)) = true
      ∧ (below.stack 0).entries.find? (fun d =>
          decide (d.state = .resident) && !d.marker && (below.outsideStamps 0).contains d.stamp) = some (entry 1 .resident)
      ∧ sp.entryIn 0 1 .spilling = some (entry 1 .spilling)
      ∧ sp.mayMove .stack (runMoves (runsOut (entry 1 .spilling).place lpddrBase)) = true
      ∧ (up_.stack 0).entries.reverse.find? (fun d =>
          decide (d.state = .spilled) && !(up_.outsideStamps 0).contains d.stamp) = some (entry 1 .spilled)
      ∧ ((up_.makeRoom 0 64).stack 0).used + 64 ≤ ((up_.makeRoom 0 64).stack 0).sramSize
      ∧ fi.entryIn 0 1 .filling = some (entry 1 .filling) ∧ push.belowCeiling .stack 3 0 = true
      ∧ fi.mayMove .stack (runMoves (runsIn (entry 1 .filling).place lpddrBase)) = true
      ∧ ((popping 1).opRec ⟨7, 2, 0⟩).isSome = true ∧ (pop 1).phase ≠ .running
      ∧ (popping 1).turnOf (runOf [pop 1]) (r 1) 0 (pop 1) 0 = true ∧ (popping 1).lost 0 = false ∧ (popping 1).coreUp 0 = true
      ∧ (popping 1).stackTurn (runOf [pop 1]) (r 1) 0 [0] = true
      ∧ (((popping 1).startOps (runOf [pop 1])).stackWindows [0]).popOk [0] 1 none true 0 = true
      ∧ (popping 2).turnOf (runOf [pop 2]) (r 2) 0 (pop 2) 0 = true
      ∧ (((popping 2).startOps (runOf [pop 2])).stackWindows [0]).popOk [0] 2 none true 0 = false := by decide +kernel


/-! ## Hypotheses that are met: updates, copies, links -/

/-- A module on whose every instance of a kind a class has ceiling 0 in this stint. -/
def ceiled (kind cls : Nat) : State := { two with stintSettings := [(floorKey cls kind + 1, 0)] }

/-- Every class waits at its ceiling: for SRAM reads and writes, and for LPDDR5X. -/
theorem test_met_atCeiling :
    (ceiled 2 0).mayMove .compute [(false, 0, 32)] = false ∧ (ceiled 3 1).mayMove .stack [(true, 0, 32)] = false
      ∧ (ceiled 3 1).belowCeiling .stack 3 0 = false ∧ (ceiled 0 2).mayMove .secure [(false, lpddrBase, 32)] = false
      ∧ (ceiled 0 3).mayMove .update [(true, lpddrBase, 32)] = false ∧ (ceiled 2 4).mayMove .collective [(false, 0, 32)] = false
      ∧ (ceiled 3 5).mayMove .ingest [(true, 0, 32)] = false ∧ (ceiled 1 4).classMay 63 2 = false
      ∧ two.mayMove .compute [(false, 0, 32)] = true := by decide +kernel

/-- A collective of this device and 0x206 under crew 1. -/
def coll (started : Bool) : CollRun :=
  { kind := 0, combine := 1, close := 0, tag := 0, crew := 1, cid := 8, peer := 0, tc := 3, input := some 1, output := some 2, vec := [],
    members := [0x105, 0x206], rank := 0, started := started, got := [], counts := [], acc := [], flags := 0, lastRx := 0 }

/-- One that has all it needs: a send of this device alone. -/
def alone : CollRun := { coll true with members := [0x105], output := none, kind := 4, tc := 2 }

/-- The one entry of `updBlock`, an UPDATE_RUN of it, and a module that runs it. -/
def upEntry : UEntry := ⟨0, signMomentum, 1, some 2, 3, none, none, none, none, 0, 0⟩
def upd : UpdRun :=
  { nlayers := 1, mode := 0, coll := false, skip := 0, crew := 0, normOut := none, skipNorm := 0, clip := 0, ks := [],
    entries := [upEntry], pass1 := List.replicate 4 .waiting, tallies := [.fresh, .fresh], nans := 0, infs := 0, frozenHits := 0,
    kept := List.replicate 4 false, norm := none, normed := false, gnorm := 0, trust := 0, lnorms := [], skipped := false, done := List.replicate 4 0,
    busy := List.replicate 4 false, flags := 0, lrecs := [], singular := 0, damped := 0, failed := 0, stop := none }
def updating (r : UpdRun) : State := { weights with cmds := [cmdOf .updateRun 2 updBlock (.update r)] }

theorem test_met_UpdateRows :
    let c := cmdOf .updateRun 2 updBlock (.update upd)
    let ran : UpdRun := { upd with pass1 := [.ended, .running, .ended, .waiting] }
    let last : UpdRun := { upd with pass1 := [.ended, .running, .ended, .ended] }
    let over_ : UpdRun := { upd with pass1 := List.replicate 4 .ended }
    let out : UpdRun := { over_ with normOut := some 2 }
    let done_ : UpdRun := { over_ with normed := true, done := [1, 0, 0, 0] }
    let summed : UpdRun := { over_ with norm := some alone }
    let reading : UpdRun := { upd with pass1 := [.running, .ended, .ended, .ended] }
    let bad : State := { updating reading with poison := [lpddrBase + 0x2000] }
    (updating upd).cmd 7 2 = some c ∧ (updating upd).serves 3 = [3] ∧ (updating upd).mayStart c = true
      ∧ (updating upd).heldAddress = false ∧ (updating upd).heldQuarter 3 = false ∧ (updating upd).server 0 ≠ none
      ∧ ((updating ran).serves 1).filter (fun q => decide (ran.pass1.getD q .ended = .running)) = [1] ∧ ran.inQuarter 1 = []
      ∧ ran.pass1.set 1 .ended = [.ended, .ended, .ended, .waiting]
      ∧ last.pass1.set 1 .ended = [.ended, .ended, .ended, .ended]
      ∧ over_.normed = false ∧ over_.pass1.all (fun x => decide (x = .ended)) = true ∧ over_.norm = none ∧ over_.normOut = none
      ∧ out.normOut = some 2 ∧ (updating out).tensor 2 = some (ten 2 .lns24 (lpddrBase + 0x1000))
      ∧ done_.normed = true ∧ done_.stop = none ∧ done_.pass2Done = true ∧ done_.failed = 0
      ∧ alone.started = true ∧ alone.complete (updating summed) = true ∧ (updating summed).collUnacked alone = false
      ∧ summed.normed = false ∧ summed.norm = some alone
      ∧ [ten 3 .lns24 (lpddrBase + 0x2000)].find? (fun g => bad.poisoned g.base g.footprint) = some (ten 3 .lns24 (lpddrBase + 0x2000))
      ∧ reading.inQuarter 0 = [(0, upEntry)] ∧ bad.tensor 3 = some (ten 3 .lns24 (lpddrBase + 0x2000))
      ∧ (updating reading).mayMove .update [(false, lpddrBase + 0x2000, 1024)] = true := by decide +kernel

/-- Tensors of one element each, in quarter 0. -/
def one (h : Nat) (base : Nat) : Tensor := { ten h .lns24 base with rows := 1, cols := 1 }
def scalars : State :=
  laid [one 1 lpddrBase, one 2 (lpddrBase + 0x1000), one 3 (lpddrBase + 0x2000)]

theorem test_met_UpdateEntryRow :
    let r : UpdRun := { upd with pass1 := List.replicate 4 .ended, normed := true }
    let c := cmdOf .updateRun 2 updBlock (.update r)
    let s : State := { scalars with cmds := [c] }
    let w := one 1 lpddrBase
    let frozen : State := { s with freezes := [⟨⟨1, 2, 0, []⟩, false⟩] }
    let bad : State := { s with poison := [lpddrBase] }
    let held : State := { s with cmds := [c, cmdOf .secure 3 [] (.secure ⟨0, 4, [1], true, 0, [(0, 0)], [], 0, 0, false⟩)] }
    let o := s.entryOut r upEntry w
    s.cmd 7 2 = some c ∧ r.skipped = false ∧ r.mode ≠ 1 ∧ r.stop = none
      ∧ s.nextEntry r 0 = some (0, upEntry) ∧ s.tensor upEntry.w = some w ∧ s.unsentIn (s.entryWrites upEntry w o) = []
      ∧ w.elems.filter (fun x => !s.frozen 1 x.2.2.2) ≠ [] ∧ s.entryPoison r upEntry w o = none
      ∧ s.mayMove .update ((s.entryWrites upEntry w o).map (fun g => (true, g.1, g.2))) = true
      ∧ w.elems.filter (fun x => !frozen.frozen 1 x.2.2.2) = [] ∧ frozen.nextEntry r 0 = some (0, upEntry)
      ∧ (bad.entryPoison r upEntry w (bad.entryOut r upEntry w)).isSome = true ∧ bad.nextEntry r 0 = some (0, upEntry)
      ∧ held.nextEntry r 0 = some (0, upEntry)
      ∧ held.unsentIn (held.entryWrites upEntry w (held.entryOut r upEntry w)) ≠ [] := by decide +kernel

/-- A PARAM_WRITE of the first element of handle 1, running beside a SECURE of it whose pieces are unsent. -/
def pwCmd : Cmd := cmdOf .paramWrite 2 (blk [(4, 1), (4, 0xFFFFFFFF), (8, 0), (4, 1), (1, 0x04), (3, 0)]) .plain
def secRun (unsent : List (Nat × Nat)) (buffer : List CowPiece) : SecureRun := ⟨0, 4, [1], true, 0, unsent, buffer, 0, 0, false⟩
def securing2 (r : SecureRun) : State :=
  let s := addressed weights
  { s with cmds := [cmdOf .secure 3 [] (.secure r), { pwCmd with running := true }],
           pair := { s.pair with holder := some 0x206, holderState := .bound } }

theorem test_met_WriteRows :
    let s : State := { weights with cmds := [pwCmd] }
    let dead : State := { s with health := { s.health with tinkerRetired := List.replicate 4 true } }
    let frozen : State := { s with freezes := [⟨⟨1, 2, 0, []⟩, false⟩] }
    let go (op : Op) : Cmd := cmdOf op 2 [] .plain
    let t (op : Op) : State := { up .operator with cmds := [go op] }
    s.cmd 7 2 = some pwCmd ∧ s.mayStart pwCmd = true ∧ s.tensor 1 = some (ten 1 .lns24 lpddrBase)
      ∧ s.heldQuarter (quarterOf lpddrBase) = false ∧ dead.mayStart pwCmd = true ∧ dead.server (quarterOf lpddrBase) = none
      ∧ s.server (quarterOf lpddrBase) ≠ none ∧ frozen.frozen 1 0 = true ∧ s.frozen 1 0 = false
      ∧ (ten 1 .lns24 lpddrBase).elems.head? = some (0, 0, 0, 0) ∧ s.freezes = [] ∧ s.unsentIn (s.pwRanges pwCmd) = []
      ∧ (pwFields pwCmd.params).2.2.2.2 = 0x04 ∧ (pwFields pwCmd.params).2.1 = none
      ∧ (securing2 (secRun [(0, 0)] [])).unsentIn ((securing2 (secRun [(0, 0)] [])).pwRanges pwCmd) = [(0, 0)]
      ∧ s.mayMove .update ((s.pwRanges pwCmd).map (fun g => (true, g.1, g.2))) = true
      ∧ (t .tensorCopy).mayMove ((t .tensorCopy).dataMoves (go .tensorCopy)).1 ((t .tensorCopy).dataMoves (go .tensorCopy)).2 = true
      ∧ (t .tensorWrite).mayStart (go .tensorWrite) = true ∧ (t .tensorRead).mayStart (go .tensorRead) = true
      ∧ (t .tensorCopy).mayStart (go .tensorCopy) = true ∧ (t .tensorFill).mayStart (go .tensorFill) = true := by decide +kernel

theorem test_met_CopyRows :
    let fresh : SecureRun := { secRun [] [] with cut := false }
    let s := securing2 fresh
    let waits := cmdOf .secure 3 [] (.secure fresh)
    let buffered := secRun [] [⟨0, 0, [1], []⟩]
    let cow := securing2 (secRun [(0, 0)] [])
    let unbound : State := { s with pair := { s.pair with holderState := .lost } }
    let serve (ended : Bool) : ServeRun := ⟨0, 0, 0x206, 1, 0, 0, 64, 0, ended, 0, none⟩
    let h (ended : Bool) : State := { holding with cmds := [cmdOf .restoreServe 2 [] (.serve (serve ended))] }
    let b : State := { addressed (up .operator) with cmds := [{ cmdOf .pairSet 2 [] (.bind 0x206 0 1000) with running := true }] }
    s.cmd 7 3 = some waits ∧ s.pair.holder = some 0x206 ∧ fresh.cut = false ∧ s.earlier waits = [] ∧ s.mayStart waits = true
      ∧ s.heldAddress = false ∧ s.pair.holderState = .bound
      ∧ buffered.cut = true ∧ buffered.ended = false ∧ buffered.buffer = [⟨0, 0, [1], []⟩]
      ∧ cow.secureRun = some (cmdOf .secure 3 [] (.secure (secRun [(0, 0)] [])), secRun [(0, 0)] [])
      ∧ cow.cmd 7 2 = some { pwCmd with running := true } ∧ cow.tensor 1 = some (ten 1 .lns24 lpddrBase)
      ∧ (unbound.pair.holderState ≠ .bound) ∧ (0, 0) ∈ cow.unsentIn cow.aboutToWrite
      ∧ (0, 1) ∉ cow.unsentIn cow.aboutToWrite ∧ (secRun [(0, 0)] []).buffer.length < 256
      ∧ cow.written = [] ∧ ({ cow with written := [(lpddrBase, 4)] } : State).written ≠ []
      ∧ cow.mayMove .secure [(false, lpddrBase, 3072)] = true ∧ (secRun [(0, 0)] []).buffer = []
      ∧ pieceRange (ten 1 .lns24 lpddrBase).footprint 0 = (0, 3072)
      ∧ ((h false).cmd 7 2).isSome = true ∧ (h false).mayStart (cmdOf .restoreServe 2 [] (.serve (serve false))) = true
      ∧ (serve false).ended = false ∧ (serve true).ended = true ∧ ((h true).cmd 7 2).isSome = true
      ∧ (b.cmd 7 2).map Cmd.running = some true := by decide +kernel

/-- A flit of class `tc` from a device to this one. -/
def flit (src tc : Nat) (bs : List Byte) : Flit := ⟨0x105, 1, src, tc, 0, 1, 0, payload236 bs, []⟩

/-- A BIND under way, a holder that fills a slot, and one that serves. -/
def binding : State := { addressed (up .operator) with cmds := [{ cmdOf .pairSet 2 [] (.bind 0x206 0 1000) with running := true }] }
def filling (x : PartnerSlot) : State := { holding with pair := { holding.pair with slots := [x, .empty] } }

/-- A message of the pair that may be taken, and one that follows another of its class that waits. -/
theorem test_met_PartnerMessages_gate :
    let f := flit 0x206 6 (pairMsg 1 0 0 0 [])
    let s := addressed (up .operator)
    let full : State := { s with net9 := { s.net9 with gated := [(none, f)] } }
    ((s.arrives f).heard 0x206 false).flitGated none f = false
      ∧ ((full.arrives f).heard 0x206 false).flitGated none f = true := by decide +kernel

theorem test_met_PartnerMessages_pair :
    let req (f1 f2 set : Nat) := flit 0x206 6 (pairMsg 1 0 0 0 (blk [(4, f1), (4, f2), (2, set)]))
    let a := (addressed (up .operator)).heard 0x206 false
    let theirs (f : Flit) := (fld f.data 0 4, fld f.data 4 4)
    let ack (code : Nat) := flit 0x206 6 (pairMsg 2 0 0 0 (blk [(1, code), (4, 7), (4, 8), (8, 0x1000000)]))
    let none_ := (up .operator).heard 0x206 false
    -- fit, of other feeds; of the same feeds; and unfit, with no partner area
    a.setting 0x6011 ≠ 0 ∧ a.setting 0x6000 ≠ 0 ∧ a.setting 0x6001 ≠ 0 ∧ a.pair.wardState = .none ∧ a.watchFull [0x206] = false
      ∧ (req 7 8 0).src = 0x206 ∧ feedsMeet a.feeds (theirs (req 7 8 0)) = false
      ∧ feedsMeet a.feeds (theirs (req 5 6 0)) = true ∧ fld (req 5 6 0).data 8 2 = 0 ∧ none_.setting 0x6011 = 0
      -- a PAIR_ACK with no BIND, with one, and with a refusal
      ∧ (a.cmds.find? (fun c => match c.body with | .bind h _ _ => c.running && decide (h = 0x206) | _ => false)) = none
      ∧ ((binding.heard 0x206 false).cmds.find? (fun c =>
          match c.body with | .bind h _ _ => c.running && decide (h = 0x206) | _ => false)).isSome = true
      ∧ fld (ack 0).data 0 1 = 0 ∧ fld (ack 0x25).data 0 1 ≠ 0
      -- an UNBIND of the ward, and of no ward
      ∧ (holding.heard 0x206 false).pair.ward = some 0x206 ∧ (holding.heard 0x206 false).pair.wardState = .bound
      ∧ a.pair.ward ≠ some 0x206 := by decide +kernel

theorem test_met_PartnerMessages_slot :
    let f (off : Nat) : Flit := { flit 0x206 6 (pairMsg 0x11 0 off 0 [1, 2, 3, 4]) with cid := 9 }
    let h := filling { PartnerSlot.empty with state := .filling, xfer := 9, got := [(64, 0, 41)] }
    let empty := filling .empty
    let a := h.heard 0x206 false
    let late : State := { h with pair := { h.pair with doneCopy := some 9 } }
    a.pair.ward = some 0x206 ∧ a.pair.wardState = .bound ∧ a.lateCopy 9 = false ∧ (late.heard 0x206 false).lateCopy 9 = true
      -- a piece after the whole header, one in a tensor and one beyond it, and one before
      ∧ ((a.openSlot 9).2).headerDone (a.openSlot 9).1 = true
      ∧ ((a.openSlot 9).2.slotTensors (a.openSlot 9).1)[0]? = some (ten 1 .lns16 0)
      ∧ (f 2044).offset + (f 2044).data.length ≤ (ten 1 .lns16 0).footprint
      ∧ (ten 1 .lns16 0).footprint < (f 2045).offset + (f 2045).data.length
      ∧ (((empty.heard 0x206 false).openSlot 9).2).headerDone ((empty.heard 0x206 false).openSlot 9).1 = false := by decide +kernel

theorem test_met_PartnerMessages_copy :
    let ended : SecureRun := { secRun [] [] with ended := true }
    let w := securing2 ended
    let plain := securing2 (secRun [] [])
    let serve : ServeRun := ⟨0, 0, 0x206, 1, 0, 0, 64, 64, true, 0, none⟩
    let srv : State := { holding with cmds := [{ cmdOf .restoreServe 0 [] (.serve serve) with source := 0 }] }
    let refused : State := { addressed two with pair := { (addressed two).pair with
      serves := [⟨0x206, 0, 1, some .badParam, [], none, true, 0⟩] } }
    let part : State := { addressed two with pair := { (addressed two).pair with
      serves := [⟨0x206, 0, 1, none, [(4, 4)], none, false, 0⟩] } }
    let last : State := { part with pair := { part.pair with serves := [⟨0x206, 0, 1, none, [(4, 4)], some 8, false, 0⟩] } }
    let data (h : Nat) : Flit := { flit 0x206 7 (pairMsg 0x20 0 0 h [0, 0, 0, 0]) with cid := 0 }
    ((w.heard 0x206 false).cmds.findSome? (fun c => match c.body with
        | .secure r => if r.id = 0 ∧ r.ended then some (c, r) else none
        | _ => none)) = some (cmdOf .secure 3 [] (.secure ended), ended)
      ∧ ((plain.heard 0x206 false).cmds.findSome? (fun c => match c.body with
        | .secure r => if r.id = 0 ∧ r.ended then some (c, r) else none
        | _ => none)) = none
      ∧ (plain.heard 0x206 false).pair.holder = some 0x206
      ∧ ((plain.heard 0x206 false).cmds.findSome? (fun c => match c.body with
        | .secure r => if r.id = 0 then some (c, r) else none
        | _ => none)).isSome = true
      ∧ (srv.cmd 0 0).isSome = true ∧ serve.target = 0x206 ∧ (plain.cmd 0 0).isSome = false
      -- RESTORE_DATA of a serve that was refused, of a tensor that is not there, again, and new; and RESTORE_END
      ∧ ((refused.heard 0x206 false).serveOfFlit (data 1)).1.refusal = some .badParam
      ∧ (((part.heard 0x206 false).serveOfFlit (data 9)).2.restoreRefusal (data 9) true).isSome = true
      ∧ ((part.heard 0x206 false).serveOfFlit (data 1)).1.refusal = none
      ∧ ((part.heard 0x206 false).serveOfFlit (data 1)).2.restoreRefusal (data 1) false = none
      ∧ ((part.heard 0x206 false).serveOfFlit (data 1)).2.tensor 1 = some (ten 1 .lns16 0)
      ∧ ((part.heard 0x206 false).serveOfFlit (data 1)).1.got = [(4, 4)]
      ∧ ((last.heard 0x206 false).serveOfFlit (data 1)).1.endArg = some 8 ∧ (data 1).data.length = 4
      ∧ (((part.heard 0x206 false).serveOf 0x206 0).map (fun x => (x.refusal, x.got))) = some (none, [(4, 4)]) := by decide +kernel

/-- A module whose link 63 is in a given state. -/
def linked (l : Link) : State :=
  let s := addressed (up .operator)
  { s with net9 := { s.net9 with links := List.replicate 63 .reset ++ [l] } }

theorem test_met_PeerRows :
    let p : Peer := ⟨0x206, 0, false, false, 0⟩
    let s := addressed (up .operator)
    let w : State := { s with pair := { s.pair with holder := some 0x206, holderState := .bound, peers := [p] } }
    let f (k : Nat) := flit 0x206 7 (blk [(4, 0x206), (1, k)])
    let near := linked { Link.reset with state := .up, peerAddr := some 0x206 }
    w.peer 0x206 = some p ∧ 0x206 ∈ w.watched ∧ p.suspended = false ∧ p.lost = false
      ∧ (w.heard 0x206 true).peer 0x206 = some p ∧ fld (f 0).payload 4 1 = 0 ∧ fld (f 1).payload 4 1 = 1
      ∧ fld (f 2).payload 4 1 = 2 ∧ 0x206 ∈ (w.heard 0x206 true).watched ∧ s.devAddr = some (f 0).dest
      ∧ (s.heard 0x206 true).peer 0x206 = none ∧ 0x206 ∉ (s.heard 0x206 true).watched
      -- one for another device: after 15 links, with no link UP, and with one
      ∧ (0x206 : Nat) ≠ 0x105 ∧ s.upLinks 0x206 = [] ∧ near.upLinks 0x206 = [63] ∧ near.shortest (near.upLinks 0x206) = some 63
      ∧ (near.link 63).ctrl = []
      ∧ ((linked { Link.reset with state := .up, peerAddr := some 0x206, ctrl := [.ack 0] }).link 63).ctrl ≠ [] := by decide +kernel

theorem test_met_LinkStateRows :
    let l (x : LState) : Link := { Link.reset with state := x }
    let known : Link := { l .training with peerAddr := some 0x206, peerLink := some 0 }
    let lame (k : Nat) : Link := { l .training with failed := List.range k }
    let worn (k : Nat) : Link := { l .up with failed := List.range k }
    let off : State := { linked known with power := { (linked known).power with refclk := false } }
    off.lanesRun = false ∧ (linked known).lanesRun = true ∧ ((linked known).link 63).state = .training
      ∧ 2 ≤ ((linked known).link 63).healthy.length ∧ ((linked known).link 63).peerLink ≠ none ∧ (l .training).peerLink = none
      ∧ (lame 4).healthy.length < 2 ∧ 2 ≤ (lame 3).healthy.length ∧ 63 < (linked (l .up)).net9.links.length
      ∧ ({ worn 0 with failed := [3] } : Link).healthy.length = 4 ∧ ({ worn 1 with failed := [0, 3] } : Link).healthy.length = 3
      ∧ ({ worn 3 with failed := [0, 1, 2, 3] } : Link).healthy.length < 2 ∧ 4 ∉ (l .up).active
      ∧ (63 : Nat) < 64 ∧ (linked (l .training)).link 63 = l .training ∧ (linked (l .training)).linksOff = false
      ∧ (l .training).peerAddr = none ∧ (linked known).devAddr = some 0x105 ∧ ((linked known).link 63).peerAddr = some 0x206
      ∧ ((linked (l .down)).link 63).state = .down ∧ (linked (l .down)).linkEnabled 63 = true
      ∧ (linked (l .down)).power.refclk = true ∧ (linked (l .down)).linksOff = false
      ∧ ((linked (l .up)).link 63).state = .up ∧ ((linked (l .conflict)).link 63).state = .conflict
      ∧ 3 ∈ ((linked (l .up)).link 63).active ∧ 0 * 2 ^ (linked (l .up)).setting 0x4004 ≤ 0 := by decide +kernel

theorem test_met_LinkFlitRows :
    let l : Link := { Link.reset with state := .up }
    let s (l : Link) : State := linked l
    let full : Link := { l with credits := List.replicate 14 1, queue := [flit 0x206 2 []] }
    let stopped := full
    let back : Link := { l with naks := 15, replay := [] }
    let wait : State := { s l with net9 := { (s l).net9 with gated := [(some 63, flit 0x206 1 [])] } }
    (s l).lanesRun = true ∧ (s l).flitGated (some 63) (flit 0x206 1 []) = false ∧ wait.flitGated (some 63) (flit 0x206 1 []) = true
      ∧ 63 < (s l).net9.links.length ∧ ((s l).link 63).state = .up ∧ ((s l).link 63).rxSeq = 0 ∧ ((s l).link 63).unacked + 1 < 64
      ∧ (s l).devAddr = some (flit 0x206 1 []).dest ∧ (s l).devAddr ≠ some 0x300 ∧ (4095 : Nat) ≠ ((s l).link 63).rxSeq
      ∧ ((s l).link 63).nakSent = false ∧ ((s { l with nakSent := true }).link 63).nakSent = true
      ∧ (0 : Nat) + 1 < (s l).setting 0x4003 ∧ ¬ 0 < (back.freeTo 0).1 ∧ (s back).setting 0x4003 ≤ (back.freeTo 0).2.naks + 1
      ∧ (back.freeTo 0).2.state = .up
      ∧ ((s { l with ctrl := [.ack 0] }).link 63).ctrl = [.ack 0] ∧ l.ctrl = [] ∧ l.owed.all (fun n => decide (n = 0)) = true
      ∧ (∃ n ∈ (List.replicate 14 1 : List Nat), 0 < n) ∧ l.resend = 0 ∧ l.replay.length < 1024
      ∧ ({ l with resend := 1, replay := [(0, flit 0x206 2 [])] } : Link).replay[1 - 1]? = some (0, flit 0x206 2 [])
      ∧ (full.readyClasses full.lastClass).find? ((s full).classMay 63) = some 2
      ∧ takeClass full 2 full.queue = some (flit 0x206 2 [], []) ∧ ((stopped.readyClasses stopped.lastClass).all
          (fun tc => !({ s stopped with stintSettings := [(floorKey 4 1 + 1, 0)] } : State).classMay 63 tc)) = true
      ∧ 0 < ((s { l with unacked := 1 }).link 63).unacked := by
  decide +kernel

/-- A module that runs a collective. -/
def collecting (r : CollRun) : State := { addressed two with cmds := [cmdOf .collectiveRun 2 collBlock (.coll r)] }

theorem test_met_CollectiveRows :
    let c (r : CollRun) : Cmd := cmdOf .collectiveRun 2 collBlock (.coll r)
    let slow : CollRun := { coll true with kind := 1 }
    let f : Flit := { flit 0x206 3 [] with cid := 8 }
    let past : State := { addressed two with net9 := { (addressed two).net9 with committed := [(1, 8)] } }
    (collecting (coll false)).cmd 7 2 = some (c (coll false)) ∧ (collecting (coll false)).mayStart (c (coll false)) = true
      ∧ (collecting (coll false)).heldAddress = false ∧ (collecting (coll false)).collPoison (coll false) = none
      ∧ alone.complete (collecting alone) = true ∧ (collecting alone).collUnacked alone = false ∧ alone.output = none
      ∧ slow.complete (collecting slow) = false ∧ slow.started = true
      ∧ (f.crew, f.cid) ∈ (past.heard f.src false).net9.committed
      ∧ (f.crew, f.cid) ∉ ((collecting (coll true)).heard f.src false).net9.committed
      ∧ ((collecting (coll true)).heard f.src false).collFor f.crew f.cid = some (c (coll true))
      ∧ ((collecting (coll false)).heard f.src false).collFor f.crew f.cid = some (c (coll false)) ∧ f.tc ≠ 1
      ∧ (c (coll true)).collective = some (coll true) ∧ two.cmds = [] ∧ (coll true).expects f = true
      ∧ ({ coll true with kind := 5, peer := 0 } : CollRun).expects f = false
      ∧ (collecting (coll true)).net9.held.length < 16384 ∧ (collecting (coll true)).net9.stuck = []
      ∧ (collecting (coll false)).mayMove .collective (((collecting (coll false)).collReads (coll false)).map (fun g => (false, g))) = true
      ∧ ((collecting (coll true)).arrives f).flitGated none f = false
      ∧ (past.heard f.src false).collFor f.crew f.cid = none ∧ past.crewAge 0 = .older ∧ past.crewAge 1 ≠ .older := by decide +kernel

/-! ## Hypotheses that are met: power and health -/

/-- A module in a phase of its start. -/
def phased (p : Phase) : State := { State.reset with power := { Power.reset with phase := p } }

theorem test_met_PinRows :
    let s := up .operator
    let half : State := { s with power := { s.power with feedB := false } }
    let other : State := { s with power := { s.power with feedA := false } }
    let held (own hot low : Bool) : State :=
      { phased .held with power := { (phased .held).power with selfHold := own, hotHold := hot, resetLow := low } }
    let f := State.reset.trust.firmware
    s.power.feedA = true ∧ s.power.feedB = true ∧ half.power.feedA = true ∧ half.power.feedB = false ∧ other.power.feedA = false
      ∧ other.power.feedB = true ∧ half.power.phase ≠ .off ∧ other.power.phase ≠ .off ∧ dark.power.phase = .off
      ∧ (phased .rising).power.phase = .rising
      ∧ (held true false false).power.phase = .held ∧ (held true false false).power.resetLow = false
      ∧ (held false true false).sensors.all (fun t => decide (t < 100)) = true ∧ (held false true false).power.hotHold = true
      ∧ s.power.phase ≠ .off ∧ s.power.phase ≠ .rising
      ∧ (held false false true).power.resetLow = true ∧ (held false false true).power.hotHold = false
      ∧ (held false true true).power.resetLow = true ∧ (held false true true).power.hotHold = true
      ∧ ({ s with power := { s.power with resetLow := true } } : State).power.phase ≠ .held
      ∧ f.choose.isSome = true
      ∧ (({ f with slotA := List.replicate 4 none, slotB := List.replicate 4 none } : Firmware).choose = none)
      -- READY: nothing wakes, the slot that runs has its numbers, and the flash takes records
      ∧ State.reset.power.phase = .boot ∧ State.reset.power.groups.all (fun p => decide (p.waking = none)) = true
      ∧ State.reset.power.groups.length = 16
      ∧ (if f.runningB then f.slotB else f.slotA).filterMap (fun y => y.map FwStage.svn) ≠ [] ∧ State.reset.trust.flashFault = false
      ∧ ({ s with power := { s.power with coresReset := true } } : State).power.coresReset = true := by
  decide +kernel

/-- A module whose group 15 is in a given power state. -/
def grouped (g : GroupPower) : State :=
  { up .operator with
    power := { (up .operator).power with groups := List.replicate 15 ⟨.s0, none, none, 0, 0, 0, 1300, false, 0⟩ ++ [g] } }

theorem test_met_GroupRows :
    let g (st : GState) (ask wake : Option GState) : GroupPower := ⟨st, ask, wake, 0, 1, 1, 1300, false, 0⟩
    let idle := grouped (g .s0 none none)
    let asleep : State := { grouped (g .s2 none none) with
      cmds := [cmdOf .selfTest 2 (blk [(18, 2 ^ 143), (1, 0), (1, 0)]) (.selfTest [143] [] [] [])] }
    let capped : State := { asleep with settings := [(0x1000, 150)] }
    let t := cmdOf .selfTest 2 (blk [(18, 2 ^ 143), (1, 0), (1, 0)]) (.selfTest [143] [] [] [])
    let deep : State := { up .operator with
      power := { (up .operator).power with groups := List.replicate 16 ⟨.s2, none, none, 0, 0, 0, 1300, false, 0⟩ } }
    let s3 : Cmd := { cmdOf .setPowerState 2 (blk [(1, 3), (3, 0)]) (.power 3 []) with running := true }
    let entering : State := { up .operator with cmds := [s3] }
    let housed : State := { up .operator with
      power := { (up .operator).power with sleep := .housed }, cmds := [cmdOf .tensorRead 2 [] .plain] }
    idle.groupPower 15 = g .s0 none none ∧ idle.groupInUse 15 = false ∧ idle.power.sleep = .awake ∧ idle.power.phase = .ready
      ∧ (grouped (g .s0 (some .s1) none)).groupPower 15 = g .s0 (some .s1) none ∧ (grouped (g .s0 (some .s1) none)).atBoundary 15 = true
      ∧ (grouped (g .s0 (some .s2) none)).atBoundary 15 = true
      ∧ ((grouped (g .s0 (some .s2) none)).stopForPower [15]).outputRuns = false
      ∧ ((grouped (g .s2 none (some .s0))).groupPower 15).waking = some .s0 ∧ (grouped (g .s2 none (some .s0))).power.sleep ≠ .waking
      ∧ asleep.cmd 7 2 = some t ∧ asleep.wakesShared t = false ∧ asleep.wakeGroups t = [15]
      ∧ asleep.admits (asleep.groupStates.set 15 .s0) = true ∧ capped.wakeGroups t = [15]
      ∧ capped.admits (capped.groupStates.set 15 .s0) = false ∧ t.waited = false
      ∧ deep.allDeep = true ∧ deep.power.sharedS2 = false ∧ deep.sharedBusy = false
      ∧ (entering.powerMove.cmds.find? (fun c =>
          c.running && (match c.body with | .power t _ => decide (t = 3) | _ => false))).isSome = true
      ∧ (entering.powerMove.stopForPower (List.range 16)).outputRuns = false
      ∧ ((entering.powerMove.stopForPower (List.range 16)).cancelFilling).cancelQueued = false
      ∧ (cmdOf .tensorRead 2 [] .plain).acked = true ∧ housed.asleepOk (cmdOf .tensorRead 2 [] .plain) = false := by decide +kernel

/-- Group 15 wakes, with a reinitialisation to come and without; the module wakes; a group waits for a stream to end; a command wakes the
shared units, and waits for the cap; and the way to S3 waits for a stream. -/
theorem test_met_GroupRows_wakes :
    let s := up .operator
    let g : GroupPower := ⟨.s2, none, some .s0, 0, 1, 1, 1300, false, 0⟩
    let again : State := { grouped g with power := { (grouped g).power with reinit := [15] } }
    let whole : State := { s with power := { s.power with sleep := .waking } }
    let out : Stream := { Stream.new 3 true 9 0 0 1 0 7 2 with state := .running, sending := true }
    let ask : State := { grouped { g with state := .s0, request := some .s2, waking := none } with streams := [out] }
    let c := cmdOf .collectiveRun 2 [] .plain
    let asleep : State := { s with cmds := [c], power := { s.power with
      sharedS2 := true, groups := List.replicate 16 ⟨.s2, none, none, 0, 0, 0, 1300, false, 0⟩ } }
    let capped : State := { asleep with settings := [(0x1000, 1)] }
    let s3 : Cmd := { cmdOf .setPowerState 2 (blk [(1, 3), (3, 0)]) (.power 3 []) with running := true }
    let entering : State := { s with cmds := [s3], streams := [out] }
    again.power.reinit.contains 15 = true ∧ (grouped g).power.reinit.contains 15 = false ∧ again.power.sleep ≠ .waking
      ∧ whole.power.sleep = .waking
      ∧ (ask.groupPower 15).request = some .s2 ∧ ask.atBoundary 15 = true ∧ (ask.stopForPower [15]).outputRuns = true
      ∧ asleep.cmd 7 2 = some c ∧ asleep.wakesShared c = true ∧ padm2 asleep.linksUp asleep.groupStates ≤ 2 * asleep.setting 0x1000
      ∧ capped.wakesShared c = true ∧ 2 * capped.setting 0x1000 < padm2 capped.linksUp capped.groupStates
      ∧ ((entering.powerMove.stopForPower (List.range 16)).cancelFilling).outputRuns = true := by decide +kernel

theorem test_met_LoopRows :
    let s := up .operator
    let read (x : Int) (s : State) : State := (s.sense [x]).lookAtInlet.hotLimit
    let tripped : State := { s with power := { s.power with failed := true } }
    let g (x : GroupPower) : State := { s with power := { s.power with groups := List.replicate 16 x } }
    let hot : State := { s with power := { s.power with hot := true } }
    let at_ (s : State) (x : Int) : State := { s with health := { s.health with coreTemps := List.replicate 144 x } }
    let thr : Int := (s.setting 0x1002 : Nat)
    s.power.phase ≠ .off ∧ 102 * s.setting 0x1000 * 1 < 100 * 1531 ∧ 1499 < s.setting 0x1000 * 1 ∧ s.setting 0x1000 * 1 ≤ 1500
      ∧ 100 * 1530 ≤ 102 * s.setting 0x1000 * 1
      -- a sample: after a trip; of 115 °C, in READY and in the boot; and of less
      ∧ tripped.clocked = false ∧ s.clocked = true ∧ (phased .boot).clocked = true
      ∧ (read 115 s).sensors.any (fun x => decide (115 ≤ x)) = true
      ∧ (read 115 (phased .boot)).sensors.any (fun x => decide (115 ≤ x)) = true
      ∧ (read 114 s).sensors.all (fun x => decide (x < 115)) = true
      -- the limit of 105 °C, its end, and between
      ∧ (at_ s 105).health.coreTemps.any (fun x => decide (105 ≤ x)) = true
      ∧ (at_ s 104).health.coreTemps.all (fun x => decide (x < 105)) = true ∧ (thr - 2 < 104) ∧ thr - 2 < 105
      -- a group's ceiling: limited, at the threshold, falling, and rising
      ∧ hot.power.hot = true ∧ hot.power.groups.length = 16 ∧ s.power.hot = false ∧ (at_ s thr).hottest 15 = thr
      ∧ ((g ⟨.s0, none, none, 0, 0, 0, 900, true, 0⟩).groupPower 15).lowering = true ∧ (at_ s (thr - 1)).hottest 15 = thr - 1
      ∧ (s.groupPower 15).lowering = false ∧ (at_ s (thr - 1)).hottest 15 < thr
      ∧ (List.replicate 7 5 : List Nat).length = 7 ∧ s.stintActing 0x2101 ≤ 1
      ∧ ({ s with stintSettings := [(0x2101, 0)] } : State).stintActing 0x2101 = 0
      ∧ (s.groupPower (143 / 9)).state = .s0 ∧ s.power.failed = false
      -- a core above its goal, at it and below it
      ∧ ({ s with settings := [(0x1001, 400)] } : State).vfGoal 143 = 400 ∧ s.vfGoal 143 = 1300
      ∧ ({ s with power := { s.power with holdClusters := true } } : State).power.holdClusters = true
      ∧ s.power.holdClusters = false := by decide +kernel

/-- A core whose voltage meets what its present frequency needs and what the next one needs, whatever they are. -/
theorem test_met_LoopRows_voltage :
    let v := Config.freeNat 1 + Config.freeNat 2
    let s : State := { up .operator with power := { (up .operator).power with coreMv := List.replicate 144 v } }
    s.freeNat.2.freeNat.1 ≤ s.power.coreMv.getD 143 Config.startMv ∧ s.freeNat.2.freeNat.2.freeNat.1 ≤ s.power.coreMv.getD 143 Config.startMv :=
  ⟨Nat.le_add_right _ _, Nat.le_add_left _ _⟩

theorem test_met_HealthRows :
    let s := up .operator
    let spent : State := { s with health := { s.health with spareFree := List.replicate 16 false } }
    let taking : State := { s with health := { s.health with takeover := [143] } }
    let called (d at_ : Nat) : State := { s with health := { s.health with takeover := [d], calledAt := [(15, at_)] } }
    let rep := cmdOf .repair 2 (blk [(4, 143), (4, 0)]) (.repair 143)
    let repT := cmdOf .repair 2 (blk [(4, 0x2003), (4, 0)]) (.repair 0x2003)
    let mending : State := { s with cmds := [rep] }
    let gone : State := { mending with health := { s.health with map := List.replicate 144 none } }
    let struck (s : State) (c k : Nat) : State := ((((s.faultOps c).retireCore (c / 9) k).forgetWear c).raiseFault c).spareEvent
    s.health.map.getD 143 none = some 8 ∧ 143 ∉ s.health.takeover ∧ (struck s 143 8).health.spareFree.getD 15 false = true
      ∧ (struck s 143 8).callerOf 15 = none ∧ (struck spent 143 8).health.spareFree.getD 15 false = false
      -- the spare was called on by a core above, at the same moment, and by one below
      ∧ (struck (called 143 0) 142 7).callerOf 15 = some 143 ∧ assocGet 0 (struck (called 143 0) 142 7).health.calledAt 15 = s.now
      ∧ (struck (called 142 0) 143 8).callerOf 15 = some 142 ∧ (struck (called 143 9) 142 7).callerOf 15 = some 143
      ∧ assocGet 0 (struck (called 143 9) 142 7).health.calledAt 15 ≠ s.now
      ∧ gone.health.map.getD 143 none = none
      ∧ 143 ∈ taking.health.takeover ∧ taking.admits taking.groupStates = true
      ∧ mending.cmds.find? (fun d => d.acked && decide (d.body = .repair 143)) = some rep ∧ mending.mayStart rep = true
      ∧ gone.lost 143 = true ∧ gone.mayStart rep = true ∧ 143 ∉ gone.health.takeover
      ∧ mending.lost 143 = false ∧ mending.spareReady 143 = true ∧ mending.groupUp (143 / 9) = true
      ∧ (mending.core 143).cur = none ∧ mending.admits mending.groupStates = true
      ∧ ({ s with cmds := [repT] } : State).mayStart repT = true ∧ ({ s with cmds := [repT] } : State).tinkerIdle (0x2003 % 4096) = true
      ∧ s.health.tinkerRetired.getD (neighbour (0x2003 % 4096)) true = false
      ∧ s.health.tinkerRetired.getD 3 true = false := by decide +kernel

theorem test_met_HealthRows_periods :
    let s := up .operator
    let spent : State := { s with health := { s.health with spareFree := List.replicate 16 false } }
    let gone : State := { s with health := { s.health with map := List.replicate 144 none } }
    let listed : State := { s with health := { s.health with proposals := [143] } }
    let period (k : Nat) : Nat := s.setting k * 3600000000
    s.spareReady (9 * 15) = true ∧ spent.spareReady (9 * 15) = false
      ∧ s.now < assocGet 0 s.health.tested 15 + 24 * 3600000000 ∧ s.now < s.health.rated + 60000000
      ∧ assocGet 0 s.health.tested 15 + 24 * 3600000000 ≤ ({ s with now := 24 * 3600000000 } : State).now
      ∧ (s.health.scrubbed + s.setting 0x3100 * 3600000000 = period 0x3100 ∧ s.now < period 0x3100)
      ∧ (s.health.patrolled + s.setting 0x3101 * 3600000000 = period 0x3101 ∧ s.now < period 0x3101)
      ∧ ({ s with now := period 0x3100 } : State).now = period 0x3100 ∧ s.power.retrained = []
      ∧ s.mayMove .maint [(false, 0, sramEnd)] = true ∧ s.mayMove .maint [(false, lpddrBase, lpddrEnd - lpddrBase)] = true
      ∧ ({ s with stintSettings := [(floorKey 6 2 + 1, 0)] } : State).mayMove .maint [(false, 0, sramEnd)] = false
      ∧ ({ s with stintSettings := [(floorKey 6 0 + 1, 0)] } : State).mayMove .maint [(false, lpddrBase, lpddrEnd - lpddrBase)] = false
      ∧ ({ s with power := { s.power with retrained := [(7, 1)] } } : State).power.retrained.any (fun x => decide (x.1 = 7)) = true
      ∧ s.unitRetired 143 = false ∧ gone.unitRetired 143 = true ∧ 143 ∉ s.health.proposals ∧ 143 ∈ listed.health.proposals
      ∧ listed.unitRetired 143 = false ∧ sramEnd - 1 < sramEnd ∧ lpddrBase ≤ lpddrEnd - 1 ∧ lpddrEnd - 1 < lpddrEnd
      ∧ 7 ∉ s.health.failedPackages ∧ 3 ∈ ({ s.health with failedPackages := [3] } : Health).failedPackages := by decide +kernel

theorem test_met_LnsCodes :
    shape8 ∈ [shape8, shape12, shape16, shape24] ∧ (0xFF : Nat) < 2 ^ (shape8.w + 1) ∧ (0x40 : Nat) % 2 ^ 7 = 2 ^ (7 - 1)
      ∧ (0x3F : Nat) = 2 ^ (7 - 1) - 1 ∧ (0x3E : Nat) = 2 ^ (7 - 1) - 2 ∧ (0x3D : Nat) < 2 ^ (7 - 1) - 2
      ∧ 2 ^ (7 - 1) < (0x41 : Nat) := by decide +kernel

theorem test_met_LnsWidening :
    shape8 ∈ [shape8, shape12, shape16, shape24] ∧ shape24 ∈ [shape8, shape12, shape16, shape24] ∧ shape8.w < shape24.w
      ∧ (0xFF : Nat) < 2 ^ (shape8.w + 1) ∧ lnsDecode shape8 0xBE = .nan ∧ lnsDecode shape8 0xFF ≠ .nan := by decide +kernel

/-- A NaN; two values apart, the lower first and last; two equal ones; and both zeros. -/
theorem test_met_OrderOfValues :
    (LVal.nan = .nan ∨ LVal.one = .nan)
      ∧ (isReal (.inf true) ⊥ ∧ isReal .pzero 0 ∧ (⊥ : EReal) < 0 ∧ isReal (.inf false) ⊤ ∧ (0 : EReal) < ⊤)
      ∧ (LVal.one = LVal.one ∧ isReal .one (((1 * (2 : ℝ) ^ (((0 : Int) : ℝ) / 2 ^ 16) : ℝ)) : EReal))
      ∧ (LVal.zero true = .zero true ∧ LVal.pzero = .zero (!true) ∧ isReal (.zero true) 0 ∧ (0 : EReal) = 0) := by
  simp [isReal, LVal.pzero, LVal.one]

theorem test_met_FlitHops : (addressed (up .operator)).devAddr ≠ some 0x206 ∧ (14 : Nat) < 15 := by decide +kernel

/-! ## The manual's worked examples -/

/-- Example 1.1: FP32 0x3DCC_CCCD in LNS16 and LNS8. -/
theorem test_example_1_1 :
    (let x := (fpDecode Fmt.fp32.fp 0x3DCCCCCD).1
     lnsEncode shape16 x.toLog = ⟨0x7CAE, 0, false⟩ ∧ lnsEncode shape8 x.toLog = ⟨0x65, 0, false⟩) := by decide +kernel

/-- Example 1.2: LNS16 0x0080 in FP32, binary16 and bfloat16. -/
theorem test_example_1_2 :
    (let v := lnsDecode shape16 0x0080
     (fpEncode Fmt.fp32.fp v).code = 0x3FB504F3 ∧ (fpEncode Fmt.fp16.fp v).code = 0x3DA8
      ∧ (fpEncode Fmt.bf16.fp v).code = 0x3FB5) := by decide +kernel

/-- R29: an LNS24 log narrowed to LNS16: 0.5, and a tie at 2^-9 that goes to the even code. -/
theorem test_r29_narrowing :
    (lnsEncode shape16 (lnsDecode shape24 0x004000)).code = 0x0080 ∧ (lnsEncode shape16 (lnsDecode shape24 0x000040)).code = 0 := by
  decide +kernel

/-- Example 1.3: a BLNS8 block with a dominant element: its codes, its scale and its flag. -/
theorem test_example_1_3 :
    (let v (n : Int) : XVal := .log (.fin false (n * 256))
     let e := blnsEncode ([v 5120, v 1306, v 1295, v 0] ++ List.replicate 28 (.log .pzero))
     e.1.map Enc.code = [0x38, 0x41] ++ List.replicate 30 0x40 ∧ e.2.1 = 0x0D
      ∧ (e.1.filter Enc.flushed).length = 2) := by decide +kernel

/-- Example 1.4: a BLNS8 block with no finite nonzero element. -/
theorem test_example_1_4 :
    (let vs : List XVal := (List.range 32).map (fun i => .log (if i = 5 then .zero true else if i = 9 then .inf false else .pzero))
     let e := blnsEncode vs
     e.1.map Enc.code = (List.range 32).map (fun i => if i = 5 then 0xC0 else if i = 9 then 0x3F else 0x40) ∧ e.2.1 = 0x80
      ∧ e.2.2 = 0) := by decide +kernel

/-- Example 2.1: a LOG product of mixed width, closed to its exact chunk value. -/
theorem test_example_2_1 :
    lvMul (lnsDecode shape16 0x0180) (lnsDecode shape8 0x86) = (.fin true 147456, 0)
      ∧ linearV true 147456 = ⟨-19951585, -22⟩ := by decide +kernel

/-- Example 2.2: a SHIFT product of -93 and PW8 0x2C, in units of 2^-6, and its close to LNS16. -/
theorem test_example_2_2 :
    -93 * pw8Value 0x2C = -1116
      ∧ (let t := (Tal.fresh.promote .shift ⟨false, false, false, true, true, (-1116 : Int) * 2 ^ 154⟩).1
         (lnsEncode shape16 (t.close ⟨scaleLog 0x7B00 + scaleLog 0x0180, false, false⟩).1).code = 0x80A0) := by decide +kernel

/-- Example 2.3: the seeds of a cluster's generators and the first warm-up step. -/
theorem test_example_2_3 :
    stochSeeds 0x1234ABCD 0x00A05 37 6 3 = (0xC83294B0, 0x0D294C13) ∧ lfsrStep 0xC83294B0 = 0x90652960
      ∧ (stochThreshold (-32768) 0).1 = 46341 ∧ (stochThreshold (-65536) 0).1 = 32768 := by decide +kernel

/-- Example 3.1: the first chunk loses 2^7, and the close to LNS16 raises CANCEL. -/
theorem test_example_3_1 :
    (let p (n : Bool) (k : Int) : LVal := .fin n (k * 65536)
     let a := chunkLog [p false 40, p false 7]
     let t := (((Tal.fresh.promote .log a).1.promote .log (chunkLog [p true 40])).1.promote .log (chunkLog [p false (-3)])).1
     let z := t.close .plain
     t.peak = 40 ∧ t.value = 2 ^ 157 ∧ t.status = 0x0C ∧ (lnsEncode shape16 z.1).code = 0x7D00 ∧ z.2 = 0x08) := by decide +kernel

/-- Example 3.2: the unsplit tally and its PEAK; 7.75 closes to LNS16 0x02F4. -/
theorem test_example_3_2 :
    (let p (n : Bool) (k : Int) : LVal := .fin n (k * 65536)
     let cs := [[p false 20, p false 0], [p false 2], [p true 20], [p false (-1)], [p false 10], [p true 10], [p false 1],
       [p false (-2)]]
     let sum (xs : List (List LVal)) : Tal := xs.foldl (fun t c => (t.promote .log (chunkLog c)).1) .fresh
     let t := sum cs
     t.value = 31 * 2 ^ 158 ∧ t.peak = 0x14 ∧ t.status = 0x0C ∧ (lnsEncode shape16 (t.close .plain).1).code = 0x02F4
      ∧ ((sum (cs.take 4)).combine (sum (cs.drop 4))).1 = t) := by decide +kernel

/-- Example 3.2 and R91: the same sum with its parts closed to LNS16 first, split 2, 4 and 8 ways: each lies within its bound, and closed
once gives another code. -/
theorem test_example_3_2_rounded :
    (let p (n : Bool) (k : Int) : LVal := .fin n (k * 65536)
     let cs := [[p false 20, p false 0], [p false 2], [p true 20], [p false (-1)], [p false 10], [p true 10], [p false 1],
       [p false (-2)]]
     let part (xs : List (List LVal)) : Tal := xs.foldl (fun t c => (t.promote .log (chunkLog c)).1) .fresh
     let split (k : Nat) : List Tal := (List.range (8 / k)).map (fun i => part ((cs.drop (k * i)).take k))
     let closed (ps : List Tal) : Nat :=
       let d := roundedSum shape16 ps
       (lnsEncode shape16 (({ Tal.fresh with terms := true, nz := true, value := d.m * 2 ^ (d.e + 160).toNat } : Tal).close .plain).1).code
     [4, 2, 1].map (fun k => splitWithin shape16 136100 (split k)) = [true, true, true]
      ∧ [4, 2, 1].map (fun k => closed (split k)) = [0x02F5, 0x012C, 0x02C1]
      ∧ splitWithin shape16 10 (split 1) = false) := by decide +kernel

/-- Example 1.5: the pair of 181/128. -/
theorem test_example_1_5 :
    (let t := (Tal.fresh.promote .log ⟨false, false, false, true, true, 181 * 2 ^ 153⟩).1
     let e := t.closePair .plain
     e.1.code = 0x0080 ∧ e.2.1 = 0xF34F) := by decide +kernel

/-- Example 8.1: one element through SIGN_MOMENTUM: T0, T2, T3, W, and M in LNS16. -/
theorem test_example_8_1 :
    (let ks := [0x7B0000, 0x7FEC8B, 0, 0x7CAD96, 0, 0, 0, 0, 0x7E56CB]
     let r := (runSteps ks signMomentum.steps (uRegs (lnsDecode shape16 0xFE00) (lnsDecode shape24 0) (lnsDecode shape16 0x7F00)
       .pzero .pzero)).1
     (lnsEncode shape24 (r.getD 5 .nan)).code = 0x800000 ∧ (lnsEncode shape24 (r.getD 7 .nan)).code = 0x7F4356
      ∧ (lnsEncode shape24 (r.getD 8 .nan)).code = 0x7A4356 ∧ (lnsEncode shape24 (r.getD 2 .nan)).code = 0x7FFFF0
      ∧ (lnsEncode shape16 (r.getD 3 .nan)).code = 0x7E7C) := by decide +kernel

/-- Example 6.1: where the elements of an LNS12 and of a BLNS8 tensor lie. -/
theorem test_example_6_1 :
    (let t : Tensor := ⟨1, some .lns12, .blocked, 1, 100, 70, 0, 0, 0, .empty, none⟩
     let b : Tensor := ⟨1, some .blns8, .blocked, 1, 64, 64, 0, 0, 0, .empty, none⟩
     t.footprint = 18432 ∧ (t.elemRange 0 45 67).1 = 8307 ∧ (b.elemRange 0 40 50).1 = 3450) := by decide +kernel

/-! ## Ill-formed commands that the check refuses, one for each check, beside a well-formed one -/

/-- A flit within its fields. -/
def okFlit : Flit := ⟨0xFFFFF, 15, 0xFFFFF, 7, 1, 0xFFFF, 0xFFFFFFFF, List.replicate 236 0, [235]⟩

theorem test_wf_packet :
    Instr.wf (.nop (pkt [])) = true
      ∧ Instr.wf (.nop { pkt [] with port := 8 }) = false ∧ Instr.wf (.nop { pkt [] with flags := 256 }) = false
      ∧ Instr.wf (.nop { pkt [] with source := 65536 }) = false ∧ Instr.wf (.nop { pkt [] with tag := 65536 }) = false
      ∧ Instr.wf (.nop { pkt [] with seq := 2 ^ 32 }) = false ∧ Instr.wf (.nop (pkt (List.replicate 4081 0))) = false
      ∧ Instr.wf (.nop { pkt [] with flags := 4 }) = false := by decide +kernel

theorem test_wf_action :
    Instr.wf (.tensorDefine (pkt [0])) = true ∧ Instr.wf (.tensorDefine (pkt [1])) = false
      ∧ Instr.wf (.tensorRelease (pkt [0])) = false ∧ Instr.wf (.stackQuery (pkt [])) = false
      ∧ Instr.wf (.pairSetQuery (pkt [2])) = false ∧ Instr.wf (.updateProgramLoad (pkt [1, 1])) = true
      ∧ Instr.wf (.updateProgramLoad (pkt [1, 0])) = false ∧ Instr.wf (.updateProgramUnload (pkt [1, 1])) = false := by
  decide +kernel

theorem test_wf_continuation :
    Instr.wf (.commandContinuation 0xFFFF { pkt [] with flags := 4 }) = true
      ∧ Instr.wf (.commandContinuation 0x10000 { pkt [] with flags := 4 }) = false
      ∧ Instr.wf (.commandContinuation 0 (pkt [])) = false
      ∧ Instr.wf (.commandContinuation 0 { pkt [] with flags := 4, port := 8 }) = false := by decide +kernel

theorem test_wf_host :
    Instr.wf (.packetDropped 12) = true ∧ Instr.wf (.packetDropped 8) = false ∧ Instr.wf (.packetIgnored 8) = false
      ∧ Instr.wf (.bulkPacket 0 1 1 0 [0]) = true ∧ Instr.wf (.bulkPacket 9 1 1 0 [0]) = false
      ∧ Instr.wf (.bulkPacket 0 65536 1 0 [0]) = false ∧ Instr.wf (.bulkPacket 0 1 65536 0 [0]) = false
      ∧ Instr.wf (.bulkPacket 0 1 1 (2 ^ 64) [0]) = false ∧ Instr.wf (.bulkGapTimeout 65536 0) = false
      ∧ Instr.wf (.sourceExpiry 65536) = false ∧ Instr.wf (.challengeExpiry 65536) = false ∧ Instr.wf (.lockoutExpiry 1 255) = true
      ∧ Instr.wf (.lockoutExpiry 0 0) = false ∧ Instr.wf (.lockoutExpiry 4 0) = false ∧ Instr.wf (.lockoutExpiry 1 256) = false := by
  decide +kernel

theorem test_wf_bulk_length (data : List Byte) (h : 16384 < data.length) : Instr.wf (.bulkPacket 0 1 1 0 data) = false := by
  have : ¬ data.length ≤ 16384 := by omega
  simp [Instr.wf, this]

theorem test_wf_i3c :
    Instr.wf (.mbxSubmit true 65536) = false ∧ Instr.wf (.i3cPrivateWrite 65536 []) = false ∧ Instr.wf (.entdaa 127) = true
      ∧ Instr.wf (.entdaa 128) = false ∧ Instr.wf (.setdasa 128) = false ∧ Instr.wf (.setmwl 65536) = false
      ∧ Instr.wf (.setmrl 65536) = false ∧ Instr.wf (.enec 256) = false ∧ Instr.wf (.disec 256) = false
      ∧ Instr.wf (.unsupportedCcc 256) = false := by decide +kernel

theorem test_wf_streams :
    Instr.wf (.frameStart 7 15) = true ∧ Instr.wf (.frameStart 8 0) = false ∧ Instr.wf (.frameStart 0 16) = false
      ∧ Instr.wf (.frameEnd 8 0) = false ∧ Instr.wf (.sensorLine 0 0 63 [] true true) = true
      ∧ Instr.wf (.sensorLine 8 0 0 [] true true) = false ∧ Instr.wf (.sensorLine 0 16 0 [] true true) = false
      ∧ Instr.wf (.sensorLine 0 0 64 [] true true) = false ∧ Instr.wf (.outputFrameSend 64) = false
      ∧ Instr.wf (.outputFrameDone 64) = false := by decide +kernel

theorem test_wf_commands :
    Instr.wf (.commandStart 65535 65535) = true ∧ Instr.wf (.commandStart 65536 0) = false
      ∧ Instr.wf (.operatorStop 0 65536) = false ∧ Instr.wf (.operatorStart 0 0 65535 143) = true
      ∧ Instr.wf (.operatorStart 0 0 65536 0) = false ∧ Instr.wf (.operatorStart 0 0 0 144) = false
      ∧ Instr.wf (.networkSwitch 0 0 144) = false ∧ Instr.wf (.chunkStart 143 15) = true ∧ Instr.wf (.chunkStart 144 0) = false
      ∧ Instr.wf (.chunkComplete 0 16) = false ∧ Instr.wf (.tileClose 144) = false ∧ Instr.wf (.passStart 144) = false
      ∧ Instr.wf (.operatorCommit 0 0 65536) = false ∧ Instr.wf (.stackPush 0 65536 0) = false
      ∧ Instr.wf (.stackPop 0 0 65536) = false ∧ Instr.wf (.spillStart 15) = true ∧ Instr.wf (.spillStart 16) = false
      ∧ Instr.wf (.spillComplete 0 (2 ^ 32)) = false ∧ Instr.wf (.fillComplete 16 0) = false := by decide +kernel

theorem test_wf_units :
    Instr.wf (.updateEntry 0 0 3) = true ∧ Instr.wf (.updateEntry 0 0 4) = false ∧ Instr.wf (.updatePass1Start 65536 0 0) = false
      ∧ Instr.wf (.copyBeforeWrite (2 ^ 32) 0) = false ∧ Instr.wf (.copyBeforeWrite 0 (2 ^ 32)) = false
      ∧ Instr.wf (.tinkerHardFault 4) = false ∧ Instr.wf (.linkEngineFault 64) = false ∧ Instr.wf (.lpddrRetrain 8) = false
      ∧ Instr.wf (.lpddrControllerFault 8) = false ∧ Instr.wf (.repairSwitch 143 true) = true
      ∧ Instr.wf (.repairSwitch 0x2003 true) = true ∧ Instr.wf (.repairSwitch 144 true) = false
      ∧ Instr.wf (.repairSwitch 0x2004 true) = false ∧ Instr.wf (.coreHardFault 144) = false
      ∧ Instr.wf (.spareTakeover 144 true) = false ∧ Instr.wf (.feedLoss 2) = false ∧ Instr.wf (.powerUp 1) = true
      ∧ Instr.wf (.tempSample (List.replicate 158 0)) = true ∧ Instr.wf (.tempSample []) = false
      ∧ Instr.wf (.thermalPlacement (List.replicate 16 0)) = true ∧ Instr.wf (.thermalPlacement []) = false
      ∧ Instr.wf (.wakeComplete 16) = false := by decide +kernel

theorem test_wf_flits :
    Instr.wf (.pairReq okFlit) = true ∧ Instr.wf (.pairReq { okFlit with dest := 2 ^ 20 }) = false
      ∧ Instr.wf (.pairReq { okFlit with hops := 16 }) = false ∧ Instr.wf (.pairReq { okFlit with src := 2 ^ 20 }) = false
      ∧ Instr.wf (.pairReq { okFlit with tc := 8 }) = false ∧ Instr.wf (.pairReq { okFlit with vc := 2 }) = false
      ∧ Instr.wf (.pairReq { okFlit with crew := 2 ^ 16 }) = false ∧ Instr.wf (.pairReq { okFlit with cid := 2 ^ 32 }) = false
      ∧ Instr.wf (.pairReq { okFlit with payload := [] }) = false ∧ Instr.wf (.pairReq { okFlit with poison := [236] }) = false
      ∧ Instr.wf (.peerLossTimeout (2 ^ 20)) = false := by decide +kernel

theorem test_wf_links :
    Instr.wf (.dataFlit 63 4095 okFlit) = true ∧ Instr.wf (.dataFlit 64 0 okFlit) = false ∧ Instr.wf (.dataFlit 0 4096 okFlit) = false
      ∧ Instr.wf (.dataFlit 0 0 { okFlit with tc := 8 }) = false ∧ Instr.wf (.linkRetryTimer 64) = false
      ∧ Instr.wf (.ackFlit 64 0) = false ∧ Instr.wf (.nakFlit 0 4096) = false ∧ Instr.wf (.creditFlit 64 okFlit.payload) = false
      ∧ Instr.wf (.creditFlit 0 []) = false ∧ Instr.wf (.keepaliveFlit 63 (some 0xFFFFF) 63 0xFFFFFFFF 255) = true
      ∧ Instr.wf (.keepaliveFlit 64 none 0 0 0) = false ∧ Instr.wf (.keepaliveFlit 0 (some (2 ^ 20)) 0 0 0) = false
      ∧ Instr.wf (.keepaliveFlit 0 none 64 0 0) = false ∧ Instr.wf (.keepaliveFlit 0 none 0 (2 ^ 32) 0) = false
      ∧ Instr.wf (.keepaliveFlit 0 none 0 0 256) = false ∧ Instr.wf (.laneCtrl 0 5) = false ∧ Instr.wf (.laneLossOfLock 64 0) = false
      ∧ Instr.wf (.serWindow 0 [0, 0, 0, 0, 0] 0) = true ∧ Instr.wf (.serWindow 0 [] 0) = false := by decide +kernel

/-! ## Commands -/

/-- What a command's next state has, as a check. -/
def after (o : Host.Outcome State Fault Refusal) (f : State → Bool) : Bool :=
  match o with
  | .next t => f t
  | _ => false

/-- The last packet sent. -/
def lastOut (s : State) : Option OutPkt := s.out.getLast?

/-- Example 11.1, step 5: the reply to a packet out of sequence: its bytes, and the SEQ expected next. -/
theorem test_example_11_1 :
    (let x : Source := ⟨3, 0, some 0x201, .operator, 0, none, none, [], false, 0⟩
     let s : State := { up .operator with sources := [x], cmds := [{ cmdOf .opRun 0x61 [] .plain with source := 3 }] }
     after (exec (.opRun ⟨0, 0, 3, 0x63, 0x202, []⟩) s) (fun t =>
       decide (lastOut t = some ⟨8, 0, 0x30, [0x02, 0x03, 0x01, 0x01, 0x03, 0x00, 0x63, 0x00, 0x14, 0x00, 0x1F, 0x14, 0x08, 0x00, 0x00,
         0x00, 0x01, 0x02, 0x00, 0x00, 0x02, 0x02, 0x00, 0x00]⟩)
        && decide ((t.source 3).bind Source.seq = some 0x203))) = true := by decide +kernel

/-- Example 12.1: three LNS16 elements read as FP32: the bulk data. -/
theorem test_example_12_1 :
    (let t : Tensor := ⟨16, some .lns16, .blocked, 1, 1, 3, 0, 0, 0, .empty, none⟩
     let ps := blk [(4, 0x10), (1, 1), (1, 0x20), (2, 0), (4, 0), (4, 1), (4, 0), (4, 3), (16, 0)]
     let s : State := { laid [t] with cmds := [{ cmdOf .tensorRead 0x70 ps .plain with running := true }] }
     let m : State := { s with mem := (s.write 0 [0, 0, 0x80, 0, 0, 0x81]).mem }
     after (exec (.tensorCommandDone 7 0x70) m) (fun u =>
       (u.out.map (fun p => (p.dt, p.bytes.drop 16))).contains
         (0x31, [0x00, 0x00, 0x80, 0x3F, 0xF3, 0x04, 0xB5, 0x3F, 0x00, 0x00, 0x00, 0xC0]))) = true := by decide +kernel

/-- R374: a module in BOOT refuses a command with LOCKED (0x52); R376: it answers GET_STATUS. -/
theorem test_boot_locked :
    let boot : State := { State.reset with portSettings := [(0x5001, 1)] }
    (after (exec (.nop (pkt [])) boot) (fun t => decide ((lastOut t).map (fun p => fld p.bytes 8 1) = some 0x52))
      && after (exec (.getStatus (pkt [])) boot)
        (fun t => decide ((lastOut t).map (fun p => (fld p.bytes 8 1, fld p.bytes 12 4)) = some (0, 40)))) = true := by decide +kernel

/-- R431: without power, a packet ends in the fault. -/
theorem test_no_power : exec (.nop (pkt [])) dark = .fault .noPower := by rfl

/-- R431, R472: the loss of both feeds, the power-up and the rails. -/
theorem test_power_up :
    (after (exec .bothFeedsLost (up .operator)) (fun t => decide (t.power.phase = .off) && decide (t.sources = []))
      && after (exec (.powerUp 1) dark) (fun t => decide (t.power.phase = .rising) && t.power.feedB && !t.power.feedA)) = true := by
  decide +kernel

/-- R379: LOGOUT of a source with no command ends it. -/
theorem test_logout : after (exec (.logout (pkt [])) (up .operator)) (fun t => decide (t.source 7 = none)) = true := by decide +kernel

/-- R388: TENSOR_FILL of LNS24 0x00_8000 writes LNS16 0x0100, and nothing beyond the footprint. -/
theorem test_tensor_fill :
    (let s : State := { two with cmds := [{ cmdOf .tensorFill 2 (blk [(4, 1), (4, 0x008000), (2, 0), (2, 1)]) .plain with running := true }] }
     after (exec (.tensorCommandDone 7 2) s) (fun t => decide (memGet t.mem 1 = 1) && decide (memGet t.mem 2048 = 0))) = true := by
  decide +kernel

/-- R433: a sample above 102 % of CAP_W lowers the ceiling and raises POWER/THERMAL. -/
theorem test_power_sample :
    after (exec (.powerSample 1531) (up .operator)) (fun t =>
      t.power.throttled && decide (t.attention.attn &&& attnPower = attnPower)) = true := by decide +kernel

/-- R457: a hard fault of core 143 leaves it to its group's spare, physical core 9. -/
theorem test_spare_takeover :
    after (exec (.coreHardFault 143) (up .operator)) (fun t =>
      decide (t.health.takeover = [143])
        && after (exec (.spareTakeover 143 true) t) (fun u => decide (u.health.map.getD 143 none = some 9))) = true := by decide +kernel

end Sys2Proof.Tests
end

section
/-!
PROOFS. The log number formats (chapter 1): the codes of R17 and R18 as a sign bit and a signed log field, the widening of R28,
and the orders of R20 and R21.
-/
namespace Sys2Proof.Machine

/-! ## The codes of the LNS formats (R17, R18) -/

/-- The bounds that the arithmetic of codes takes from Table 1.2: room for the three special log fields, and a grid no finer
than the unit of a log. -/
structure LnsShape.Sound (sh : LnsShape) : Prop where
  special : 3 ≤ sh.w
  grid : sh.f ≤ 16

theorem LnsShape.sound_of_mem {sh : LnsShape} (h : sh ∈ [shape8, shape12, shape16, shape24]) : sh.Sound := by
  simp only [List.mem_cons, List.not_mem_nil, or_false] at h
  rcases h with rfl | rfl | rfl | rfl <;> constructor <;> decide

theorem LnsShape.Sound.two_pow {sh : LnsShape} (h : sh.Sound) : 2 ^ sh.w = 2 * 2 ^ (sh.w - 1) := by
  rw [← pow_succ', Nat.sub_add_cancel (by have := h.special; omega)]

theorem LnsShape.Sound.four_le_half {sh : LnsShape} (h : sh.Sound) : 4 ≤ 2 ^ (sh.w - 1) :=
  Nat.pow_le_pow_right (i := 2) two_pos (by have := h.special; omega)

/-- The sign bit of a code is its top bit. -/
theorem testBit_eq_decide_le {w c : Nat} (hc : c < 2 ^ (w + 1)) : c.testBit w = decide (2 ^ w ≤ c) := by
  by_cases h : 2 ^ w ≤ c
  · simpa [h] using Nat.testBit_of_two_pow_le_and_two_pow_add_one_gt h hc
  · simpa [h] using Nat.testBit_lt_two_pow (Nat.lt_of_not_le h)

/-- The log field of a code as a signed number, in units of the format's grid (R17). -/
def lnsLog (sh : LnsShape) (c : Nat) : Int := (c : Int).bmod (2 ^ sh.w)

/-- A log of the format's grid fits the log field. -/
def LnsShape.InField (sh : LnsShape) (lg : Int) : Prop := -2 ^ (sh.w - 1) ≤ lg ∧ lg < 2 ^ (sh.w - 1)

/-- R17: the value of a sign bit and a signed log field. -/
def LnsShape.read (sh : LnsShape) (neg : Bool) (lg : Int) : LVal :=
  if lg = -2 ^ (sh.w - 1) then .zero neg
  else if lg = 2 ^ (sh.w - 1) - 1 then .inf neg
  else if lg = 2 ^ (sh.w - 1) - 2 then .nan
  else .fin neg (lg * 2 ^ (16 - sh.f))

section
variable {sh : LnsShape} (h : sh.Sound)

theorem lnsField_emod (sh : LnsShape) (neg : Bool) (lg : Int) : (lnsField sh neg lg : Int) % 2 ^ sh.w = lg % 2 ^ sh.w := by
  have hnn : 0 ≤ lg % 2 ^ sh.w := Int.emod_nonneg _ (by positivity)
  cases neg <;> simp [lnsField, Int.toNat_of_nonneg hnn]

theorem emod_toNat_lt (lg : Int) (w : Nat) : (lg % 2 ^ w).toNat < 2 ^ w := by
  have : lg % 2 ^ w < 2 ^ w := Int.emod_lt_of_pos _ (by positivity)
  zify
  omega

theorem lnsField_lt (sh : LnsShape) (neg : Bool) (lg : Int) : lnsField sh neg lg < 2 ^ (sh.w + 1) := by
  have := emod_toNat_lt lg sh.w
  cases neg <;> simp only [lnsField, pow_succ, if_true, Bool.false_eq_true, if_false] <;> omega

theorem testBit_lnsField (sh : LnsShape) (neg : Bool) (lg : Int) : (lnsField sh neg lg).testBit sh.w = neg := by
  have hlt := emod_toNat_lt lg sh.w
  cases neg
  · simpa [lnsField] using Nat.testBit_lt_two_pow hlt
  · simpa [lnsField, Nat.add_comm _ (2 ^ sh.w), Nat.testBit_two_pow_add_eq] using Nat.testBit_lt_two_pow hlt

include h

theorem inField_lnsLog (c : Nat) : sh.InField (lnsLog sh c) := by
  have hle := Int.le_bmod (x := c) (m := 2 ^ sh.w) (by positivity)
  have hlt := Int.bmod_lt (x := c) (m := 2 ^ sh.w) (by positivity)
  have h2 := h.two_pow
  zify at h2
  unfold LnsShape.InField lnsLog
  push_cast at hle hlt
  omega

theorem lnsLog_lnsField {lg : Int} (neg : Bool) (hlg : sh.InField lg) : lnsLog sh (lnsField sh neg lg) = lg := by
  have hmod := lnsField_emod sh neg lg
  have h2 := h.two_pow
  zify at h2
  obtain ⟨hle, hlt⟩ := hlg
  calc lnsLog sh (lnsField sh neg lg)
      = lg.bmod (2 ^ sh.w) := by
        rw [lnsLog, ← Int.emod_bmod, ← Int.emod_bmod lg]; push_cast; rw [hmod]
    _ = lg := Int.bmod_eq_of_le (by push_cast; omega) (by push_cast; omega)

theorem lnsDecode_eq_read (c : Nat) : lnsDecode sh c = sh.read (c.testBit sh.w) (lnsLog sh c) := by
  have h2 := h.two_pow
  have h4 := h.four_le_half
  have hu : c % 2 ^ sh.w < 2 ^ sh.w := Nat.mod_lt _ (by positivity)
  have hlog : lnsLog sh c = if c % 2 ^ sh.w < 2 ^ (sh.w - 1) then ((c % 2 ^ sh.w : Nat) : Int)
      else ((c % 2 ^ sh.w : Nat) : Int) - 2 ^ sh.w := by
    rw [lnsLog, Int.bmod_def]
    zify at *
    rw [show ((2 : Int) ^ sh.w + 1) / 2 = 2 ^ (sh.w - 1) by omega]
  have hzero : c % 2 ^ sh.w = 2 ^ (sh.w - 1) ↔ lnsLog sh c = -2 ^ (sh.w - 1) := by
    rw [hlog]; zify at *; split <;> omega
  have hinf : c % 2 ^ sh.w = 2 ^ (sh.w - 1) - 1 ↔ lnsLog sh c = 2 ^ (sh.w - 1) - 1 := by
    rw [hlog]; zify [show 1 ≤ 2 ^ (sh.w - 1) by omega] at *; split <;> omega
  have hnan : c % 2 ^ sh.w = 2 ^ (sh.w - 1) - 2 ↔ lnsLog sh c = 2 ^ (sh.w - 1) - 2 := by
    rw [hlog]; zify [show 2 ≤ 2 ^ (sh.w - 1) by omega] at *; split <;> omega
  simp only [lnsDecode, ← hlog, hzero, hinf, hnan, LnsShape.read]

theorem lnsDecode_lnsField {lg : Int} (neg : Bool) (hlg : sh.InField lg) : lnsDecode sh (lnsField sh neg lg) = sh.read neg lg := by
  rw [lnsDecode_eq_read h, testBit_lnsField, lnsLog_lnsField h neg hlg]

/-- A NaN is written with the sign bit clear. -/
theorem lnsEncode_nan_code : (lnsEncode sh .nan).code = 2 ^ (sh.w - 1) - 2 := by
  have h2 := h.two_pow
  have h4 := h.four_le_half
  have hmod : ((2 : Int) ^ (sh.w - 1) - 2) % 2 ^ sh.w = ((2 ^ (sh.w - 1) - 2 : Nat) : Int) := by
    zify [show 2 ≤ 2 ^ (sh.w - 1) by omega] at *
    exact Int.emod_eq_of_lt (by omega) (by omega)
  simp [lnsEncode, lnsField, hmod]

end

/-- Settles O57: the clauses are the branches of `lnsDecode`, whose sign is the top bit of the code. -/
theorem lnsCodes : Obligations.LnsCodes := by
  intro sh hmem c hc neg u half
  have hsh := LnsShape.sound_of_mem hmem
  have hsign : c.testBit sh.w = neg := testBit_eq_decide_le hc
  have hroom : 4 ≤ half := hsh.four_le_half
  have hdec : lnsDecode sh c = if u = half then .zero neg else if u = half - 1 then .inf neg else if u = half - 2 then .nan
      else .fin neg ((if u < half then (u : Int) else (u : Int) - 2 ^ sh.w) * 2 ^ (16 - sh.f)) := by
    rw [← hsign]; rfl
  refine ⟨fun hu => ?zero, fun hu => ?inf, fun hu => ?nan, fun hu => ?nonneg, fun hu => ?neg, lnsEncode_nan_code hsh⟩
  case zero => rw [hdec, if_pos hu]
  case inf => rw [hdec, if_neg (by omega), if_pos hu]
  case nan => rw [hdec, if_neg (by omega), if_neg (by omega), if_pos hu]
  case nonneg => rw [hdec, if_neg (by omega), if_neg (by omega), if_neg (by omega), if_pos (by omega)]
  case neg => rw [hdec, if_neg (by omega), if_neg (by omega), if_neg (by omega), if_neg (by omega)]

/-! ## Widening (R28) -/

/-- A value that an LNS format holds without rounding: any zero, infinity or NaN, and a finite log on its grid within its
limits (R19). -/
def LnsShape.Holds (sh : LnsShape) : LVal → Prop
  | .fin _ l => ∃ k, sh.minLog ≤ k ∧ k ≤ sh.maxLog ∧ l = k * 2 ^ (16 - sh.f)
  | _ => True

/-- The sign of a value; a NaN has none and counts as positive. -/
def LVal.isNeg : LVal → Bool
  | .zero n => n
  | .inf n => n
  | .nan => false
  | .fin n _ => n

theorem roundNE_mul_self (k : Int) {d : Nat} (hd : 0 < d) : roundNE (k * d) d = k := by
  simp [roundNE, Int.mul_ediv_cancel k (by omega : (d : Int) ≠ 0), hd]

theorem logRound_onGrid (k : Int) (f : Nat) : logRound (k * 2 ^ (16 - f)) f = k := by
  simpa [logRound] using roundNE_mul_self k (d := 2 ^ (16 - f)) (by positivity)

/-- How a value that a format holds is written: a log in the field with the value's sign, nothing raised, nothing flushed. -/
theorem lnsEncode_of_holds {sh : LnsShape} (h : sh.Sound) {v : LVal} (hv : sh.Holds v) :
    ∃ lg, sh.InField lg ∧ lnsEncode sh v = ⟨lnsField sh v.isNeg lg, 0, false⟩ ∧ sh.read v.isNeg lg = v := by
  have h4 : (4 : Int) ≤ 2 ^ (sh.w - 1) := by exact_mod_cast h.four_le_half
  cases v with
  | zero n => exact ⟨_, ⟨le_refl _, by omega⟩, rfl, by simp [LnsShape.read, LVal.isNeg]⟩
  | inf n => exact ⟨_, ⟨by omega, by omega⟩, rfl, by rw [LnsShape.read, if_neg (by omega), if_pos rfl]; rfl⟩
  | nan =>
    exact ⟨_, ⟨by omega, by omega⟩, rfl, by rw [LnsShape.read, if_neg (by omega), if_neg (by omega), if_pos rfl]⟩
  | fin n l =>
    obtain ⟨k, hmin, hmax, rfl⟩ := hv
    have hwrite : lnsEncode sh (.fin n (k * 2 ^ (16 - sh.f))) = ⟨lnsField sh n k, 0, false⟩ := by
      rw [lnsEncode, logRound_onGrid, lnsRange, if_neg (by omega), if_neg (by omega)]
    unfold LnsShape.minLog at hmin
    unfold LnsShape.maxLog at hmax
    refine ⟨k, ⟨by omega, by omega⟩, hwrite, ?_⟩
    rw [LnsShape.read, if_neg (by omega), if_neg (by omega), if_neg (by omega)]; rfl

/-- What a format reads from a code, it holds. -/
theorem lnsDecode_holds {sh : LnsShape} (h : sh.Sound) (c : Nat) : sh.Holds (lnsDecode sh c) := by
  obtain ⟨hle, hlt⟩ := inField_lnsLog h c
  rw [lnsDecode_eq_read h, LnsShape.read]
  split_ifs with hzero hinf hnan
  · trivial
  · trivial
  · trivial
  · exact ⟨lnsLog sh c, by unfold LnsShape.minLog; omega, by unfold LnsShape.maxLog; omega, rfl⟩

/-- A value that is not a NaN has the sign of its code. -/
theorem isNeg_lnsDecode {sh : LnsShape} (h : sh.Sound) {c : Nat} (hc : lnsDecode sh c ≠ .nan) :
    (lnsDecode sh c).isNeg = c.testBit sh.w := by
  rw [lnsDecode_eq_read h, LnsShape.read] at hc ⊢
  split_ifs at hc ⊢ with hzero hinf hnan
  · rfl
  · rfl
  · exact absurd rfl hc
  · rfl

/-- `wide` has a grid at least as fine as that of `narrow`, and integer bits at least as many. -/
structure LnsShape.Within (narrow wide : LnsShape) : Prop where
  finer : narrow.f ≤ wide.f
  room : narrow.w - 1 + (wide.f - narrow.f) ≤ wide.w - 1

theorem LnsShape.within_of_lt {narrow wide : LnsShape} (hn : narrow ∈ [shape8, shape12, shape16, shape24])
    (hw : wide ∈ [shape8, shape12, shape16, shape24]) (hlt : narrow.w < wide.w) : narrow.Within wide := by
  have : ∀ a ∈ [shape8, shape12, shape16, shape24], ∀ b ∈ [shape8, shape12, shape16, shape24], a.w < b.w →
      a.f ≤ b.f ∧ a.w - 1 + (b.f - a.f) ≤ b.w - 1 := by decide
  obtain ⟨hf, hr⟩ := this narrow hn wide hw hlt
  exact ⟨hf, hr⟩

/-- The log field `k` of the narrow format is the log field `k * 2^(wide.f - narrow.f)` of the wide one. -/
theorem LnsShape.Holds.widen {narrow wide : LnsShape} (hw : wide.Sound) (hin : narrow.Within wide) {v : LVal}
    (hv : narrow.Holds v) : wide.Holds v := by
  cases v with
  | zero | inf | nan => trivial
  | fin n l =>
    obtain ⟨k, hmin, hmax, rfl⟩ := hv
    have hgrid := hw.grid
    obtain ⟨hfiner, hroom⟩ := hin
    have hscale : (2 : Int) ^ (narrow.w - 1) * 2 ^ (wide.f - narrow.f) ≤ 2 ^ (wide.w - 1) := by
      rw [← pow_add]; exact pow_le_pow_right₀ (by norm_num) hroom
    have hone : (1 : Int) ≤ 2 ^ (wide.f - narrow.f) := one_le_pow₀ (by norm_num)
    unfold LnsShape.minLog at hmin
    unfold LnsShape.maxLog at hmax
    refine ⟨k * 2 ^ (wide.f - narrow.f), ?low, ?high, ?same⟩
    case low => unfold LnsShape.minLog; nlinarith
    case high => unfold LnsShape.maxLog; nlinarith
    case same => rw [mul_assoc, ← pow_add, show wide.f - narrow.f + (16 - wide.f) = 16 - narrow.f by omega]

/-- Settles O58: a wider format holds what the narrower one reads, and what a format holds it writes and reads back. -/
theorem lnsWidening : Obligations.LnsWidening := by
  intro narrow hnarrow wide hwide hlt c hc e
  have hn := LnsShape.sound_of_mem hnarrow
  have hw := LnsShape.sound_of_mem hwide
  have hholds := (lnsDecode_holds hn c).widen hw (LnsShape.within_of_lt hnarrow hwide hlt)
  obtain ⟨lg, hlg, henc, hread⟩ := lnsEncode_of_holds hw hholds
  have hcode : e.code = lnsField wide (lnsDecode narrow c).isNeg lg := congrArg Enc.code henc
  refine ⟨?bound, congrArg Enc.flags henc, congrArg Enc.flushed henc, ?same, ?nan, ?sign⟩
  case bound => rw [hcode]; exact lnsField_lt wide _ lg
  case same => rw [hcode, lnsDecode_lnsField hw _ hlg, hread]
  case nan => intro hnan; simp only [e, hnan, lnsEncode_nan_code hw]
  case sign =>
    intro hne
    have hbits : e.code.testBit wide.w = c.testBit narrow.w := by rw [hcode, testBit_lnsField, isNeg_lnsDecode hn hne]
    rw [testBit_eq_decide_le hc, testBit_eq_decide_le (hcode ▸ lnsField_lt wide _ lg)] at hbits
    exact decide_eq_decide.mp hbits

/-! ## The order of values (R20, R21) -/

/-- The real value of a sign and a log (R17). -/
noncomputable def signedPow (neg : Bool) (lg : Int) : ℝ := (if neg then -1 else 1) * (2 : ℝ) ^ ((lg : ℝ) / 2 ^ 16)

@[simp] theorem signedPow_true (l : Int) : signedPow true l = -signedPow false l := by
  simp [signedPow]

@[simp] theorem signedPow_false_pos (l : Int) : 0 < signedPow false l := by
  simpa [signedPow] using Real.rpow_pos_of_pos two_pos ((l : ℝ) / 2 ^ 16)

@[simp] theorem signedPow_false_lt_iff {k l : Int} : signedPow false k < signedPow false l ↔ k < l := by
  simp [signedPow, Real.rpow_lt_rpow_left_iff, div_lt_div_iff_of_pos_right]

theorem neg_signedPow_lt (k l : Int) : -signedPow false k < signedPow false l := by
  linarith [signedPow_false_pos k, signedPow_false_pos l]

/-- The value of a number as an extended real; a NaN has none and counts as 0. -/
noncomputable def LVal.real : LVal → EReal
  | .zero _ => 0
  | .inf neg => if neg then ⊥ else ⊤
  | .nan => 0
  | .fin neg lg => (signedPow neg lg : ℝ)

theorem isReal_iff {v : LVal} {x : EReal} : isReal v x ↔ v ≠ .nan ∧ x = v.real := by
  cases v <;> simp [isReal, LVal.real, signedPow]

theorem LVal.isNan_eq_false {v : LVal} (h : v ≠ .nan) : v.isNan = false := by
  cases v with
  | nan => exact absurd rfl h
  | zero | inf | fin => rfl

/-- R21 orders by the key, its first part first. -/
theorem LVal.below_iff {a b : LVal} : a.below b = true ↔ toLex a.key < toLex b.key := by
  simp [LVal.below, Prod.Lex.toLex_lt_toLex]

/-- The value of a key. -/
def LVal.ofKey (k : Int × Int) : LVal :=
  if k.1 = -3 then .inf true
  else if k.1 = -2 then .fin true (-k.2)
  else if k.1 = -1 then .zero true
  else if k.1 = 0 then .nan
  else if k.1 = 1 then .zero false
  else if k.1 = 2 then .fin false k.2
  else .inf false

theorem LVal.ofKey_key (v : LVal) : LVal.ofKey v.key = v := by
  cases v with
  | nan => rfl
  | zero n | inf n => cases n <;> rfl
  | fin n l => cases n <;> simp [LVal.key, LVal.ofKey]

theorem LVal.key_injective : Function.Injective LVal.key :=
  Function.LeftInverse.injective LVal.ofKey_key

/-- The order of R21 is total. -/
theorem LVal.below_trichotomy (a b : LVal) : a.below b = true ∨ a = b ∨ b.below a = true := by
  simpa only [LVal.below_iff, toLex_inj, LVal.key_injective.eq_iff] using lt_trichotomy (toLex a.key) (toLex b.key)

theorem LVal.below_asymm {a b : LVal} (h : a.below b = true) : b.below a = false := by
  rw [← Bool.not_eq_true, LVal.below_iff]
  exact (LVal.below_iff.mp h).asymm

/-- A value below another is less, except for -0 below +0: -Inf is least and +Inf greatest, a finite value has the sign of its
sign bit, and of two with one sign their logs decide. -/
theorem LVal.real_lt_of_below {a b : LVal} (ha : a ≠ .nan) (hb : b ≠ .nan) (h : a.below b = true) :
    a.real < b.real ∨ a = .zero true ∧ b = .zero false := by
  revert h
  cases a with
  | nan => exact absurd rfl ha
  | zero m | inf m | fin m k =>
    cases b with
    | nan => exact absurd rfl hb
    | zero n | inf n | fin n l => cases m <;> cases n <;> simp [LVal.below, LVal.key, LVal.real, -EReal.coe_neg,
        neg_signedPow_lt]

theorem LVal.below_of_real_lt {a b : LVal} (ha : a ≠ .nan) (hb : b ≠ .nan) (h : a.real < b.real) : a.below b = true := by
  rcases LVal.below_trichotomy a b with hbelow | rfl | habove
  · exact hbelow
  · exact absurd h (lt_irrefl _)
  · rcases LVal.real_lt_of_below hb ha habove with hlt | ⟨rfl, rfl⟩
    · exact absurd hlt h.asymm
    · exact absurd h (lt_irrefl _)

/-- Only the two zeros share a real value. -/
theorem LVal.eq_or_zeros_of_real_eq {a b : LVal} (ha : a ≠ .nan) (hb : b ≠ .nan) (h : a.real = b.real) :
    a = b ∨ ∃ m, a = .zero m ∧ b = .zero (!m) := by
  rcases LVal.below_trichotomy a b with hbelow | heq | habove
  · rcases LVal.real_lt_of_below ha hb hbelow with hlt | ⟨rfl, rfl⟩
    · exact absurd h hlt.ne
    · exact .inr ⟨true, rfl, rfl⟩
  · exact .inl heq
  · rcases LVal.real_lt_of_below hb ha habove with hlt | ⟨rfl, rfl⟩
    · exact absurd h hlt.ne'
    · exact .inr ⟨false, rfl, rfl⟩

/-! ## Comparisons see no sign of a zero (R20) -/

@[simp] theorem LVal.real_cmpForm (v : LVal) : v.cmpForm.real = v.real := by cases v <;> rfl

theorem LVal.cmpForm_ne_nan {v : LVal} (h : v ≠ .nan) : v.cmpForm ≠ .nan := by
  cases v with
  | nan => exact absurd rfl h
  | zero | inf | fin => exact LVal.noConfusion

theorem LVal.cmpForm_ne_negZero (v : LVal) : v.cmpForm ≠ .zero true := by cases v <;> simp [LVal.cmpForm]

theorem LVal.below_cmpForm_iff {a b : LVal} (ha : a ≠ .nan) (hb : b ≠ .nan) :
    a.cmpForm.below b.cmpForm = true ↔ a.real < b.real := by
  constructor
  · intro h
    rcases LVal.real_lt_of_below (LVal.cmpForm_ne_nan ha) (LVal.cmpForm_ne_nan hb) h with hlt | ⟨hzero, -⟩
    · simpa using hlt
    · exact absurd hzero (LVal.cmpForm_ne_negZero a)
  · intro h
    exact LVal.below_of_real_lt (LVal.cmpForm_ne_nan ha) (LVal.cmpForm_ne_nan hb) (by simpa using h)

theorem LVal.cmpForm_eq_iff {a b : LVal} (ha : a ≠ .nan) (hb : b ≠ .nan) : a.cmpForm = b.cmpForm ↔ a.real = b.real := by
  constructor
  · intro h
    rw [← LVal.real_cmpForm a, h, LVal.real_cmpForm]
  · intro h
    rcases LVal.eq_or_zeros_of_real_eq ha hb h with rfl | ⟨m, rfl, rfl⟩ <;> rfl

/-- R20: what each comparison says of two real values. -/
def Cmp.ofReal (x y : EReal) : Cmp → Prop
  | .lt => x < y
  | .le => x ≤ y
  | .eq => x = y
  | .ne => x ≠ y
  | .gt => y < x
  | .ge => y ≤ x

theorem Cmp.holds_iff {a b : LVal} (ha : a ≠ .nan) (hb : b ≠ .nan) (k : Cmp) : k.holds a b = true ↔ k.ofReal a.real b.real := by
  have hab := LVal.below_cmpForm_iff ha hb
  have hba := LVal.below_cmpForm_iff hb ha
  have heq := LVal.cmpForm_eq_iff ha hb
  simp only [Cmp.holds, LVal.isNan_eq_false ha, LVal.isNan_eq_false hb]
  cases k with
  | lt => simpa [Cmp.ofReal] using hab
  | le => simp [Cmp.ofReal, ← not_lt, ← hba]
  | eq => simpa [Cmp.ofReal] using heq
  | ne => simpa [Cmp.ofReal] using not_congr heq
  | gt => simpa [Cmp.ofReal] using hba
  | ge => simp [Cmp.ofReal, ← not_lt, ← hab]

theorem Cmp.holds_of_nan {a b : LVal} (h : (a.isNan || b.isNan) = true) (k : Cmp) : k.holds a b = (k == .ne) := by
  simp [Cmp.holds, h]

/-! ## MAX and MIN (R21) -/

theorem lvMax_of_nan {a b : LVal} (h : (a.isNan || b.isNan) = true) : lvMax a b = (.nan, flagNanIn) := by simp [lvMax, h]
theorem lvMin_of_nan {a b : LVal} (h : (a.isNan || b.isNan) = true) : lvMin a b = (.nan, flagNanIn) := by simp [lvMin, h]

section
variable {a b : LVal} (ha : a ≠ .nan) (hb : b ≠ .nan)
include ha hb

theorem lvMax_of_below (h : a.below b = true) : lvMax a b = (b, 0) ∧ lvMax b a = (b, 0) := by
  simp [lvMax, LVal.isNan_eq_false ha, LVal.isNan_eq_false hb, h, LVal.below_asymm h]

theorem lvMin_of_below (h : a.below b = true) : lvMin a b = (a, 0) ∧ lvMin b a = (a, 0) := by
  simp [lvMin, LVal.isNan_eq_false ha, LVal.isNan_eq_false hb, h, LVal.below_asymm h]

end

theorem lvMax_self {a : LVal} (ha : a ≠ .nan) : lvMax a a = (a, 0) := by simp [lvMax, LVal.isNan_eq_false ha]
theorem lvMin_self {a : LVal} (ha : a ≠ .nan) : lvMin a a = (a, 0) := by simp [lvMin, LVal.isNan_eq_false ha]

/-! ## The Eight's seats on two values -/

theorem nanIns_pair (a b : LVal) : nanIns [a, b] = flagIf (a.isNan || b.isNan) flagNanIn := by simp [nanIns]

section
variable (a b : LVal) (c : Seat) (n : Int) (f : Fmt)

theorem eightOp_cmp (k : Cmp) : eightOp (.cmp k) (.val a) (.val b) c n f = (.pred (k.holds a b), nanIns [a, b]) := rfl
theorem eightOp_max : eightOp .max (.val a) (.val b) c n f = (.val (lvMax a b).1, (lvMax a b).2) := rfl
theorem eightOp_min : eightOp .min (.val a) (.val b) c n f = (.val (lvMin a b).1, (lvMin a b).2) := rfl

end

/-- Settles O59: a NaN operand is taken apart first; of two values with a real value, the one below in the order of R21 is the
lesser one, and only the two zeros are unlike and equal. -/
theorem orderOfValues : Obligations.OrderOfValues := by
  intro a b c n f run
  simp only [run, eightOp_cmp, eightOp_max, eightOp_min]
  refine ⟨fun hnan => ?nan, fun x y hx hy => ?real⟩
  case nan =>
    have hnan : (a.isNan || b.isNan) = true := by rcases hnan with rfl | rfl <;> simp [LVal.isNan]
    simp [Cmp.holds_of_nan hnan, lvMax_of_nan hnan, lvMin_of_nan hnan, nanIns_pair, hnan, flagIf]
  case real =>
    obtain ⟨ha, rfl⟩ := isReal_iff.mp hx
    obtain ⟨hb, rfl⟩ := isReal_iff.mp hy
    refine ⟨fun k => ⟨k.holds a b, ?flags, ?holds⟩, fun hlt => ?less, fun hlt => ?greater, ?same, ?zeros,
      LVal.eq_or_zeros_of_real_eq ha hb⟩
    case flags => simp [nanIns_pair, LVal.isNan_eq_false ha, LVal.isNan_eq_false hb, flagIf]
    case holds => rw [Cmp.holds_iff ha hb]; cases k <;> rfl
    case less =>
      have hbelow := LVal.below_of_real_lt ha hb hlt
      obtain ⟨hmax, -⟩ := lvMax_of_below ha hb hbelow
      obtain ⟨hmin, -⟩ := lvMin_of_below ha hb hbelow
      exact ⟨by rw [hmax], by rw [hmin]⟩
    case greater =>
      have hbelow := LVal.below_of_real_lt hb ha hlt
      obtain ⟨-, hmax⟩ := lvMax_of_below hb ha hbelow
      obtain ⟨-, hmin⟩ := lvMin_of_below hb ha hbelow
      exact ⟨by rw [hmax], by rw [hmin]⟩
    case same =>
      rintro rfl
      exact ⟨by rw [lvMax_self ha], by rw [lvMin_self ha]⟩
    case zeros =>
      rintro m rfl rfl
      cases m <;> decide

end Sys2Proof.Machine
end

section
/-!
PROOFS. The Loom on a core (chapter 2): what the commands of its chunks and tiles do where nothing holds them, over the rules of a
core that is replaced, counted and read again.
-/
namespace Sys2Proof.Machine

/-! ## A core after an update -/

@[simp] theorem Core.count_zero (k : Core) (id : Nat) : k.count id 0 = k := rfl

@[simp] theorem Core.count_live (k : Core) (id n : Nat) : (k.count id n).live = k.live := by
  unfold Core.count
  split <;> rfl

@[simp] theorem Core.count_finish (k : Core) (id n : Nat) : (k.count id n).finish = k.finish := by
  unfold Core.count
  split <;> rfl

@[simp] theorem Core.count_pass (k : Core) (id n : Nat) : (k.count id n).pass = k.pass := by
  unfold Core.count
  split <;> rfl

section
variable {s : State} {core : Nat}

@[simp] theorem State.setCore_length (i : Nat) (k : Core) : (s.setCore i k).cores.length = s.cores.length := List.length_set

@[simp] theorem State.countCore_length (i id n : Nat) : (s.countCore i id n).cores.length = s.cores.length := s.setCore_length i _

@[simp] theorem State.freeNat_core (i : Nat) : s.freeNat.2.core i = s.core i := rfl

@[simp] theorem State.activeOf_core (xs : List Nat) (i : Nat) : (s.activeOf xs).2.core i = s.core i := rfl

@[simp] theorem State.activeOf_length (xs : List Nat) : (s.activeOf xs).2.cores.length = s.cores.length := rfl

theorem State.core_setCore (h : core < s.cores.length) (k : Core) : (s.setCore core k).core core = k := by
  simp [State.core, State.setCore, h]

theorem State.core_mapCore (h : core < s.cores.length) (f : Core → Core) : (s.mapCore core f).core core = f (s.core core) :=
  State.core_setCore h _

theorem State.core_countCore (h : core < s.cores.length) (id n : Nat) :
    (s.countCore core id n).core core = (s.core core).count id n :=
  State.core_setCore h _

theorem State.recFlags_core (o : OpRef) (f : FlagWord) : (s.recFlags o f).core core = s.core core := by
  unfold State.recFlags
  split <;> rfl

/-! ## Transfers under a budget (R208) -/

theorem State.moving_of_mayMove {cls : Activity} {ms : Moves} (h : s.mayMove cls ms = true) (act : State → State) :
    s.moving cls ms act = act (s.charge cls ms) := if_pos h

theorem State.moving_of_wait {cls : Activity} {ms : Moves} (h : s.mayMove cls ms = false) (act : State → State) :
    s.moving cls ms act = s.waitAt cls ms := if_neg (by simp [h])

/-! ## A chunk starts (R62, R200, R201) -/

/-- A cluster that may start a chunk of the tile `l` that is live once the next tile has been opened, its operands in view. -/
structure State.ChunkReady (s : State) (core cl : Nat) (o : OpRef) (r : OpsRun) (x : RecRun) (p : LoomP) (l : Live) (a b : Tensor) :
    Prop where
  on : s.loomOn core = some (o, r, x, p)
  chunks : p.k ≠ 0
  live : ((s.openTile core o p).core core).live = some l
  viewA : (s.openTile core o p).view x p.a = some a
  viewB : (s.openTile core o p).view x p.b = some b
  start : l.mayStart p.chunks cl = true
  cluster : cl ≤ 15
  power : (s.openTile core o p).clustersHeld = false

/-- The places of a cluster's lanes in the tally bank. -/
def Live.lanesOf (l : Live) (cl : Nat) : List Nat :=
  (clusterRows l.rows cl).flatMap (fun i => (clusterCols l.cols cl).map (fun c => i * l.cols + c))

/-- The chunk that a cluster holds once it has formed its products from the bands of both feeders. -/
def State.chunkFrom (s : State) (cl : Nat) (l : Live) (j : ChunkJob) (bandA bandB : BlockCopy) : InChunk :=
  let out := (s.seeing bandA).chunkJob (s.seeing bandB) j
  ⟨cl, j.n, (l.lanesOf cl).zip (out.lanes.map Prod.fst), flagsOr (out.lanes.map Prod.snd), out.cycles, out.idle⟩

/-- The state `charged`, in which the panels' reads are paid for, once a cluster of `s` has begun its chunk. -/
def State.withChunk (s charged : State) (core cl : Nat) (l : Live) (j : ChunkJob) (fa fb : Feeder × BlockCopy × Bool) : State :=
  let out := (s.seeing fa.2.1).chunkJob (s.seeing fb.2.1) j
  let k := { s.core core with feedA := fa.1, feedB := fb.1, live := some (l.begin (s.chunkFrom cl l j fa.2.1 fb.2.1)) }
  (charged.setCore core (k.count 0x0206 out.skipped)).feedTimes core (l.behind.contains cl) (fa.2.2 || fb.2.2) (l.lanesOf cl).length

theorem exec_chunkStart (cl : Nat) : exec (.chunkStart core cl) s = execChunkStart core cl s := rfl

section
variable {cl : Nat} {o : OpRef} {r : OpsRun} {x : RecRun} {p : LoomP} {l : Live} {a b : Tensor} (h : s.ChunkReady core cl o r x p l a b)
include h

theorem chunkStart_of_feeds {fa fb : Feeder × BlockCopy × Bool} :
    let s1 := s.openTile core o p
    let j := s1.jobOf core cl r p a b l
    let q := feedReqs p j (tileOf p.m p.n l.tile) (l.done.getD cl 0)
    s1.feed (s1.core core).feedA q.1 = .ok fa → s1.feed (s1.core core).feedB q.2 = .ok fb →
    exec (.chunkStart core cl) s = .next (s1.moving .compute (fa.1.moves fa.2.2 ++ fb.1.moves fb.2.2)
      (fun charged => s1.withChunk charged core cl l j fa fb)) := by
  intro s1 j q hfa hfb
  obtain ⟨hon, hk, hlive, hva, hvb, hstart, hcl, hpower⟩ := h
  simp only [exec_chunkStart, execChunkStart, hon, if_neg hk, hlive, hva, hvb, hstart, hpower, Nat.not_lt.mpr hcl]
  simp only [s1, q, j] at hfa hfb
  simp only [hfa, hfb]
  rfl

theorem chunkStart_of_poison {g : Nat × Nat} :
    let s1 := s.openTile core o p
    s1.feed (s1.core core).feedA
      (feedReqs p (s1.jobOf core cl r p a b l) (tileOf p.m p.n l.tile) (l.done.getD cl 0)).1 = .error g →
    exec (.chunkStart core cl) s = .next (s1.poisonStop o g) := by
  intro s1 hfa
  obtain ⟨hon, hk, hlive, hva, hvb, hstart, hcl, hpower⟩ := h
  simp only [exec_chunkStart, execChunkStart, hon, if_neg hk, hlive, hva, hvb, hstart, hpower, Nat.not_lt.mpr hcl]
  simp only [s1] at hfa
  simp only [hfa]
  rfl

end

theorem chunkStart_of_clustersHeld {o : OpRef} {r : OpsRun} {x : RecRun} {p : LoomP} (cl : Nat)
    (hon : s.loomOn core = some (o, r, x, p)) (hk : p.k ≠ 0) (hheld : (s.openTile core o p).clustersHeld = true) :
    exec (.chunkStart core cl) s = .next (s.openTile core o p) := by
  simp only [exec_chunkStart, execChunkStart, hon, if_neg hk]
  split
  next => simp [hheld]
  next => rfl

/-! ## A chunk is promoted (R71 to R77) -/

/-- R62: a cluster is held back by its chunk where it has a next one and that would be out of step with what the others have done. -/
theorem Live.mem_behind_finish (l : Live) (chunks : Nat) (bank : List Tal) (ch : InChunk) (d : Nat) :
    d ∈ (l.finish chunks bank ch).behind ↔ d ∈ l.behind ∨ (d = ch.cluster ∧ l.done.getD ch.cluster 0 + 1 < chunks
      ∧ (l.finish chunks bank ch).inStep (l.done.getD ch.cluster 0 + 1) = false) := by
  have hstep : (l.finish chunks bank ch).inStep
      = { l with done := l.done.set ch.cluster (l.done.getD ch.cluster 0 + 1) }.inStep := rfl
  rw [hstep]
  simp only [Live.finish]
  split
  next hb =>
    simp only [Bool.and_eq_true, decide_eq_true_eq, Bool.not_eq_true'] at hb
    simp only [List.mem_append, List.mem_singleton]
    exact or_congr_right ⟨fun hd => ⟨hd, hb⟩, And.left⟩
  next hb =>
    simp only [Bool.and_eq_true, decide_eq_true_eq, Bool.not_eq_true'] at hb
    exact ⟨Or.inl, fun hd => hd.resolve_right fun hd => hb hd.2⟩

/-- The Loom's times touch nothing of the live tile but the cycles its clusters have spent. -/
theorem State.loomTimes_live (h : core < s.cores.length) {l : Live} (hl : (s.core core).live = some l) (m : Mode) (ch : InChunk) :
    ∃ spent, ((s.loomTimes core m l ch).core core).live = some { l with spent := spent } := by
  unfold State.loomTimes
  dsimp only
  split
  next => exact ⟨[], by simp [State.core_mapCore, State.core_countCore, h, hl]⟩
  next => exact ⟨l.spent, by simp [State.core_countCore, h, hl]⟩

theorem exec_chunkComplete (cl : Nat) : exec (.chunkComplete core cl) s = execChunkComplete core cl s := rfl

theorem chunkComplete_of_busy {o : OpRef} {r : OpsRun} {p : LoomP} {l : Live} {ch : InChunk} {cl : Nat}
    (hon : s.loomBusy core = some (o, r, p)) (hl : (s.core core).live = some l)
    (hch : l.busy.find? (fun b => b.cluster = cl) = some ch) (hcore : core < s.cores.length) :
    ∃ t spent, exec (.chunkComplete core cl) s = .next t ∧ (t.core core).live = some { l.finish p.chunks
      (promoteAll (workTag (s.runNet r).mode r.adopt) l.bank.toArray ch.lanes).1.toList ch with spent := spent } := by
  simp only [exec_chunkComplete, execChunkComplete, hon, hl, hch, Host.Outcome.next.injEq, exists_and_left, exists_eq_left',
    State.recFlags_core]
  exact State.loomTimes_live (by simpa using hcore) (by simp [State.core_setCore hcore]) _ _

/-! ## A tile is closed (R83 to R87, R129) -/

theorem exec_tileClose : exec (.tileClose core) s = execTileClose core s := rfl

theorem tileClose_of_complete {o : OpRef} {r : OpsRun} {x : RecRun} {p : LoomP} {l : Live}
    (hon : s.loomOn core = some (o, r, x, p)) (hk : p.k ≠ 0) (hl : (s.core core).live = some l)
    (hdone : l.complete p.chunks = true) (hcol : s.colPoison x p = none) :
    exec (.tileClose core) s = .next (s.moving .compute (if p.exports then s.talMoves p (tileOf p.m p.n l.tile) true else [])
      (fun t => (t.closeTile core o r x p l).settleCore core o)) := by
  simp only [exec_tileClose, execTileClose, hon, if_neg hk, hl, hdone, hcol]
  rfl

/-! ## A held tile enters the Finish queue (R130) -/

theorem exec_finishEnqueue : exec (.finishEnqueue core) s = execFinishEnqueue core s := rfl

/-- An empty Finish queue has room for a tile of either size. -/
theorem finishEnqueue_of_empty {e : FinishEntry} {es : List FinishEntry} (hheld : (s.core core).held = e :: es)
    (hempty : (s.core core).finish = []) :
    exec (.finishEnqueue core) s = .next ((s.freeNat.2.countCore core 0x0205 (if s.finishStalled core then s.freeNat.1 else 0)).mapCore
      core (fun k => { k with
        held := es, finish := k.finish ++ [{ e with awaited := k.pass.isNone && k.finish.isEmpty }] })) := by
  have hroom : (if e.body.any (fun y => y.pair.isSome) then 65536 else 49152) ≤ 196608 := by split <;> decide
  simp only [exec_finishEnqueue, execFinishEnqueue, hheld, hempty, List.length_nil, List.map_nil, List.foldl_nil, Nat.zero_add,
    hroom, and_true]
  rfl

end

/-- Settles O41, a command at a time: the start of a chunk from the feeders, with poison in a panel and under the power cap; the
chunk's completion, by what it leaves of the live tile; the close of a tile; and the Finish queue. -/
theorem loomRows : Obligations.LoomRows := by
  intro s core
  refine ⟨?start, ?poison, ?capped, ?complete, ?close, ?enqueue⟩
  case start =>
    intro o r x p l a b cl fa fb hon hk s1 hl ha hb hstart hcl hheld j q hfa hfb out ix ms ch
    have h := chunkStart_of_feeds ⟨hon, hk, hl, ha, hb, hstart, hcl, hheld⟩ hfa hfb
    exact ⟨fun hms => by rw [h, State.moving_of_mayMove hms]; rfl, fun hms => by rw [h, State.moving_of_wait hms]⟩
  case poison =>
    intro o r x p l a b cl g hon hk s1 hl ha hb hstart hcl hheld hfa
    exact chunkStart_of_poison ⟨hon, hk, hl, ha, hb, hstart, hcl, hheld⟩ hfa
  case capped =>
    intro o r x p cl hon hk hheld
    exact chunkStart_of_clustersHeld cl hon hk hheld
  case complete =>
    intro o r p l ch cl hon hl hch hcore q
    obtain ⟨t, spent, ht, hlive⟩ := chunkComplete_of_busy hon hl hch hcore
    have hcl : ch.cluster = cl := by simpa using List.find?_some hch
    subst hcl
    exact ⟨t, _, ht, hlive, rfl, rfl, rfl, rfl, Live.mem_behind_finish l p.chunks q.1.toList ch⟩
  case close =>
    intro o r x p l hon hk hl hdone hcol ms
    have h := tileClose_of_complete hon hk hl hdone hcol
    exact ⟨fun hms => by rw [h, State.moving_of_mayMove hms], fun hms => by rw [h, State.moving_of_wait hms]⟩
  case enqueue =>
    intro e es hheld hempty hcore f
    refine ⟨_, finishEnqueue_of_empty hheld hempty, ?_⟩
    have hlength : core < s.freeNat.2.cores.length := hcore
    rw [State.core_mapCore (by simpa using hlength), State.core_countCore hlength]
    exact ⟨rfl, by simp [hempty, f], fun hstall => ⟨rfl, by simp [hstall, hempty, f]⟩⟩

end Sys2Proof.Machine
end

section
/-!
PROOFS. The passes of the Eight (chapter 4), and how an operator's record ends (R162 to R166, R173): the commit point of a record and of
a SELF_TEST, and the stop of a command whose chunks have reached their boundaries.
-/
namespace Sys2Proof.Machine

section
variable {s : State} {core n tag : Nat} {c : Cmd} {r : OpsRun} {x : RecRun}

/-- A reference names a record of a command of operators, while that command is not to stop. -/
theorem State.opRec_eq_some_iff {o : OpRef} : s.opRec o = some (c, r, x) ↔
    s.cmd o.source o.tag = some c ∧ c.body = .ops r ∧ r.stop = none ∧ r.recs[o.record]? = some x := by
  unfold State.opRec
  split
  case h_2 hcmd => simp [hcmd]
  case h_1 d hcmd =>
    split
    case h_2 hbody =>
      simp only [hcmd, reduceCtorEq, Option.some.injEq, false_iff, not_and]
      rintro rfl hops
      exact absurd hops (hbody r)
    case h_1 t hbody =>
      simp only [hcmd, Option.some.injEq, Option.ite_none_left_eq_some, Option.map_eq_some_iff, Prod.mk.injEq]
      constructor
      · rintro ⟨hstop, y, hy, rfl, rfl, rfl⟩
        exact ⟨rfl, hbody, by simpa using hstop, hy⟩
      · rintro ⟨rfl, hops, hstop, hx⟩
        obtain rfl : t = r := by simpa [hbody] using hops
        exact ⟨by simp [hstop], x, hx, rfl, rfl, rfl⟩

/-! ## A pass begins (R102) -/

theorem exec_passStart : exec (.passStart core) s = execPassStart core s := rfl

/-- The core once its Eight has taken the entry `e` of the Finish queue, `es` left behind it, for an operator of `scalars` scalars. -/
def Core.startPass (k : Core) (e : FinishEntry) (es : List FinishEntry) (scalars : Nat) : Core :=
  { k with
    finish := es, nrows := e.rows, vlen := e.cols
    pass := some ⟨e.op, some e, e.tile, e.rows, e.cols, readRegs k.regs scalars⟩ }

theorem passStart_of_finish {e : FinishEntry} {es : List FinishEntry} (hpass : (s.core core).pass = none)
    (hfinish : (s.core core).finish = e :: es) (hrec : s.opRec e.op = some (c, r, x)) (hpushed : s.pushed x core = true) :
    exec (.passStart core) s
      = .next (s.setCore core (((s.core core).startPass e es x.op.scalars.length).count 0x0224 1)) := by
  simp only [exec_passStart, execPassStart, hpass, hfinish, hrec, hpushed]
  rfl

/-! ## A pass ends (R128, R203, R208) -/

theorem exec_passEnd : exec (.passEnd core) s = execPassEnd core s := rfl

section
variable {a : Pass} (hpass : (s.core core).pass = some a) (hrec : s.opRec a.op = some (c, r, x))
include hpass hrec

theorem passEnd_of_stack_wait (hstack : s.mayMove .stack (s.saveMoves x core a.unit) = false) :
    exec (.passEnd core) s = .next (s.waitAt .stack (s.saveMoves x core a.unit)) := by
  simp only [exec_passEnd, execPassEnd, hpass, hrec, hstack]
  rfl

theorem passEnd_of_stack_mayMove (hstack : s.mayMove .stack (s.saveMoves x core a.unit) = true) :
    exec (.passEnd core) s = .next (s.moving .compute (s.passMoves x a.unit)
      (fun t => ((t.dropPass core).runPass core a.op r x a).settleCore core a.op)) := by
  simp only [exec_passEnd, execPassEnd, hpass, hrec, hstack]
  rfl

end

/-! ## A commit point (R162 to R165, R394) -/

theorem exec_operatorCommit (rec : Nat) : exec (.operatorCommit n tag rec) s = execOperatorCommit n tag rec s := rfl

theorem operatorCommit_of_recDone {rec : Nat} (hrec : s.opRec ⟨n, tag, rec⟩ = some (c, r, x)) (hdone : s.recDone x = true) :
    exec (.operatorCommit n tag rec) s = .next (((s.commitRec x).mapRec ⟨n, tag, rec⟩ (fun y =>
      { y with phase := .committed, pins := [] })).endOps n tag rec) := by
  obtain ⟨hcmd, hbody, -, -⟩ := State.opRec_eq_some_iff.mp hrec
  simp only [exec_operatorCommit, execOperatorCommit, hcmd, hbody, State.commitOperator, hrec, hdone, if_true]

theorem operatorCommit_of_selfTest (rec : Nat) {f ts g : List Nat} (hcmd : s.cmd n tag = some c)
    (hbody : c.body = .selfTest [] f ts g) : exec (.operatorCommit n tag rec) s = .next (s.endTest c f ts g) := by
  simp only [exec_operatorCommit, execOperatorCommit, hcmd, hbody]

/-! ## A stop (R163, R166, R173) -/

theorem exec_operatorStop : exec (.operatorStop n tag) s = execOperatorStop n tag s := rfl

/-- The state once a command that is to stop with `cause` has left its cores and its records have ended. -/
def State.stopped (s : State) (n tag : Nat) (r : OpsRun) (cause : Nat) : State :=
  r.recs.foldl (fun a x => a.stopRec (decide (cause = 0x04)) x) (s.leaveCores n tag)

theorem operatorStop_of_stop {cause record : Nat} (hcmd : s.cmd n tag = some c) (hbody : c.body = .ops r)
    (hstop : r.stop = some (cause, record)) (hchunks : ∀ k ∈ s.cores, k.chunksOf n tag = false) :
    exec (.operatorStop n tag) s = .next (((s.stopped n tag r cause).complete c .aborted
      (opsBlock r cause record ((s.stopped n tag r cause).runUs c))).touchGroups (groupsOf r.cores)) := by
  have hidle : ¬ s.cores.any (fun k => k.chunksOf n tag) = true := by simpa using hchunks
  simp only [exec_operatorStop, execOperatorStop, hcmd, hbody, hstop, if_neg hidle]
  rfl

end

/-- Settles O42, a command at a time: the start of a pass from the Finish queue; its end, which first waits for STACK and then for
COMPUTE; the commit points of a record and of a SELF_TEST; and the stop of a command. -/
theorem passRows : Obligations.PassRows := by
  unfold Obligations.PassRows
  intro s
  refine ⟨?start, ?finish, ?commit, ?test, ?stop⟩
  case start =>
    intro core c r x e es hpass hfinish hrec hpushed
    exact passStart_of_finish hpass hfinish hrec hpushed
  case finish =>
    intro core c r x a hpass hrec ms sv t
    refine ⟨passEnd_of_stack_wait hpass hrec, fun hstack => ?_⟩
    have h := passEnd_of_stack_mayMove hpass hrec hstack
    exact ⟨fun hms => by rw [h, State.moving_of_mayMove hms]; rfl, fun hms => by rw [h, State.moving_of_wait hms]⟩
  case commit =>
    intro n tag rec c r x o hrec hdone
    exact operatorCommit_of_recDone hrec hdone
  case test =>
    intro n tag rec c f ts g hcmd hbody
    exact operatorCommit_of_selfTest rec hcmd hbody
  case stop =>
    intro n tag c r cause record hcmd hbody hstop hchunks t
    exact operatorStop_of_stop hcmd hbody hstop hchunks

end Sys2Proof.Machine
end

section
/-!
PROOFS. The commands of networks and operators (chapter 5) and ABORT (R171 to R174): what the handler of each answers where its checks
pass, in the state its packet is admitted to.
-/
namespace Sys2Proof.Machine

section
variable {s : State} {q : Req}

/-! ## Networks and FENCE (R147 to R150, R169, R390) -/

theorem networkLoad_of_total (hlen : q.params.length = 4) (hpos : 1 ≤ fld q.params 0 4) (hmax : fld q.params 0 4 ≤ 2 ^ 20) :
    networkLoad q s = .await (fld q.params 0 4) s := if_neg (by omega)

theorem networkActivate_of_loaded {n : Net} (hlen : q.params.length = 4) (hnet : s.loadedNet (fld q.params 0 2) = some n)
    (hcores : ∀ c ∈ n.cores, s.lost c = false) : networkActivate q s = .accept [] (.activate n.id n.cores) none s := by
  have hany : n.cores.any s.lost = false := List.any_eq_false.mpr (by simpa using hcores)
  simp [networkActivate, hlen, hnet, hany]

theorem networkUnload_of_unused (hlen : q.params.length = 4) (hnet : s.loadedNet (fld q.params 0 2) ≠ none)
    (hcores : ∀ k ∈ s.cores, k.net ≠ some (fld q.params 0 2))
    (hcmds : ∀ c ∈ s.cmds, c.acked = true → c.namesNet (fld q.params 0 2) = false) :
    networkUnload q s = .done .ok [] { s with nets := s.nets.filter (fun n => n.id ≠ fld q.params 0 2) } .nothing := by
  have hused : (s.cores.any (fun k => decide (k.net = some (fld q.params 0 2)))
      || s.cmds.any (fun c => c.acked && c.namesNet (fld q.params 0 2))) = false := by simpa using ⟨hcores, hcmds⟩
  exact if_neg (by simp [hlen, hnet, hused])

theorem fence_of_coreSet (hlen : q.params.length = 18) (hcores : ∀ c ∈ coreSet q.params 0, s.lost c = false) :
    fence q s = .accept [] (.fence (coreSet q.params 0)) none s := by
  have hany : (coreSet q.params 0).any s.lost = false := List.any_eq_false.mpr (by simpa using hcores)
  exact if_neg (by simp [hlen, hany])

/-! ## OP_RUN and GRAPH_RUN (R160, R161, R219) -/

/-- R219: the stamp in the ACK of a command of the records `rs`. -/
def State.ackStamp (s : State) (rs : List NetRec) : Nat := if rs.any (fun r => r.stack ≠ 0) then s.stampCounter else 0xFFFFFFFF

section
variable {n : Net} {xs : List RecRun} {hs : List Nat} {st : Nat}

theorem runRecords_of_bindAll {graph : Bool} {binds : List Nat} {rs : List NetRec}
    (hbind : s.bindAll n graph (adoptFlag q.flags) binds rs [] s.stampCounter = .ok (xs, hs, st)) :
    runRecords q n graph binds rs s = .accept (leBytes 4 (s.ackStamp rs))
      (.ops ⟨n.id, graph, adoptFlag q.flags, xs, hs ++ binds, 0, none⟩) none { s with stampCounter := st } := by
  simp only [runRecords, hbind, State.ackStamp]

theorem opRun_of_loaded (hlen : 8 ≤ q.params.length) (hnet : s.loadedNet (fld q.params 0 2) = some n) :
    opRun q s = runRecords q n false [] [⟨fld q.params 2 2, false, fld q.params 4 1, q.params.drop 8⟩] s := by
  simp only [opRun, hnet]
  exact if_neg (by omega)

theorem graphRun_of_stored {g : Graph} (hbinds : fld q.params 4 2 ≤ 256) (hlen : q.params.length = 8 + 4 * fld q.params 4 2)
    (hnet : s.loadedNet (fld q.params 0 2) = some n) (hgraph : n.graphs.find? (fun g => g.id = fld q.params 2 2) = some g) :
    graphRun q s
      = runRecords q n true ((List.range (fld q.params 4 2)).map (fun i => fld q.params (8 + 4 * i) 4)) g.recs s := by
  simp only [graphRun, hnet, hgraph]
  exact if_neg (by omega)

end

/-! ## ABORT (R171, R172) -/

theorem abort_of_abortable {c : Cmd} (hlen : q.params.length = 4) (hrole : q.role = .operator → fld q.params 0 2 = q.source)
    (hcmd : s.cmd (fld q.params 0 2) (fld q.params 2 2) = some c) (hacked : c.acked = true) (hable : c.op.abortable = true)
    (hstop : c.stopping = false) :
    abort q s = .done .ok (leBytes 1 0x04) s (.abort (fld q.params 0 2) (fld q.params 2 2)) := by
  have hown : ¬ (q.role = .operator ∧ fld q.params 0 2 ≠ q.source) := fun h => h.2 (hrole h.1)
  simp only [abort, hlen, ne_eq, not_true_eq_false, if_false, hcmd, hacked, hable, hstop, Bool.not_true, Bool.false_eq_true]
  exact if_neg hown

/-- The single reply of a command of form X enters no tag table (R175). -/
theorem State.single_of_exempt (hop : q.op.exempt = true) (r : Res) (params : List Byte) (after : After) :
    s.single q r params after = (s.answerTo q.port q.op.code q.source q.tag r params).afterReply q.source after := by
  simp [State.single, hop]

theorem State.afterReply_abort {n tag : Nat} {c : Cmd} (hcmd : s.cmd n tag = some c) (source : Nat) :
    s.afterReply source (.abort n tag) = s.abortCmd c := by
  simp only [State.afterReply, hcmd]

end

/-! ## The admitted state -/

section
variable {s : State} {op : Op} {p last : Packet} {x : Source}

@[simp] theorem Source.req_port : (x.req op p).port = p.port := rfl
@[simp] theorem Source.req_source : (x.req op p).source = p.source := rfl
@[simp] theorem Source.req_flags : (x.req op p).flags = p.flags := rfl
@[simp] theorem Source.req_params : (x.req op p).params = p.params := rfl
@[simp] theorem Source.req_role : (x.req op p).role = x.role := rfl
@[simp] theorem Source.req_keyIndex : (x.req op p).keyIndex = x.keyIndex := rfl
@[simp] theorem Source.taken_role : (x.taken op p).role = x.role := rfl
@[simp] theorem Source.taken_keyIndex : (x.taken op p).keyIndex = x.keyIndex := rfl

@[simp] theorem State.admitted_cmd (n tag : Nat) : (s.admitted op p).cmd n tag = s.cmd n tag := by simp [State.cmd]

@[simp] theorem State.admitted_loadedNet (id : Nat) : (s.admitted op p).loadedNet id = s.loadedNet id := by simp [State.loadedNet]

@[simp] theorem State.admitted_lost (core : Nat) : (s.admitted op p).lost core = s.lost core := by simp [State.lost]

theorem Session.admitted_awake (h : Session s op p last x) : (s.admitted op p).power.sleep = .awake := by simpa using h.awake

end

/-- Settles O21, a command at a time: each handler's checks pass in the admitted state, which has the networks, cores and commands of
the state before. -/
theorem networkCommands : Obligations.NetworkCommands := by
  unfold Obligations.NetworkCommands
  intro s p last x
  refine ⟨?load, ?activate, ?unload, ?fence⟩
  case load =>
    intro h hlen hpos hmax
    simpa using exec_of_awaited rfl h (networkLoad_of_total hlen hpos hmax) h.admitted_awake
  case activate =>
    intro n h hlen hnet hcores
    exact exec_of_accepted rfl h (networkActivate_of_loaded hlen (by simpa using hnet) (by simpa using hcores)) h.admitted_awake
  case unload =>
    intro h hlen hnet hcores hcmds
    have hv := networkUnload_of_unused (q := (x.taken .networkUnload p).req .networkUnload p) (s := s.admitted .networkUnload p)
      hlen (by simpa using hnet) (by simpa using hcores) (by simpa using hcmds)
    rw [State.admitted_nets] at hv
    exact exec_of_done rfl h hv h.admitted_awake
  case fence =>
    intro h hlen hcores
    exact exec_of_accepted rfl h (fence_of_coreSet hlen (by simpa using hcores)) h.admitted_awake

/-- Settles O22: the records bind in the admitted state, whose stamp counter is that of the state before. -/
theorem operatorsAccepted : Obligations.OperatorsAccepted := by
  unfold Obligations.OperatorsAccepted
  intro s p last x n xs hs st hnet hlen stamp
  refine ⟨?op, ?graph⟩
  case op =>
    intro rs a h hbind
    have hv : opRun ((x.taken .opRun p).req .opRun p) a = .accept (stamp rs)
        (.ops ⟨n.id, false, adoptFlag p.flags, xs, hs, 0, none⟩) none { a with stampCounter := st } := by
      rw [opRun_of_loaded hlen (by simpa [a] using hnet), runRecords_of_bindAll (by simpa [a] using hbind)]
      simp [stamp, State.ackStamp, a, rs]
    exact exec_of_accepted rfl h hv h.admitted_awake
  case graph =>
    intro g binds a h hbinds hwhole hgraph hbind
    have hv : graphRun ((x.taken .graphRun p).req .graphRun p) a = .accept (stamp g.recs)
        (.ops ⟨n.id, true, adoptFlag p.flags, xs, hs ++ binds, 0, none⟩) none { a with stampCounter := st } := by
      rw [graphRun_of_stored hbinds hwhole (by simpa [a] using hnet) hgraph, runRecords_of_bindAll (by simpa [a] using hbind)]
      simp [stamp, State.ackStamp, a, binds]
    exact exec_of_accepted rfl h hv h.admitted_awake

/-- Settles O23: the handler answers OK with the abort to follow, and the reply leaves the command that it stops in its slot. -/
theorem abortCommand : Obligations.AbortCommand := by
  unfold Obligations.AbortCommand
  intro s p last x c h hlen hrole hcmd hacked hable hstop
  refine ⟨?reply, ?stop⟩
  case reply =>
    exact exec_of_done rfl h (abort_of_abortable hlen hrole (by simpa using hcmd) hacked hable hstop) h.admitted_awake
  case stop =>
    have hheld : ((s.admitted .abort p).answerTo p.port 0x0304 p.source p.tag .ok (leBytes 1 0x04)).cmd (fld p.params 0 2)
        (fld p.params 2 2) = some c := by simpa [State.cmd] using hcmd
    rw [okTo, State.single_of_exempt rfl]
    exact State.afterReply_abort hheld p.source

end Sys2Proof.Machine
end

section
/-!
PROOFS. The start of a held command, of an operator on a core, of a network switch and of a fence (R150, R167 to R169, R199, R394): what
each start row does, over the rules of a command that is replaced and found again.
-/
namespace Sys2Proof.Machine

/-! ## A command after an update -/

/-- A found element that is replaced, with whatever else is replaced by the same value, is found as its replacement. -/
theorem find?_map_replaced {α : Type} {p k : α → Bool} {x y : α} {xs : List α} (hx : xs.find? p = some x) (hk : k x = true)
    (hy : p y = true) : (xs.map (fun z => if k z then y else z)).find? p = some y := by
  induction xs with
  | nil => simp at hx
  | cons z zs ih =>
    rw [List.map_cons, List.find?_cons]
    by_cases hkz : k z = true
    · simp [hkz, hy]
    · by_cases hpz : p z = true
      · obtain rfl : z = x := by simpa [hpz] using hx
        exact absurd hk hkz
      · simpa [hkz, hpz] using ih (by simpa [hpz] using hx)

/-- A map that keeps what a search looks at. -/
theorem find?_map_of_keeps {α : Type} {p : α → Bool} {f : α → α} {xs : List α} (h : ∀ a, p (f a) = p a) :
    (xs.map f).find? p = (xs.find? p).map f := by
  rw [List.find?_map, show p ∘ f = p from funext h]

section
variable {s : State} {n tag : Nat} {c : Cmd}

theorem State.cmd_names (h : s.cmd n tag = some c) : c.source = n ∧ c.tag = tag := by simpa using List.find?_some h

theorem State.cmd_setCmd {d : Cmd} (h : s.cmd n tag = some c) (hno : d.no = c.no) (hsource : d.source = c.source)
    (htag : d.tag = c.tag) : (s.setCmd d).cmd n tag = some d := by
  obtain ⟨rfl, rfl⟩ := State.cmd_names h
  simpa [State.cmd, State.setCmd] using
    find?_map_replaced (k := fun z => decide (z.no = d.no)) (y := d) h (by simp [hno]) (by simp [hsource, htag])

theorem State.startCmd_of_idle (h : c.running = false) : s.startCmd c = s.setCmd { c with running := true, startedAt := s.now } := by
  simp [State.startCmd, h]

/-- A command that starts is found running, and is otherwise as it was. -/
theorem State.cmd_startCmd (h : s.cmd n tag = some c) :
    ∃ since, (s.startCmd c).cmd n tag = some { c with running := true, startedAt := since } := by
  cases hrun : c.running with
  | true => exact ⟨c.startedAt, by rw [State.startCmd, if_pos hrun, h, ← hrun]⟩
  | false => exact ⟨s.now, by rw [State.startCmd_of_idle hrun]; exact State.cmd_setCmd h rfl rfl rfl⟩

theorem State.cmd_mapOps {r : OpsRun} (h : s.cmd n tag = some c) (hbody : c.body = .ops r) (f : OpsRun → OpsRun) :
    (s.mapOps n tag f).cmd n tag = some { c with body := .ops (f r) } := by
  obtain ⟨hsource, htag⟩ := State.cmd_names h
  simp only [State.cmd] at h
  simp only [State.cmd, State.mapOps]
  rw [find?_map_of_keeps, h]
  · simp [hsource, htag, hbody]
  · intro d
    split
    · split <;> rfl
    · rfl

/-- A completed command has left the queue. -/
theorem State.no_ne_of_mem_complete {res : Res} {block : List Byte} {d : Cmd} (h : d ∈ (s.complete c res block).cmds) :
    d.no ≠ c.no := by
  simp only [State.complete, State.afterCmd_cmds, State.reply_cmds, State.endTag_cmds, State.dropCmd, List.mem_filter,
    decide_eq_true_eq] at h
  exact h.2

@[simp] theorem State.startOps_cores : (s.startOps c).cores = s.cores := by
  unfold State.startOps
  split
  · rfl
  · exact State.startCmd_cores s c

/-- A record can be found as before once its command has started. -/
theorem State.opRec_startOps {o : OpRef} {r : OpsRun} {x : RecRun} (h : s.opRec o = some (c, r, x)) :
    ∃ d q, (s.startOps c).opRec o = some (d, q, x) := by
  unfold State.startOps
  split
  next => exact ⟨c, r, h⟩
  next =>
    obtain ⟨hcmd, hbody, hstop, hrec⟩ := State.opRec_eq_some_iff.mp h
    obtain ⟨since, hfound⟩ := State.cmd_startCmd hcmd
    obtain ⟨hsource, htag⟩ := State.cmd_names hcmd
    have hops := State.cmd_mapOps hfound hbody (fun q => { q with devaddr := s.setting 0x4000 })
    rw [hsource, htag]
    exact ⟨_, _, State.opRec_eq_some_iff.mpr ⟨hops, rfl, hstop, hrec⟩⟩

end

/-! ## COMMAND_START (R168, R169, R199, R421) -/

section
variable {s : State} {n tag : Nat} {c : Cmd} (hcmd : s.cmd n tag = some c)

theorem exec_commandStart : exec (.commandStart n tag) s = execCommandStart n tag s := rfl

theorem State.fenceOk_iff : s.fenceOk c = true ↔ (fenceBefore c.flags = false ∨ s.earlier c = []) ∧
    (c.usesCores = true ∨ ∀ d ∈ s.earlier c, d.body ≠ .fence []) := by
  simp [State.fenceOk, fenceBefore]

include hcmd in
theorem commandStart_of_held (hacked : c.acked = false) (hbulk : ∀ b, c.bulk = some b → b.data.length = b.total)
    (hfence : s.fenceOk c = true) : exec (.commandStart n tag) s = .next (s.finishWaiting c) := by
  simp only [exec_commandStart, execCommandStart, hcmd, hacked, hfence, Bool.false_eq_true, if_false, Bool.and_true]
  cases hb : c.bulk with
  | none => rfl
  | some b => simp [hbulk b hb]

include hcmd in
theorem commandStart_of_acked (hacked : c.acked = true) : exec (.commandStart n tag) s = .next (s.begin c) := by
  simp only [exec_commandStart, execCommandStart, hcmd, hacked, if_true]

section
variable (hmay : s.mayStart c = true) (hidle : c.running = false)
include hmay hidle

theorem State.begin_attest (hop : c.op = .attest) : s.begin c = s.finishAttest c := by simp [State.begin, hop, hmay, hidle]

theorem State.begin_auditRead (hop : c.op = .auditRead) : s.begin c = s.finishAudit c := by simp [State.begin, hop, hmay, hidle]

theorem State.begin_tensorRead (hop : c.op = .tensorRead) (hbody : c.body = .plain) : s.begin c = s.startRead c := by
  simp [State.begin, hop, hbody, hmay, hidle]

/-- The data commands and the commits begin with their running time alone; rows of their own go on with them. -/
theorem State.begin_of_data (hop : c.op ∈ [.tensorWrite, .tensorCopy, .tensorFill, .restoreServe, .settingSet, .ledgerCommit]) :
    s.begin c = s.setCmd { c with running := true, startedAt := s.now } := by
  rw [← State.startCmd_of_idle hidle]
  simp only [List.mem_cons, List.not_mem_nil, or_false] at hop
  rcases hop with hop | hop | hop | hop | hop | hop <;> simp [State.begin, hop, hmay, hidle]

end

/-! ### A TENSOR_READ takes its slot (R199) -/

section
variable {t : Tensor} (ht : s.tensor (accessOf c.params).handle = some t)
include ht

theorem State.startRead_of_plain (hring : s.receiveRing (accessOf c.params).handle = false) : s.startRead c = s.startCmd c := by
  simp [State.startRead, ht, hring]

theorem State.startRead_of_ring (hring : s.receiveRing (accessOf c.params).handle = true) :
    s.startRead c = if s.ringLast t < t.planes then
      s.setCmd { c with running := true, startedAt := s.now, body := .read (accessOf c.params).handle (s.ringLast t) } else s := by
  simp [State.startRead, ht, hring]

end

end

/-- Settles O34: a held command ends its wait, and an acknowledged one begins, by its opcode. -/
theorem commandStart : Obligations.CommandStart := by
  unfold Obligations.CommandStart
  intro s n tag c hcmd
  refine ⟨?held, fun hacked hmay hidle => ?acked⟩
  case held =>
    intro hacked hbulk hbefore hdevice
    exact commandStart_of_held hcmd hacked hbulk (State.fenceOk_iff.mpr ⟨hbefore, hdevice⟩)
  case acked =>
    rw [commandStart_of_acked hcmd hacked]
    refine ⟨?attest, ?audit, ?data, ?read⟩
    case attest =>
      intro hop
      rw [State.begin_attest hmay hidle hop]
      rfl
    case audit =>
      intro hop
      rw [State.begin_auditRead hmay hidle hop]
    case data =>
      intro hop
      rw [State.begin_of_data hmay hidle (by simpa using hop)]
    case read =>
      intro t hop hbody ht h
      rw [State.begin_tensorRead hmay hidle hop hbody]
      refine ⟨fun hring => ?plain, fun hring hslot => ?slot, fun hring hslot => ?wait⟩
      case plain => rw [State.startRead_of_plain ht hring, State.startCmd_of_idle hidle]
      case slot => rw [State.startRead_of_ring ht hring, if_pos hslot]
      case wait => rw [State.startRead_of_ring ht hring, if_neg (Nat.not_lt.mpr hslot)]

/-! ## OPERATOR_START (R167, R203, R208, R394, R465) -/

section
variable {s : State} {n tag rec core : Nat} {c : Cmd} {r : OpsRun} {x : RecRun}

theorem exec_operatorStart : exec (.operatorStart n tag rec core) s = execOperatorStart n tag rec core s := rfl

theorem operatorStart_of_opRec (hrec : s.opRec ⟨n, tag, rec⟩ = some (c, r, x)) :
    exec (.operatorStart n tag rec core) s = .next (s.startOperator n tag rec core) := by
  obtain ⟨hcmd, hbody, -, -⟩ := State.opRec_eq_some_iff.mp hrec
  simp only [exec_operatorStart, execOperatorStart, hcmd, hbody]

theorem operatorStart_of_selfTest {cs f ts g : List Nat} (hcmd : s.cmd n tag = some c) (hbody : c.body = .selfTest cs f ts g) :
    exec (.operatorStart n tag rec core) s = .next (s.testCore c cs f ts g core) := by
  simp only [exec_operatorStart, execOperatorStart, hcmd, hbody]

/-- The operators that start core by core: all but STACK_POP and SKIP_IF. -/
def OpP.startsOnCores : OpP → Bool
  | .pop _ _ _ _ | .skipIf _ _ _ _ _ => false
  | _ => true

theorem OpP.startsOnCores_of_ne {p : OpP} (hpop : ∀ e t d k, p ≠ .pop e t d k) (hskip : ∀ k f t th m, p ≠ .skipIf k f t th m) :
    p.startsOnCores = true := by
  cases p with
  | pop e t d k => exact absurd rfl (hpop e t d k)
  | skipIf k f t th m => exact absurd rfl (hskip k f t th m)
  | _ => rfl

section
variable (hrec : s.opRec ⟨n, tag, rec⟩ = some (c, r, x)) (hop : x.op.startsOnCores = true) (hturn : s.turnOf c r rec x core = true)
include hrec hop hturn

theorem State.startOperator_of_turn :
    s.startOperator n tag rec core =
      if s.lost core then (s.startOps c).stopOps ⟨n, tag, rec⟩ 0x41
      else if !s.coreUp core || s.askedAway r core then s
      else if !s.mayMove .compute (s.tillMoves core c.no r.graph x) then s.waitAt .compute (s.tillMoves core c.no r.graph x)
      else s.startRec c r ⟨n, tag, rec⟩ x core := by
  simp only [State.startOperator, hrec, hturn, Bool.not_true, Bool.false_eq_true, if_false]
  split
  next hx => simp [hx, OpP.startsOnCores] at hop
  next hx => simp [hx, OpP.startsOnCores] at hop
  next => rfl

theorem State.startOperator_of_lost (hlost : s.lost core = true) :
    s.startOperator n tag rec core = (s.startOps c).stopOps ⟨n, tag, rec⟩ 0x41 := by
  rw [State.startOperator_of_turn hrec hop hturn, if_pos hlost]

/-- On a core that is up, an operator waits for its Till vectors alone. -/
theorem State.startOperator_of_coreUp (hlost : s.lost core = false) (hup : s.coreUp core = true)
    (haway : s.askedAway r core = false) :
    s.startOperator n tag rec core =
      if s.mayMove .compute (s.tillMoves core c.no r.graph x) then s.startRec c r ⟨n, tag, rec⟩ x core
      else s.waitAt .compute (s.tillMoves core c.no r.graph x) := by
  rw [State.startOperator_of_turn hrec hop hturn]
  cases hms : s.mayMove .compute (s.tillMoves core c.no r.graph x) <;> simp [hlost, hup, haway]

end

theorem State.startOperator_of_skipIf {k f th m : Nat} {t : Cmp} (hrec : s.opRec ⟨n, tag, rec⟩ = some (c, r, x))
    (hop : x.op = .skipIf k f t th m) (hmay : s.mayStart c = true) (hphase : x.phase = .waiting)
    (hready : recReady r.recs rec x.dep = true) (htested : ∀ y, r.recs[k]? = some y → y.open = false) :
    s.startOperator n tag rec core = s.startSkip c ⟨n, tag, rec⟩ k f t th m := by
  have htest : (match r.recs[k]? with | some y => !y.open | none => true) = true := by
    cases hy : r.recs[k]? with
    | none => rfl
    | some y => simp [htested y hy]
  simp only [State.startOperator, hrec, hop, hmay, hphase, hready, decide_true, Bool.true_and]
  exact if_pos htest

/-! ### The record that starts -/

/-- A record that is no SAVE and no RECOMPUTE starts on a further core. -/
theorem State.startRec_again {o : OpRef} (hrec : s.opRec o = some (c, r, x)) (hstack : x.stack = 0) (hstarted : x.started ≠ []) :
    s.startRec c r o x core = ((s.startOps c).enterCore o x core).loadTills core o c.no r.graph x := by
  obtain ⟨d, q, hfound⟩ := State.opRec_startOps hrec
  simp [State.startRec, hstack, hstarted, hfound]

/-- R199: a record with the slots that its rings give it as it starts. -/
def State.pinRings (s : State) (x : RecRun) : RecRun := { x with pins := (s.ringsOf x.op).map (fun t => (t.handle, s.ringLast t)) }

/-- It starts on its first core, which pins its rings and makes the column-scale test (R87). -/
theorem State.startRec_first {o : OpRef} (hstack : x.stack = 0) (hstarted : x.started = []) (hslot : s.slotMissing x = false)
    (hrings : ∀ t ∈ s.ringsOf x.op, s.ringLast t < t.planes) :
    let t := ((s.startOps c).mapRec o (fun _ => s.pinRings x)).pairTest o (s.pinRings x)
    t.opRec o ≠ none →
      s.startRec c r o x core = (t.enterCore o (s.pinRings x) core).loadTills core o c.no r.graph (s.pinRings x) := by
  intro t hgoes
  have hany : (s.ringsOf x.op).any (fun t => decide (t.planes ≤ s.ringLast t)) = false := by simpa using hrings
  have hfirst : x.started.isEmpty = true := by simp [hstarted]
  have hplain (seen : Prop) : (x.stack = 0 ∨ seen) = True := by simp [hstack]
  simp only [State.startRec, hfirst, hslot, hany, hplain, Bool.and_false, Bool.false_eq_true, if_false, if_true]
  exact if_neg fun hnone => hgoes (Option.isNone_iff_eq_none.mp hnone)

theorem State.mapRec_cores (o : OpRef) (f : RecRun → RecRun) : (s.mapRec o f).cores = s.cores := rfl

/-- A core that has units of an operator runs them next. -/
theorem State.core_enterCore {o : OpRef} (hcore : core < s.cores.length) (hunits : unitsOn x.op.cores (s.units x.op) core ≠ []) :
    ((s.enterCore o x core).core core).cur = some o
      ∧ ((s.enterCore o x core).core core).todo = unitsOn x.op.cores (s.units x.op) core := by
  simp only [State.enterCore, if_neg hunits]
  rw [State.core_setCore (by simpa [State.mapRec_cores] using hcore)]
  exact ⟨rfl, rfl⟩

end

/-! ## NETWORK_SWITCH and FENCE_COMPLETE (R150, R169) -/

section
variable {s : State} {n tag core : Nat} {c : Cmd}

theorem exec_networkSwitch : exec (.networkSwitch n tag core) s = execNetworkSwitch n tag core s := rfl

theorem exec_fenceComplete : exec (.fenceComplete n tag) s = execFenceComplete n tag s := rfl

/-- A core takes its network; `d` is the command as it runs. -/
theorem networkSwitch_of_turn {net : Nat} {todo : List Nat} (hcmd : s.cmd n tag = some c) (hbody : c.body = .activate net todo)
    (hmay : s.mayStart c = true) (hcore : core ∈ todo) (hturn : s.coreTurn c core = true) (hlost : s.lost core = false) :
    let u := (s.startCmd c).setCore core { s.core core with net := some net }
    let rest := todo.filter (fun y => y ≠ core)
    ∃ d, u.cmd n tag = some d ∧ d.no = c.no ∧ d.running = true ∧ exec (.networkSwitch n tag core) s
      = .next (if rest = [] then u.completeGeneric d .complete 0 0 0 else u.setCmd { d with body := .activate net rest }) := by
  intro u rest
  obtain ⟨since, hfound⟩ := State.cmd_startCmd hcmd
  have hfound : u.cmd n tag = some { c with running := true, startedAt := since } := hfound
  refine ⟨_, hfound, rfl, rfl, ?_⟩
  simp only [exec_networkSwitch, execNetworkSwitch, hcmd, hbody, hmay, List.contains_iff_mem.mpr hcore, hturn, hlost, Bool.not_true,
    Bool.or_self, Bool.false_eq_true, if_false]
  simp only [u] at hfound
  simp only [hfound]
  exact (apply_ite _ _ _ _).symm

theorem fenceComplete_of_last {cores : List Nat} (hcmd : s.cmd n tag = some c) (hbody : c.body = .fence cores)
    (hmay : s.mayStart c = true) (hearlier : ∀ d ∈ s.earlier c, d.fenced cores = false) (hlost : ∀ k ∈ cores, s.lost k = false) :
    exec (.fenceComplete n tag) s = .next ((s.startCmd c).completeGeneric c .complete 0 0 0) := by
  have hfenced : (s.earlier c).any (fun d => d.fenced cores) = false := by simpa using hearlier
  have hany : cores.any s.lost = false := List.any_eq_false.mpr (by simpa using hlost)
  simp [exec_fenceComplete, execFenceComplete, hcmd, hbody, hmay, hfenced, hany]

end

/-- Settles O40, a row at a time: an operator core by core, a SKIP_IF, the cores of a SELF_TEST, the cores of a network, and a FENCE. -/
theorem startRows : Obligations.StartRows := by
  unfold Obligations.StartRows
  intro s n tag
  refine ⟨?operator, ?test, ?switch, ?fence⟩
  case operator =>
    intro rec core c r x o hrec
    rw [operatorStart_of_opRec hrec]
    refine ⟨fun hpop hskip hturn => ?turn, fun k f t th m hop hmay hphase hready htested => ?skip⟩
    case turn =>
      have hop := OpP.startsOnCores_of_ne hpop hskip
      refine ⟨fun hlost => ?lost, fun hlost hup haway hms => ?budget, fun hlost hup haway hms hstack => ?starts, ?units⟩
      case lost => rw [State.startOperator_of_lost hrec hop hturn hlost]
      case budget => simp [State.startOperator_of_coreUp hrec hop hturn hlost hup haway, hms]
      case starts =>
        rw [State.startOperator_of_coreUp hrec hop hturn hlost hup haway, if_pos hms]
        refine ⟨?again, ?first⟩
        case again =>
          intro hstarted
          rw [State.startRec_again hrec hstack hstarted]
        case first =>
          intro hstarted hslot hrings y t hgoes
          exact congrArg _ (State.startRec_first hstack hstarted hslot hrings hgoes)
      case units =>
        intro core hcore hunits
        exact State.core_enterCore (by simpa using hcore) hunits
    case skip => rw [State.startOperator_of_skipIf hrec hop hmay hphase hready htested]
  case test =>
    intro rec core c cs f ts g hcmd hbody
    exact operatorStart_of_selfTest hcmd hbody
  case switch =>
    intro core c net todo hcmd hbody hmay hcore hturn hlost
    obtain ⟨d, hfound, hno, hrunning, hexec⟩ := networkSwitch_of_turn hcmd hbody hmay hcore hturn hlost
    refine ⟨_, hexec, fun hlength => ?net, fun hrest => ?goesOn, fun hrest => ?done⟩
    case net =>
      have hcores := State.core_setCore (s := s.startCmd c) (by simpa using hlength) { s.core core with net := some net }
      split <;> simpa [State.core] using congrArg Core.net hcores
    case goesOn =>
      rw [if_neg hrest]
      exact ⟨_, State.cmd_setCmd hfound rfl rfl rfl, hrunning, rfl⟩
    case done =>
      rw [if_pos hrest, ← hno]
      exact fun e he => State.no_ne_of_mem_complete he
  case fence =>
    intro c cores hcmd hbody hmay hearlier hlost
    exact fenceComplete_of_last hcmd hbody hmay hearlier hlost

end Sys2Proof.Machine
end

section
/-!
PROOFS. The whole machine and its memory (chapter 6): every command, and so every step, keeps a sound block sound; what a write leaves
of the memory and of the poison.
-/
namespace Sys2Proof.Machine

/-! ## Every command keeps a sound block sound (R187, R346, R348, R384) -/

variable {org s t : State}

/-- Whatever its operands, a command keeps a sound block sound and undoes nothing that no command undoes. -/
theorem exec_kept (h : Kept 1024 org s) (i : Instr) : KeptOut 1024 org (exec i s) := by
  cases i with
  | nop p => exact execNop_kept h p
  | getStatus p => exact execGetStatus_kept h p
  | readAttention p => exact execReadAttention_kept h p
  | loginChallenge p => exact execLoginChallenge_kept h p
  | loginResponse p => exact execLoginResponse_kept h p
  | logout p => exact execLogout_kept h p
  | setPowerState p => exact execSetPowerState_kept h p
  | resetCores p => exact execResetCores_kept h p
  | resetModule p => exact execResetModule_kept h p
  | ledgerBegin p => exact execLedgerBegin_kept h p
  | ledgerSet p => exact execLedgerSet_kept h p
  | ledgerCommit p => exact execLedgerCommit_kept h p
  | ledgerRollback p => exact execLedgerRollback_kept h p
  | settingGet p => exact execSettingGet_kept h p
  | settingSet p => exact execSettingSet_kept h p
  | tensorWrite p => exact execTensorWrite_kept h p
  | tensorRead p => exact execTensorRead_kept h p
  | tensorCopy p => exact execTensorCopy_kept h p
  | tensorFill p => exact execTensorFill_kept h p
  | tensorDefine p => exact execTensorDefine_kept h p
  | tensorRelease p => exact execTensorRelease_kept h p
  | assayRead p => exact execAssayRead_kept h p
  | networkLoad p => exact execNetworkLoad_kept h p
  | networkActivate p => exact execNetworkActivate_kept h p
  | networkUnload p => exact execNetworkUnload_kept h p
  | opRun p => exact execOpRun_kept h p
  | graphRun p => exact execGraphRun_kept h p
  | abort p => exact execAbort_kept h p
  | fence p => exact execFence_kept h p
  | stackConfigure p => exact execStackConfigure_kept h p
  | stackClear p => exact execStackClear_kept h p
  | stackQuery p => exact execStackQuery_kept h p
  | updateProgramLoad p => exact execUpdateProgramLoad_kept h p
  | updateProgramUnload p => exact execUpdateProgramUnload_kept h p
  | updateRun p => exact execUpdateRun_kept h p
  | freezeSet p => exact execFreezeSet_kept h p
  | paramWrite p => exact execParamWrite_kept h p
  | pairSetBind p => exact execPairSetBind_kept h p
  | pairSetUnbind p => exact execPairSetUnbind_kept h p
  | pairSetRelease p => exact execPairSetRelease_kept h p
  | pairSetQuery p => exact execPairSetQuery_kept h p
  | secure p => exact execSecure_kept h p
  | restoreServe p => exact execRestoreServe_kept h p
  | linkStatus p => exact execLinkStatus_kept h p
  | routeLoad p => exact execRouteLoad_kept h p
  | crewListSet p => exact execCrewListSet_kept h p
  | collectiveRun p => exact execCollectiveRun_kept h p
  | streamMap p => exact execStreamMap_kept h p
  | streamUnmap p => exact execStreamUnmap_kept h p
  | streamQuery p => exact execStreamQuery_kept h p
  | streamStart p => exact execStreamStart_kept h p
  | streamStop p => exact execStreamStop_kept h p
  | streamOut p => exact execStreamOut_kept h p
  | countersRead p => exact execCountersRead_kept h p
  | spareStatus p => exact execSpareStatus_kept h p
  | repair p => exact execRepair_kept h p
  | selfTest p => exact execSelfTest_kept h p
  | identityGet p => exact execIdentityGet_kept h p
  | attest p => exact execAttest_kept h p
  | fwStage p => exact execFwStage_kept h p
  | fwActivate p => exact execFwActivate_kept h p
  | auditRead p => exact execAuditRead_kept h p
  | keyEnrol p => exact execKeyEnrol_kept h p
  | keyRevoke p => exact execKeyRevoke_kept h p
  | commandContinuation opcode p => exact execCommandContinuation_kept h opcode p
  | packetDropped port => exact execPacketDropped_kept h port
  | packetIgnored port => exact execPacketIgnored_kept h port
  | bulkPacket port source tag offset data => exact execBulkPacket_kept h port source tag offset data
  | bulkGapTimeout source tag => exact execBulkGapTimeout_kept h source tag
  | sourceExpiry source => exact execSourceExpiry_kept h source
  | challengeExpiry source => exact execChallengeExpiry_kept h source
  | lockoutExpiry role index => exact execLockoutExpiry_kept h role index
  | ledgerIdleTimeout => exact execLedgerIdleTimeout_kept h
  | ledgerApply => exact execLedgerApply_kept h
  | ledgerCommitTimeout => exact execLedgerCommitTimeout_kept h
  | portSettingsApply => exact execPortSettingsApply_kept h
  | mbxSubmit bulk len => exact execMbxSubmit_kept h bulk len
  | mbxRelease => exact execMbxRelease_kept h
  | mbxOutDropClear => exact execMbxOutDropClear_kept h
  | i3cPrivateWrite addr data => exact execI3cPrivateWrite_kept h addr data
  | entdaa addr => exact execEntdaa_kept h addr
  | setdasa addr => exact execSetdasa_kept h addr
  | rstdaa => exact execRstdaa_kept h
  | getpid => exact execGetpid_kept h
  | getbcr => exact execGetbcr_kept h
  | getdcr => exact execGetdcr_kept h
  | getstatus => exact execGetstatus_kept h
  | getmwl => exact execGetmwl_kept h
  | getmrl => exact execGetmrl_kept h
  | setmwl len => exact execSetmwl_kept h len
  | setmrl len => exact execSetmrl_kept h len
  | enec events => exact execEnec_kept h events
  | disec events => exact execDisec_kept h events
  | rstactNone => exact execRstactNone_kept h
  | rstactI3cReset => exact execRstactI3cReset_kept h
  | rstactModuleReset => exact execRstactModuleReset_kept h
  | unsupportedCcc code => exact execUnsupportedCcc_kept h code
  | frameStart port vc => exact execFrameStart_kept h port vc
  | sensorLine port vc dt data crcOk fits => exact execSensorLine_kept h port vc dt data crcOk fits
  | frameEnd port vc => exact execFrameEnd_kept h port vc
  | outputFrameSend stream => exact execOutputFrameSend_kept h stream
  | outputFrameDone stream => exact execOutputFrameDone_kept h stream
  | commandStart source tag => exact execCommandStart_kept h source tag
  | operatorStart source tag rec core => exact execOperatorStart_kept h source tag rec core
  | networkSwitch source tag core => exact execNetworkSwitch_kept h source tag core
  | fenceComplete source tag => exact execFenceComplete_kept h source tag
  | chunkStart core cluster => exact execChunkStart_kept h core cluster
  | chunkComplete core cluster => exact execChunkComplete_kept h core cluster
  | tileClose core => exact execTileClose_kept h core
  | finishEnqueue core => exact execFinishEnqueue_kept h core
  | passStart core => exact execPassStart_kept h core
  | passEnd core => exact execPassEnd_kept h core
  | operatorCommit source tag rec => exact execOperatorCommit_kept h source tag rec
  | operatorStop source tag => exact execOperatorStop_kept h source tag
  | stackPush source tag rec => exact execStackPush_kept h source tag rec
  | spillStart group => exact execSpillStart_kept h group
  | spillComplete group stamp => exact execSpillComplete_kept h group stamp
  | fillStart group => exact execFillStart_kept h group
  | fillComplete group stamp => exact execFillComplete_kept h group stamp
  | stackPop source tag rec => exact execStackPop_kept h source tag rec
  | updatePass1Start source tag tinker => exact execUpdatePass1Start_kept h source tag tinker
  | updatePass1End source tag tinker => exact execUpdatePass1End_kept h source tag tinker
  | updateNorms source tag => exact execUpdateNorms_kept h source tag
  | updateEntry source tag tinker => exact execUpdateEntry_kept h source tag tinker
  | updateRunCommit source tag => exact execUpdateRunCommit_kept h source tag
  | paramWriteStart source tag => exact execParamWriteStart_kept h source tag
  | copyBeforeWrite tensor piece => exact execCopyBeforeWrite_kept h tensor piece
  | tinkerHardFault tinker => exact execTinkerHardFault_kept h tinker
  | secureCut source tag => exact execSecureCut_kept h source tag
  | securePieceSend source tag => exact execSecurePieceSend_kept h source tag
  | pairReq f => exact execPairReq_kept h f
  | pairAck f => exact execPairAck_kept h f
  | bindTimeout source tag => exact execBindTimeout_kept h source tag
  | unbind f => exact execUnbind_kept h f
  | feedUpdate f => exact execFeedUpdate_kept h f
  | slotBegin f => exact execSlotBegin_kept h f
  | piece f => exact execPiece_kept h f
  | slotEnd f => exact execSlotEnd_kept h f
  | secured f => exact execSecured_kept h f
  | secureCancel f => exact execSecureCancel_kept h f
  | restoreData f => exact execRestoreData_kept h f
  | restoreEnd f => exact execRestoreEnd_kept h f
  | restoreAck f => exact execRestoreAck_kept h f
  | peerKeepaliveSend => exact execPeerKeepaliveSend_kept h
  | peerKeepalive f => exact execPeerKeepalive_kept h f
  | peerLossTimeout peer => exact execPeerLossTimeout_kept h peer
  | linkTrainingDone link ok => exact execLinkTrainingDone_kept h link ok
  | linkRetryTimer link => exact execLinkRetryTimer_kept h link
  | dataFlit link lseq f => exact execDataFlit_kept h link lseq f
  | badFlit link codeword data => exact execBadFlit_kept h link codeword data
  | ackFlit link lseq => exact execAckFlit_kept h link lseq
  | nakFlit link lseq => exact execNakFlit_kept h link lseq
  | creditFlit link payload => exact execCreditFlit_kept h link payload
  | keepaliveFlit link addr peerLink crew state => exact execKeepaliveFlit_kept h link addr peerLink crew state
  | idleFlit link => exact execIdleFlit_kept h link
  | laneCtrl link lane => exact execLaneCtrl_kept h link lane
  | flitSend link => exact execFlitSend_kept h link
  | ackTimer link => exact execAckTimer_kept h link
  | keepaliveSend link => exact execKeepaliveSend_kept h link
  | linkSilenceTimeout link => exact execLinkSilenceTimeout_kept h link
  | serWindow link errors total => exact execSerWindow_kept h link errors total
  | laneLossOfLock link lane => exact execLaneLossOfLock_kept h link lane
  | collectiveStart source tag => exact execCollectiveStart_kept h source tag
  | collectiveFlit f => exact execCollectiveFlit_kept h f
  | cancel f => exact execCancel_kept h f
  | staleNotice f => exact execStaleNotice_kept h f
  | collectiveCommit source tag => exact execCollectiveCommit_kept h source tag
  | collectiveStallTimeout source tag => exact execCollectiveStallTimeout_kept h source tag
  | linkEngineFault engine => exact execLinkEngineFault_kept h engine
  | refclkLoss => exact execRefclkLoss_kept h
  | refclkReturn => exact execRefclkReturn_kept h
  | stintBoundary => exact execStintBoundary_kept h
  | scrubPass fixed bad banks => exact execScrubPass_kept h fixed bad banks
  | patrolScrub fixed bad => exact execPatrolScrub_kept h fixed bad
  | lpddrRetrain package => exact execLpddrRetrain_kept h package
  | lpddrControllerFault package => exact execLpddrControllerFault_kept h package
  | coreHardFault core => exact execCoreHardFault_kept h core
  | spareTakeover core passed => exact execSpareTakeover_kept h core passed
  | repairSwitch core passed => exact execRepairSwitch_kept h core passed
  | spareSelfTest group passed => exact execSpareSelfTest_kept h group passed
  | wearEvaluation wear => exact execWearEvaluation_kept h wear
  | feedLoss feed => exact execFeedLoss_kept h feed
  | feedRestore feed => exact execFeedRestore_kept h feed
  | bothFeedsLost => exact execBothFeedsLost_kept h
  | powerUp feed => exact execPowerUp_kept h feed
  | railsInRegulation => exact execRailsInRegulation_kept h
  | resetNAssert => exact execResetNAssert_kept h
  | resetNRelease => exact execResetNRelease_kept h
  | ready => exact execReady_kept h
  | coresResetDone => exact execCoresResetDone_kept h
  | powerSample watts => exact execPowerSample_kept h watts
  | tempSample temps => exact execTempSample_kept h temps
  | thermalTripRecovery => exact execThermalTripRecovery_kept h
  | vfLoopStep core => exact execVfLoopStep_kept h core
  | thermalPlacement advice => exact execThermalPlacement_kept h advice
  | inletExcursion inlet => exact execInletExcursion_kept h inlet
  | autoLightTimeout group => exact execAutoLightTimeout_kept h group
  | autoDeepTimeout group => exact execAutoDeepTimeout_kept h group
  | groupStateEntry group => exact execGroupStateEntry_kept h group
  | s3Entry => exact execS3Entry_kept h
  | wakeOnDemand source tag => exact execWakeOnDemand_kept h source tag
  | wakeComplete group => exact execWakeComplete_kept h group
  | moduleWake => exact execModuleWake_kept h
  | linkS2IdleTimeout => exact execLinkS2IdleTimeout_kept h
  | tensorCommandDone source tag => exact execTensorCommandDone_kept h source tag
  | restoreDataSend source tag => exact execRestoreDataSend_kept h source tag
  | restoreTargetSilent source tag => exact execRestoreTargetSilent_kept h source tag
  | resetHoldRelease => exact execResetHoldRelease_kept h

/-- The queue of waiting commands takes no part in soundness. -/
theorem Sound.setPending {n : Nat} (h : Sound n s) (cs : List Instr) : Sound n { s with pending := cs } := { h with }

/-- An empty queue moves the local timer and a boot's stage alone. -/
theorem idle_kept {n : Nat} (h : Kept n org s) : Kept n org (idle s) :=
  State.bootTick_kept (h.upd (now := s.now + 1) rfl rfl le_rfl le_rfl le_rfl rfl rfl rfl le_rfl le_rfl le_rfl le_rfl le_rfl)

/-- A step keeps a sound block sound: it idles, or it runs the front command on the state with the rest of the queue. -/
theorem step_sound (h : Sound 1024 s) (hstep : step s = .next t) : Sound 1024 t := by
  unfold step at hstep
  split at hstep
  next =>
    cases hstep
    exact (idle_kept (.refl h)).toSound
  next c rest _ => exact (exec_kept (.refl (h.setPending rest)) c t hstep).toSound

/-- Settles O2: a sound block is kept by every command that its queue can hold, and by the idle step. -/
theorem stepKeepsSoundness : Obligations.StepKeepsSoundness := fun _ _ => step_sound

/-! ## What a write leaves (R184, R186, R463) -/

/-- One byte lies in a failed quarter: some failed quarter's bounds hold its address. -/
theorem State.addrFailed_iff (s : State) (x : Nat) : s.addrFailed x = true ↔ ∃ q < 4, s.quarterFailed q = true ∧
    x < lpddrBase + (q + 1) * quarterBytes ∧ lpddrBase + q * quarterBytes ≤ x := by
  simp [State.addrFailed, State.touchesFailed, touchesQuarter, Nat.lt_succ_iff]

/-- A range that touches no failed quarter has no byte in one. -/
theorem State.addrFailed_of_not_touchesFailed {a n x : Nat} (h : s.touchesFailed a n = false) (hlo : a ≤ x) (hhi : x < a + n) :
    s.addrFailed x = false := by
  refine Bool.eq_false_iff.mpr fun hx => ?_
  obtain ⟨q, hq, hfailed, hbelow, habove⟩ := (s.addrFailed_iff x).mp hx
  refine Bool.eq_false_iff.mp h ?_
  simp only [State.touchesFailed, List.any_eq_true, List.mem_range, touchesQuarter, Bool.and_eq_true, decide_eq_true_eq]
  exact ⟨q, hq, hfailed, by omega, by omega⟩

/-- Bytes written one by one: those in a failed quarter are discarded (R463). -/
theorem memGet_writeEach (bs : List Byte) {m : List Host.Cell} (a x : Nat) (h : memWf m = true) :
    memGet (writeEach s m a bs) x
      = if a ≤ x ∧ x < a + bs.length ∧ s.addrFailed x = false then bs.getD (x - a) 0 else memGet m x := by
  induction bs generalizing m a with
  | nil => rw [if_neg (by simp only [List.length_nil]; omega)]; rfl
  | cons b bs ih =>
    have hput : memWf (if s.addrFailed a then m else memWrite m a [b]) = true := by
      split
      · exact h
      · exact memWrite_wf a [b] h
    have hhead : memGet (if s.addrFailed a then m else memWrite m a [b]) x
        = if x = a ∧ s.addrFailed x = false then b else memGet m x := by
      split
      next hfailed => rw [if_neg (by rintro ⟨rfl, hx⟩; simp [hfailed] at hx)]
      next hgood =>
        rw [memGet_memWrite a x [b] h]
        by_cases hx : x = a
        · subst hx
          simp [hgood]
        · rw [if_neg (by simp only [List.length_singleton]; omega), if_neg (fun h => hx h.1)]
    rw [writeEach, ih _ hput, hhead]
    rcases Nat.lt_trichotomy x a with hlt | rfl | hgt
    · rw [if_neg (by omega), if_neg (by omega), if_neg (by omega)]
    · simp
    · have hshift : x - a = x - (a + 1) + 1 := by omega
      rw [hshift, List.getD_cons_succ, if_neg (fun h => by omega : ¬(x = a ∧ _)), List.length_cons]
      exact if_congr ⟨fun h => ⟨by omega, by omega, h.2.2⟩, fun h => ⟨by omega, by omega, h.2.2⟩⟩ rfl rfl

theorem memGet_write (a : Nat) (bs : List Byte) (h : memWf s.mem = true) (x : Nat) :
    memGet (s.write a bs).mem x
      = if a ≤ x ∧ x < a + bs.length ∧ s.addrFailed x = false then bs.getD (x - a) 0 else memGet s.mem x := by
  unfold State.write
  dsimp only
  split
  next => exact memGet_writeEach bs a x h
  next htouch =>
    rw [memGet_memWrite a x bs h]
    refine if_congr ⟨fun hx => ⟨hx.1, hx.2, ?_⟩, fun hx => ⟨hx.1, hx.2.1⟩⟩ rfl rfl
    exact State.addrFailed_of_not_touchesFailed (Bool.eq_false_iff.mpr htouch) hx.1 hx.2

/-- Settles O8: the bytes as `memGet_write` says, the poison as `poisonClear` filters it, and no other field. -/
theorem writeChangesItsBytesAlone : Obligations.WriteChangesItsBytesAlone := by
  intro s a bs hwf
  refine ⟨memGet_write a bs hwf, fun u => ?poison, ⟨_, _, _, rfl⟩⟩
  case poison =>
    simp [State.write, poisonClear, imp_iff_not_or]

end Sys2Proof.Machine
end

section
/-!
PROOFS. The commands of the tensor table (R189 to R191, R224, R389): TENSOR_DEFINE, its ACTION 1, and ASSAY_READ.
-/
namespace Sys2Proof.Machine

/-! ## The handlers -/

section
variable {s : State} {q : Req} {t : Tensor}

/-- A descriptor describes a tensor whose Assay record is empty and which has no tag (R190). -/
theorem tensorOf_fresh {bs : List Byte} (h : tensorOf bs = some t) : t.assay = .empty ∧ t.tag = none := by
  unfold tensorOf at h
  dsimp only at h
  repeat' split at h
  all_goals cases h
  all_goals exact ⟨rfl, rfl⟩

section
variable (hlen : q.params.length = 40) (hbusy : s.handleBusy (fld q.params 8 4) = false)
  (hfreeze : s.freezeOf (fld q.params 8 4) = none)
include hlen hbusy hfreeze

theorem tensorDefine_of_descriptor (haction : fld q.params 0 1 = 0) (ht : tensorOf (q.params.drop 8) = some t)
    (hrange : s.badRange t = false) (hroom : s.tensors.length < 65536 ∨ s.tensor (fld q.params 8 4) ≠ none) :
    tensorDefine q s = .done .ok [] (s.defineTensor t) .nothing := by
  have hfull : ¬(65536 ≤ s.tensors.length ∧ s.tensor (fld q.params 8 4) = none) := fun ⟨hmany, hnew⟩ =>
    hroom.elim (Nat.not_lt.mpr hmany) fun hlive => hlive hnew
  simp only [tensorDefine, hlen, haction, hbusy, hfreeze, ht, hrange]
  simp [hfull, okReply]

theorem tensorDefine_of_release (haction : fld q.params 0 1 = 1) (ht : s.tensor (fld q.params 8 4) = some t) :
    tensorDefine q s = .done .ok [] (s.releaseTensor t) .nothing := by
  simp [tensorDefine, hlen, haction, hbusy, hfreeze, ht, okReply]

end

theorem assayRead_of_record {f : Fmt} (hlen : q.params.length = 8) (ht : s.tensor (fld q.params 0 4) = some t) (hf : t.fmt = some f) :
    assayRead q s = .done .ok (assayBytes t.assay f)
      (if (fld q.params 4 1).testBit 0 then s.setTensor { t with assay := .empty } else s) .nothing := by
  simp [assayRead, hlen, ht, hf, okReply]

end

/-! ## The admitted state -/

section
variable {s : State} {op : Op} {p : Packet}

@[simp] theorem State.admitted_tensor (h : Nat) : (s.admitted op p).tensor h = s.tensor h := by simp [State.tensor]

@[simp] theorem State.admitted_handleBusy (h : Nat) : (s.admitted op p).handleBusy h = s.handleBusy h := by simp [State.handleBusy]

@[simp] theorem State.admitted_freezeOf (h : Nat) : (s.admitted op p).freezeOf h = s.freezeOf h := by simp [State.freezeOf]

@[simp] theorem State.admitted_badRange (t : Tensor) : (s.admitted op p).badRange t = s.badRange t :=
  State.admitted_keeps (State.badRange · t) s op p fun _ _ _ => rfl

end

/-- Settles O19: the handlers' checks pass in the admitted state, whose tensor table is that of the state before. -/
theorem tensorTableCommands : Obligations.TensorTableCommands := by
  intro s p last x
  refine ⟨fun h hlen hbusy hfreeze => ⟨?define, ?release⟩, ?assay⟩
  case define =>
    intro t haction ht hrange hroom
    refine ⟨?_, tensorOf_fresh ht⟩
    have hv := tensorDefine_of_descriptor (q := (x.taken .tensorDefine p).req .tensorDefine p) (s := s.admitted .tensorDefine p)
      hlen (by simpa using hbusy) (by simpa using hfreeze) haction ht (by simpa using hrange) (by simpa using hroom)
    rw [State.defineTensor, State.admitted_tensors] at hv
    exact exec_of_done rfl h hv h.admitted_awake
  case release =>
    intro t haction ht
    have hv := tensorDefine_of_release (q := (x.taken .tensorDefine p).req .tensorDefine p) (s := s.admitted .tensorDefine p)
      hlen (by simpa using hbusy) (by simpa using hfreeze) haction (by simpa using ht)
    rw [State.releaseTensor, State.admitted_tensors] at hv
    exact exec_of_done rfl h hv h.admitted_awake
  case assay =>
    intro t f h hlen ht hf
    have hv := assayRead_of_record (q := (x.taken .assayRead p).req .assayRead p) (s := s.admitted .assayRead p)
      hlen (by simpa using ht) hf
    refine exec_of_done rfl h hv ?_
    split <;> simpa using h.admitted_awake

end Sys2Proof.Machine
end

section
/-!
PROOFS. The rows of a commit (R206, R384, R411, R413, R415): which commit has started, what becomes of the first that need not wait,
what applying its keys and masks changes, and when the port settings act (R335).
-/
namespace Sys2Proof.Machine

/-! ## A commit that waits for no other has started (R384) -/

theorem mem_freeCommits {c : Commit} {done xs ys : List Commit} (hdone : ∀ d ∈ done, c.after d = false)
    (hxs : ∀ d ∈ xs, c.after d = false) : c ∈ freeCommits done (xs ++ c :: ys) := by
  induction xs generalizing done with
  | nil =>
    have hfree : done.any c.after = false := by simpa using hdone
    simp [freeCommits, hfree]
  | cons x xs ih =>
    refine List.mem_append_right _ (ih (fun d hd => ?_) fun d hd => hxs d (List.mem_cons_of_mem _ hd))
    rcases List.mem_append.mp hd with hd | hd
    · exact hdone d hd
    · exact List.mem_singleton.mp hd ▸ hxs x List.mem_cons_self

/-! ## What a commit's keys and masks change -/

/-- `t` is `s` but for what applying keys and masks changes besides the settings. -/
def AppliedOnly (s t : State) : Prop :=
  ∃ q f r n p w a k, t = { s with portQueue := q, freezes := f, trust := r, net9 := n, pair := p, power := w, attention := a, ctrs := k }

section
variable {s t u : State}

theorem AppliedOnly.refl (s : State) : AppliedOnly s s := ⟨_, _, _, _, _, _, _, _, rfl⟩

theorem AppliedOnly.trans (h : AppliedOnly s t) (h' : AppliedOnly t u) : AppliedOnly s u := by
  obtain ⟨_, _, _, _, _, _, _, _, rfl⟩ := h
  exact h'

theorem AppliedOnly.settings (h : AppliedOnly s t) : t.settings = s.settings := by
  obtain ⟨_, _, _, _, _, _, _, _, rfl⟩ := h
  rfl

theorem AppliedOnly.commits (h : AppliedOnly s t) : t.commits = s.commits := by
  obtain ⟨_, _, _, _, _, _, _, _, rfl⟩ := h
  rfl

theorem AppliedOnly.foldl {α : Type} (xs : List α) (f : State → α → State) (hf : ∀ a x, AppliedOnly a (f a x)) (s : State) :
    AppliedOnly s (xs.foldl f s) := by
  induction xs generalizing s with
  | nil => exact .refl s
  | cons x xs ih => exact (hf s x).trans (ih _)

variable (s)

theorem State.setLink_appliedOnly (i : Nat) (l : Link) : AppliedOnly s (s.setLink i l) := ⟨_, _, _, _, _, _, _, _, rfl⟩

theorem State.linkChanged_appliedOnly (i : Nat) : AppliedOnly s (s.linkChanged i) := ⟨_, _, _, _, _, _, _, _, rfl⟩

theorem State.raiseAttn_appliedOnly (bits : BitVec 8) : AppliedOnly s (s.raiseAttn bits) := ⟨_, _, _, _, _, _, _, _, rfl⟩

theorem State.route_appliedOnly (f : Flit) : AppliedOnly s (s.route f) := by
  obtain ⟨_, _, h⟩ := State.route_changes s f
  exact h ▸ ⟨_, _, _, _, _, _, _, _, rfl⟩

theorem State.sendFlit_appliedOnly (dest tc crew cid : Nat) (bs : List Byte) (ps : List Nat) :
    AppliedOnly s (s.sendFlit dest tc crew cid bs ps) := by
  obtain ⟨_, _, h⟩ := State.sendFlit_changes s dest tc crew cid bs ps
  exact h ▸ ⟨_, _, _, _, _, _, _, _, rfl⟩

theorem State.audit_appliedOnly (e : AuditEvent) : AppliedOnly s (s.audit e) := by
  obtain ⟨_, _, h⟩ := State.audit_changes s e
  exact h ▸ ⟨_, _, _, _, _, _, _, _, rfl⟩

theorem State.giveBack_appliedOnly (i : Nat) : AppliedOnly s (s.giveBack i) :=
  (State.setLink_appliedOnly s i _).trans (.foldl _ _ State.route_appliedOnly _)

theorem State.linkTo_appliedOnly (i : Nat) (x : LState) : AppliedOnly s (s.linkTo i x) := by
  unfold State.linkTo
  dsimp only
  split
  · exact .refl s
  · have hchanged := (State.setLink_appliedOnly s i { s.link i with state := x, downAt := s.now }).trans
      (State.linkChanged_appliedOnly _ i)
    split
    · exact hchanged.trans (State.giveBack_appliedOnly _ i)
    · exact hchanged

theorem State.retrain_appliedOnly (i : Nat) : AppliedOnly s (s.retrain i) :=
  (State.linkTo_appliedOnly s i _).trans (State.setLink_appliedOnly _ i _)

theorem State.retrainAll_appliedOnly : AppliedOnly s s.retrainAll := by
  refine .foldl _ _ (fun a i => ?_) s
  split
  · exact .refl a
  · exact .refl a
  · exact State.retrain_appliedOnly a i

theorem State.applyEnable_appliedOnly : AppliedOnly s s.applyEnable := by
  refine .foldl _ _ (fun a i => ?_) s
  split
  · split
    · exact State.linkTo_appliedOnly a i _
    · exact State.retrain_appliedOnly a i
  · exact .refl a
  · exact .refl a
  · exact State.linkTo_appliedOnly a i _

theorem State.keyActs_appliedOnly (k : Nat) : AppliedOnly s (s.keyActs k) := by
  unfold State.keyActs
  split
  · exact State.retrainAll_appliedOnly s
  · exact State.applyEnable_appliedOnly s
  · exact .refl s

theorem State.refreshFlags_appliedOnly : AppliedOnly s s.refreshFlags := by
  unfold State.refreshFlags
  dsimp only
  split <;> exact ⟨_, _, _, _, _, _, _, _, rfl⟩

theorem State.feedsChanged_appliedOnly : AppliedOnly s s.feedsChanged := by
  have hsend (t : State) (peer : Option Nat) (bound : Prop) [Decidable bound] (bs : List Byte) : AppliedOnly t
      (match peer with | some h => if bound then t.sendFlit h 6 0 0 bs [] else t | none => t) := by
    cases peer with
    | none => exact .refl t
    | some h =>
      dsimp only
      split
      · exact State.sendFlit_appliedOnly t h 6 0 0 bs []
      · exact .refl t
  exact ((hsend s _ _ _).trans (hsend _ _ _ _)).trans (State.refreshFlags_appliedOnly _)

theorem State.lookAtInlet_appliedOnly : AppliedOnly s s.lookAtInlet := by
  unfold State.lookAtInlet
  dsimp only
  split <;> exact ⟨_, _, _, _, _, _, _, _, rfl⟩

theorem State.applyMask_appliedOnly (c : Commit) (m : StagedMask) : AppliedOnly s (s.applyMask c m) :=
  AppliedOnly.trans ⟨_, _, _, _, _, _, _, _, rfl⟩ (State.audit_appliedOnly _ _)

theorem State.applyKey_appliedOnly (c : Commit) (x : Nat × Nat) :
    AppliedOnly { s with settings := settingPut s.settings x.1 x.2 } (s.applyKey c x) :=
  (State.keyActs_appliedOnly _ x.1).trans (State.audit_appliedOnly _ _)

/-- The keys of a commit, each at its new value. -/
theorem State.applyKeys_settings (c : Commit) (xs : List (Nat × Nat)) :
    (xs.foldl (fun t x => t.applyKey c x) s).settings = xs.foldl (fun a x => settingPut a x.1 x.2) s.settings := by
  induction xs generalizing s with
  | nil => rfl
  | cons x xs ih => rw [List.foldl_cons, List.foldl_cons, ih, (State.applyKey_appliedOnly s c x).settings]

theorem State.applyKeys_commits (c : Commit) (xs : List (Nat × Nat)) :
    (xs.foldl (fun t x => t.applyKey c x) s).commits = s.commits :=
  foldl_keeps State.commits _ (fun t x => (State.applyKey_appliedOnly t c x).commits) xs s

/-- The state in which the keys and masks of a commit have been applied, and its Ledger is still open. -/
def State.installed (s : State) (c : Commit) : State :=
  let s1 := c.keys.foldl (fun t x => t.applyKey c x) s
  let s2 := c.masks.foldl (fun t m => t.applyMask c m) s1
  let s3 := if c.keys.any (fun x => x.1 = 0x6000 || x.1 = 0x6001 || x.1 = 0x6002) then s2.feedsChanged else s2
  let ports := c.keys.filter (fun x => x.1 / 4096 = 5)
  let s4 := if ports.isEmpty then s3 else { s3 with portQueue := s3.portQueue ++ [(s.now + 1000, ports)] }
  if c.keys.any (fun x => x.1 = 0x1000) then s4.lookAtInlet else s4

/-- Past the keys themselves, nothing of a commit touches the settings. -/
theorem State.installed_appliedOnly (c : Commit) : AppliedOnly (c.keys.foldl (fun t x => t.applyKey c x) s) (s.installed c) := by
  have hmasks := AppliedOnly.foldl c.masks (fun t m => t.applyMask c m) (fun a m => State.applyMask_appliedOnly a c m)
    (c.keys.foldl (fun t x => t.applyKey c x) s)
  refine hmasks.trans ?_
  unfold State.installed
  dsimp only
  generalize c.masks.foldl (fun t m => t.applyMask c m) (c.keys.foldl (fun t x => t.applyKey c x) s) = s2
  have hfeeds (b : Bool) : AppliedOnly s2 (if b then s2.feedsChanged else s2) := by
    split
    · exact State.feedsChanged_appliedOnly s2
    · exact .refl s2
  have hports (b : Bool) (t : State) (e : Nat × List (Nat × Nat)) :
      AppliedOnly t (if b then t else { t with portQueue := t.portQueue ++ [e] }) := by
    split <;> exact ⟨_, _, _, _, _, _, _, _, rfl⟩
  have hinlet (b : Bool) (t : State) : AppliedOnly t (if b then t.lookAtInlet else t) := by
    split
    · exact State.lookAtInlet_appliedOnly t
    · exact .refl t
  exact ((hfeeds _).trans (hports _ _ _)).trans (hinlet _ _)

theorem State.installed_settings (c : Commit) :
    (s.installed c).settings = c.keys.foldl (fun a x => settingPut a x.1 x.2) s.settings :=
  (State.installed_appliedOnly s c).settings.trans (State.applyKeys_settings s c c.keys)

theorem State.installed_commits (c : Commit) : (s.installed c).commits = s.commits :=
  (State.installed_appliedOnly s c).commits.trans (State.applyKeys_commits s c c.keys)

/-! ## A commit ends (R411, R419) -/

/-- A commit closed: its Ledger closes before its completion leaves (R411). -/
def State.closeCommit (s : State) (c : Commit) (res : Res) (cause key : Nat) : State := (s.endCommit c).finishCommit c res cause key

theorem State.closeCommit_settings (c : Commit) (res : Res) (cause key : Nat) :
    (s.closeCommit c res cause key).settings = s.settings := by
  unfold State.closeCommit State.finishCommit
  split
  · exact State.completeGeneric_settings _ _ _ _ _ _
  · rfl

variable {s} {c : Commit}

theorem State.applyCommit_of_recorded (h : s.trust.flashFault = false ∨ (c.keys = [] ∧ c.masks = [])) :
    s.applyCommit c = (s.installed c).closeCommit c .complete 0 0 := by
  refine if_neg ?_
  rcases h with hflash | ⟨hkeys, hmasks⟩
  · simp [hflash]
  · simp [hkeys, hmasks]

theorem State.applyCommit_of_unrecorded (hflash : s.trust.flashFault = true) (hwork : c.keys ≠ [] ∨ c.masks ≠ []) :
    s.applyCommit c = (s.raiseFault (6 * 4096)).closeCommit c .ledgerRolledBack 0x31 0 :=
  if_pos (by simpa [hflash, imp_iff_not_or] using hwork)

theorem State.failCommit_settings (cause : RollCause) (k : Nat) : (s.failCommit c cause k).settings = s.settings :=
  (State.closeCommit_settings _ c _ _ _).trans (State.audit_settings s _)

/-! ## LEDGER_APPLY and LEDGER_COMMIT_TIMEOUT -/

theorem exec_ledgerApply (s : State) : exec .ledgerApply s = execLedgerApply s := rfl

theorem exec_ledgerCommitTimeout (s : State) : exec .ledgerCommitTimeout s = execLedgerCommitTimeout s := rfl

section
variable {xs ys : List Commit} (hopen : s.openCommits = xs ++ c :: ys)
include hopen

/-- The first of the started commits that need not wait is the one that the row goes on with. -/
theorem State.find_commitMove (hwait : ∀ d ∈ xs, s.commitMove d = .wait) (hmove : s.commitMove c ≠ .wait) :
    s.openCommits.find? (fun d => decide (s.commitMove d ≠ .wait)) = some c := by
  rw [hopen, List.find?_append, List.find?_eq_none.mpr (by simpa using hwait)]
  simp [hmove]

theorem ledgerApply_of_apply (hwait : ∀ d ∈ xs, s.commitMove d = .wait) (hmove : s.commitMove c = .apply) :
    exec .ledgerApply s = .next (s.applyCommit c) := by
  have hfind := State.find_commitMove hopen hwait (by simp [hmove])
  simp only [exec_ledgerApply, execLedgerApply, hfind, hmove]

theorem ledgerApply_of_fail {cause : RollCause} {k : Nat} (hwait : ∀ d ∈ xs, s.commitMove d = .wait)
    (hmove : s.commitMove c = .fail cause k) : exec .ledgerApply s = .next (s.failCommit c cause k) := by
  have hfind := State.find_commitMove hopen hwait (by simp [hmove])
  simp only [exec_ledgerApply, execLedgerApply, hfind, hmove]

theorem ledgerCommitTimeout_of_first {k : Nat} (hquiet : ∀ d ∈ xs, d.notQuiet s = none) (hk : c.notQuiet s = some k) :
    exec .ledgerCommitTimeout s = .next ((s.reach (s.commitLimit c)).failCommit c .quiet k) := by
  have hfind : s.openCommits.find? (fun d => (d.notQuiet s).isSome) = some c := by
    rw [hopen, List.find?_append, List.find?_eq_none.mpr (by simpa using hquiet)]
    simp [hk]
  simp only [exec_ledgerCommitTimeout, execLedgerCommitTimeout, hfind, hk]

end

section
variable (hbad : c.bad = none) (hagain : ({ s with commits := [] } : State).checkKeys c.keys = none) (hquiet : c.notQuiet s = none)
include hbad hagain hquiet

theorem State.commitMove_of_quiet (hlimit : c.quietItem = none ∨ s.now ≤ s.commitLimit c) : s.commitMove c = .apply := by
  simp only [State.commitMove, hbad, hagain, hquiet, ne_eq, not_true_eq_false, if_false]
  cases hitem : c.quietItem with
  | none => rfl
  | some k => exact if_neg (Nat.not_lt.mpr (hlimit.resolve_left (by simp [hitem])))

theorem State.commitMove_of_late {k : Nat} (hitem : c.quietItem = some k) (hlate : s.commitLimit c < s.now) :
    s.commitMove c = .fail .quiet k := by
  simp [State.commitMove, hbad, hagain, hquiet, hitem, hlate]

end

theorem State.commitMove_of_bad {k : Nat} (hbad : c.bad = some k) : s.commitMove c = .fail .check k := by
  simp [State.commitMove, hbad]

theorem State.commitMove_of_again {k : Nat} {r : Res} (hbad : c.bad = none)
    (hagain : ({ s with commits := [] } : State).checkKeys c.keys = some (k, r)) : s.commitMove c = .fail .check k := by
  simp [State.commitMove, hbad, hagain]

end

/-! ## PORT_SETTINGS_APPLY (R335) -/

theorem exec_portSettingsApply (s : State) : exec .portSettingsApply s = execPortSettingsApply s := rfl

/-- With no output stream of a changed port within a frame, the settings that are due act. -/
theorem portSettingsApply_of_idle {s : State} {due : Nat} {keys : List (Nat × Nat)} {rest : List (Nat × List (Nat × Nat))}
    (hqueue : s.portQueue = (due, keys) :: rest)
    (hidle : ∀ x ∈ s.streams, x.output = true → x.sending = true → ∀ k ∈ keys, keyPort k.1 ≠ some x.port) :
    ∃ t, exec .portSettingsApply s = .next t ∧ t.portQueue = rest ∧ t.now = max s.now due
      ∧ t.portSettings = keys.foldl (fun a k => settingPut a k.1 k.2) s.portSettings := by
  have hnone : s.streams.any (fun x => x.output && x.sending && (keys.filterMap (fun k => keyPort k.1)).contains x.port) = false := by
    simpa [List.any_eq_false] using hidle
  simp only [exec_portSettingsApply, execPortSettingsApply, hqueue, hnone, Bool.false_eq_true, if_false]
  refine ⟨_, rfl, ?_, ?_, ?_⟩
  · exact foldl_keeps State.portQueue _ (fun t _ => State.setStream_portQueue t _) _ _
  · exact foldl_keeps State.now _ (fun t _ => State.setStream_now t _) _ _
  · exact foldl_keeps State.portSettings _ (fun t _ => State.setStream_portSettings t _) _ _

/-- Settles O36: the rows go on with the first commit that need not wait, by its `commitMove`; the keys alone reach the settings, and
only where the commit can be recorded. -/
theorem commitRows : Obligations.CommitRows := by
  intro s
  refine ⟨?start, ?apply, ?timeout, fun due keys rest => portSettingsApply_of_idle⟩
  case start =>
    intro xs c ys hcommits hdue hfree
    refine List.mem_filter.mpr ⟨?_, hdue⟩
    rw [hcommits]
    exact mem_freeCommits (by simp) hfree
  case apply =>
    intro xs c ys hopen hwait again closed
    refine ⟨fun hbad hagain hquiet hlimit => ⟨?applies, fun hrecord => ?whole, State.applyCommit_of_unrecorded⟩, ?fails⟩
    case applies =>
      exact ledgerApply_of_apply hopen hwait (State.commitMove_of_quiet hbad hagain hquiet hlimit)
    case whole =>
      have heq := State.applyCommit_of_recorded hrecord
      refine ⟨?_, s.installed c, State.installed_commits s c, heq⟩
      rw [heq, State.closeCommit_settings, State.installed_settings]
    case fails =>
      intro cause k hcause
      have hmove : s.commitMove c = .fail cause k := by
        rcases hcause with ⟨hbad, rfl⟩ | ⟨hbad, ⟨r, hagain⟩, rfl⟩ | ⟨hbad, hagain, hquiet, hitem, hlate, rfl⟩
        · exact State.commitMove_of_bad hbad
        · exact State.commitMove_of_again hbad hagain
        · exact State.commitMove_of_late hbad hagain hquiet hitem hlate
      exact ⟨ledgerApply_of_fail hopen hwait hmove, State.failCommit_settings cause k, rfl⟩
  case timeout =>
    intro xs c ys k hopen hquiet hk t
    exact ⟨ledgerCommitTimeout_of_first hopen hquiet hk, State.failCommit_settings .quiet k⟩

end Sys2Proof.Machine
end

section
/-!
PROOFS. The frames of streams (R185, R198, R199, R203, R208, R357 to R363, R369): which streams a port reaches, what a line adds to an
open frame, how a frame opens and closes, and the frames that an output stream sends.
-/
namespace Sys2Proof.Machine

/-! ## The streams of a port -/

section
variable {s : State} {port vc : Nat} {x : Stream}

theorem State.mem_inputs_iff : x ∈ s.inputs port vc ↔ s.power.failed = false ∧ s.portSetting port 0 = 2 ∧ x ∈ s.streams
    ∧ x.output = false ∧ x.port = port ∧ x.vc = vc ∧ x.state = .running := by
  unfold State.inputs
  cases hfailed : s.power.failed with
  | true => simp
  | false =>
    simp only [Bool.false_eq_true, if_false, List.mem_filter, Bool.and_eq_true, Bool.not_eq_true', decide_eq_true_eq, true_and]
    tauto

/-- A header bit that R337 corrects changes none of the streams that a packet reaches. -/
@[simp] theorem State.corrected_inputs (k : Nat) : (s.corrected k).inputs port vc = s.inputs port vc := by
  obtain ⟨_, _, h⟩ := State.corrected_changes s k
  rw [h]
  rfl

/-! ## A line (R357 to R360) -/

theorem exec_sensorLine (dt : Nat) (data : List Byte) (crc fits : Bool) :
    exec (.sensorLine port vc dt data crc fits) s = execSensorLine port vc dt data crc fits s := rfl

theorem sensorLine_of_noStream {dt : Nat} (hnone : ∀ x ∈ s.inputs port vc, x.dt ≠ dt) (data : List Byte) (crc fits : Bool) :
    exec (.sensorLine port vc dt data crc fits) s = .next (s.corrected port) := by
  have hfind : (s.inputs port vc).find? (fun x => x.dt = dt) = none := List.find?_eq_none.mpr (by simpa using hnone)
  simp only [exec_sensorLine, execSensorLine, State.corrected_inputs, hfind]

/-- A stream replaced after a line, with the samples that saturated counted. -/
def State.putLine (s : State) (x y : Stream) : State := (s.setStream y).count 0x060A (y.saturated - x.saturated)

/-- A data type of pixels is none of audio. -/
theorem audioType_of_pixelType {dt : Nat} (h : pixelType dt = true) : audioType dt = false := by
  have hdt : dt ∈ [0x2A, 0x2B, 0x2C, 0x2D, 0x2E, 0x1E, 0x24] := by simpa [pixelType] using h
  simp only [List.mem_cons, List.not_mem_nil, or_false] at hdt
  rcases hdt with rfl | rfl | rfl | rfl | rfl | rfl | rfl <;> rfl

section
variable {t : Tensor} {o : OpenFrame} (hfind : (s.inputs port vc).find? (fun y => decide (y.dt = x.dt)) = some x)
  (ht : (s.corrected port).tensor x.ring = some t) (hframe : x.frame = some o)
include hfind ht hframe

theorem sensorLine_of_open (data : List Byte) (crc fits : Bool) :
    exec (.sensorLine port vc x.dt data crc fits) s =
      if !fits then .next ((((s.corrected port).setStream { x with frame := none, abandoned := x.abandoned + 1 }).overrun 1).count 0x0605 1)
      else if audioType x.dt && !planarType x.dt && !crc then .next ((s.corrected port).count 0x0603 1)
      else .next ((s.corrected port).putLine x
        (if audioType x.dt then x.audioLine t o data crc else x.pixelLine t o data crc)) := by
  simp only [exec_sensorLine, execSensorLine, State.corrected_inputs, hfind, hframe, ht]
  rfl

theorem sensorLine_of_overrun (data : List Byte) (crc : Bool) : exec (.sensorLine port vc x.dt data crc false) s
    = .next ((((s.corrected port).setStream { x with frame := none, abandoned := x.abandoned + 1 }).overrun 1).count 0x0605 1) :=
  sensorLine_of_open hfind ht hframe data crc false

theorem sensorLine_of_pixels (hpixel : pixelType x.dt = true) (data : List Byte) (crc : Bool) :
    exec (.sensorLine port vc x.dt data crc true) s = .next ((s.corrected port).putLine x (x.pixelLine t o data crc)) := by
  simp [sensorLine_of_open hfind ht hframe, audioType_of_pixelType hpixel]

theorem sensorLine_of_audio (haudio : audioType x.dt = true) {crc : Bool} (hcrc : planarType x.dt = true ∨ crc = true) (data : List Byte) :
    exec (.sensorLine port vc x.dt data crc true) s = .next ((s.corrected port).putLine x (x.audioLine t o data crc)) := by
  have hkept : (!planarType x.dt && !crc) = false := by rcases hcrc with h | h <;> simp [h]
  simp [sensorLine_of_open hfind ht hframe, haudio, hkept]

theorem sensorLine_of_badAudio (haudio : audioType x.dt = true) (hplanar : planarType x.dt = false) (data : List Byte) :
    exec (.sensorLine port vc x.dt data false true) s = .next ((s.corrected port).count 0x0603 1) := by
  simp [sensorLine_of_open hfind ht hframe, haudio, hplanar]

end

/-- A list beside its indices. -/
theorem range_zip_map {α β γ : Type} (xs : List α) (d : α) (g : α → β) (f : Nat × β → γ) :
    ((List.range xs.length).zip (xs.map g)).map f = (List.range xs.length).map (fun i => f (i, g (xs.getD i d))) := by
  refine List.ext_getElem (by simp) fun i h1 h2 => ?_
  have hi : i < xs.length := by simpa using h2
  simp [hi]

section
variable {t : Tensor} {o : OpenFrame} (data : List Byte)

/-- Line k fills row k with its samples less the black level; a short line counts. -/
theorem Stream.pixelLine_of_row (hrow : o.lines < t.rows) :
    let y := x.place t { o with lines := o.lines + 1 } ((List.range (unpackPixels x.dt data).length).map (fun i =>
      (o.lines, i, ((unpackPixels x.dt data).getD i 0 : Int) - (x.black : Int))))
    x.pixelLine t o data true
      = { y with shortLines := y.shortLines + (if (unpackPixels x.dt data).length < t.cols then 1 else 0) } := by
  have hsamples := range_zip_map (unpackPixels x.dt data) 0 (fun (e : Nat) => (e : Int) - (x.black : Int))
    (fun v => (o.lines, v.1, v.2))
  simp only [Stream.pixelLine, if_neg (Nat.not_le.mpr hrow), Bool.not_true, Bool.false_eq_true, if_false, List.length_map, hsamples]

theorem Stream.pixelLine_of_badCrc (hrow : o.lines < t.rows) :
    x.pixelLine t o data false = { x with frame := some { o with lines := o.lines + 1 }, crcLines := x.crcLines + 1 } := by
  simp [Stream.pixelLine, Nat.not_le.mpr hrow]

theorem Stream.pixelLine_of_excess (hrow : t.rows ≤ o.lines) (crc : Bool) :
    x.pixelLine t o data crc = { x with frame := some { o with lines := o.lines + 1 }, longLines := x.longLines + 1 } := by
  simp [Stream.pixelLine, hrow]

end

end

/-! ## A frame opens and closes (R198, R203, R208, R359, R369) -/

section
variable {s : State} {x : Stream} {t : Tensor} (ht : s.tensor x.ring = some t)

section
include ht

theorem State.openFrame_of_unpinned (hslot : s.slotPinned x.ring ((x.nextSlot + x.ended.length) % t.planes) = false) :
    s.openFrame x = (if x.frame.isSome then s.countOverrun 1 else s).setStream
      { x with abandoned := x.abandoned + (if x.frame.isSome then 1 else 0), frame := some .empty } := by
  simp only [State.openFrame, ht, hslot, Bool.false_eq_true, if_false]

theorem State.openFrame_of_pinned (hslot : s.slotPinned x.ring ((x.nextSlot + x.ended.length) % t.planes) = true) :
    s.openFrame x = ((if x.frame.isSome then s.countOverrun 1 else s).setStream
      { x with abandoned := x.abandoned + (if x.frame.isSome then 1 else 0), frame := none }).dropFrame t := by
  simp only [State.openFrame, ht, hslot, if_true]

variable {o : OpenFrame} (hframe : x.frame = some o)
include hframe

theorem State.closeFrame_of_wait (hwait : x.ended ≠ [] ∨ s.mayMove .ingest (x.frameMoves t) = false) :
    s.closeFrame x = (s.waitAt .ingest (x.frameMoves t)).setStream { x with frame := none, ended := x.ended ++ [o] } := by
  have hgo : (x.ended.isEmpty && s.mayMove .ingest (x.frameMoves t)) = false := by
    rcases hwait with h | h
    · simp [h]
    · simp [h]
  simp only [State.closeFrame, hframe, ht, hgo, Bool.false_eq_true, if_false]

theorem State.closeFrame_of_room (hfirst : x.ended = []) (hmay : s.mayMove .ingest (x.frameMoves t) = true) :
    s.closeFrame x = s.storeFrame { x with frame := none } t o := by
  simp [State.closeFrame, hframe, ht, hfirst, hmay]

end

theorem State.closeFrame_of_noFrame (hframe : x.frame = none) : s.closeFrame x = s := by simp [State.closeFrame, hframe]

end

/-! ## Frames sent (R185, R362, R363) -/

section
variable {s : State} {id : Nat} {x : Stream} {t : Tensor} (hx : s.stream id = some x) (ht : s.tensor x.ring = some t)

theorem exec_outputFrameSend : exec (.outputFrameSend id) s = execOutputFrameSend id s := rfl

theorem exec_outputFrameDone : exec (.outputFrameDone id) s = execOutputFrameDone id s := rfl

/-- An output stream may begin a frame: it runs, none is under way, and there is a plane or a new slot to send. -/
def State.readyToSend (s : State) (x : Stream) (t : Tensor) : Bool :=
  x.output && decide (x.state = .running) && !x.sending && !x.stopping
    && (decide (x.mode = 0) || (decide (s.ringLast t < t.planes) && decide (some (s.ringCompleted t) ≠ x.lastSent)))

/-- A stream that begins a frame, which shows the slot `slot`. -/
def Stream.beginFrame (x : Stream) (slot : Nat) (done : Option Nat) : Stream :=
  { x with frameNo := x.frameNo % 65535 + 1, sending := true, slot := slot, lastSent := done }

/-- The Frame Start and the embedded line of a frame leave. -/
def State.sendStart (s : State) (x : Stream) (t : Tensor) : State :=
  ((s.setStream x).send ⟨x.port, x.vc, 0x00, leBytes 2 x.frameNo⟩).send ⟨x.port, x.vc, 0x12, embeddedLine s x t⟩

section
include hx ht

theorem outputFrameSend_of_ready (hready : s.readyToSend x t = true) :
    exec (.outputFrameSend id) s = .next (s.sendStart (x.beginFrame (if x.mode = 1 then s.ringLast t else x.slot)
      (if x.mode = 1 then some (s.ringCompleted t) else none)) t) := by
  unfold State.readyToSend at hready
  simp only [exec_outputFrameSend, execOutputFrameSend, hx, ht, hready]
  rfl

theorem outputFrameSend_of_unready (hready : s.readyToSend x t = false) : exec (.outputFrameSend id) s = .next s := by
  unfold State.readyToSend at hready
  simp only [exec_outputFrameSend, execOutputFrameSend, hx, ht, hready]
  rfl

theorem outputFrameDone_of_idle (hsending : x.sending = false) : exec (.outputFrameDone id) s = .next s := by
  simp [exec_outputFrameDone, execOutputFrameDone, hx, ht, hsending]

variable (hout : x.output = true) (hsending : x.sending = true)
include hout hsending

theorem outputFrameDone_of_poison {r : Nat} (hbad : s.outPoison x t = some r) :
    exec (.outputFrameDone id) s = .next (s.moving .ingest (x.lineMoves t r) (fun charged =>
      let g := (s.regionPoison (x.view t).1 (x.view t).2 r 1 0 t.cols).getD (t.base, 1)
      ((charged.sendLines x t r).notePoison g.1 g.2).endOutput x .aborted 0x41)) := by
  simp [exec_outputFrameDone, execOutputFrameDone, hx, ht, hout, hsending, hbad]

/-- A stream whose frame has been sent. -/
def Stream.endFrame (x : Stream) : Stream :=
  { x with frames := x.frames + 1, sending := false, slot := if x.mode = 0 then x.slot + 1 else x.slot }

/-- The lines of a frame and its Frame End leave, and the stream goes on to its next. -/
def State.sendFrame (s : State) (x : Stream) (t : Tensor) : State := ((s.sendLines x t t.rows).count 0x0609 1).setStream x.endFrame

theorem outputFrameDone_of_clean (hbad : s.outPoison x t = none) :
    exec (.outputFrameDone id) s = .next (s.moving .ingest (x.lineMoves t t.rows) (fun charged =>
      if x.stopping = true ∨ x.mode = 0 ∧ t.planes ≤ x.endFrame.slot then (charged.sendFrame x t).endOutput x.endFrame .complete 0
      else charged.sendFrame x t)) := by
  have hgo : ¬((!x.output) = true ∨ (!x.sending) = true) := by simp [hout, hsending]
  simp only [exec_outputFrameDone, execOutputFrameDone, hx, ht, if_neg hgo, hbad]
  rfl

end

end

/-- Settles O39, a part at a time: the streams that a port reaches and their lines; a frame that opens and closes; and the frames of an
output stream. -/
theorem frameRows : Obligations.FrameRows := by
  refine ⟨?lines, ?frames, ?output⟩
  case lines =>
    intro s port vc u
    refine ⟨rfl, rfl, fun x => State.mem_inputs_iff, fun dt data crc fits hnone => sensorLine_of_noStream hnone data crc fits, ?_⟩
    intro x t o data hfind ht hframe put
    refine ⟨sensorLine_of_overrun hfind ht hframe data, fun hpixel => ?pixels, fun haudio => ?audio⟩
    case pixels =>
      have hline := sensorLine_of_pixels hfind ht hframe hpixel data
      refine ⟨fun hrow => ⟨?_, ?_⟩, fun hrow crc => ?_⟩
      · rw [hline, Stream.pixelLine_of_row data hrow]
        rfl
      · rw [hline, Stream.pixelLine_of_badCrc data hrow]
        rfl
      · rw [hline, Stream.pixelLine_of_excess data hrow]
        rfl
    case audio =>
      exact ⟨sensorLine_of_audio hfind ht hframe haudio (.inr rfl) data,
        fun hplanar => sensorLine_of_audio hfind ht hframe haudio (.inl hplanar) data,
        fun hplanar => sensorLine_of_badAudio hfind ht hframe haudio hplanar data⟩
  case frames =>
    intro s x t ht pinned drop
    refine ⟨fun hframe => ⟨fun hslot => ?_, fun hslot => ?_, State.closeFrame_of_noFrame hframe⟩,
      fun o hframe => ⟨fun hslot => ?_, fun hslot => ?_, State.closeFrame_of_wait ht hframe, fun hfirst hmay => ?_⟩⟩
    · rw [State.openFrame_of_unpinned ht hslot, hframe]
      rfl
    · rw [State.openFrame_of_pinned ht hslot, hframe]
      rfl
    · rw [State.openFrame_of_unpinned ht hslot, hframe]
      rfl
    · rw [State.openFrame_of_pinned ht hslot, hframe]
      rfl
    · rw [State.closeFrame_of_room ht hframe hfirst hmay]
      rfl
  case output =>
    intro s id x t hx ht hout last begin_
    refine ⟨fun hrun hsending hstopping => ⟨fun hmode => ?plane, fun hmode hslot hnew => ?slot, fun hmode hnone => ?nothing⟩,
      fun hbusy => ?busy, outputFrameDone_of_idle hx ht, fun hsending hclean => ?clean, fun r hsending hbad => ?poison⟩
    case plane =>
      have hsend := outputFrameSend_of_ready hx ht (by simp [State.readyToSend, hout, hrun, hsending, hstopping, hmode])
      rw [if_neg (by simp [hmode]), if_neg (by simp [hmode])] at hsend
      exact hsend
    case slot =>
      have hsend := outputFrameSend_of_ready hx ht
        (by simpa [State.readyToSend, hout, hrun, hsending, hstopping, hmode] using ⟨hslot, hnew.symm⟩)
      rw [if_pos hmode, if_pos hmode] at hsend
      exact hsend
    case nothing =>
      refine outputFrameSend_of_unready hx ht ?_
      obtain (hfull : t.planes ≤ s.ringLast t) | hsame := hnone
      · simp [State.readyToSend, hmode, Nat.not_lt.mpr hfull]
      · simp [State.readyToSend, hmode, hsame]
    case busy =>
      refine outputFrameSend_of_unready hx ht ?_
      rcases hbusy with h | h | h <;> simp [State.readyToSend, h]
    case clean =>
      intro ms y u
      have hdone := outputFrameDone_of_clean hx ht hout hsending hclean
      refine ⟨fun hms => by rw [hdone, State.moving_of_wait hms], fun hms => ?_⟩
      rw [hdone, State.moving_of_mayMove hms]
      refine ⟨fun hstopping hmore => ?_, fun hlast => ?_⟩
      · have hgoes : ¬(x.stopping = true ∨ x.mode = 0 ∧ t.planes ≤ x.endFrame.slot) := by
          rintro (h | ⟨hmode, hlast⟩)
          · simp [hstopping] at h
          · exact absurd (hmore.resolve_left (not_not_intro hmode)) (Nat.not_lt.mpr (by simpa [Stream.endFrame, hmode] using hlast))
        rw [if_neg hgoes]
        rfl
      · have hends : x.stopping = true ∨ x.mode = 0 ∧ t.planes ≤ x.endFrame.slot :=
          hlast.imp_right fun ⟨hmode, hlast⟩ => ⟨hmode, by simpa [Stream.endFrame, hmode] using hlast⟩
        rw [if_pos hends]
        rfl
    case poison =>
      intro ms g
      have hdone := outputFrameDone_of_poison hx ht hout hsending hbad
      exact ⟨fun hms => by rw [hdone, State.moving_of_wait hms], fun hms => by rw [hdone, State.moving_of_mayMove hms]⟩

end Sys2Proof.Machine
end

section
/-!
PROOFS. The grants of a stint (R207 to R209): what `shareOut` hands out never exceeds what there is, nor what a class wants, and so
the grants of a kind keep to its capacity and to the floors and ceilings of its classes.
-/
namespace Sys2Proof.Machine

/-! ## Granules handed out -/

/-- One granule each to the first `b` classes that want any. -/
def oneEach : Nat → List Nat → List Nat
  | _, [] => []
  | b, w :: ws => if 0 < w ∧ 0 < b then 1 :: oneEach (b - 1) ws else 0 :: oneEach b ws

theorem foldl_eq_oneEach (ws : List Nat) (acc : List Nat) (b : Nat) :
    (ws.foldl (fun (a : List Nat × Nat) w => if 0 < w ∧ 0 < a.2 then (a.1 ++ [1], a.2 - 1) else (a.1 ++ [0], a.2)) (acc, b)).1
      = acc ++ oneEach b ws := by
  induction ws generalizing acc b with
  | nil => simp [oneEach]
  | cons w ws ih =>
    rw [List.foldl_cons, oneEach]
    split
    next => rw [ih, List.append_assoc]; rfl
    next => rw [ih, List.append_assoc]; rfl

theorem oneEach_sum_le (b : Nat) (ws : List Nat) : (oneEach b ws).sum ≤ b := by
  induction ws generalizing b with
  | nil => exact Nat.zero_le b
  | cons w ws ih =>
    rw [oneEach]
    split
    next h =>
      rw [List.sum_cons]
      have := ih (b - 1)
      omega
    next => simpa using ih b

theorem oneEach_le (b : Nat) (ws : List Nat) : List.Forall₂ (· ≤ ·) (oneEach b ws) ws := by
  induction ws generalizing b with
  | nil => exact .nil
  | cons w ws ih =>
    rw [oneEach]
    split
    next h => exact .cons h.1 (ih _)
    next => exact .cons (Nat.zero_le w) (ih _)

theorem zeros_le (ws : List Nat) : List.Forall₂ (· ≤ ·) (ws.map (fun _ => 0)) ws := by
  rw [List.forall₂_map_left_iff]
  exact List.forall₂_same.mpr fun w _ => Nat.zero_le w

theorem foldl_min_le (ws : List Nat) (m : Nat) : ws.foldl min m ≤ m := by
  induction ws generalizing m with
  | nil => exact le_rfl
  | cons w ws ih => exact (ih _).trans (Nat.min_le_left m w)

/-- A round of at most `m` granules to each class that wants any, of which there are so many. -/
theorem sum_map_min_le (m : Nat) (ws : List Nat) : (ws.map (fun w => min w m)).sum ≤ m * (ws.filter (fun w => decide (0 < w))).length := by
  induction ws with
  | nil => exact Nat.zero_le _
  | cons w ws ih =>
    rw [List.map_cons, List.sum_cons, List.filter_cons]
    split
    next =>
      rw [List.length_cons, Nat.mul_succ]
      have := Nat.min_le_right w m
      omega
    next h =>
      have hw : w = 0 := by simpa using h
      simpa [hw] using ih

theorem sum_zip_le (m : Nat) (ws rest : List Nat) :
    ((ws.zip rest).map (fun x => min x.1 m + x.2)).sum ≤ (ws.map (fun w => min w m)).sum + rest.sum := by
  induction ws generalizing rest with
  | nil => exact Nat.zero_le _
  | cons w ws ih =>
    cases rest with
    | nil => exact Nat.zero_le _
    | cons r rest =>
      have := ih rest
      simp only [List.zip_cons_cons, List.map_cons, List.sum_cons]
      omega

theorem zip_add_le (m : Nat) {ws rest : List Nat} (h : List.Forall₂ (· ≤ ·) rest (ws.map (fun w => w - m))) :
    List.Forall₂ (· ≤ ·) ((ws.zip rest).map (fun x => min x.1 m + x.2)) ws := by
  induction ws generalizing rest with
  | nil => exact .nil
  | cons w ws ih =>
    cases h with
    | @cons r _ rest _ hr h =>
      have hr : r ≤ w - m := hr
      exact .cons (show min w m + r ≤ w by omega) (ih h)

/-- R208: no more is handed out than there is. -/
theorem shareOut_sum_le (n b : Nat) (ws : List Nat) : (shareOut n b ws).sum ≤ b := by
  induction n generalizing b ws with
  | zero => simp [shareOut]
  | succ n ih =>
    rw [shareOut]
    extract_lets least rest
    split
    next => simp
    next =>
      set k := (ws.filter (fun w => decide (0 < w))).length
      split
      next =>
        rw [foldl_eq_oneEach]
        exact oneEach_sum_le b ws
      next =>
        have hround : least * k ≤ b := (Nat.mul_le_mul_right k (foldl_min_le _ _)).trans (Nat.div_mul_le_self b k)
        have hgiven := sum_zip_le least ws rest
        have hleast : (ws.map (fun w => min w least)).sum ≤ least * k := sum_map_min_le least ws
        have hrest : rest.sum ≤ b - least * k := ih _ _
        omega

/-- No class is given more than it wants. -/
theorem shareOut_le (n b : Nat) (ws : List Nat) : List.Forall₂ (· ≤ ·) (shareOut n b ws) ws := by
  induction n generalizing b ws with
  | zero => exact zeros_le ws
  | succ n ih =>
    rw [shareOut]
    extract_lets least rest
    split
    next => exact zeros_le ws
    next =>
      split
      next =>
        rw [foldl_eq_oneEach]
        exact oneEach_le b ws
      next => exact zip_add_le _ (ih _ _)

theorem getD_le_of_forall₂ {xs ys : List Nat} (h : List.Forall₂ (· ≤ ·) xs ys) (i : Nat) : xs.getD i 0 ≤ ys.getD i 0 := by
  induction h generalizing i with
  | nil => exact le_rfl
  | cons hxy _ ih =>
    cases i with
    | zero => exact hxy
    | succ i => exact ih i

/-! ## The grants of a kind (R207) -/

/-- What each class wants, up to a limit of its own. -/
def limitedBy (want : List Nat) (lim : Nat → Nat) : List Nat := ((List.range 7).zip want).map (fun x => min x.2 (lim x.1))

theorem limitedBy_getD {want : List Nat} (hlen : want.length = 7) (lim : Nat → Nat) {c : Nat} (hc : c < 7) :
    (limitedBy want lim).getD c 0 = min (want.getD c 0) (lim c) := by
  have hin : c < ((List.range 7).zip want).length := by simpa [hlen] using hc
  have hw : c < want.length := hlen ▸ hc
  rw [List.getD_eq_getElem _ _ (by simpa [limitedBy] using hin), List.getD_eq_getElem _ _ hw]
  simp [limitedBy]

/-- What the classes still want once `got` has been granted. -/
def stillWanted (want got : List Nat) : List Nat := (want.zip got).map (fun x => x.1 - x.2)

theorem stillWanted_getD_le (want got : List Nat) (c : Nat) : (stillWanted want got).getD c 0 ≤ want.getD c 0 - got.getD c 0 := by
  induction want generalizing got c with
  | nil => exact Nat.zero_le _
  | cons w want ih =>
    cases got with
    | nil => exact Nat.zero_le _
    | cons g got =>
      cases c with
      | zero => exact le_rfl
      | succ c => exact ih got c

section
variable (s : State) (kind cap : Nat) (want : List Nat)

theorem State.grants_first : (s.grants kind cap want).first = shareOut 16 cap (limitedBy want (s.floorOf kind)) := by
  unfold State.grants
  dsimp only
  split <;> rfl

/-- The grants of priority 2 are made of what those of priority 1 leave. -/
theorem State.grants_second : ∃ b ≤ cap - (s.grants kind cap want).first.sum,
    (s.grants kind cap want).second
      = shareOut 16 b (stillWanted (limitedBy want (s.ceilingOf kind)) (s.grants kind cap want).first) := by
  rw [State.grants_first, List.sum_eq_foldl]
  unfold State.grants
  dsimp only
  split
  next => exact ⟨_, Nat.min_le_left _ _, rfl⟩
  next => exact ⟨_, le_rfl, rfl⟩

theorem State.grants_sum_le : (s.grants kind cap want).first.sum + (s.grants kind cap want).second.sum ≤ cap := by
  obtain ⟨b, hb, hsecond⟩ := s.grants_second kind cap want
  have hgiven : (s.grants kind cap want).second.sum ≤ b := hsecond ▸ shareOut_sum_le 16 b _
  have hfirst : (s.grants kind cap want).first.sum ≤ cap := s.grants_first kind cap want ▸ shareOut_sum_le 16 cap _
  omega

variable {want} {c : Nat} (hlen : want.length = 7) (hc : c < 7)
include hlen hc

theorem State.grants_first_le : (s.grants kind cap want).first.getD c 0 ≤ min (want.getD c 0) (s.floorOf kind c) := by
  rw [State.grants_first, ← limitedBy_getD hlen _ hc]
  exact getD_le_of_forall₂ (shareOut_le _ _ _) c

theorem State.grants_second_le : (s.grants kind cap want).second.getD c 0
    ≤ min (want.getD c 0) (s.ceilingOf kind c) - (s.grants kind cap want).first.getD c 0 := by
  obtain ⟨b, -, hsecond⟩ := s.grants_second kind cap want
  rw [hsecond, ← limitedBy_getD hlen _ hc]
  exact (getD_le_of_forall₂ (shareOut_le _ _ _) c).trans (stillWanted_getD_le _ _ c)

end

/-- Without lending nothing is borrowed (R209). -/
theorem State.grants_borrowed {s : State} (kind cap : Nat) (want : List Nat) (hlend : s.stintActing 0x2101 = 0) :
    ∀ x ∈ (s.grants kind cap want).borrowed, x = 0 := by
  simp [State.grants, hlend]

end Sys2Proof.Machine
end

section
/-!
PROOFS. The power and thermal loops (R433 to R435, R443, R444, R480): the cap loop's next action, the limit of 105 °C and the ceilings
of the groups, what a thermal trip leaves, and the steps of a core's frequency and voltage.
-/
namespace Sys2Proof.Machine

/-! ## The cap loop (R433) -/

/-- A power sample taken into the average, the stint's power and the energy. -/
def State.sampled (s : State) (w : Nat) : State :=
  ({ s with power := { s.power with
    samples := (w :: s.power.samples).take 100, stintDrawn := (s.power.stintDrawn.1 + w, s.power.stintDrawn.2 + 1)
    energy := s.power.energy + 10 * w } } : State).lookAtCap

/-- The time under an action of the cap loop, counted. -/
def State.countCap (s : State) : State := s.count 0x0702 (if s.power.holdClusters ∨ s.power.withhold then 10 else 0)

theorem exec_powerSample (w : Nat) (s : State) : exec (.powerSample w) s = execPowerSample w s := rfl

theorem powerSample_of_powered {s : State} (hphase : s.power.phase ≠ .off) (w : Nat) :
    let xs := (w :: s.power.samples).take 100
    let sum := xs.foldl (· + ·) 0
    let cap := s.setting 0x1000
    exec (.powerSample w) s = .next (State.countCap
      (if 102 * cap * xs.length < 100 * sum then (s.sampled w).capDown.throttle
        else if sum < cap * xs.length then (s.sampled w).capUp else s.sampled w)) := by
  simp only [exec_powerSample, execPowerSample, if_neg hphase]
  rfl

/-! ## A group's power after an update -/

section
variable {s : State} {g : Nat}

theorem State.groupPower_setGroup (hg : g < s.power.groups.length) (p : GroupPower) : (s.setGroup g p).groupPower g = p := by
  simp [State.groupPower, State.setGroup, hg]

theorem State.groupPower_setGroup_ne {h : Nat} (hne : h ≠ g) (p : GroupPower) :
    (s.setGroup g p).groupPower h = s.groupPower h := by
  simp [State.groupPower, State.setGroup, List.getD_eq_getElem?_getD, List.getElem?_set_ne hne.symm]

variable (s)

@[simp] theorem State.throttle_settings : s.throttle.settings = s.settings := by
  unfold State.throttle
  dsimp only
  split <;> rfl

@[simp] theorem State.throttle_hot : s.throttle.power.hot = s.power.hot := by
  unfold State.throttle
  dsimp only
  split <;> rfl

@[simp] theorem State.throttle_groupPower (h : Nat) : s.throttle.groupPower h = s.groupPower h := by
  unfold State.throttle
  dsimp only
  split <;> rfl

/-! ## The limit of 105 °C (R435) -/

theorem State.hotLimit_of_hot (h : ∃ x ∈ s.health.coreTemps, 105 ≤ x) : s.hotLimit.power.hot = true := by
  have hany : s.health.coreTemps.any (fun t => decide (105 ≤ t)) = true := by simpa using h
  simp only [State.hotLimit, hany, if_true]
  split
  next hhot => exact hhot
  next => exact State.throttle_hot _

section
variable (hbelow : ∀ x ∈ s.health.coreTemps, x < 105)
include hbelow

theorem State.hotLimit_of_cool (h : ∀ x ∈ s.health.coreTemps, x ≤ (s.setting 0x1002 : Nat) - 2) :
    s.hotLimit = { s with power := { s.power with hot := false } } := by
  have hany : s.health.coreTemps.any (fun t => decide (105 ≤ t)) = false := by simpa using hbelow
  have hall : s.health.coreTemps.all (fun t => decide (t ≤ (s.setting 0x1002 : Nat) - 2)) = true := by simpa using h
  simp only [State.hotLimit, hany, hall, Bool.false_eq_true, if_false, if_true]

theorem State.hotLimit_of_warm (h : ∃ x ∈ s.health.coreTemps, (s.setting 0x1002 : Nat) - 2 < x) : s.hotLimit = s := by
  have hany : s.health.coreTemps.any (fun t => decide (105 ≤ t)) = false := by simpa using hbelow
  have hall : s.health.coreTemps.all (fun t => decide (t ≤ (s.setting 0x1002 : Nat) - 2)) = false := by simpa using h
  simp only [State.hotLimit, hany, hall, Bool.false_eq_true, if_false]

end

theorem State.hotLimit_settings : s.hotLimit.settings = s.settings := by
  unfold State.hotLimit
  dsimp only
  split
  next =>
    split
    · rfl
    · exact State.throttle_settings _
  next => split <;> rfl

/-! ## A group's ceiling (R435) -/

/-- The ceiling falls: from THERM_THROTTLE_C on, and once it falls until the hottest core reads 2 °C less. -/
def State.ceilingFalls (s : State) (g : Nat) : Prop :=
  ((s.setting 0x1002 : Nat) : Int) ≤ s.hottest g
    ∨ (s.groupPower g).lowering = true ∧ ((s.setting 0x1002 : Nat) : Int) - 2 < s.hottest g

theorem State.thermalGroup_of_hot (hhot : s.power.hot = true) :
    s.thermalGroup g = s.setGroup g { s.groupPower g with thermal := 400, lowering := true } := by
  simp only [State.thermalGroup, hhot, if_true]

section
variable {s} (hhot : s.power.hot = false)
include hhot

theorem State.thermalGroup_of_falls (hfalls : s.ceilingFalls g) :
    let t := s.setGroup g { s.groupPower g with
      thermal := max 400 (min (s.groupPower g).thermal (s.setting 0x1001) - 25), lowering := true }
    s.thermalGroup g = if (s.groupPower g).lowering then t else t.throttle := by
  unfold State.ceilingFalls at hfalls
  simp only [State.thermalGroup, hhot, Bool.false_eq_true, if_false, if_pos hfalls]

theorem State.thermalGroup_of_rises (hrises : ¬s.ceilingFalls g) :
    s.thermalGroup g = s.setGroup g { s.groupPower g with
      thermal := if (s.groupPower g).thermal < 1300 then
          (if s.setting 0x1001 ≤ (s.groupPower g).thermal + 25 then 1300 else (s.groupPower g).thermal + 25)
        else (s.groupPower g).thermal
      lowering := false } := by
  unfold State.ceilingFalls at hrises
  simp only [State.thermalGroup, hhot, Bool.false_eq_true, if_false, if_neg hrises]
  split <;> rfl

end

/-- A sample of a group sets that group's power, and may count a throttle event. -/
theorem State.thermalGroup_eq : ∃ p, s.thermalGroup g = s.setGroup g p ∨ s.thermalGroup g = (s.setGroup g p).throttle := by
  cases hhot : s.power.hot with
  | true => exact ⟨_, .inl (s.thermalGroup_of_hot hhot)⟩
  | false =>
    by_cases hfalls : s.ceilingFalls g
    · rw [State.thermalGroup_of_falls hhot hfalls]
      dsimp only
      split
      · exact ⟨_, .inl rfl⟩
      · exact ⟨_, .inr rfl⟩
    · exact ⟨_, .inl (State.thermalGroup_of_rises hhot hfalls)⟩

theorem State.thermalGroup_settings : (s.thermalGroup g).settings = s.settings := by
  obtain ⟨p, h | h⟩ := s.thermalGroup_eq (g := g)
  · rw [h]; rfl
  · rw [h]; exact State.throttle_settings _

theorem State.thermalGroup_groupPower_ne {h : Nat} (hne : h ≠ g) : (s.thermalGroup g).groupPower h = s.groupPower h := by
  obtain ⟨p, heq | heq⟩ := s.thermalGroup_eq (g := g)
  · rw [heq, State.groupPower_setGroup_ne hne]
  · rw [heq, State.throttle_groupPower, State.groupPower_setGroup_ne hne]

end

/-! ## What the end of a command leaves of the timer and of the power -/

/-- `t` has the timer and the power of `s`. -/
structure PowerKept (s t : State) : Prop where
  now : t.now = s.now
  power : t.power = s.power

/-- `t` has the timer and the power of `s`, but for what the power says of the groups. -/
structure GroupsOnly (s t : State) : Prop where
  now : t.now = s.now
  power : ∃ gs, t.power = { s.power with groups := gs }

section
variable {s t u : State}

theorem PowerKept.refl (s : State) : PowerKept s s := ⟨rfl, rfl⟩

theorem PowerKept.trans (h : PowerKept s t) (h' : PowerKept t u) : PowerKept s u := ⟨h'.now.trans h.now, h'.power.trans h.power⟩

/-- The same where the step before changes neither field. -/
theorem PowerKept.after (h : PowerKept t u) (hnow : t.now = s.now) (hpower : t.power = s.power) : PowerKept s u :=
  ⟨h.now.trans hnow, h.power.trans hpower⟩

theorem PowerKept.foldl {α : Type} (xs : List α) (f : State → α → State) (hf : ∀ a x, PowerKept a (f a x)) (s : State) :
    PowerKept s (xs.foldl f s) := by
  induction xs generalizing s with
  | nil => exact .refl s
  | cons x xs ih => exact (hf s x).trans (ih _)

theorem PowerKept.foldr {α : Type} (xs : List α) (f : α → State → State) (hf : ∀ x a, PowerKept a (f x a)) (s : State) :
    PowerKept s (xs.foldr f s) := by
  induction xs with
  | nil => exact .refl s
  | cons x xs ih => exact ih.trans (hf x _)

theorem PowerKept.groupsOnly (h : PowerKept s t) : GroupsOnly s t := ⟨h.now, _, h.power⟩

theorem GroupsOnly.trans (h : GroupsOnly s t) (h' : GroupsOnly t u) : GroupsOnly s u := by
  obtain ⟨hnow, _, hpower⟩ := h
  obtain ⟨hnow', gs, hpower'⟩ := h'
  exact ⟨hnow'.trans hnow, gs, by rw [hpower', hpower]⟩

theorem GroupsOnly.foldl {α : Type} (xs : List α) (f : State → α → State) (hf : ∀ a x, GroupsOnly a (f a x)) (s : State) :
    GroupsOnly s (xs.foldl f s) := by
  induction xs generalizing s with
  | nil => exact (PowerKept.refl s).groupsOnly
  | cons x xs ih => exact (hf s x).trans (ih _)

variable (s)

theorem State.count_powerKept (id n : Nat) : PowerKept s (s.count id n) := ⟨s.count_now id n, s.count_power id n⟩

theorem State.complete_powerKept (c : Cmd) (res : Res) (bs : List Byte) : PowerKept s (s.complete c res bs) :=
  ⟨s.complete_now c res bs, s.complete_power c res bs⟩

theorem State.linkTo_powerKept (i : Nat) (x : LState) : PowerKept s (s.linkTo i x) := by
  have hback (a : State) : PowerKept a (a.giveBack i) := by
    unfold State.giveBack
    exact (PowerKept.foldl _ _ (fun b f => ⟨b.route_now f, b.route_power f⟩) _).after rfl rfl
  unfold State.linkTo
  dsimp only
  split
  · exact .refl s
  · split
    · exact (hback _).after rfl rfl
    · exact ⟨rfl, rfl⟩

theorem State.untag_powerKept (h : Nat) : PowerKept s (s.untag h) := by
  unfold State.untag
  split <;> exact ⟨rfl, rfl⟩

theorem State.scramble_powerKept (h : Nat) : PowerKept s (s.scramble h) := by
  unfold State.scramble
  split
  next t _ => exact (State.untag_powerKept _ h).after rfl rfl
  next => exact .refl s

theorem State.spoilSlots_powerKept (p : OpP) : PowerKept s (s.spoilSlots p) := by
  unfold State.spoilSlots
  split
  · dsimp only
    split <;> exact ⟨rfl, rfl⟩
  · exact .refl s

theorem State.noteRead_powerKept (a n : Nat) : PowerKept s (s.noteRead a n) := by
  unfold State.noteRead
  split
  · unfold State.notePoison State.poisonSeen
    exact (State.count_powerKept _ _ _).after rfl rfl
  · exact .refl s

theorem State.copy_powerKept (src dst n : Nat) : PowerKept s (s.copy src dst n) := by
  unfold State.copy
  dsimp only
  split <;> exact ⟨rfl, rfl⟩

theorem State.copyRuns_powerKept (rs : List (Nat × Nat × Nat)) : PowerKept s (s.copyRuns rs) := by
  unfold State.copyRuns
  refine .foldl _ _ (fun a r => ?_) s
  exact (State.noteRead_powerKept a _ _).trans (State.copy_powerKept _ _ _ _)

theorem State.settleEntry_powerKept (g : Nat) (e : StackEntry) : PowerKept s (s.settleEntry g e) := by
  unfold State.settleEntry
  dsimp only
  split
  · exact .refl s
  · split
    · exact (State.copyRuns_powerKept s _).trans ⟨rfl, rfl⟩
    · exact ⟨rfl, rfl⟩

theorem State.settleSpills_powerKept (g : Nat) : PowerKept s (s.settleSpills g) := by
  unfold State.settleSpills
  exact (PowerKept.foldr _ _ (fun e a => State.settleEntry_powerKept a g e) s).trans
    (.foldl _ _ (fun a e => State.settleEntry_powerKept a g e) _)

theorem State.reenter_powerKept (g : Nat) : PowerKept s (s.reenter g) := by
  unfold State.reenter
  exact (State.count_powerKept _ _ _).after rfl rfl

theorem State.pushDrop_powerKept (x : RecRun) : PowerKept s (s.pushDrop x) := by
  unfold State.pushDrop
  split
  · exact .refl s
  · refine .foldl _ _ (fun a g => ?_) s
    refine .trans ?_ (State.settleSpills_powerKept _ g)
    exact (State.reenter_powerKept _ g).after rfl rfl

theorem State.stopRec_powerKept (abort : Bool) (x : RecRun) : PowerKept s (s.stopRec abort x) := by
  unfold State.stopRec
  split
  · exact ((PowerKept.foldl _ _ State.scramble_powerKept s).trans (State.spoilSlots_powerKept _ x.op)).trans
      (State.pushDrop_powerKept _ x)
  · exact .refl s

theorem State.cutPass_powerKept (core : Nat) (p : Pass) : PowerKept s (s.cutPass core p) := by
  constructor <;> simp [State.cutPass, State.eightTimes, State.countCore, State.freeNat]

theorem State.leaveCores_powerKept (source tag : Nat) : PowerKept s (s.leaveCores source tag) := by
  unfold State.leaveCores
  exact (PowerKept.foldl _ _ (fun a (y : Nat × Pass) => State.cutPass_powerKept a y.1 y.2) _).after rfl rfl

theorem State.endUpdate_powerKept (c : Cmd) (r : UpdRun) (cause : Nat) : PowerKept s (s.endUpdate c r cause) := by
  unfold State.endUpdate
  dsimp only
  constructor <;> split <;> simp [State.trimCrews]

theorem State.failColl_powerKept (c : Cmd) (cause detail : Nat) : PowerKept s (s.failColl c cause detail) := by
  unfold State.failColl
  split
  case h_1 r _ =>
    have hout (h : Nat) : PowerKept s (if r.started then s.scramble h else s) := by
      split
      · exact State.scramble_powerKept s h
      · exact .refl s
    cases r.output with
    | none => exact (State.complete_powerKept s c _ _).trans ⟨rfl, rfl⟩
    | some h => exact ((hout h).trans (State.complete_powerKept _ c _ _)).trans ⟨rfl, rfl⟩
  case h_2 => exact State.endUpdate_powerKept s c _ cause
  case h_3 => exact .refl s

/-- A command of operators that stops leaves the idle times of its groups anew, and nothing else of the power. -/
theorem State.killOps_groupsOnly (c : Cmd) (r : OpsRun) (cause : Nat) : GroupsOnly s (s.killOps c r cause) := by
  have hstopped : PowerKept s (r.recs.foldl (fun a x => a.stopRec false x) (s.leaveCores c.source c.tag)) :=
    (State.leaveCores_powerKept s _ _).trans (.foldl _ _ (fun a x => State.stopRec_powerKept a false x) _)
  exact (hstopped.trans (State.complete_powerKept _ c .aborted _)).groupsOnly.trans ⟨rfl, _, rfl⟩

/-- A command that ends with a cause leaves the timer and the power as they were, but for the idle times of the groups it leaves. -/
theorem State.killCmd_groupsOnly (c : Cmd) (cause : Nat) : GroupsOnly s (s.killCmd c cause) := by
  unfold State.killCmd
  split
  case h_1 r _ => exact State.killOps_groupsOnly s c r cause
  case h_2 r _ => exact (State.endUpdate_powerKept s c r cause).groupsOnly
  case h_3 r _ => exact ((State.complete_powerKept s c _ _).trans (State.count_powerKept _ _ _)).groupsOnly
  case h_4 r _ => exact (State.complete_powerKept s c _ _).groupsOnly
  case h_5 => exact (State.failColl_powerKept s c cause 0).groupsOnly
  case h_6 =>
    split
    case h_1 x _ => exact (PowerKept.mk (s.endOutput_now x _ _) (s.endOutput_power x _ _)).groupsOnly
    case h_2 => exact (State.complete_powerKept s c _ _).groupsOnly
  case h_7 => exact (State.complete_powerKept s c _ _).groupsOnly
  case h_8 => exact (State.complete_powerKept s c _ _).groupsOnly

/-! ## A thermal trip (R435) -/

theorem State.stopLinks_powerKept : PowerKept s s.stopLinks := by
  refine .foldl _ _ (fun a i => ?_) s
  split
  · exact .refl a
  · exact State.linkTo_powerKept a i _

theorem State.killHeld_powerKept (c : Cmd) : PowerKept s (s.killHeld c) := by constructor <;> simp [State.killHeld]

/-- Every command ends as a trip ends it (R435). -/
def State.killAll : State := s.cmds.foldl (fun (a : State) c => if c.acked then a.killCmd c 0x41 else a.killHeld c) s

theorem State.killAll_groupsOnly : GroupsOnly s s.killAll := by
  refine .foldl _ _ (fun a c => ?_) s
  split
  · exact State.killCmd_groupsOnly a c _
  · exact (State.killHeld_powerKept a c).groupsOnly

theorem State.thermalTrip_power : s.thermalTrip.power
    = ({ s with power := { s.power with failed := true, tripLow := true, phase := .ready } } : State).stopLinks.killAll.power := by
  simp only [State.thermalTrip, State.killAll]

/-- A trip leaves the device FAILED, with THERMTRIP_N low; a cold start that was under way has ended. -/
theorem State.thermalTrip_groups :
    ∃ gs, s.thermalTrip.power = { s.power with failed := true, tripLow := true, phase := .ready, groups := gs } := by
  obtain ⟨-, gs, h⟩ := (State.stopLinks_powerKept _).groupsOnly.trans (State.killAll_groupsOnly
    ({ s with power := { s.power with failed := true, tripLow := true, phase := .ready } } : State).stopLinks)
  exact ⟨gs, s.thermalTrip_power.trans h⟩

end

/-! ## TEMP_SAMPLE (R435, R467, R480) -/

section
variable {s : State}

theorem exec_tempSample (ts : List Int) : exec (.tempSample ts) s = execTempSample ts s := rfl

theorem State.clocked_iff :
    s.clocked = true ↔ s.power.failed = false ∧ (s.power.phase = .boot ∨ s.power.phase = .ready) := by
  simp [State.clocked]

variable (hphase : s.power.phase ≠ .off) {ts : List Int}
include hphase

theorem tempSample_of_unclocked (hclocked : s.clocked = false) : exec (.tempSample ts) s = .next (s.sense ts) := by
  have hsensed : (s.sense ts).clocked = false := hclocked
  simp only [exec_tempSample, execTempSample, if_neg hphase, hsensed]
  rfl

variable (hclocked : s.clocked = true)
include hclocked

theorem tempSample_of_trip (htrip : ∃ x ∈ (s.sense ts).lookAtInlet.hotLimit.sensors, 115 ≤ x) :
    exec (.tempSample ts) s = .next (s.sense ts).lookAtInlet.hotLimit.thermalTrip := by
  have hsensed : (s.sense ts).clocked = true := hclocked
  have hany : (s.sense ts).lookAtInlet.hotLimit.sensors.any (fun t => decide (115 ≤ t)) = true := by simpa using htrip
  simp only [exec_tempSample, execTempSample, if_neg hphase, hsensed, hany]
  rfl

theorem tempSample_of_below (hbelow : ∀ x ∈ (s.sense ts).lookAtInlet.hotLimit.sensors, x < 115) :
    let v := (List.range 16).foldl State.thermalGroup (s.sense ts).lookAtInlet.hotLimit
    exec (.tempSample ts) s
      = .next (v.count 0x0703 (if v.power.groups.any (fun g => decide (g.thermal < s.setting 0x1001)) then 100 else 0)) := by
  intro v
  have hsensed : (s.sense ts).clocked = true := hclocked
  have hany : (s.sense ts).lookAtInlet.hotLimit.sensors.any (fun t => decide (115 ≤ t)) = false := by simpa using hbelow
  have hsettings : v.settings = s.settings :=
    ((foldl_keeps State.settings _ (fun a _ => State.thermalGroup_settings a) _ _).trans
      (State.hotLimit_settings _)).trans (State.lookAtInlet_appliedOnly (s.sense ts)).settings
  have hfmax : s.setting 0x1001 = v.setting 0x1001 := by simp only [State.setting, hsettings]
  simp only [exec_tempSample, execTempSample, if_neg hphase, hsensed, hany, hfmax]
  rfl

end

/-! ## A core's frequency and voltage (R443) -/

section
variable {s : State} {core : Nat} (hcore : core < 144) (hstate : (s.groupPower (core / 9)).state = .s0) (hrun : s.power.failed = false)

theorem exec_vfLoopStep : exec (.vfLoopStep core) s = execVfLoopStep core s := rfl

/-- What a core's loop does, from the free values that say what its margins need. -/
def State.vfNext (s : State) (core : Nat) : VfMove :=
  vfMove (s.vfGoal core) Config.topMv (s.power.coreMhz.getD core 400) (s.power.coreMv.getD core Config.startMv)
    s.freeNat.2.freeNat.1 s.freeNat.2.freeNat.2.freeNat.1

/-- The state once the three free values of a step have been taken, and the stretched cycles counted. -/
def State.vfCounted (s : State) : State := s.freeNat.2.freeNat.2.freeNat.2.count 0x0704 s.freeNat.1

include hcore hstate hrun

theorem vfLoopStep_of_to {f v : Nat} (hmove : s.vfNext core = .to f v) :
    let t := s.vfCounted
    exec (.vfLoopStep core) s
      = .next { t with power := { t.power with coreMhz := t.power.coreMhz.set core f, coreMv := t.power.coreMv.set core v } } := by
  have hgo : ¬(144 ≤ core ∨ (s.groupPower (core / 9)).state ≠ .s0 ∨ s.power.failed = true) := by simp [hcore, hstate, hrun]
  unfold State.vfNext at hmove
  simp only [exec_vfLoopStep, execVfLoopStep, if_neg hgo, hmove]
  rfl

theorem vfLoopStep_of_retire (hmove : s.vfNext core = .retire) : exec (.vfLoopStep core) s = .next (s.vfCounted.coreFault core) := by
  have hgo : ¬(144 ≤ core ∨ (s.groupPower (core / 9)).state ≠ .s0 ∨ s.power.failed = true) := by simp [hcore, hstate, hrun]
  unfold State.vfNext at hmove
  simp only [exec_vfLoopStep, execVfLoopStep, if_neg hgo, hmove]
  rfl

end

/-! ## Advice (R444) -/

theorem thermalPlacement_groups (s : State) (xs : List Nat) :
    ∃ t, exec (.thermalPlacement xs) s = .next t ∧ t.power.groups.length = s.power.groups.length
      ∧ ∀ g (p : GroupPower), s.power.groups[g]? = some p → t.power.groups[g]? = some { p with advice := min 2 (xs.getD g p.advice) } := by
  refine ⟨_, rfl, by simp, fun g p hp => ?_⟩
  obtain ⟨hg, hp⟩ := List.getElem?_eq_some_iff.mp hp
  simp [hg, hp]

end Sys2Proof.Machine
end

section
/-!
PROOFS. The end of a stint (R207, R211, R214, R369): what the settling of its grants changes, and what goes on after it; and the rows of
the loops together.
-/
namespace Sys2Proof.Machine

/-! ## What settling a stint changes -/

/-- `t` is `s` but for the bytes owed, the counters and the free values taken. -/
def SettledOnly (s t : State) : Prop := ∃ o k f, t = { s with power := { s.power with owed := o }, ctrs := k, free := f }

section
variable {s t u : State}

theorem SettledOnly.refl (s : State) : SettledOnly s s := ⟨_, _, _, rfl⟩

theorem SettledOnly.trans (h : SettledOnly s t) (h' : SettledOnly t u) : SettledOnly s u := by
  obtain ⟨_, _, _, rfl⟩ := h
  exact h'

theorem SettledOnly.foldl {α : Type} (xs : List α) (f : State → α → State) (hf : ∀ a x, SettledOnly a (f a x)) (s : State) :
    SettledOnly s (xs.foldl f s) := by
  induction xs generalizing s with
  | nil => exact .refl s
  | cons x xs ih => exact (hf s x).trans (ih _)

/-- The same for a fold that carries the state with another value. -/
theorem SettledOnly.foldlSnd {α β : Type} (xs : List α) (f : β × State → α → β × State) (hf : ∀ a x, SettledOnly a.2 (f a x).2)
    (a : β × State) : SettledOnly a.2 (xs.foldl f a).2 := by
  induction xs generalizing a with
  | nil => exact .refl a.2
  | cons x xs ih => exact (hf a x).trans (ih _)

variable (s)

theorem State.countStint_settledOnly (kind cls which n : Nat) : SettledOnly s (s.countStint kind cls which n) := by
  obtain ⟨_, h⟩ := State.count_changes s (0x0400 + 16 * cls + 4 * kind + which) n
  exact ⟨_, _, _, h⟩

theorem State.settleClass_settledOnly (kind inst cls : Nat) (g : Grants) (lost : Nat) :
    SettledOnly s (s.settleClass kind inst cls g lost) := by
  unfold State.settleClass
  refine .trans (.trans (.trans (.trans ?_ (State.countStint_settledOnly _ _ _ _ _)) (State.countStint_settledOnly _ _ _ _ _))
    (State.countStint_settledOnly _ _ _ _ _)) (State.countStint_settledOnly _ _ _ _ _)
  exact ⟨_, _, _, rfl⟩

theorem State.withheld_settledOnly (want : List Nat) : SettledOnly s (s.withheld want).2 := by
  unfold State.withheld
  split
  · refine .foldlSnd _ _ (fun a x => ?_) _
    dsimp only
    split
    · exact ⟨_, _, _, rfl⟩
    · exact .refl a.2
  · exact .refl s

theorem State.settleInstance_settledOnly (kind inst : Nat) : SettledOnly s (s.settleInstance kind inst) :=
  (State.withheld_settledOnly s _).trans (.foldl _ _ (fun a c => State.settleClass_settledOnly a kind inst c _ _) _)

/-- A stint that has been settled: no class waits at its ceiling, and no package's pause is kept. -/
theorem State.settleStint_eq : ∃ o k f, s.settleStint
    = { s with power := { s.power with owed := o, atCeiling := [], retrained := [] }, ctrs := k, free := f } := by
  obtain ⟨o, k, f, h⟩ := SettledOnly.foldl s.stintInstances (fun a x => a.settleInstance x.1 x.2)
    (fun a x => State.settleInstance_settledOnly a x.1 x.2) s
  exact ⟨o, k, f, by rw [State.settleStint, h]⟩

/-! ## For how much of a stint the clusters are held (R433) -/

theorem State.redrawHold_of_free (h : s.power.holdClusters = false) : s.redrawHold = s := by simp [State.redrawHold, h]

theorem State.redrawHold_le (h : s.power.holdClusters = true) : s.redrawHold.power.holdUs ≤ s.stintActing 0x2100 := by
  simp only [State.redrawHold, h, if_true]
  exact Nat.lt_succ_iff.mp (Nat.mod_lt _ (Nat.succ_pos _))

end

/-- Settles O55, a row at a time: the samples of power and temperature, the limits and ceilings, a core's loop, the advice, the inlet, the
end of a stint, and its grants. -/
theorem loopRows : Obligations.LoopRows := by
  intro s
  refine ⟨?power, ?temperature, State.clocked_iff, ?ceilings, ?core, thermalPlacement_groups s, fun _ => rfl, ?stint, ?grants⟩
  case power =>
    intro w hphase xs sum cap t done
    have hsample := powerSample_of_powered hphase w
    refine ⟨fun hover => ?_, fun hunder => ?_, fun hlow hhigh => ?_⟩
    · rw [hsample, if_pos hover]
      rfl
    · have hcap : ¬(102 * cap * xs.length < 100 * sum) := by
        rw [Nat.mul_assoc]
        omega
      rw [hsample, if_neg hcap, if_pos hunder]
      rfl
    · rw [hsample, if_neg (Nat.not_lt.mpr hhigh), if_neg (Nat.not_lt.mpr hlow)]
      rfl
  case temperature =>
    intro ts hphase u v
    refine ⟨tempSample_of_unclocked hphase, fun hclocked htrip => ?_, tempSample_of_below hphase⟩
    obtain ⟨gs, htripped⟩ := u.thermalTrip_groups
    refine ⟨tempSample_of_trip hphase hclocked htrip, ?_, ?_, ?_, ?_⟩
    · rw [htripped]
    · rw [htripped]
    · rw [htripped]
    · simp only [State.thermalTrip]
  case ceilings =>
    refine ⟨s.hotLimit_of_hot, fun hbelow hcool => ?_, State.hotLimit_of_warm s, ?_⟩
    · rw [State.hotLimit_of_cool s hbelow hcool]
    · intro g hg hgroups p top low
      have hlen : g < s.power.groups.length := hgroups ▸ hg
      refine ⟨fun hhot => ?_, fun hhot hfalls => ?_, fun hhot hrises => ?_, fun h hne => State.thermalGroup_groupPower_ne s hne⟩
      · rw [State.thermalGroup_of_hot s hhot, State.groupPower_setGroup hlen]
      · rw [State.thermalGroup_of_falls hhot hfalls]
        dsimp only
        split
        · rw [State.groupPower_setGroup hlen]
        · rw [State.throttle_groupPower, State.groupPower_setGroup hlen]
      · rw [State.thermalGroup_of_rises hhot hrises, State.groupPower_setGroup hlen]
  case core =>
    intro core hcore hstate hrun goal f v a need next t goes
    have hto {x y : Nat} (hmove : s.vfNext core = .to x y) : goes x y := vfLoopStep_of_to hcore hstate hrun hmove
    have hnext : s.vfNext core = vfMove goal Config.topMv f v need.1 next.1 := rfl
    refine ⟨fun hover => hto ?_, fun hgoal hneed => ⟨fun hroom => hto ?_, fun hfull hfast => hto ?_, fun hfull hslow => ?_⟩,
      fun hunder hneed => ⟨fun hready => hto ?_, fun hmore hroom => hto ?_, fun hmore hfull => hto ?_⟩, fun hat hneed => hto ?_⟩
    · simp [hnext, vfMove, hover]
    · simp [hnext, vfMove, Nat.not_lt.mpr hgoal, hneed, hroom]
    · simp [hnext, vfMove, Nat.not_lt.mpr hgoal, hneed, Nat.not_le.mpr hfull, hfast]
    · exact vfLoopStep_of_retire hcore hstate hrun
        (by simp [hnext, vfMove, Nat.not_lt.mpr hgoal, hneed, Nat.not_le.mpr hfull, Nat.not_lt.mpr hslow])
    · simp [hnext, vfMove, Nat.not_lt.mpr hunder.le, Nat.not_lt.mpr hneed, hunder, hready]
    · simp [hnext, vfMove, Nat.not_lt.mpr hunder.le, Nat.not_lt.mpr hneed, hunder, Nat.not_le.mpr hmore, hroom]
    · simp [hnext, vfMove, Nat.not_lt.mpr hunder.le, Nat.not_lt.mpr hneed, hunder, Nat.not_le.mpr hmore, Nat.not_le.mpr hfull]
    · simp only [hnext, vfMove, hat, lt_irrefl, Nat.not_lt.mpr hneed, if_false]
      split <;> rfl
  case stint =>
    intro end_ t u v
    obtain ⟨o, k, f, hsettled⟩ := State.settleStint_eq ({ s with now := end_ } : State)
    have ht : t = _ := hsettled
    refine ⟨rfl, u.redrawHold_of_free, u.redrawHold_le, ?_, ?_, ?_, ?_⟩ <;> rw [ht]
  case grants =>
    intro kind cap want hlen g
    refine ⟨?_, fun c hc => ?_, State.grants_borrowed kind cap want⟩
    · rw [← List.sum_eq_foldl, ← List.sum_eq_foldl]
      exact s.grants_sum_le kind cap want
    · have hfirst : g.first.getD c 0 ≤ min (want.getD c 0) (s.floorOf kind c) := s.grants_first_le kind cap hlen hc
      have hsecond : g.second.getD c 0 ≤ min (want.getD c 0) (s.ceilingOf kind c) - g.first.getD c 0 :=
        s.grants_second_le kind cap hlen hc
      refine ⟨?_, ?_, ?_⟩ <;> omega

end Sys2Proof.Machine
end

section
/-!
PROOFS. Health: hard faults, spares, repairs and wear (R268, R454, R457 to R460).
-/
namespace Sys2Proof.Machine

section
variable (s : State)

/-! ## What a hard fault of a core leaves of the timer -/

/-- The end of the operators that run on a core does not move the timer. -/
theorem State.faultOps_now (core : Nat) : (s.faultOps core).now = s.now := by
  have hgroups : GroupsOnly s (s.faultOps core) := by
    refine GroupsOnly.foldl _ _ (fun a c => ?_) s
    split
    next r _ =>
      split
      · exact a.killOps_groupsOnly c r 0x41
      · exact (PowerKept.refl a).groupsOnly
    next => exact (PowerKept.refl a).groupsOnly
  exact hgroups.now

theorem State.degradeCheck_now (was : Bool) : (s.degradeCheck was).now = s.now := by
  unfold State.degradeCheck
  split <;> rfl

theorem State.loseCore_now (core : Nat) : (s.loseCore core).now = s.now := State.degradeCheck_now _ _

/-! ## A hard fault of a core (R457, R460) -/

/-- A core's hard fault as it is met: its operators end, its physical core `phys` is retired, and the fault is reported. -/
def State.faulted (core phys : Nat) : State :=
  ((((s.faultOps core).retireCore (core / 9) phys).forgetWear core).raiseFault core).spareEvent

theorem State.faulted_now (core phys : Nat) : (s.faulted core phys).now = s.now :=
  ((s.faultOps core).count_now 0x0740 1).trans (s.faultOps_now core)

theorem State.callSpare_at {v : State} {moment : Nat} (h : v.now = moment) (core : Nat) :
    v.callSpare core = { v with health := { v.health with
      takeover := v.health.takeover ++ [core], calledAt := assocPut v.health.calledAt (core / 9) moment } } := by
  subst h
  rfl

theorem exec_coreHardFault (core : Nat) : exec (.coreHardFault core) s = .next (s.coreFault core) := rfl

variable {s}

theorem State.coreFault_of_unmapped {core : Nat} (hmap : s.health.map.getD core none = none) : s.coreFault core = s := by
  simp only [State.coreFault, hmap]

section
variable {core phys : Nat} (hmap : s.health.map.getD core none = some phys)
include hmap

theorem State.coreFault_of_switching (hagain : core ∈ s.health.takeover) :
    s.coreFault core = ((s.faulted core 9).takeSpare (core / 9)).loseCore core := by
  have hc : s.health.takeover.contains core = true := by simpa using hagain
  simp only [State.coreFault, hmap, hc, if_true]
  rfl

variable (hfirst : core ∉ s.health.takeover)
include hfirst

/-- The fault of a core that no spare is taking over: the spare is called on where it is free and nobody, or a higher core whose
fault came at this moment, has called on it. -/
theorem State.coreFault_of_first : s.coreFault core =
    if !(s.faulted core phys).health.spareFree.getD (core / 9) false then (s.faulted core phys).loseCore core
    else ((s.faulted core phys).callerOf (core / 9)).elim ((s.faulted core phys).callSpare core) (fun d =>
      if core < d ∧ assocGet 0 (s.faulted core phys).health.calledAt (core / 9) = s.now then
        ((s.faulted core phys).loseCore d).callSpare core
      else (s.faulted core phys).loseCore core) := by
  have hc : s.health.takeover.contains core = false := by simpa using hfirst
  have hnow := s.faulted_now core phys
  rw [← hnow]
  simp only [State.coreFault, hmap, hc, Bool.false_eq_true, if_false]
  change (if !(s.faulted core phys).health.spareFree.getD (core / 9) false then _ else _) = _
  split
  · rfl
  · change (match (s.faulted core phys).callerOf (core / 9) with | none => _ | some c => _) = _
    cases (s.faulted core phys).callerOf (core / 9) <;> rfl

theorem State.coreFault_of_noSpare (hspare : (s.faulted core phys).health.spareFree.getD (core / 9) false = false) :
    s.coreFault core = (s.faulted core phys).loseCore core := by
  rw [State.coreFault_of_first hmap hfirst, hspare]
  rfl

variable (hspare : (s.faulted core phys).health.spareFree.getD (core / 9) false = true)
include hspare

theorem State.coreFault_of_uncalled (hcaller : (s.faulted core phys).callerOf (core / 9) = none) :
    s.coreFault core = (s.faulted core phys).callSpare core := by
  rw [State.coreFault_of_first hmap hfirst, hspare, hcaller]
  rfl

theorem State.coreFault_of_lower {d : Nat} (hcaller : (s.faulted core phys).callerOf (core / 9) = some d)
    (htakes : core < d ∧ assocGet 0 (s.faulted core phys).health.calledAt (core / 9) = s.now) :
    s.coreFault core = ((s.faulted core phys).loseCore d).callSpare core := by
  rw [State.coreFault_of_first hmap hfirst, hspare, hcaller]
  exact if_pos htakes

theorem State.coreFault_of_later {d : Nat} (hcaller : (s.faulted core phys).callerOf (core / 9) = some d)
    (hleaves : ¬(core < d ∧ assocGet 0 (s.faulted core phys).health.calledAt (core / 9) = s.now)) :
    s.coreFault core = (s.faulted core phys).loseCore core := by
  rw [State.coreFault_of_first hmap hfirst, hspare, hcaller]
  exact if_neg hleaves

end

/-! ## The spare that takes over (R457) -/

theorem spareTakeover_of_admitted {core : Nat} (hcalled : core ∈ s.health.takeover) (hcap : s.admits s.groupStates = true)
    (passed : Bool) : exec (.spareTakeover core passed) s = .next
      (if passed then ((s.setCore core (s.core core).loseWork).toSpare core).endRepairs core .complete
       else (((s.retireCore (core / 9) 9).takeSpare (core / 9)).spareEvent).loseCore core) := by
  have hc : s.health.takeover.contains core = true := by simpa using hcalled
  change execSpareTakeover core passed s = _
  simp only [execSpareTakeover, hc, hcap, Bool.not_true, Bool.or_self, Bool.false_eq_true, if_false]
  cases passed <;> rfl

/-! ## The switch of a REPAIR (R459, R268) -/

section
variable {core : Nat} {c : Cmd} (hfind : s.cmds.find? (fun d => d.acked && decide (d.body = .repair core)) = some c)
  (hstart : s.mayStart c = true)
include hfind hstart

theorem repairSwitch_of_core (hcore : core < 144) (ok : Bool) :
    exec (.repairSwitch core ok) s = .next (s.switchCore c core ok) := by
  change execRepairSwitch core ok s = _
  simp only [execRepairSwitch, hfind, hstart, Bool.not_true, Bool.false_eq_true, if_false, if_pos hcore]

theorem repairSwitch_of_tinker (hcore : 144 ≤ core) (ok : Bool) :
    exec (.repairSwitch core ok) s = .next (s.switchTinker c (core % 4096)) := by
  change execRepairSwitch core ok s = _
  simp only [execRepairSwitch, hfind, hstart, Bool.not_true, Bool.false_eq_true, if_false, if_neg (Nat.not_lt.mpr hcore)]

end

section
variable {core : Nat} (c : Cmd) (huncalled : core ∉ s.health.takeover)
include huncalled

theorem State.switchCore_of_noSpare (h : s.lost core = true ∨ s.spareReady core = false) (ok : Bool) :
    s.switchCore c core ok = (s.startCmd c).completeGeneric c .sparesExhausted 0 0 0 := by
  have hc : s.health.takeover.contains core = false := by simpa using huncalled
  have hnone : (s.lost core || !s.spareReady core) = true := by simpa using h
  simp only [State.switchCore, hc, hnone, Bool.false_eq_true, if_false, if_true]

theorem State.switchCore_of_ready (hkept : s.lost core = false) (hspare : s.spareReady core = true)
    (hup : s.groupUp (core / 9) = true) (hidle : (s.core core).cur = none) (hcap : s.admits s.groupStates = true) (ok : Bool) :
    s.switchCore c core ok =
      if ok then ((((s.startCmd c).retireCore (core / 9) ((s.health.map.getD core none).getD 0)).toSpare core).spareEvent.count
        0x0741 1).completeGeneric c .complete 0 0 0
      else (((((s.startCmd c).retireCore (core / 9) 9).takeSpare (core / 9)).count 0x0747 1).spareEvent).completeGeneric c
        .sparesExhausted 0 0x41 0 := by
  have hc : s.health.takeover.contains core = false := by simpa using huncalled
  have hbetween : s.betweenOps core = true := by simpa [State.betweenOps] using hidle
  simp only [State.switchCore, hc, hkept, hspare, hup, hbetween, hcap, Bool.not_true, Bool.or_self, Bool.false_eq_true, if_false]

end

theorem State.switchTinker_of_idle (c : Cmd) {t : Nat} (hserves : s.health.tinkerRetired.getD t true = false)
    (hneighbour : s.health.tinkerRetired.getD (neighbour t) true = false) (hidle : s.tinkerIdle t = true) :
    s.switchTinker c t = (((s.startCmd c).retireTinker t).count 0x0741 1).completeGeneric c .complete 0 0 0 := by
  simp only [State.switchTinker, hserves, hneighbour, hidle, Bool.not_true, Bool.false_eq_true, if_false]

/-! ## Periods (R454, R458) -/

theorem State.hoursPassed_iff {since hours : Nat} : s.hoursPassed since hours = true ↔ since + hours * 3600000000 ≤ s.now := by
  simp [State.hoursPassed]

theorem State.hoursPassed_of_lt {since hours : Nat} (h : s.now < since + hours * 3600000000) : s.hoursPassed since hours = false := by
  simpa [State.hoursPassed] using h

theorem spareSelfTest_of_undue {g : Nat}
    (h : s.now < assocGet 0 s.health.tested g + 24 * 3600000000 ∨ s.spareReady (9 * g) = false) (ok : Bool) :
    exec (.spareSelfTest g ok) s = .next s := by
  have hskip : (!s.spareReady (9 * g) || !s.hoursPassed (assocGet 0 s.health.tested g) 24) = true := by
    rcases h with h | h
    · simp [State.hoursPassed_of_lt h]
    · simp [h]
  change execSpareSelfTest g ok s = _
  simp only [execSpareSelfTest, hskip, if_true]

theorem spareSelfTest_of_due {g : Nat} (hspare : s.spareReady (9 * g) = true)
    (hdue : assocGet 0 s.health.tested g + 24 * 3600000000 ≤ s.now) (ok : Bool) :
    let t : State := { s with health := { s.health with tested := assocPut s.health.tested g s.now } }
    exec (.spareSelfTest g ok) s = .next (if ok then t else (((t.retireCore g 9).takeSpare g).count 0x0747 1).spareEvent) := by
  change execSpareSelfTest g ok s = _
  simp only [execSpareSelfTest, hspare, State.hoursPassed_iff.mpr hdue, Bool.not_true, Bool.or_self, Bool.false_eq_true, if_false]
  cases ok <;> rfl

/-! ## A unit's rating and proposal (R454) -/

section
variable {u : Nat} (w : Nat)

theorem State.rate_of_retired (h : s.unitRetired u = true) : s.rate u w = s := by simp only [State.rate, h, if_true]

variable {w} (hserves : s.unitRetired u = false)
include hserves

theorem State.rate_of_worn (hworn : 80 ≤ w) (hnew : u ∉ s.health.proposals) : s.rate u w = State.spareEvent
    { s with health := { s.health with wear := assocPut s.health.wear u (min 255 w), proposals := s.health.proposals ++ [u] } } := by
  simp [State.rate, hserves, hnew, hworn]

theorem State.rate_of_recovered (hlow : w < 75) (hlisted : u ∈ s.health.proposals) : s.rate u w =
    { s with health := { s.health with
      wear := assocPut s.health.wear u (min 255 w), proposals := s.health.proposals.filter (fun x => x ≠ u) } } := by
  simp [State.rate, hserves, hlisted, hlow]

theorem State.rate_of_between (hlow : 75 ≤ w) (hhigh : w < 80) :
    s.rate u w = { s with health := { s.health with wear := assocPut s.health.wear u (min 255 w) } } := by
  simp [State.rate, hserves, Nat.not_le.mpr hhigh, Nat.not_lt.mpr hlow]

end

end

end Sys2Proof.Machine
end

section
/-!
PROOFS. Health: scrubs, packages and Tinkers (R180 to R183, R448, R461 to R463); and the rows of health together.
-/
namespace Sys2Proof.Machine

/-! ## What is read after an update -/

theorem assocGet_assocPut_same {α : Type} (d : α) (xs : List (Nat × α)) (k : Nat) (v : α) : assocGet d (assocPut xs k v) k = v := by
  induction xs with
  | nil => simp [assocPut, assocGet]
  | cons x xs ih =>
    unfold assocPut
    split
    next h => simp [assocGet, Nat.ne_of_lt h, ih]
    next => split <;> simp [assocGet]

theorem assocGet_assocPut_ne {α : Type} (d : α) (xs : List (Nat × α)) {k j : Nat} (v : α) (hne : j ≠ k) :
    assocGet d (assocPut xs k v) j = assocGet d xs j := by
  induction xs with
  | nil => simp [assocPut, assocGet, hne.symm]
  | cons x xs ih =>
    unfold assocPut
    split
    · simp only [assocGet, ih]
    · split
      next heq => simp [assocGet, heq, hne.symm]
      next => simp [assocGet, hne.symm]

theorem State.ctr_count_same (s : State) (id n : Nat) : (s.count id n).ctr id = s.ctr id + BitVec.ofNat 64 n := by
  unfold State.count
  split
  next h => simp [h]
  next => exact assocGet_assocPut_same 0 s.ctrs id _

theorem State.ctr_count_ne (s : State) {id j : Nat} (n : Nat) (hne : j ≠ id) : (s.count id n).ctr j = s.ctr j := by
  unfold State.count
  split
  · rfl
  · exact assocGet_assocPut_ne 0 s.ctrs _ hne

theorem mem_poisonAdd {p : List Nat} {u x : Nat} : x ∈ poisonAdd p u ↔ x = u ∨ x ∈ p := by
  refine ⟨poisonAdd_mem, fun h => ?_⟩
  induction p with
  | nil => simpa [poisonAdd] using h
  | cons y ys ih =>
    unfold poisonAdd
    split
    · simpa using h
    · split
      next heq => simpa [heq] using h
      next =>
        rw [List.mem_cons, or_left_comm] at h
        exact List.mem_cons.mpr (h.imp_right ih)

/-- A unit that is poisoned is in the list. -/
theorem State.mem_poisonUnits {s : State} {us : List Nat} {x : Nat} (h : x ∈ us) : x ∈ (s.poisonUnits us).poison := by
  have hfold : ∀ (us p : List Nat), x ∈ us ∨ x ∈ p → x ∈ us.foldl poisonAdd p := by
    intro us
    induction us with
    | nil => simp
    | cons u us ih =>
      intro p h
      refine ih _ ?_
      rw [mem_poisonAdd]
      simp only [List.mem_cons] at h
      tauto
  exact hfold us s.poison (.inl h)

/-- The members of two lists, put together each once. -/
theorem mem_foldl_new {xs acc : List Nat} {x : Nat} :
    x ∈ xs.foldl (fun (a : List Nat) y => if a.contains y then a else a ++ [y]) acc ↔ x ∈ acc ∨ x ∈ xs := by
  induction xs generalizing acc with
  | nil => simp
  | cons y ys ih =>
    rw [List.foldl_cons, ih, List.mem_cons]
    split
    next hin =>
      have hy : y ∈ acc := by simpa using hin
      constructor
      · tauto
      · rintro (h | rfl | h)
        · exact .inl h
        · exact .inl hy
        · exact .inr h
    next => simp [or_assoc]

theorem mem_frequent_one {xs : List Nat} {x : Nat} (h : x ∈ xs) : x ∈ frequent 1 xs := by
  unfold frequent
  rw [List.mem_filter, mem_foldl_new]
  exact ⟨.inr h, by simpa using List.count_pos_iff.mpr h⟩

/-! ## Repairs of group SRAM (R180) -/

/-- `t` has the memory, the poison, the scrub period's start and the counters of `s`, but for the counters of the spare rows and banks. -/
structure RepairOnly (s t : State) : Prop where
  mem : t.mem = s.mem
  poison : t.poison = s.poison
  scrubbed : t.health.scrubbed = s.health.scrubbed
  ctr : ∀ id, id ≠ 0x0742 → id ≠ 0x0743 → t.ctr id = s.ctr id

section
variable {s t u : State}

theorem RepairOnly.trans (h : RepairOnly s t) (h' : RepairOnly t u) : RepairOnly s u :=
  ⟨h'.mem.trans h.mem, h'.poison.trans h.poison, h'.scrubbed.trans h.scrubbed,
    fun id hrow hbank => (h'.ctr id hrow hbank).trans (h.ctr id hrow hbank)⟩

theorem RepairOnly.foldl {α : Type} (xs : List α) (f : State → α → State) (hf : ∀ a x, RepairOnly a (f a x)) (s : State) :
    RepairOnly s (xs.foldl f s) := by
  induction xs generalizing s with
  | nil => exact ⟨rfl, rfl, rfl, fun _ _ _ => rfl⟩
  | cons x xs ih => exact (hf s x).trans (ih _)

variable (s)

theorem State.count_repairOnly {id : Nat} (n : Nat) (h : id = 0x0742 ∨ id = 0x0743) : RepairOnly s (s.count id n) :=
  ⟨s.count_mem id n, s.count_poison id n, congrArg Health.scrubbed (s.count_health id n),
    fun _ hrow hbank => s.ctr_count_ne n (by rintro rfl; exact h.elim hrow hbank)⟩

theorem State.unspared_repairOnly : RepairOnly s s.unspared := by
  unfold State.unspared State.degradeCheck
  dsimp only
  split <;> exact ⟨rfl, rfl, rfl, fun _ _ _ => rfl⟩

theorem State.spareBank_repairOnly (bank : Nat) : RepairOnly s (s.spareBank bank) := by
  unfold State.spareBank
  dsimp only
  split
  · obtain ⟨hmem, hpoison, hscrubbed, hctr⟩ := State.count_repairOnly
      ({ s with health := { s.health with sramBanks := _, sramSpares := _ } } : State) 1 (.inr rfl)
    exact ⟨hmem, hpoison, hscrubbed, hctr⟩
  · exact s.unspared_repairOnly

theorem State.spareRow_repairOnly (bank : Nat) : RepairOnly s (s.spareRow bank) := by
  unfold State.spareRow
  dsimp only
  split
  · obtain ⟨hmem, hpoison, hscrubbed, hctr⟩ := State.count_repairOnly
      ({ s with health := { s.health with sramSpares := _ } } : State) 1 (.inl rfl)
    exact ⟨hmem, hpoison, hscrubbed, hctr⟩
  · exact s.spareBank_repairOnly bank

end

/-! ## A scrub period's end (R461) and a patrol's (R462) -/

/-- The SRAM words that a scrub poisons. -/
def sramUnits (bad : List Nat) : List Nat := frequent 1 ((bad.filter (fun a => decide (a < sramEnd))).map (fun a => a / 8 * 8))

theorem mem_sramUnits {bad : List Nat} {a : Nat} (hbad : a ∈ bad) (hin : a < sramEnd) : a / 8 * 8 ∈ sramUnits bad :=
  mem_frequent_one (List.mem_map_of_mem (List.mem_filter.mpr ⟨hbad, by simpa using hin⟩))

/-- An address of LPDDR5X. -/
def lpddrAddr (a : Nat) : Bool := decide (lpddrBase ≤ a) && decide (a < lpddrEnd)

/-- The LPDDR5X blocks that a patrol poisons. -/
def lpddrUnits (bad : List Nat) : List Nat := frequent 1 ((bad.filter lpddrAddr).map (fun a => a / 64 * 64))

theorem mem_lpddrUnits {bad : List Nat} {a : Nat} (hbad : a ∈ bad) (hlow : lpddrBase ≤ a) (hhigh : a < lpddrEnd) :
    a / 64 * 64 ∈ lpddrUnits bad :=
  mem_frequent_one (List.mem_map_of_mem (List.mem_filter.mpr ⟨hbad, by simp [lpddrAddr, hlow, hhigh]⟩))

section
variable {s : State} (fixed bad : List Nat)

section
variable (banks : List Nat)

theorem exec_scrubPass : exec (.scrubPass fixed bad banks) s = execScrubPass fixed bad banks s := rfl

theorem scrubPass_of_undue (h : s.now < s.health.scrubbed + s.setting 0x3100 * 3600000000) :
    exec (.scrubPass fixed bad banks) s = .next s := by
  simp only [exec_scrubPass, execScrubPass, State.hoursPassed_of_lt h, Bool.not_false, if_true]

variable (hdue : s.health.scrubbed + s.setting 0x3100 * 3600000000 ≤ s.now)
include hdue

theorem scrubPass_of_wait (hms : s.mayMove .maint [(false, 0, sramEnd)] = false) :
    exec (.scrubPass fixed bad banks) s = .next (s.waitAt .maint [(false, 0, sramEnd)]) := by
  simp only [exec_scrubPass, execScrubPass, State.hoursPassed_iff.mpr hdue, Bool.not_true, Bool.false_eq_true, if_false,
    State.moving_of_wait hms]

/-- A scrub that runs: what it found is poisoned and counted, and the failing rows and banks are repaired. -/
theorem scrubPass_of_due (hms : s.mayMove .maint [(false, 0, sramEnd)] = true) : ∃ (p : Power) (found : Nat) (rows : List Nat),
    exec (.scrubPass fixed bad banks) s = .next (banks.foldl State.spareBank (rows.foldl (fun a r => a.spareRow (sramBankOf r))
      (((({ s with power := p, health := { s.health with scrubbed := s.now } } : State).poisonUnits (sramUnits bad)).count
        0x0300 (fixed.filter (fun a => decide (a < sramEnd))).length).count 0x0301 found))) := by
  obtain ⟨p, hcharge⟩ := s.charge_changes .maint [(false, 0, sramEnd)]
  simp only [exec_scrubPass, execScrubPass, State.hoursPassed_iff.mpr hdue, Bool.not_true, Bool.false_eq_true, if_false,
    State.moving_of_mayMove hms, hcharge]
  exact ⟨p, _, _, rfl⟩

end

theorem exec_patrolScrub : exec (.patrolScrub fixed bad) s = execPatrolScrub fixed bad s := rfl

theorem patrolScrub_of_undue (h : s.now < s.health.patrolled + s.setting 0x3101 * 3600000000) :
    exec (.patrolScrub fixed bad) s = .next s := by
  simp only [exec_patrolScrub, execPatrolScrub, State.hoursPassed_of_lt h, Bool.not_false, if_true]

variable (hdue : s.health.patrolled + s.setting 0x3101 * 3600000000 ≤ s.now)
include hdue

theorem patrolScrub_of_wait (hms : s.mayMove .maint [(false, lpddrBase, lpddrEnd - lpddrBase)] = false) :
    exec (.patrolScrub fixed bad) s = .next (s.waitAt .maint [(false, lpddrBase, lpddrEnd - lpddrBase)]) := by
  simp only [exec_patrolScrub, execPatrolScrub, State.hoursPassed_iff.mpr hdue, Bool.not_true, Bool.false_eq_true, if_false,
    State.moving_of_wait hms]

/-- A patrol that runs: what it found is poisoned and counted, and its rows are marked for repair. -/
theorem patrolScrub_of_due (hms : s.mayMove .maint [(false, lpddrBase, lpddrEnd - lpddrBase)] = true) :
    ∃ (p : Power) (found : Nat) (rows marks : List Nat),
    let u : State := ((({ s with power := p } : State).poisonUnits (lpddrUnits bad)).count
      0x0302 (fixed.filter lpddrAddr).length).count 0x0303 found
    exec (.patrolScrub fixed bad) s
        = .next { u with health := { u.health with
            patrolled := s.now
            lpddrMarks := ((lpddrUnits bad).map lpddrRowOf ++ rows).foldl
              (fun (a : List Nat) r => if a.contains r then a else a ++ [r]) marks } } := by
  obtain ⟨p, hcharge⟩ := s.charge_changes .maint [(false, lpddrBase, lpddrEnd - lpddrBase)]
  simp only [exec_patrolScrub, execPatrolScrub, State.hoursPassed_iff.mpr hdue, Bool.not_true, Bool.false_eq_true, if_false,
    State.moving_of_mayMove hms, hcharge]
  exact ⟨p, _, _, _, rfl⟩

end

/-! ## Packages and Tinkers that pause or fail (R183, R268, R448, R463) -/

section
variable {s : State} {k : Nat}

theorem lpddrRetrain_of_done (h : ∃ x ∈ s.power.retrained, x.1 = k) : exec (.lpddrRetrain k) s = .next s := by
  change execLpddrRetrain k s = _
  exact if_pos (.inr (by simpa using h))

theorem lpddrRetrain_of_fresh (hk : k < 8) (h : ∀ x ∈ s.power.retrained, x.1 ≠ k) : exec (.lpddrRetrain k) s
    = .next (({ s with free := s.free + 1, power := { s.power with
        retrained := assocPut s.power.retrained k (s.freeNat.1 % (2 * kindRate 0) + 1) } } : State).count 0x0306 1) := by
  have hnew : ¬(8 ≤ k ∨ s.power.retrained.any (fun x => x.1 = k) = true) := by
    rw [List.any_eq_true]
    rintro (hout | ⟨x, hx, hxk⟩)
    · exact absurd hk (Nat.not_lt.mpr hout)
    · exact h x hx (of_decide_eq_true hxk)
  change execLpddrRetrain k s = _
  exact if_neg hnew

/-- What reports a fault and may find the device degraded still has the fault in the Attention byte. -/
theorem State.degradeCheck_raiseFault_attn (s : State) (unit : Nat) (was : Bool) :
    ((s.raiseFault unit).degradeCheck was).attention.attn &&& attnFault ≠ 0 := by
  have hraised (x y : BitVec 8) : (x ||| attnFault ||| y) &&& attnFault ≠ 0 := by
    have hbit : ((x ||| attnFault ||| y) &&& attnFault).getLsbD 0 = true := by simp [attnFault]
    intro h
    rw [h] at hbit
    exact absurd hbit (by decide)
  unfold State.degradeCheck
  split
  · exact hraised _ _
  · have hplain := hraised s.attention.attn 0#8
    rw [BitVec.or_zero] at hplain
    exact hplain

theorem State.degradeCheck_health (s : State) (was : Bool) : (s.degradeCheck was).health = s.health := by
  unfold State.degradeCheck
  split <;> rfl

theorem lpddrControllerFault_of_failed (h : 8 ≤ k ∨ k ∈ s.health.failedPackages) : exec (.lpddrControllerFault k) s = .next s := by
  change execLpddrControllerFault k s = _
  exact if_pos (by simpa using h)

/-- A package that fails is put with the failed ones and reported, after what it ends. -/
theorem lpddrControllerFault_of_working (hk : k < 8) (h : k ∉ s.health.failedPackages) : ∃ (u : State) (was : Bool),
    k ∈ u.health.failedPackages ∧ exec (.lpddrControllerFault k) s = .next ((u.raiseFault (4 * 4096 + k)).degradeCheck was) := by
  have hnew : ¬(8 ≤ k ∨ s.health.failedPackages.contains k = true) := by simpa [hk] using h
  refine ⟨_, s.degraded, ?_, if_neg hnew⟩
  simp

theorem tinkerHardFault_of_serving (hk : k < 4) (h : s.health.tinkerRetired.getD k true = false) :
    exec (.tinkerHardFault k) s = .next ((s.raiseFault (2 * 4096 + k)).retireTinker k) := by
  have hserves : ¬(4 ≤ k ∨ s.health.tinkerRetired.getD k true = true) := by
    rw [h]
    simpa using hk
  change execTinkerHardFault k s = _
  exact if_neg hserves

end

/-- Settles O56, a row at a time: the fault of a core and the spare's takeover, the REPAIR switch, the spare's test, the ratings, the two
scrubs, and the packages and Tinkers. -/
theorem healthRows : Obligations.HealthRows := by
  intro s
  refine ⟨?fault, fun core hmap => ?_, ?takeover, ?repair, fun g ok => ⟨fun h => spareSelfTest_of_undue h ok, fun hspare hdue =>
      ⟨spareSelfTest_of_due hspare hdue true, spareSelfTest_of_due hspare hdue false⟩⟩, fun xs => ⟨fun h => if_pos h,
      fun h => if_neg (Nat.not_lt.mpr h)⟩, fun u w => ⟨State.rate_of_retired w, State.rate_of_worn, State.rate_of_recovered,
      State.rate_of_between⟩, ?scrub, ?patrol, ?retrain, ?package, fun k h => lpddrControllerFault_of_failed h,
      fun k hk h => tinkerHardFault_of_serving hk h⟩
  case fault =>
    intro core phys hmap again t
    refine ⟨fun hagain => ?_, fun hfirst => ⟨fun hspare => ?_, fun hspare => ⟨fun hcaller => ?_, fun d hcaller hlower hmoment => ?_,
      fun d hcaller hleaves => ?_⟩⟩⟩
    · exact congrArg _ (State.coreFault_of_switching hmap hagain)
    · exact congrArg _ (State.coreFault_of_noSpare hmap hfirst hspare)
    · exact congrArg _ ((State.coreFault_of_uncalled hmap hfirst hspare hcaller).trans
        (State.callSpare_at (s.faulted_now core phys) core))
    · exact congrArg _ ((State.coreFault_of_lower hmap hfirst hspare hcaller ⟨hlower, hmoment⟩).trans
        (State.callSpare_at ((State.loseCore_now _ d).trans (s.faulted_now core phys)) core))
    · refine congrArg _ (State.coreFault_of_later hmap hfirst hspare hcaller fun htakes => ?_)
      exact hleaves.elim (Nat.not_le.mpr htakes.1) (· htakes.2)
  case takeover =>
    intro core hcalled hcap
    exact ⟨spareTakeover_of_admitted hcalled hcap true, spareTakeover_of_admitted hcalled hcap false⟩
  case repair =>
    intro core c hfind hstart
    refine ⟨fun hcore huncalled => ⟨fun hnone ok => ?_, fun hkept hspare hup hidle hcap => ?_⟩,
      fun htinker hserves hneighbour hidle ok => ?_⟩
    · rw [repairSwitch_of_core hfind hstart hcore, State.switchCore_of_noSpare c huncalled hnone]
    · have hswitch (ok : Bool) := (repairSwitch_of_core hfind hstart hcore ok).trans
        (congrArg _ (State.switchCore_of_ready c huncalled hkept hspare hup hidle hcap ok))
      exact ⟨hswitch true, hswitch false⟩
    · rw [repairSwitch_of_tinker hfind hstart htinker, State.switchTinker_of_idle c hserves hneighbour hidle]
  case scrub =>
    intro fixed bad banks
    refine ⟨scrubPass_of_undue fixed bad banks, scrubPass_of_wait fixed bad banks, fun hdue hms => ?_⟩
    obtain ⟨p, found, rows, hexec⟩ := scrubPass_of_due fixed bad banks hdue hms
    obtain ⟨hmem, hpoison, hscrubbed, hctr⟩ := (RepairOnly.foldl rows (fun a r => a.spareRow (sramBankOf r))
      (fun a r => a.spareRow_repairOnly _) _).trans (RepairOnly.foldl banks State.spareBank State.spareBank_repairOnly _)
    refine ⟨_, hexec, hmem.trans ?_, hscrubbed.trans ?_, (hctr _ (by decide) (by decide)).trans ?_, fun a hbad hin => ?_⟩
    · simp
    · simp
    · rw [State.ctr_count_ne _ _ (by decide), State.ctr_count_same, List.countP_eq_length_filter]
      rfl
    · rw [hpoison, State.count_poison, State.count_poison]
      exact State.mem_poisonUnits (mem_sramUnits hbad hin)
  case patrol =>
    intro fixed bad
    refine ⟨patrolScrub_of_undue fixed bad, patrolScrub_of_wait fixed bad, fun hdue hms => ?_⟩
    obtain ⟨p, found, rows, marks, hexec⟩ := patrolScrub_of_due fixed bad hdue hms
    refine ⟨_, hexec, ?_, rfl, ?_, fun a hbad hlow hhigh => ⟨?_, ?_⟩⟩
    · simp
    · refine (State.ctr_count_ne _ _ (by decide)).trans ((State.ctr_count_same _ _ _).trans ?_)
      rw [List.countP_eq_length_filter]
      rfl
    · dsimp only
      rw [State.count_poison, State.count_poison]
      exact State.mem_poisonUnits (mem_lpddrUnits hbad hlow hhigh)
    · exact mem_foldl_new.mpr (.inr (List.mem_append_left _ (List.mem_map_of_mem (mem_lpddrUnits hbad hlow hhigh))))
  case retrain =>
    intro k hk
    refine ⟨lpddrRetrain_of_done, fun h => ⟨_, Nat.succ_pos _, ?_, lpddrRetrain_of_fresh hk h⟩⟩
    exact Nat.mod_lt s.freeNat.1 (by decide : 0 < 2 * kindRate 0)
  case package =>
    intro k hk h
    obtain ⟨u, was, hfailed, hexec⟩ := lpddrControllerFault_of_working hk h
    refine ⟨_, hexec, ?_, State.degradeCheck_raiseFault_attn u _ was⟩
    rw [State.degradeCheck_health]
    exact hfailed
  · rw [exec_coreHardFault, State.coreFault_of_unmapped hmap]

end Sys2Proof.Machine
end

section
/-!
PROOFS. The activation stacks (chapter 7): STACK_CONFIG (R222, R223, R225), and the rows that push, spill, fill and pop (R220, R226 to
R233).
-/
namespace Sys2Proof.Machine

/-! ## The handler of STACK_CONFIG -/

/-- Groups are named, and no acknowledged command pushes or pops on one of them: the checks that ACTION 0 and 1 share. -/
theorem groups_free_of_idle {s : State} {groups : List Nat} (hgroups : groups ≠ [])
    (hidle : ∀ c ∈ s.cmds, c.acked = true → c.stackOn groups = false) :
    ¬(groups = [] ∨ s.cmds.any (fun c => c.acked && c.stackOn groups) = true) := by
  simpa [hgroups] using hidle

section
variable {s : State} {q : Req} (hlen : q.params.length = 28)
include hlen

theorem stackConfig_of_query (haction : (stackParams q.params).action = 2) :
    stackConfig q s = .done .ok (s.actStacks.flatMap Stack.record) s .nothing := by
  simp [stackConfig, hlen, haction, okReply]

section
variable (hgroups : (stackParams q.params).groups ≠ [])
  (hidle : ∀ c ∈ s.cmds, c.acked = true → c.stackOn (stackParams q.params).groups = false)
include hgroups hidle

theorem stackConfig_of_clear (haction : (stackParams q.params).action = 1) :
    stackConfig q s = .done .ok [] { s with
      actStacks := (stackParams q.params).groups.foldl (fun a g => listUpd a g (fun k => { k with entries := [] })) s.actStacks }
      .nothing := by
  have hfree := groups_free_of_idle hgroups hidle
  simp only [stackConfig, if_neg hfree]
  simp [hlen, haction, okReply]

theorem stackConfig_of_configure (haction : (stackParams q.params).action = 0) (hranges : (stackParams q.params).rangesOk = true)
    (hempty : ∀ g ∈ (stackParams q.params).groups, (s.stack g).entries = [])
    (hwindow : s.setting 0x3201 * 2 ^ 20 ≤ (stackParams q.params).sramSize) (hareas : s.stackAreasOk (stackParams q.params) = true) :
    stackConfig q s = .done .ok [] { s with
      actStacks := (stackParams q.params).spills.foldl (fun a y => listUpd a y.1 ((stackParams q.params).configure y.2)) s.actStacks }
      .nothing := by
  have hfree := groups_free_of_idle hgroups hidle
  have hheld : ¬(stackParams q.params).groups.any (fun g => (s.stack g).entries ≠ []) = true := by simpa using hempty
  simp only [stackConfig, if_neg hfree, hheld, hranges, hareas, Nat.not_lt.mpr hwindow]
  simp [hlen, haction, okReply]

end
end

/-! ## The admitted state -/

section
variable {s : State} {op : Op} {p : Packet}

@[simp] theorem State.admitted_stack (g : Nat) : (s.admitted op p).stack g = s.stack g := by simp [State.stack]

@[simp] theorem State.admitted_setting (k : Nat) : (s.admitted op p).setting k = s.setting k := by simp [State.setting]

@[simp] theorem State.admitted_stackAreasOk (q : StackParams) : (s.admitted op p).stackAreasOk q = s.stackAreasOk q :=
  State.admitted_keeps (State.stackAreasOk · q) s op p fun _ _ _ => rfl

end

/-- Settles O24, an ACTION at a time: the handler's checks pass in the admitted state, whose stacks, settings and commands are those of
the state before. -/
theorem stackCommands : Obligations.StackCommands := by
  unfold Obligations.StackCommands
  intro s p last x h hlen q
  refine ⟨?query, fun hgroups hidle => ⟨?clear, ?configure⟩⟩
  case query =>
    intro haction
    have hv := stackConfig_of_query (q := (x.taken .stackConfig p).req .stackConfig p) (s := s.admitted .stackConfig p) hlen haction
    rw [State.admitted_actStacks] at hv
    exact exec_of_done rfl h hv h.admitted_awake
  case clear =>
    intro haction
    have hv := stackConfig_of_clear (q := (x.taken .stackConfig p).req .stackConfig p) (s := s.admitted .stackConfig p)
      hlen hgroups (by simpa using hidle) haction
    rw [State.admitted_actStacks] at hv
    exact exec_of_done rfl h hv h.admitted_awake
  case configure =>
    intro haction hranges hempty hwindow hareas
    have hv := stackConfig_of_configure (q := (x.taken .stackConfig p).req .stackConfig p) (s := s.admitted .stackConfig p)
      hlen hgroups (by simpa using hidle) haction hranges (by simpa using hempty) (by simpa using hwindow) (by simpa using hareas)
    rw [State.admitted_actStacks] at hv
    exact exec_of_done rfl h hv h.admitted_awake

/-! ## Room in the SRAM area (R229) -/

section
variable (s : State) (g size : Nat)

@[simp] theorem State.makeRoom_mem : (s.makeRoom g size).mem = s.mem := rfl

@[simp] theorem State.placeFor_mem : (s.placeFor g size).2.mem = s.mem := rfl

@[simp] theorem State.placeFor_actStacks : (s.placeFor g size).2.actStacks = s.actStacks := rfl

end

/-! ## Pushes (R220, R229) -/

section
variable {s : State} {n tag rec : Nat} {c : Cmd} {r : OpsRun} {x : RecRun}

theorem exec_stackPush : exec (.stackPush n tag rec) s = execStackPush n tag rec s := rfl

theorem stackPush_of_opRec (hrec : s.opRec ⟨n, tag, rec⟩ = some (c, r, x)) :
    exec (.stackPush n tag rec) s = .next ((groupsOf x.op.cores).foldl (fun a g => a.pushOn ⟨n, tag, rec⟩ x g) s) := by
  simp only [exec_stackPush, execStackPush, hrec]

section
variable {o : OpRef} {g : Nat} (hdue : s.pushDue x g = true) (hup : s.groupUp g = true)
include hdue hup

theorem State.pushOn_of_ceiling (hceil : s.belowCeiling .stack 3 g = false) : s.pushOn o x g = s.atCeiling .stack 3 g := by
  simp [State.pushOn, hdue, hup, hceil]

section
variable (hceil : s.belowCeiling .stack 3 g = true)
include hceil

theorem State.pushOn_of_full :
    let e := s.newEntry o x g
    let u := s.makeRoom g e.size
    (u.stack g).sramSize < (u.stack g).used + e.size → s.pushOn o x g = u.pushWaits o g := by
  intro e u hfull
  simp only [State.pushOn, hdue, hup, hceil]
  exact if_neg (Nat.not_le.mpr hfull)

/-- A push that finds room puts its entry on the stack and writes no byte; then the spill offsets settle (R226). -/
theorem State.pushOn_of_room :
    let e := s.newEntry o x g
    let u := s.makeRoom g e.size
    (u.stack g).used + e.size ≤ (u.stack g).sramSize → ∃ v : State, s.pushOn o x g = v.settleSpills g ∧ v.mem = s.mem
      ∧ v.actStacks = listUpd u.actStacks g (fun k =>
        { k with entries := stackInsert k.entries { e with place := (u.placeFor g e.size).1 } }) := by
  intro e u hroom
  simp only [State.pushOn, hdue, hup, hceil]
  refine ⟨_, if_pos hroom, ?_, ?_⟩
  · rw [State.count_mem, State.count_mem]
    split <;> rfl
  · rw [State.count_actStacks, State.count_actStacks]
    split <;> rfl

end
end
end

/-! ## Spills and fills (R226 to R229) -/

section
variable {s : State} {g stamp : Nat} {e : StackEntry}

theorem exec_spillStart : exec (.spillStart g) s = execSpillStart g s := rfl
theorem exec_spillComplete : exec (.spillComplete g stamp) s = execSpillComplete g stamp s := rfl
theorem exec_fillStart : exec (.fillStart g) s = execFillStart g s := rfl
theorem exec_fillComplete : exec (.fillComplete g stamp) s = execFillComplete g stamp s := rfl

variable (hup : s.groupUp g = true)
include hup

theorem spillStart_of_outside (hidle : ∀ d ∈ (s.stack g).entries, d.state ≠ .spilling)
    (hfind : (s.stack g).entries.find? (fun d =>
      decide (d.state = .resident) && !d.marker && (s.outsideStamps g).contains d.stamp) = some e) :
    exec (.spillStart g) s
      = .next (s.setEntry g e.stamp (fun d => { d with state := .spilling, spillOff := (s.stack g).below e.stamp })) := by
  have hnone : ¬(s.stack g).entries.any (fun d => d.state = .spilling) = true := by simpa using hidle
  simp only [exec_spillStart, execSpillStart, hup, hnone, hfind]
  rfl

/-- The copies out, once STACK may move them (Table 7.8). -/
theorem spillComplete_of_spilling (hentry : s.entryIn g stamp .spilling = some e) :
    let rs := runsOut e.place ((s.stack g).spillBase + e.spillOff)
    exec (.spillComplete g stamp) s = .next (s.moving .stack (runMoves rs) (fun t =>
      ((t.copyRuns rs).setEntry g stamp (fun d => { d with state := .both })).count 0x0322 e.size)) := by
  simp only [exec_spillComplete, execSpillComplete, hup, hentry]
  rfl

theorem fillStart_of_room (hfind : (s.stack g).entries.reverse.find? (fun d =>
      decide (d.state = .spilled) && !(s.outsideStamps g).contains d.stamp) = some e) :
    let t := s.makeRoom g e.size
    let pl := t.placeFor g e.size
    (t.stack g).used + e.size ≤ (t.stack g).sramSize →
    exec (.fillStart g) s = .next (pl.2.setEntry g e.stamp (fun d => { d with state := .filling, place := pl.1 })) := by
  intro t pl hroom
  simp only [exec_fillStart, execFillStart, hup, hfind]
  exact if_pos hroom

/-- The copies in, once STACK may move them (Table 7.8). -/
theorem fillComplete_of_filling (hentry : s.entryIn g stamp .filling = some e) :
    let rs := runsIn e.place ((s.stack g).spillBase + e.spillOff)
    exec (.fillComplete g stamp) s = .next (s.moving .stack (runMoves rs) (fun t =>
      ((t.copyRuns rs).setEntry g stamp (fun d => { d with state := .both })).count 0x0323 e.size)) := by
  simp only [exec_fillComplete, execFillComplete, hup, hentry]
  rfl

end

/-! ## Pops (R231 to R233) -/

section
variable {s : State} {n tag rec : Nat} {c : Cmd} {r : OpsRun} {x : RecRun} {expect : Nat} {out : Option Nat} {discard : Bool}
  {cores : List Nat}

theorem exec_stackPop : exec (.stackPop n tag rec) s = execStackPop n tag rec s := rfl

/-- A pop whose turn has come on all its cores, none of them lost or down, does as the check of its groups says. -/
theorem stackPop_of_turn (hrec : s.opRec ⟨n, tag, rec⟩ = some (c, r, x)) (hop : x.op = .pop expect out discard cores)
    (hphase : x.phase ≠ .running) (hcores : ∀ k ∈ cores, s.turnOf c r rec x k = true ∧ s.lost k = false ∧ s.coreUp k = true)
    (hturn : s.stackTurn c r rec (groupsOf cores) = true) :
    let o : OpRef := ⟨n, tag, rec⟩
    let t := (s.startOps c).stackWindows (groupsOf cores)
    exec (.stackPop n tag rec) s = .next (if (groupsOf cores).all (t.popOk (groupsOf cores) expect out discard)
      then (t.mapRec o (fun y => { y with phase := .running, started := cores })).popRun o expect out discard cores false
      else (t.count 0x0327 1).stopOps o 0x22) := by
  have hturns : cores.all (s.turnOf c r rec x) = true := List.all_eq_true.mpr fun k hk => (hcores k hk).1
  have hkept : cores.any s.lost = false := List.any_eq_false.mpr fun k hk => by simp [(hcores k hk).2.1]
  have hups : cores.all s.coreUp = true := List.all_eq_true.mpr fun k hk => (hcores k hk).2.2
  simp only [exec_stackPop, execStackPop, hrec, hop, if_neg hphase, hturns, hturn, hkept, hups]
  cases hok : (groupsOf cores).all (((s.startOps c).stackWindows (groupsOf cores)).popOk (groupsOf cores) expect out discard) <;> rfl

end

/-- Settles O43, a row at a time: the pushes of a record, group by group; the start of a spill and of a fill and their copies, which wait
while STACK is at a ceiling; and a pop, which runs or stops as the check of its groups says. -/
theorem stackRows : Obligations.StackRows := by
  unfold Obligations.StackRows
  intro s
  refine ⟨?push, ?spill, ?spilled, ?fill, ?filled, ?pop⟩
  case push =>
    intro n tag rec c r x o hrec
    refine ⟨stackPush_of_opRec hrec, fun g t hdue hup => ⟨State.pushOn_of_ceiling hdue hup, fun hceil => ?_⟩⟩
    exact ⟨State.pushOn_of_full hdue hup hceil, State.pushOn_of_room hdue hup hceil⟩
  case spill =>
    intro g e hup hidle hfind
    exact spillStart_of_outside hup hidle hfind
  case spilled =>
    intro g stamp e hup hentry rs ms
    have h := spillComplete_of_spilling hup hentry
    exact ⟨fun hms => by rw [h, State.moving_of_mayMove hms], fun hms => by rw [h, State.moving_of_wait hms]⟩
  case fill =>
    intro g e hup hfind t pl hroom
    exact fillStart_of_room hup hfind hroom
  case filled =>
    intro g stamp e hup hentry rs ms
    have h := fillComplete_of_filling hup hentry
    exact ⟨fun hms => by rw [h, State.moving_of_mayMove hms], fun hms => by rw [h, State.moving_of_wait hms]⟩
  case pop =>
    intro n tag rec c r x expect out discard cores o gs hrec hop hphase hcores hturn t
    rw [stackPop_of_turn hrec hop hphase hcores hturn]
    refine ⟨fun hok => ?_, fun ⟨g, hg, hbad⟩ => ?_⟩
    · rw [if_pos (List.all_eq_true.mpr hok)]
    · rw [if_neg fun hall => Bool.false_ne_true (hbad.symm.trans (List.all_eq_true.mp hall g hg))]

end Sys2Proof.Machine
end

section
/-!
PROOFS. The commands of the Tinkers at acceptance (chapter 8): UPDATE_PROGRAM_LOAD and its unload (R240), FREEZE_SET (R258, R259) and
PARAM_WRITE (R262).
-/
namespace Sys2Proof.Machine

/-! ## The handler of UPDATE_PROGRAM_LOAD -/

section
variable {s : State} {q : Req} (hlen : q.params.length = 24 + 8 * fld q.params 1 1) (hsteps : fld q.params 1 1 ≤ 16)
  (hpos : 1 ≤ (programOf q.params).id) (hmax : (programOf q.params).id ≤ 63)
  (hidle : s.programBusy (programOf q.params).id = false) (hok : (programOf q.params).ok = true)
include hlen hsteps hpos hmax hidle hok

/-- A program that passes its checks is put into the store, or taken out of it where it has no steps. -/
theorem updateProgramLoad_of_ok :
    updateProgramLoad q s = if fld q.params 1 1 = 0 then
        if (s.program (programOf q.params).id).isSome then
          okReply [] { s with programs := s.programs.filter (fun v => v.id ≠ (programOf q.params).id) }
        else refuse .badParam s
      else okReply [] { s with
        programs := s.programs.filter (fun v => v.id ≠ (programOf q.params).id) ++ [programOf q.params] } := by
  have hfields : ¬(q.params.length ≠ 24 + 8 * fld q.params 1 1 ∨ 16 < fld q.params 1 1 ∨ (programOf q.params).id = 0
      ∨ 63 < (programOf q.params).id ∨ s.programBusy (programOf q.params).id = true) := by
    simp only [hidle, Bool.false_eq_true, or_false]
    omega
  simp only [updateProgramLoad, if_neg hfields, hok]
  rfl

theorem updateProgramLoad_of_steps (hsome : 1 ≤ fld q.params 1 1) :
    updateProgramLoad q s = .done .ok [] { s with
      programs := s.programs.filter (fun v => v.id ≠ (programOf q.params).id) ++ [programOf q.params] } .nothing := by
  rw [updateProgramLoad_of_ok hlen hsteps hpos hmax hidle hok, if_neg (by omega)]
  rfl

theorem updateProgramLoad_of_unload (hnone : fld q.params 1 1 = 0) (hloaded : s.program (programOf q.params).id ≠ none) :
    updateProgramLoad q s = .done .ok [] { s with
      programs := s.programs.filter (fun v => v.id ≠ (programOf q.params).id) } .nothing := by
  rw [updateProgramLoad_of_ok hlen hsteps hpos hmax hidle hok, if_pos hnone, if_pos (Option.isSome_iff_ne_none.mpr hloaded)]
  rfl

end

/-! ## The handler of FREEZE_SET -/

/-- The bits that a mask of a granularity needs (R259). -/
def Tensor.maskNeed (t : Tensor) (gran : Nat) : Nat := if gran = 0 then t.positions / 32 else t.positions

/-- The mask that FREEZE_SET stages: none for a whole tensor or to lift a freeze, else the bits of the mask tensor as they now are. -/
def State.MaskRead (s : State) (t : Tensor) (gran : Nat) (mh : Option Nat) (mask : List Byte) : Prop :=
  (2 ≤ gran ∧ gran ≤ 3 ∧ mh = none ∧ mask = [])
    ∨ (gran ≤ 1 ∧ ∃ h m, mh = some h ∧ s.tensor h = some m ∧ m.layout = .raw ∧ t.maskNeed gran ≤ m.footprint * 8
        ∧ s.poisoned m.base ((t.maskNeed gran + 7) / 8) = false ∧ mask = s.read m.base ((t.maskNeed gran + 7) / 8))

theorem freezeSet_of_mask {s : State} {q : Req} {l : Ledger} {t : Tensor} {qr now : Nat} {mask : List Byte}
    (hnow : s.now = now) (hflag : inLedger q.flags = true) (hledger : s.ledger = some l) (hopen : l.committing = false)
    (howner : l.owner = q.source)
    (hlen : q.params.length = 12) (ht : s.tensor (fld q.params 0 4) = some t) (hq : quarterFor t.base t.footprint = some qr)
    (hlayout : t.layout = .blocked) (hfmt : t.fmt = some .lns24) (hidle : s.weightBusy (fld q.params 0 4) = false)
    (hmask : s.MaskRead t (fld q.params 8 1) (tref (fld q.params 4 4)) mask)
    (hbytes : ((s.masksThen (stagePut l.masks ⟨fld q.params 0 4, fld q.params 8 1, qr, mask⟩) qr).map StagedMask.bytes).foldl
      (· + ·) 0 ≤ 2 ^ 22)
    (hentries : (s.masksThen (stagePut l.masks ⟨fld q.params 0 4, fld q.params 8 1, qr, mask⟩) qr).length ≤ 1024) :
    freezeSet q s = .done .ok [] { s with ledger := some { l with
      masks := stagePut l.masks ⟨fld q.params 0 4, fld q.params 8 1, qr, mask⟩, lastAt := now } } .nothing := by
  have hgran : ¬(q.params.length ≠ 12 ∨ 3 < fld q.params 8 1) := by
    rcases hmask with ⟨_, h, _⟩ | ⟨h, _⟩ <;> omega
  have hroom := not_or.mpr ⟨Nat.not_lt.mpr hbytes, Nat.not_lt.mpr hentries⟩
  have hmine : ¬(l.committing = true ∨ l.owner ≠ q.source) := by simp [hopen, howner]
  have hweight : ¬(t.layout ≠ .blocked ∨ t.fmt ≠ some .lns24 ∨ s.weightBusy (fld q.params 0 4) = true) := by
    simp [hlayout, hfmt, hidle]
  simp only [freezeSet, hflag, hledger, ht, hq, if_neg hmine, if_neg hgran, if_neg hweight]
  rcases hmask with ⟨hlow, _, hnone, rfl⟩ | ⟨hhigh, h, m, hsome, hm, hraw, hneed, hclean, rfl⟩
  · rw [if_pos hlow, if_pos hnone, if_neg hroom]
    simp [okReply, State.touchLedger, hledger, hnow]
  · have hfit : ¬(m.layout ≠ .raw ∨ m.footprint * 8 < t.maskNeed (fld q.params 8 1)) := by simp [hraw, hneed]
    unfold Tensor.maskNeed at *
    simp only [hsome, hm, if_neg hfit, hclean]
    rw [if_neg (Nat.not_le.mpr (Nat.lt_succ_of_le hhigh)), if_neg Bool.false_ne_true, if_neg hroom]
    simp [okReply, State.touchLedger, hledger, hnow]

/-! ## The handler of PARAM_WRITE -/

theorem paramWrite_of_elements {s : State} {q : Req} {w : Tensor} {wc : Option Tensor} {qr : Nat} :
    let f := pwFields q.params
    q.params.length = 24 → 1 ≤ f.2.2.2.1 → f.2.2.2.1 ≤ 2 ^ 24 → (f.2.2.2.2 = 0x04 ∨ f.2.2.2.2 = 0x20) → s.tensor f.1 = some w →
    s.optTensor f.2.1 = some wc → w.layout = .blocked → w.fmt = some .lns24 → quarterFor w.base w.footprint = some qr →
    f.2.2.1 + f.2.2.2.1 ≤ w.positions → optAll wc (fun t => copyFmt t && sameShape t w && inSram t.base t.footprint) = true →
    s.server qr ≠ none → paramWrite q s = .accept [] .plain (some (f.2.2.2.1 * pwBytes f.2.2.2.2)) s := by
  intro f hlen hpos hmax hdata hw hwc hlayout hfmt hq hend hcopy hserver
  have hfields : ¬(q.params.length ≠ 24 ∨ f.2.2.2.1 = 0 ∨ 2 ^ 24 < f.2.2.2.1 ∨ (f.2.2.2.2 ≠ 0x04 ∧ f.2.2.2.2 ≠ 0x20)) := by omega
  have hweight : ¬(w.layout ≠ .blocked ∨ w.fmt ≠ some .lns24) := by simp [hlayout, hfmt]
  have hplace : ¬(w.positions < f.2.2.1 + f.2.2.2.1
      ∨ (!optAll wc (fun t => copyFmt t && sameShape t w && inSram t.base t.footprint)) = true) := by
    simp [hcopy, hend]
  unfold paramWrite
  dsimp only [f, pwFields] at *
  simp only [if_neg hfields, hw, hwc, hq, if_neg hweight, if_neg hplace, if_neg hserver]

/-! ## The admitted state -/

section
variable {s : State} {op : Op} {p : Packet}

@[simp] theorem State.admitted_programBusy (id : Nat) : (s.admitted op p).programBusy id = s.programBusy id := by simp [State.programBusy]

@[simp] theorem State.admitted_program (id : Nat) : (s.admitted op p).program id = s.program id := by simp [State.program]

@[simp] theorem State.admitted_weightBusy (w : Nat) : (s.admitted op p).weightBusy w = s.weightBusy w := by simp [State.weightBusy]

@[simp] theorem State.admitted_masksThen (ms : List StagedMask) (qr : Nat) :
    (s.admitted op p).masksThen ms qr = s.masksThen ms qr := by simp [State.masksThen]

@[simp] theorem State.admitted_optTensor (h : Option Nat) : (s.admitted op p).optTensor h = s.optTensor h := by
  cases h <;> simp [State.optTensor]

@[simp] theorem State.admitted_read (a n : Nat) : (s.admitted op p).read a n = s.read a n := by simp [State.read]

@[simp] theorem State.admitted_poisoned (a n : Nat) : (s.admitted op p).poisoned a n = s.poisoned a n :=
  State.admitted_keeps (State.poisoned · a n) s op p fun _ _ _ => rfl

@[simp] theorem State.admitted_server (qr : Nat) : (s.admitted op p).server qr = s.server qr :=
  State.admitted_keeps (State.server · qr) s op p fun _ _ _ => rfl

theorem State.MaskRead.admitted {t : Tensor} {gran : Nat} {mh : Option Nat} {mask : List Byte} (h : s.MaskRead t gran mh mask) :
    (s.admitted op p).MaskRead t gran mh mask := by
  simpa [State.MaskRead] using h

end

/-- Settles O25, a command at a time: the handlers' checks pass in the admitted state, whose programs, tensors, Ledger, masks and Tinkers
are those of the state before. -/
theorem updateCommands : Obligations.UpdateCommands := by
  unfold Obligations.UpdateCommands
  intro s p last x
  refine ⟨fun h hlen hsteps hpos hmax hidle hok => ⟨?load, ?unload⟩, ?freeze, ?write⟩
  case load =>
    intro hsome
    have hv := updateProgramLoad_of_steps (q := (x.taken .updateProgramLoad p).req .updateProgramLoad p)
      (s := s.admitted .updateProgramLoad p) hlen hsteps hpos hmax (by simpa using hidle) hok hsome
    rw [State.admitted_programs] at hv
    exact exec_of_done rfl h hv h.admitted_awake
  case unload =>
    intro hnone hloaded
    have hv := updateProgramLoad_of_unload (q := (x.taken .updateProgramLoad p).req .updateProgramLoad p)
      (s := s.admitted .updateProgramLoad p) hlen hsteps hpos hmax (by simpa using hidle) hok hnone (by simpa using hloaded)
    rw [State.admitted_programs] at hv
    exact exec_of_done rfl h hv h.admitted_awake
  case freeze =>
    intro l t qr mask w gran need masks h hflag hledger hopen howner hlen ht hq hlayout hfmt hidle hmask hbytes hentries
    have hv := freezeSet_of_mask (q := (x.taken .freezeSet p).req .freezeSet p) (s := s.admitted .freezeSet p)
      State.admitted_now hflag (by simpa using hledger) hopen howner hlen (by simpa using ht) hq hlayout hfmt (by simpa using hidle)
      (State.MaskRead.admitted hmask) (by simpa using hbytes) (by simpa using hentries)
    exact exec_of_done rfl h hv h.admitted_awake
  case write =>
    intro w wc qr f h hlen hpos hmax hdata hw hwc hlayout hfmt hq hend hcopy hserver
    exact exec_of_accepted rfl h (paramWrite_of_elements hlen hpos hmax hdata (by simpa using hw) (by simpa using hwc) hlayout hfmt hq hend
      hcopy (by simpa using hserver)) h.admitted_awake

end Sys2Proof.Machine
end

section
/-!
PROOFS. The acceptance of UPDATE_RUN (R246 to R248) and of COLLECTIVE_RUN (R293), which first move the local step (R306, R307).
-/
namespace Sys2Proof.Machine

/-! ## What a move of the local step, and the flits it lets through, leave as they were -/

/-- `t` has the settings of `s` and sleeps as `s` does. -/
structure FlitKept (s t : State) : Prop where
  settings : t.settings = s.settings
  sleep : t.power.sleep = s.power.sleep

section
variable {s t u : State}

theorem FlitKept.refl (s : State) : FlitKept s s := ⟨rfl, rfl⟩

theorem FlitKept.trans (h : FlitKept s t) (h' : FlitKept t u) : FlitKept s u :=
  ⟨h'.settings.trans h.settings, h'.sleep.trans h.sleep⟩

/-- The same where the step before changes neither. -/
theorem FlitKept.after (h : FlitKept t u) (hsettings : t.settings = s.settings) (hpower : t.power = s.power) : FlitKept s u :=
  ⟨h.settings.trans hsettings, h.sleep.trans (congrArg Power.sleep hpower)⟩

theorem FlitKept.foldl {α : Type} (xs : List α) (f : State → α → State) (hf : ∀ a x, FlitKept a (f a x)) (s : State) :
    FlitKept s (xs.foldl f s) := by
  induction xs generalizing s with
  | nil => exact .refl s
  | cons x xs ih => exact (hf s x).trans (ih _)

/-- The same for a fold that carries a state with something else. -/
theorem FlitKept.foldlFst {α β : Type} (xs : List α) (f : State × β → α → State × β) (hf : ∀ a x, FlitKept a.1 (f a x).1)
    (a : State × β) : FlitKept a.1 (xs.foldl f a).1 := by
  induction xs generalizing a with
  | nil => exact .refl a.1
  | cons x xs ih => exact (hf a x).trans (ih _)

theorem FlitKept.iteFst {β : Type} {c : Prop} [Decidable c] {x y : State × β} (hx : FlitKept s x.1) (hy : FlitKept s y.1) :
    FlitKept s (if c then x else y).1 := by
  split
  · exact hx
  · exact hy

end

section
variable (s : State) (r : CollRun) (link : Option Nat) (f : Flit)

theorem State.count_flitKept (id n : Nat) : FlitKept s (s.count id n) :=
  ⟨State.count_settings s id n, congrArg Power.sleep (State.count_power s id n)⟩

theorem State.sendFlit_flitKept (dest tc crew cid : Nat) (bs : List Byte) (ps : List Nat) :
    FlitKept s (s.sendFlit dest tc crew cid bs ps) :=
  ⟨State.sendFlit_settings s dest tc crew cid bs ps, congrArg Power.sleep (State.sendFlit_power s dest tc crew cid bs ps)⟩

theorem State.requestOn_flitKept (cls : Activity) (kind inst n : Nat) : FlitKept s (s.requestOn cls kind inst n) := by
  unfold State.requestOn
  split <;> exact ⟨rfl, rfl⟩

theorem State.charge_flitKept (cls : Activity) (ms : Moves) : FlitKept s (s.charge cls ms) :=
  .foldl _ _ (fun a (x : Nat × Nat × Nat) => State.requestOn_flitKept a cls x.1 x.2.1 x.2.2) s

theorem State.putElem_flitKept (t : Tensor) (p i j code : Nat) : FlitKept s (s.putElem t p i j code) := by
  refine .foldl _ _ (fun a b => ?_) s
  unfold State.putBlock
  dsimp only
  split <;> exact ⟨rfl, rfl⟩

theorem State.collSend_flitKept (dest step : Nat) (xs : List (Nat × List Byte)) : FlitKept s (s.collSend r dest step xs) :=
  .foldl _ _ (fun a _ => State.sendFlit_flitKept a _ _ _ _ _ _) s

theorem State.putUnit_flitKept (h x : Nat) (bs : List Byte) : FlitKept s (s.putUnit h x bs) := by
  unfold State.putUnit
  split
  · exact (State.charge_flitKept s _ _).trans ⟨rfl, rfl⟩
  · exact .refl s

theorem State.putWire_flitKept (h x : Nat) (bs : List Byte) : FlitKept s (s.putWire r h x bs) := by
  unfold State.putWire
  split
  · exact State.putUnit_flitKept s h x _
  · exact .refl s

theorem State.closeSegment_flitKept (h : Nat) (acc : List (Nat × Tal)) : FlitKept s (s.closeSegment h acc).1 := by
  unfold State.closeSegment
  split
  · exact .refl s
  · dsimp only
    split
    · exact .foldlFst _ _ (fun a row => State.putUnit_flitKept a.1 h (32 * row) _) (s, _)
    · exact .foldlFst _ _ (fun a x => (State.charge_flitKept a.1 _ _).trans (State.putElem_flitKept _ _ _ _ _ _)) (s, _)

theorem State.keepResult_flitKept (x : Nat) (c : Combined) : FlitKept s (s.keepResult r x c).1 := by
  unfold State.keepResult
  split
  · exact .refl s
  · exact .refl s
  · split
    · exact .refl s
    · exact State.putUnit_flitKept s _ x _
  · exact State.putUnit_flitKept s _ x _

theorem State.keepGathered_flitKept (packed : Bool) (x : Nat) (bs : List Byte) : FlitKept s (s.keepGathered r packed x bs).1 := by
  unfold State.keepGathered
  split
  · exact .refl s
  · dsimp only
    split
    · exact State.putUnit_flitKept s _ x _
    · exact State.putWire_flitKept s r _ x bs

theorem State.reduceDone_flitKept : FlitKept s (s.reduceDone r).1 := by
  have hclosed : FlitKept s (match r.output with
      | some h => if r.close = 1 then s.closeSegment h r.acc else (s, 0)
      | none => (s, 0)).1 := by
    split
    · split
      · exact State.closeSegment_flitKept s _ r.acc
      · exact .refl s
    · exact .refl s
  unfold State.reduceDone
  dsimp only
  split
  · exact hclosed.trans (State.collSend_flitKept _ _ _ _ _)
  · exact hclosed

theorem State.collTake_flitKept : FlitKept s (s.collTake r f).1 := by
  have hcount (id n : Nat) : FlitKept s (s.count id n) := State.count_flitKept s id n
  have hresults (cs : List (Nat × Combined × FlagWord)) (a : State × CollRun) :
      FlitKept a.1 (cs.foldl (fun b c => b.1.keepResult b.2 c.1 c.2.1) a).1 :=
    .foldlFst _ _ (fun b (c : Nat × Combined × FlagWord) => State.keepResult_flitKept b.1 b.2 c.1 c.2.1) a
  have hgathered (packed : Bool) (us : List (Nat × List Byte)) (a : State × CollRun) :
      FlitKept a.1 (us.foldl (fun b u => b.1.keepGathered b.2 packed u.1 u.2) a).1 :=
    .foldlFst _ _ (fun b (u : Nat × List Byte) => State.keepGathered_flitKept b.1 b.2 packed u.1 u.2) a
  unfold State.collTake
  dsimp only
  split
  · exact hcount 0x050B 1
  · refine .iteFst ?again (.iteFst (.iteFst ?sent (.iteFst ?ended ?kept)) (.iteFst ?passed (hgathered _ _ (s, _))))
    case again => exact hcount 0x050B 1
    case sent => exact (hcount _ _).trans (State.collSend_flitKept _ _ _ _ _)
    case kept => exact (hcount _ _).trans (hresults _ (_, _))
    case ended => exact ((hcount _ _).trans (hresults _ (_, _))).trans (State.reduceDone_flitKept _ _)
    case passed => exact (hgathered _ _ (s, _)).trans (State.collSend_flitKept _ _ _ _ _)

theorem State.scramble_flitKept (h : Nat) : FlitKept s (s.scramble h) := by
  refine ⟨?_, congrArg Power.sleep (State.scramble_powerKept s h).power⟩
  unfold State.scramble
  split
  · dsimp only
    unfold State.untag
    split <;> rfl
  · rfl

theorem State.endUpdate_flitKept (c : Cmd) (u : UpdRun) (cause : Nat) : FlitKept s (s.endUpdate c u cause) := by
  refine ⟨?_, congrArg Power.sleep (State.endUpdate_powerKept s c u cause).power⟩
  unfold State.endUpdate
  dsimp only
  split <;> simp [State.trimCrews]

theorem State.completeGeneric_flitKept (c : Cmd) (res : Res) (fl : FlagWord) (cause detail : Nat) :
    FlitKept s (s.completeGeneric c res fl cause detail) :=
  ⟨State.completeGeneric_settings s c res fl cause detail, congrArg Power.sleep (State.completeGeneric_power s c res fl cause detail)⟩

theorem State.failColl_flitKept (c : Cmd) (cause detail : Nat) : FlitKept s (s.failColl c cause detail) := by
  unfold State.failColl
  split
  case h_1 q _ =>
    have hout : FlitKept s (match q.output with | some h => if q.started then s.scramble h else s | none => s) := by
      split
      · split
        · exact State.scramble_flitKept s _
        · exact .refl s
      · exact .refl s
    exact (hout.trans (State.completeGeneric_flitKept _ c _ _ _ _)).trans ⟨rfl, rfl⟩
  case h_2 => exact State.endUpdate_flitKept s c _ cause
  case h_3 => exact .refl s

theorem State.freeBuffer_flitKept : FlitKept s (s.freeBuffer link f) := by
  unfold State.freeBuffer
  split <;> exact ⟨rfl, rfl⟩

theorem State.holdFlit_flitKept (cancel : Bool) : FlitKept s (s.holdFlit link cancel f) := by
  unfold State.holdFlit
  split <;> exact ⟨rfl, rfl⟩

theorem State.stale_flitKept : FlitKept s (s.stale f) := by
  unfold State.stale
  dsimp only
  split
  · exact State.count_flitKept s _ _
  · exact (State.count_flitKept s _ _).trans ((State.sendFlit_flitKept _ _ _ _ _ _ _).after rfl rfl)

theorem State.crewOther_flitKept (cancel : Bool) : FlitKept s (s.crewOther link cancel f) := by
  unfold State.crewOther
  split
  · exact (State.count_flitKept s _ _).trans (State.freeBuffer_flitKept _ link f)
  · split
    · exact (State.stale_flitKept s f).trans (State.freeBuffer_flitKept _ link f)
    · exact State.holdFlit_flitKept s link f cancel

theorem State.crewTake_flitKept (cancel : Bool) : FlitKept s (s.crewTake link cancel f) := by
  unfold State.crewTake
  split
  · exact State.crewOther_flitKept s link f cancel
  next c _ =>
    split
    · exact State.freeBuffer_flitKept s link f
    next r _ =>
      split
      · split
        · exact (State.failColl_flitKept s c _ _).trans (State.freeBuffer_flitKept _ link f)
        · exact State.holdFlit_flitKept s link f cancel
      · split
        · exact (State.collTake_flitKept s r f).trans ((State.freeBuffer_flitKept _ link f).after rfl rfl)
        · exact State.holdFlit_flitKept s link f cancel

theorem State.crewFlit_flitKept (cancel : Bool) : FlitKept s (s.crewFlit link cancel f) := by
  unfold State.crewFlit
  split
  · exact ⟨rfl, rfl⟩
  · exact State.crewTake_flitKept s link f cancel

theorem State.unstick_flitKept : FlitKept s s.unstick := by
  unfold State.unstick
  exact (FlitKept.foldl _ _ (fun a (x : Option Nat × Bool × Flit) => State.crewFlit_flitKept a x.1 x.2.2 x.2.1) _).after rfl rfl

theorem State.dropStale_flitKept : FlitKept s s.dropStale := by
  unfold State.dropStale
  dsimp only
  refine ((FlitKept.foldl _ _ (fun a x => ?_) _).trans (State.unstick_flitKept _)).after rfl rfl
  exact (State.stale_flitKept a x.2.2).trans (State.freeBuffer_flitKept _ x.1 x.2.2)

theorem State.moveStep_flitKept (step : Nat) : FlitKept s (s.moveStep step) := by
  unfold State.moveStep
  dsimp only
  split
  · split
    · unfold State.newCrew
      exact (State.dropStale_flitKept _).after rfl rfl
    · exact ⟨rfl, rfl⟩
  · exact ⟨rfl, rfl⟩

end

theorem Session.moveStep_awake {s : State} {op : Op} {p last : Packet} {x : Source} (h : Session s op p last x) (step : Nat) :
    ((s.admitted op p).moveStep step).power.sleep = .awake :=
  (State.moveStep_flitKept _ step).sleep.trans h.admitted_awake

theorem State.admitted_moveStep_devAddr (s : State) (op : Op) (p : Packet) (step : Nat) :
    ((s.admitted op p).moveStep step).devAddr = s.devAddr := by
  unfold State.devAddr State.setting
  rw [(State.moveStep_flitKept _ step).settings, State.admitted_settings]

/-! ## The handlers -/

/-- The update entries of a parameter block that pass their checks (Table 8.9). -/
def State.entriesOf (s : State) (ps : List Byte) : List UEntry :=
  ((List.range (fld ps 0 2)).map (fun i => s.updateEntry (fld ps 2 2) ((ps.drop (88 + 40 * i)).take 40))).filterMap id

/-- The run that an UPDATE_RUN with no crew and no norm record describes (Table 8.8). -/
def plainRun (ps : List Byte) (entries : List UEntry) : UpdRun :=
  { nlayers := fld ps 2 2, mode := fld ps 4 1, coll := false, skip := fld ps 6 1 % 4, crew := 0, normOut := none,
    skipNorm := fld ps 16 3, clip := fld ps 19 3, ks := (List.range 16).map (fun i => fld ps (24 + 4 * i) 4), entries := entries,
    pass1 := (List.range 4).map (fun x => if entries.any (fun e => e.quarter = x) then .waiting else .ended),
    tallies := List.replicate (fld ps 2 2 + 1) .fresh, nans := 0, infs := 0, frozenHits := 0, kept := List.replicate 4 false,
    norm := none, normed := false, gnorm := 0, trust := 0, lnorms := [], skipped := false, done := [0, 0, 0, 0],
    busy := [false, false, false, false], flags := 0, lrecs := [], singular := 0, damped := 0, failed := 0, stop := none }

/-- An UPDATE_RUN with no crew and no norm record, whose entries all pass, is accepted in the state of the step it names. -/
theorem updateRun_of_entries {s : State} {q : Req} :
    let ps := q.params
    let n := fld ps 0 2
    let a := s.moveStep (fld ps 40 4)
    let entries := a.entriesOf ps
    ps.length = 88 + 40 * n → 1 ≤ n → n ≤ 4096 → 1 ≤ fld ps 2 2 → fld ps 2 2 ≤ 4096 → fld ps 4 1 ≤ 1 → fld ps 5 1 = 0 →
    fld ps 8 4 = 0 → tref (fld ps 12 4) = none → entries.length = n →
    anyOverlap (a.ranges (entries.flatMap UEntry.written)) = false → (∀ e ∈ entries, a.server e.quarter ≠ none) →
    a.sharedWorkspace entries = true → updateRun q s = .accept [] (.update (plainRun ps entries)) none a := by
  intro ps n a entries hlen hpos hmax hlayers hlmax hmode hcoll hcrew hnorm hall hclear hserved hspace
  have hfields : ¬(ps.length ≠ 88 + 40 * n ∨ n = 0 ∨ 4096 < n ∨ fld ps 2 2 = 0 ∨ 4096 < fld ps 2 2 ∨ 1 < fld ps 4 1
      ∨ 1 < fld ps 5 1) := by omega
  have hentries : ¬((!true) = true ∨ entries.length ≠ n ∨ anyOverlap (a.ranges (entries.flatMap UEntry.written)) = true) := by
    simp [hall, hclear]
  have hserve : ¬(entries.any (fun e => decide (a.server e.quarter = none)) || a.inDeadQuarter none) = true := by
    simpa [State.inDeadQuarter] using hserved
  have hroom : ¬(!a.sharedWorkspace entries) = true := by simpa using hspace
  unfold updateRun
  dsimp only
  rw [if_neg hfields]
  simp only [show fld q.params 5 1 = 0 from hcoll, show fld q.params 8 4 = 0 from hcrew,
    show tref (fld q.params 12 4) = none from hnorm]
  refine (if_neg hentries).trans ((if_neg hserve).trans ((if_neg hroom).trans ?_))
  rfl

/-- The run that a COLLECTIVE_RUN of the current crew describes, for the member at a rank (Table 9.10). -/
def State.runOf (a : State) (ps : List Byte) (rank : Nat) : CollRun :=
  { kind := fld ps 0 1, combine := fld ps 1 1, close := fld ps 2 1, tag := fld ps 3 1, crew := a.crewVersion, cid := fld ps 8 4,
    peer := fld ps 20 4, tc := if fld ps 0 1 ≤ 1 ∧ fld ps 1 1 = 0 then 3 else if fld ps 0 1 ≤ 3 then 4 else 5,
    input := tref (fld ps 24 4), output := tref (fld ps 28 4), vec := [], members := a.net9.crew.members, rank := rank,
    started := false, got := [], counts := [], acc := [], flags := 0, lastRx := a.now }

/-- A COLLECTIVE_RUN of this crew whose fields, tensors and CID pass is accepted in the state of the step it names. -/
theorem collectiveRun_of_member {s : State} {q : Req} {me rank : Nat} :
    let ps := q.params
    let a := s.moveStep (fld ps 12 8)
    let ms := a.net9.crew.members
    let inH := tref (fld ps 24 4)
    let outH := tref (fld ps 28 4)
    fld ps 4 4 = a.crewVersion → collFieldsOk ps ms.length = true → (inH = none ∨ inH.bind a.tensor ≠ none) →
    (outH = none ∨ outH.bind a.tensor ≠ none) →
    collFormats (fld ps 0 1) (fld ps 1 1) (fld ps 2 1) (inH.bind a.tensor) (outH.bind a.tensor) = true →
    (inH = none ∨ inH ≠ outH ∨ fld ps 0 1 = 1) → a.devAddr = some me → ms.findIdx? (fun m => m = me) = some rank →
    a.watchFull (a.runOf ps rank).neighbours = false → (a.collFor (a.crewVersion % 2 ^ 16) (fld ps 8 4)).isSome = false →
    collectiveRun q s = .accept [] (.coll (a.runOf ps rank)) none a := by
  intro ps a ms inH outH hcrew hfields hin hout hfmt hsame hme hrank hwatch hcid
  have htensors : ¬((inH.isSome ∧ inH.bind a.tensor = none) ∨ (outH.isSome ∧ outH.bind a.tensor = none)) := by
    rintro (⟨hsome, hnone⟩ | ⟨hsome, hnone⟩)
    · exact hin.elim (Option.isSome_iff_ne_none.mp hsome) (· hnone)
    · exact hout.elim (Option.isSome_iff_ne_none.mp hsome) (· hnone)
  have hapart : ¬(inH.isSome ∧ inH = outH ∧ fld ps 0 1 ≠ 1) := by
    rintro ⟨hsome, heq, hkind⟩
    exact hsame.elim (Option.isSome_iff_ne_none.mp hsome) (Or.elim · (· heq) hkind)
  have hfree : ¬((a.collFor (a.crewVersion % 2 ^ 16) (fld ps 8 4)).isSome = true ∨ a.watchFull (a.runOf ps rank).neighbours = true) := by
    rw [hcid, hwatch]
    decide
  unfold collectiveRun
  dsimp only
  rw [if_neg (not_not.mpr hcrew), if_neg (by simpa using hfields), if_neg htensors, if_neg (by simpa using hfmt), if_neg hapart]
  simp only [show (s.moveStep (fld q.params 12 8)).devAddr = some me from hme,
    show (s.moveStep (fld q.params 12 8)).net9.crew.members.findIdx? (fun m => m = me) = some rank from hrank]
  exact if_neg hfree

/-- Settles O26: both handlers make their checks in the state of the step that the command names, and accept in it. -/
theorem runsAccepted : Obligations.RunsAccepted := by
  unfold Obligations.RunsAccepted
  intro s p last x
  refine ⟨?update, ?collective⟩
  case update =>
    intro n nl a entries h hlen hpos hmax hlayers hlmax hmode hcoll hcrew hnorm hall hclear hserved hspace
    have hv := updateRun_of_entries (q := (x.taken .updateRun p).req .updateRun p) (s := s.admitted .updateRun p) hlen hpos hmax hlayers
      hlmax hmode hcoll hcrew hnorm hall hclear hserved hspace
    exact ⟨_, exec_of_accepted rfl h hv (h.moveStep_awake _), rfl, rfl, rfl, rfl, rfl, rfl, rfl, rfl, rfl⟩
  case collective =>
    intro me rank ps a ms inH outH h hcrew hfields hin hout hfmt hsame hme hrank hwatch hcid
    have hv := collectiveRun_of_member (q := (x.taken .collectiveRun p).req .collectiveRun p) (s := s.admitted .collectiveRun p) hcrew
      hfields hin hout hfmt hsame ((State.admitted_moveStep_devAddr s _ p _).trans hme) hrank (hwatch _ rfl rfl) hcid
    exact ⟨_, exec_of_accepted rfl h hv (h.moveStep_awake _), rfl, rfl, rfl, rfl, rfl, rfl, rfl, rfl, rfl, rfl, rfl⟩

end Sys2Proof.Machine
end

section
/-!
PROOFS. Pass 1 of an UPDATE_RUN, its norms and its commit (R247 to R251, R264).
-/
namespace Sys2Proof.Machine

section
variable {s : State} {n tag tk : Nat} {c : Cmd} {r : UpdRun}

theorem exec_updatePass1Start : exec (.updatePass1Start n tag tk) s = execUpdatePass1Start n tag tk s := rfl
theorem exec_updatePass1End : exec (.updatePass1End n tag tk) s = execUpdatePass1End n tag tk s := rfl
theorem exec_updateNorms : exec (.updateNorms n tag) s = execUpdateNorms n tag s := rfl
theorem exec_updateRunCommit : exec (.updateRunCommit n tag) s = execUpdateRunCommit n tag s := rfl

/-! ## Pass 1 (R247) -/

/-- The quarters that a Tinker serves and that pass 1 of a run has at a stage. -/
def State.quartersAt (s : State) (r : UpdRun) (tk : Nat) (x : UStage) : List Nat :=
  (s.serves tk).filter (fun q => decide (r.pass1.getD q .ended = x))

/-- The gradients of the entries of quarters. -/
def State.gradients (s : State) (r : UpdRun) (qs : List Nat) : List Tensor :=
  (qs.flatMap r.inQuarter).filterMap (fun e => s.tensor e.2.g)

/-- What a Tinker reads of gradients. -/
def gradientReads (gs : List Tensor) : Moves := gs.map (fun g => (false, g.base, g.elemTotal))

/-- A run once a Tinker has read the gradients of quarters: tallies and counts, the quarters' stage, and what the Tinker retains. -/
def State.pass1Run (s : State) (r : UpdRun) (tk : Nat) (qs : List Nat) : UpdRun :=
  let r1 := (qs.flatMap r.inQuarter).foldl (fun a e => s.pass1Entry a e.2) r
  { r1 with pass1 := qs.foldl (fun l q => l.set q .ended) r1.pass1,
            kept := qs.foldl (fun l q => l.set q (s.retains r tk)) r1.kept }

/-- The counters of pass 1: the frozen elements it met, and the bytes it read (Table 8.20). -/
def State.pass1Counts (s : State) (r r2 : UpdRun) (gs : List Tensor) : State :=
  (s.count 0x0342 (r2.frozenHits - r.frozenHits)).count 0x0346 ((gs.map Tensor.elemTotal).foldl (· + ·) 0)

section
variable {qs : List Nat} {gs : List Tensor}

theorem State.pass1Done_of_rest (h : ∃ x ∈ (s.pass1Run r tk qs).pass1, x ≠ .ended) :
    s.pass1Done c r tk qs gs
      = (s.pass1Counts r (s.pass1Run r tk qs) gs).setCmd { c with body := .update (s.pass1Run r tk qs) } := by
  have hrest : ¬(s.pass1Run r tk qs).pass1.all (fun x => decide (x = .ended)) = true := by simpa using h
  exact if_neg hrest

theorem State.pass1Done_of_ended (h : ∀ x ∈ (s.pass1Run r tk qs).pass1, x = .ended) :
    s.pass1Done c r tk qs gs = (s.pass1Counts r (s.pass1Run r tk qs) gs).startNorm c (s.pass1Run r tk qs) := by
  have hall : (s.pass1Run r tk qs).pass1.all (fun x => decide (x = .ended)) = true := by simpa using h
  exact if_pos hall

end

/-! ## What the norms write (R249, R299) -/

/-- The norm record written where a run names a tensor for it (Table 8.10). -/
def State.recordNorms (s : State) (r : UpdRun) : State :=
  match r.normOut with
  | some h => match s.tensor h with
    | some t => s.write t.base r.withNorms.normRecord
    | none => s
  | none => s

/-- The norm all-reduce of a run committed, where it has one (R299). -/
def State.commitNorm (s : State) (z : Option CollRun) : State :=
  match z with
  | some z => { s with net9 := { s.net9 with committed := s.net9.committed ++ [(z.crew % 2 ^ 16, z.cid)] } }
  | none => s

theorem State.recordNorms_of_none (h : r.normOut = none) : s.recordNorms r = s := by simp only [State.recordNorms, h]

theorem State.recordNorms_of_tensor {h : Nat} {t : Tensor} (hout : r.normOut = some h) (ht : s.tensor h = some t) :
    s.recordNorms r = s.write t.base r.withNorms.normRecord := by simp only [State.recordNorms, hout, ht]

/-! ## The rows of pass 1 (R247) -/

section
variable (hcmd : s.cmd n tag = some c) (hbody : c.body = .update r)
include hcmd hbody

theorem updatePass1Start_of_waiting (hqs : s.quartersAt r tk .waiting ≠ []) (hmay : s.mayStart c = true)
    (haddr : c.running = true ∨ s.heldAddress = false) (hheld : ∀ q ∈ s.quartersAt r tk .waiting, s.heldQuarter q = false)
    (hserved : ∀ e ∈ r.entries, s.server e.quarter ≠ none) :
    exec (.updatePass1Start n tag tk) s = .next (s.setCmd { c with
      body := .update { r with pass1 := (s.quartersAt r tk .waiting).foldl (fun l q => l.set q .running) r.pass1 }, running := true
      startedAt := if c.running then c.startedAt else s.now }) := by
  have hdead : r.entries.any (fun e => decide (s.server e.quarter = none)) = false := by simpa using hserved
  have hgo : ¬((s.quartersAt r tk .waiting).isEmpty = true ∨ (!s.mayStart c) = true ∨ (!c.running && s.heldAddress) = true
      ∨ (s.quartersAt r tk .waiting).any s.heldQuarter = true) := by
    rcases haddr with haddr | haddr <;> simpa [hqs, hmay, haddr] using hheld
  simp only [exec_updatePass1Start, execUpdatePass1Start, hcmd, hbody, hdead, Bool.false_and]
  exact if_neg hgo

section
variable (hqs : s.quartersAt r tk .running ≠ [])
include hqs

/-- A Tinker that has read unpoisoned gradients ends pass 1 on its quarters, once UPDATE may move them (R208). -/
theorem updatePass1End_of_clean (hclean : ∀ g ∈ s.gradients r (s.quartersAt r tk .running), s.poisoned g.base g.footprint = false) :
    exec (.updatePass1End n tag tk) s = .next (s.moving .update (gradientReads (s.gradients r (s.quartersAt r tk .running)))
      (fun t => t.pass1Done c r tk (s.quartersAt r tk .running) (s.gradients r (s.quartersAt r tk .running)))) := by
  have hfind : (s.gradients r (s.quartersAt r tk .running)).find? (fun g => s.poisoned g.base g.footprint) = none :=
    List.find?_eq_none.mpr (by simpa using hclean)
  have hsome : ¬(s.quartersAt r tk .running).isEmpty = true := by simpa using hqs
  unfold State.gradients State.quartersAt at *
  simp only [exec_updatePass1End, execUpdatePass1End, hcmd, hbody, hfind, if_neg hsome]
  rfl

theorem updatePass1End_of_poison {g : Tensor}
    (hfind : (s.gradients r (s.quartersAt r tk .running)).find? (fun g => s.poisoned g.base g.footprint) = some g) :
    exec (.updatePass1End n tag tk) s = .next ((s.notePoison g.base g.footprint).endUpdate c r 0x41) := by
  have hsome : ¬(s.quartersAt r tk .running).isEmpty = true := by simpa using hqs
  unfold State.gradients State.quartersAt at *
  simp only [exec_updatePass1End, execUpdatePass1End, hcmd, hbody, hfind, if_neg hsome]

end

/-! ## UPDATE_NORMS (R249) -/

/-- With pass 1 ended, and with any all-reduce complete and acknowledged, the norms are set and written, and the all-reduce is
committed. -/
theorem updateNorms_of_ready (hfresh : r.normed = false) (hpass : ∀ x ∈ r.pass1, x = .ended)
    (hready : ∀ z, r.norm = some z → z.started = true ∧ z.complete s = true ∧ s.collUnacked z = false) :
    exec (.updateNorms n tag) s = .next ((((s.recordNorms r).commitNorm r.norm).setCmd
      { c with body := .update { r.withNorms with norm := none } }).trimCrews) := by
  have hall : r.pass1.all (fun x => decide (x = .ended)) = true := by simpa using hpass
  cases hnorm : r.norm with
  | none =>
    simp only [exec_updateNorms, execUpdateNorms, hcmd, hbody, hfresh, hall, hnorm]
    rfl
  | some z =>
    obtain ⟨hstarted, hdone, hacked⟩ := hready z hnorm
    simp only [exec_updateNorms, execUpdateNorms, hcmd, hbody, hfresh, hall, hnorm, hstarted, hdone, hacked]
    rfl

/-! ## UPDATE_RUN_COMMIT (R264) -/

section
variable (hnormed : r.normed = true)
include hnormed

theorem updateRunCommit_of_done (hstop : r.stop = none) (hdone : r.skipped = true ∨ r.mode = 1 ∨ r.pass2Done = true) :
    exec (.updateRunCommit n tag) s = .next (s.endUpdate c r (if r.failed = 0 then 0 else 0x41)) := by
  simp [exec_updateRunCommit, execUpdateRunCommit, hcmd, hbody, hnormed, hstop, hdone]

theorem updateRunCommit_of_stop {cause : Nat} (hstop : r.stop = some cause) :
    exec (.updateRunCommit n tag) s = .next (s.endUpdate c r cause) := by
  simp [exec_updateRunCommit, execUpdateRunCommit, hcmd, hbody, hnormed, hstop]

end
end
end

/-- Settles O44, a row at a time: pass 1 starts and ends on the quarters of a Tinker, the norms are set once every quarter and any
all-reduce are done, and the run completes or ends with its CAUSE. -/
theorem updateRows : Obligations.UpdateRows := by
  unfold Obligations.UpdateRows
  intro s n tag tk c r hcmd hbody
  refine ⟨?start, ?ended, ?alone, ?record, ?reduced, updateRunCommit_of_done hcmd hbody,
    fun _ hnormed hstop => updateRunCommit_of_stop hcmd hbody hnormed hstop⟩
  case start =>
    intro qs hqs hmay haddr hheld hserved
    exact updatePass1Start_of_waiting hcmd hbody hqs hmay haddr hheld hserved
  case ended =>
    intro qs gs ms u r1 r2 t hqs
    refine ⟨fun hclean hmay => ⟨fun hrest => ?_, fun hall => ?_⟩, fun hclean hwait => ?_, fun g hfind => ?_⟩
    · exact (updatePass1End_of_clean hcmd hbody hqs hclean).trans
        (congrArg _ ((State.moving_of_mayMove hmay _).trans (State.pass1Done_of_rest hrest)))
    · exact (updatePass1End_of_clean hcmd hbody hqs hclean).trans
        (congrArg _ ((State.moving_of_mayMove hmay _).trans (State.pass1Done_of_ended hall)))
    · exact (updatePass1End_of_clean hcmd hbody hqs hclean).trans (congrArg _ (State.moving_of_wait hwait _))
    · exact updatePass1End_of_poison hcmd hbody hqs hfind
  case alone =>
    intro hfresh hpass hnorm hout
    rw [updateNorms_of_ready hcmd hbody hfresh hpass (by simp [hnorm]), State.recordNorms_of_none hout, hnorm]
    rfl
  case record =>
    intro h t hfresh hpass hnorm hout ht
    rw [updateNorms_of_ready hcmd hbody hfresh hpass (by simp [hnorm]), State.recordNorms_of_tensor hout ht, hnorm]
    rfl
  case reduced =>
    intro z hfresh hpass hnorm hstarted hdone hacked hout a
    rw [updateNorms_of_ready hcmd hbody hfresh hpass (by simp [hnorm, hstarted, hdone, hacked]), State.recordNorms_of_none hout, hnorm]
    rfl

end Sys2Proof.Machine
end

section
/-!
PROOFS. Pass 2 of an entry of an UPDATE_RUN (R250, R251, R254 to R257, R260, R261, R320): what its writes and counters leave as they were,
and what the next entry of a Tinker does.
-/
namespace Sys2Proof.Machine

/-! ## What the writes of a Tinker leave of the commands -/

/-- What every step of a fold keeps of the state it carries, the fold keeps. -/
theorem foldlFst_keeps {α β γ : Type} (g : State → β) (f : State × γ → α → State × γ) (h : ∀ a x, g (f a x).1 = g a.1)
    (xs : List α) (a : State × γ) : g (xs.foldl f a).1 = g a.1 := by
  induction xs generalizing a with
  | nil => rfl
  | cons x xs ih => rw [List.foldl_cons, ih, h]

section
variable (s : State) (t : Tensor)

@[simp] theorem State.putBlock_cmds (p bi bj : Nat) (new : Nat → Option Nat) : (s.putBlock t p bi bj new).cmds = s.cmds := by
  obtain ⟨_, _, _, _, _, _, _, h⟩ := State.putBlock_frameOnly s t p bi bj new
  rw [h]

@[simp] theorem State.putRegion_cmds (p r0 nr c0 nc : Nat) (code : Nat → Nat → Option Nat) :
    (s.putRegion t p r0 nr c0 nc code).cmds = s.cmds := by
  obtain ⟨_, _, _, _, _, _, _, h⟩ := State.putRegion_frameOnly s t p r0 nr c0 nc code
  rw [h]

@[simp] theorem State.putRows8_cmds (p r0 nr c0 nc : Nat) (row : Nat → Nat → Option (List Nat × Nat)) :
    (s.putRows8 t p r0 nr c0 nc row).cmds = s.cmds :=
  foldl_keeps State.cmds _ (fun a _ => a.putBlock_cmds t p _ _ _) _ s

@[simp] theorem State.putCodes_cmds (pad : Bool) (h : Nat) (code : Nat → Nat → Nat → Option Nat) :
    (s.putCodes pad h code).cmds = s.cmds := by
  unfold State.putCodes
  split
  · rfl
  · exact foldl_keeps State.cmds _ (fun a _ => a.putRegion_cmds _ _ _ _ _ _ _) _ s

@[simp] theorem State.putLower_cmds (h : Nat) (m : Mat) (tri : Bool) : (s.putLower h m tri).cmds = s.cmds :=
  State.putCodes_cmds _ true h _

@[simp] theorem State.putCopy_cmds (h : Nat) (old : Nat → Nat → Nat → LVal) (w : Nat → Nat → Nat → Option LVal) :
    (s.putCopy h old w).1.cmds = s.cmds := by
  unfold State.putCopy
  split
  · rfl
  · refine foldlFst_keeps State.cmds _ (fun a p => ?_) _ (s, 0)
    dsimp only
    split
    · exact State.putRows8_cmds _ _ _ _ _ _ _ _
    · exact State.putRegion_cmds _ _ _ _ _ _ _ _

@[simp] theorem State.writeEntry_cmds (e : UEntry) (o : EntryOut) : (s.writeEntry e t o).1.cmds = s.cmds := by
  unfold State.writeEntry
  extract_lets n at_ oldW enc put s1 s2 a
  have hput (b : State × FlagWord) (h : Option Nat) (k : Nat) : (put b h k).1.cmds = b.1.cmds := by
    simp only [put]
    split
    · rfl
    · exact State.putCodes_cmds _ _ _ _
  have hs1 : s1.cmds = s.cmds := by
    simp only [s1]
    split
    · exact State.putLower_cmds _ _ _ _
    · rfl
  have hs2 : s2.cmds = s.cmds := by
    simp only [s2]
    split
    · exact (State.putLower_cmds _ _ _ _).trans hs1
    · exact hs1
  have ha : a.1.cmds = s.cmds := by
    simp only [a, hput]
    exact hs2
  split
  · exact ha
  · exact (State.putCopy_cmds _ _ _ _).trans ha

end

/-! ## What the counters of an entry leave -/

section
variable (s u : State) (e : UEntry) (w : Tensor) (o : EntryOut) (n rd rows8 : Nat) (kept : Bool)

@[simp] theorem State.countEntry_mem : (s.countEntry e w o n rd rows8 kept).mem = s.mem := by simp [State.countEntry]
@[simp] theorem State.countEntry_poison : (s.countEntry e w o n rd rows8 kept).poison = s.poison := by simp [State.countEntry]
@[simp] theorem State.countEntry_cmds : (s.countEntry e w o n rd rows8 kept).cmds = s.cmds := by simp [State.countEntry]

@[simp] theorem State.byTinker_mem : (s.byTinker u).mem = u.mem := rfl
@[simp] theorem State.byTinker_poison : (s.byTinker u).poison = u.poison := rfl
@[simp] theorem State.byTinker_cmds : (s.byTinker u).cmds = u.cmds := rfl

end

section
variable {s : State} {n tag tk ix : Nat} {c : Cmd} {r : UpdRun} {e : UEntry} {w : Tensor}

@[simp] theorem State.entryWork_mem (o : EntryOut) : (s.entryWork c r ix e w o).mem = (s.writeEntry e w o).1.mem := by
  simp [State.entryWork]

@[simp] theorem State.entryWork_poison (o : EntryOut) : (s.entryWork c r ix e w o).poison = (s.writeEntry e w o).1.poison := by
  simp [State.entryWork]

/-- After pass 2 of an entry its command is found with the report of the run. -/
theorem State.cmd_entryWork (o : EntryOut) (hcmd : s.cmd n tag = some c) :
    (s.entryWork c r ix e w o).cmd n tag
      = some { c with body := .update ((r.report ix e o (s.writeEntry e w o).2).entryDone e) } :=
  State.cmd_setCmd (c := c) (by simpa [State.cmd] using hcmd) rfl rfl rfl

/-! ## UPDATE_ENTRY -/

theorem exec_updateEntry : exec (.updateEntry n tag tk) s = execUpdateEntry n tag tk s := rfl

/-- Pass 2 of a run may go on, and `e`, of the weight tensor `w`, is the next entry of a Tinker. -/
structure State.EntryDue (s : State) (n tag tk : Nat) (c : Cmd) (r : UpdRun) (ix : Nat) (e : UEntry) (w : Tensor) : Prop where
  cmd : s.cmd n tag = some c
  body : c.body = .update r
  normed : r.normed = true
  kept : r.skipped = false
  mode : r.mode ≠ 1
  going : r.stop = none
  next : s.nextEntry r tk = some (ix, e)
  weight : s.tensor e.w = some w

section
variable (h : s.EntryDue n tag tk c r ix e w)
include h

/-- An entry that is due is passed over where it is frozen whole (R261), waits for the pieces of a SECURE that it would write (R320),
stops the run where it reads poison, and else is computed once UPDATE may move its bytes (R208). -/
theorem updateEntry_of_due :
    let o := s.entryOut r e w
    let ws := s.entryWrites e w o
    exec (.updateEntry n tag tk) s
      = if (s.liveElems e w).isEmpty then .next (s.setCmd { c with body := .update (r.entryDone e) })
        else if !(s.unsentIn ws).isEmpty then .next s
        else .next ((s.entryPoison r e w o).elim
          (s.moving .update ((s.entryReads r e w o).map (fun g => (false, g.1, g.2)) ++ ws.map (fun g => (true, g.1, g.2)))
            (fun t => t.entryWork c r ix e w o))
          (fun g => s.byTinker (((s.notePoison g.1 g.2).scrambleRanges ws).setCmd
            { c with body := .update { r with stop := some 0x41 } }))) := by
  have hgo : ¬((!r.normed) = true ∨ r.skipped = true ∨ r.mode = 1 ∨ r.stop.isSome = true) := by
    simp [h.normed, h.kept, h.mode, h.going]
  simp only [exec_updateEntry, execUpdateEntry, h.cmd, h.body, if_neg hgo, h.next, h.weight]
  cases s.entryPoison r e w (s.entryOut r e w) <;> rfl

theorem updateEntry_of_frozen (hlive : s.liveElems e w = []) :
    exec (.updateEntry n tag tk) s = .next (s.setCmd { c with body := .update (r.entryDone e) }) := by
  simp [updateEntry_of_due h, hlive]

section
variable (hlive : s.liveElems e w ≠ [])
include hlive

theorem updateEntry_of_unsent (hsent : s.unsentIn (s.entryWrites e w (s.entryOut r e w)) ≠ []) :
    exec (.updateEntry n tag tk) s = .next s := by
  simp [updateEntry_of_due h, hlive, hsent]

section
variable (hsent : s.unsentIn (s.entryWrites e w (s.entryOut r e w)) = [])
include hsent

theorem updateEntry_of_poison {g : Nat × Nat} (hpoison : s.entryPoison r e w (s.entryOut r e w) = some g) :
    exec (.updateEntry n tag tk) s
      = .next (s.byTinker (((s.notePoison g.1 g.2).scrambleRanges (s.entryWrites e w (s.entryOut r e w))).setCmd
        { c with body := .update { r with stop := some 0x41 } })) := by
  simp [updateEntry_of_due h, hlive, hsent, hpoison]

theorem updateEntry_of_clean (hpoison : s.entryPoison r e w (s.entryOut r e w) = none) :
    let o := s.entryOut r e w
    let ms := (s.entryReads r e w o).map (fun g => (false, g.1, g.2)) ++ (s.entryWrites e w o).map (fun g => (true, g.1, g.2))
    exec (.updateEntry n tag tk) s = .next (s.moving .update ms (fun t => t.entryWork c r ix e w o)) := by
  simp [updateEntry_of_due h, hlive, hsent, hpoison]

end
end
end
end

/-- Settles O45, in the order of the checks: an entry frozen whole, one that waits for pieces of a SECURE, one that reads poison, one
that waits for UPDATE, and one that is computed, whose writes alone change memory. -/
theorem updateEntryRow : Obligations.UpdateEntryRow := by
  unfold Obligations.UpdateEntryRow
  intro s n tag tk ix c r e w hcmd hbody hnormed hskipped hmode hstop hnext hw live done o ws ms
  have h : s.EntryDue n tag tk c r ix e w := ⟨hcmd, hbody, hnormed, hskipped, hmode, hstop, hnext, hw⟩
  refine ⟨?frozen, ?unsent, ?poison, ?wait, ?work⟩
  case frozen =>
    intro hlive
    exact updateEntry_of_frozen h hlive
  case unsent =>
    intro hlive hsent
    exact updateEntry_of_unsent h hlive hsent
  case poison =>
    intro g hlive hsent hpoison
    exact updateEntry_of_poison h hlive hsent hpoison
  case wait =>
    intro hlive hsent hpoison hwait
    exact (updateEntry_of_clean h hlive hsent hpoison).trans (congrArg _ (State.moving_of_wait hwait _))
  case work =>
    intro hlive hsent hpoison hmay a
    have hrun := (updateEntry_of_clean h hlive hsent hpoison).trans
      (congrArg _ (State.moving_of_mayMove hmay _))
    have hfound : (s.charge .update ms).cmd n tag = some c := by simpa [State.cmd] using hcmd
    exact ⟨_, _, _, hrun, State.entryWork_mem o, State.entryWork_poison o, State.cmd_entryWork o hfound, rfl, rfl, rfl, hstop⟩

end Sys2Proof.Machine
end

section
/-!
PROOFS. The rows that end the commands which write and read tensors: PARAM_WRITE (R262, R320) and the data commands (R385 to R388).
-/
namespace Sys2Proof.Machine

/-! ## What a PARAM_WRITE writes (R262) -/

/-- The storage index `x` is one of those a PARAM_WRITE names. -/
def Cmd.pwHit (c : Cmd) (x : Nat) : Bool :=
  let f := pwFields c.params
  decide (f.2.2.1 ≤ x) && decide (x < f.2.2.1 + f.2.2.2.1)

/-- The bulk data of a command as it stands. -/
def Cmd.bulkData (c : Cmd) : List Byte := match c.bulk with | some b => b.data | none => []

/-- The value of a PARAM_WRITE for a storage index, with the flags of its conversion: an LNS24 code, or FP32. -/
def Cmd.pwVal (c : Cmd) (x : Nat) : LVal × FlagWord :=
  let f := pwFields c.params
  let code := fld c.bulkData (pwBytes f.2.2.2.2 * (x - f.2.2.1)) (pwBytes f.2.2.2.2)
  if f.2.2.2.2 = 0x04 then (lnsDecode shape24 code, 0)
  else let v := fpDecode Fmt.fp32.fp code; ((seat v.1.toLog).1, v.2 ||| (seat v.1.toLog).2)

/-- The new value of an element of the weight tensor; none where the element is left alone. -/
def Cmd.pwNew (c : Cmd) (w : Tensor) (p i j : Nat) : Option LVal :=
  if c.pwHit (w.storageIx p i j) then some (c.pwVal (w.storageIx p i j)).1 else none

/-- The elements of the weight tensor that a PARAM_WRITE names. -/
def Cmd.pwHits (c : Cmd) (w : Tensor) : List (Nat × Nat × Nat × Nat) := w.elems.filter (fun x => c.pwHit x.2.2.2)

/-- The flags of the conversions. -/
def Cmd.pwFlags (c : Cmd) (w : Tensor) : FlagWord := flagsOr ((c.pwHits w).map (fun x => (c.pwVal x.2.2.2).2))

/-- The elements written to W. -/
def State.pwPut (s : State) (c : Cmd) (w : Tensor) : State :=
  s.putCodes true (pwFields c.params).1 (fun p i j => (c.pwNew w p i j).map (fun v => (lnsEncode shape24 v).code))

/-- The elements written to WC, from W as it then is, with the flags of their encoding. -/
def State.pwPutCopy (s : State) (c : Cmd) (w : Tensor) (h : Nat) : State × FlagWord :=
  (s.pwPut c w).putCopy h (fun p i j => (s.seatAt w p i j).1) (c.pwNew w)

/-- The bytes written to WC: whole rows of 32 in BLNS8. -/
def Cmd.pwCopyBytes (c : Cmd) (w v : Tensor) : Nat :=
  if v.f = .blns8 then 33 * (((c.pwHits w).map (fun x => x.2.2.2 / 32)).eraseDups).length else (c.pwHits w).length * (v.f.bits / 8)

/-- The end of a PARAM_WRITE that has written so many bytes. -/
def State.pwEnd (s : State) (c : Cmd) (bytes : Nat) (fl : FlagWord) : State :=
  (s.count 0x0347 bytes).completeGeneric c (doneRes fl) fl 0 0

section
variable {s : State} {c : Cmd} {w : Tensor}

theorem State.pwWork_of_alone (hcopy : (pwFields c.params).2.1 = none) :
    s.pwWork c w = s.byTinker ((s.pwPut c w).pwEnd c (3 * (c.pwHits w).length) (c.pwFlags w)) := by
  have hnone : tref (fld c.params 4 4) = none := hcopy
  have hor (x : FlagWord) : x ||| 0 = x := by simp
  unfold State.pwWork pwFields
  simp only [hnone, Option.bind_none, hor, Nat.add_zero]
  rfl

theorem State.pwWork_of_copy {h : Nat} {v : Tensor} (hcopy : (pwFields c.params).2.1 = some h) (hv : s.tensor h = some v) :
    s.pwWork c w = s.byTinker ((s.pwPutCopy c w h).1.pwEnd c (3 * (c.pwHits w).length + c.pwCopyBytes w v)
      (c.pwFlags w ||| (s.pwPutCopy c w h).2)) := by
  have hsome : tref (fld c.params 4 4) = some h := hcopy
  unfold State.pwWork pwFields
  simp only [hsome, Option.bind_some, hv]
  rfl

end

/-! ## PARAM_WRITE_START -/

section
variable {s : State} {n tag : Nat} {c : Cmd} {w : Tensor}

theorem exec_paramWriteStart : exec (.paramWriteStart n tag) s = execParamWriteStart n tag s := rfl

section
variable (hcmd : s.cmd n tag = some c) (hmay : s.mayStart c = true) (hop : c.op = .paramWrite)
  (hw : s.tensor (pwFields c.params).1 = some w) (hfree : c.running = true ∨ s.heldQuarter (quarterOf w.base) = false)
include hcmd hmay hop hw hfree

/-- A PARAM_WRITE that may begin ends where no Tinker serves its quarter or an element is frozen, waits for the pieces of a SECURE that
it would write (R320), and else writes once UPDATE may move its bytes (R208). -/
theorem paramWriteStart_of_free :
    exec (.paramWriteStart n tag) s
      = if s.server (quarterOf w.base) = none then .next (s.completeGeneric c .aborted 0 0x41 0)
        else if w.elems.any (fun x => c.pwHit x.2.2.2 && s.frozen (pwFields c.params).1 x.2.2.2) then
          .next ((s.startCmd c).completeGeneric c .frozen 0 0 0)
        else if !(s.unsentIn (s.pwRanges c)).isEmpty then .next (s.startCmd c)
        else .next (s.moving .update ((s.pwRanges c).map (fun g => (true, g.1, g.2))) (fun t => t.pwWork c w)) := by
  have hgo : ¬((!s.mayStart c) = true ∨ (!c.running && s.heldQuarter (quarterOf w.base)) = true) := by
    rcases hfree with hfree | hfree <;> simp [hmay, hfree]
  have htensor : s.tensor (fld c.params 0 4) = some w := hw
  simp only [exec_paramWriteStart, execParamWriteStart, hcmd, pwFields, hop, htensor, if_neg hgo]
  rfl

theorem paramWriteStart_of_unserved (hserver : s.server (quarterOf w.base) = none) :
    exec (.paramWriteStart n tag) s = .next (s.completeGeneric c .aborted 0 0x41 0) := by
  rw [paramWriteStart_of_free hcmd hmay hop hw hfree, if_pos hserver]

section
variable (hserver : s.server (quarterOf w.base) ≠ none)
include hserver

theorem paramWriteStart_of_frozen
    (hfrozen : ∃ x ∈ w.elems, c.pwHit x.2.2.2 = true ∧ s.frozen (pwFields c.params).1 x.2.2.2 = true) :
    exec (.paramWriteStart n tag) s = .next ((s.startCmd c).completeGeneric c .frozen 0 0 0) := by
  have hany : w.elems.any (fun x => c.pwHit x.2.2.2 && s.frozen (pwFields c.params).1 x.2.2.2) = true := by simpa using hfrozen
  rw [paramWriteStart_of_free hcmd hmay hop hw hfree, if_neg hserver, if_pos hany]

section
variable (hlive : ∀ x ∈ w.elems, c.pwHit x.2.2.2 = true → s.frozen (pwFields c.params).1 x.2.2.2 = false)
include hlive

/-- With no frozen element named, what is left is the wait for pieces and the move. -/
theorem paramWriteStart_of_live :
    exec (.paramWriteStart n tag) s = if !(s.unsentIn (s.pwRanges c)).isEmpty then .next (s.startCmd c)
      else .next (s.moving .update ((s.pwRanges c).map (fun g => (true, g.1, g.2))) (fun t => t.pwWork c w)) := by
  have hany : ¬w.elems.any (fun x => c.pwHit x.2.2.2 && s.frozen (pwFields c.params).1 x.2.2.2) = true := by simpa using hlive
  rw [paramWriteStart_of_free hcmd hmay hop hw hfree, if_neg hserver, if_neg hany]

theorem paramWriteStart_of_unsent (hsent : s.unsentIn (s.pwRanges c) ≠ []) :
    exec (.paramWriteStart n tag) s = .next (s.startCmd c) := by
  rw [paramWriteStart_of_live hcmd hmay hop hw hfree hserver hlive, if_pos (by simpa using hsent)]

theorem paramWriteStart_of_sent (hsent : s.unsentIn (s.pwRanges c) = []) :
    exec (.paramWriteStart n tag) s
      = .next (s.moving .update ((s.pwRanges c).map (fun g => (true, g.1, g.2))) (fun t => t.pwWork c w)) := by
  rw [paramWriteStart_of_live hcmd hmay hop hw hfree hserver hlive, if_neg (by simp [hsent])]

end
end
end

/-! ## TENSOR_COMMAND_DONE -/

theorem exec_tensorCommandDone : exec (.tensorCommandDone n tag) s = execTensorCommandDone n tag s := rfl

theorem tensorCommandDone_of_mayStart (hcmd : s.cmd n tag = some c) (hmay : s.mayStart c = true) :
    exec (.tensorCommandDone n tag) s
      = .next (s.moving (s.dataMoves c).1 (s.dataMoves c).2 (fun t => t.dataWork c)) := by
  simp only [exec_tensorCommandDone, execTensorCommandDone, hcmd, hmay]
  rfl

section
variable {a : State}

theorem State.dataWork_of_write (hop : c.op = .tensorWrite) :
    a.dataWork c = (a.doWrite c c.bulkData).1.completeGeneric c (doneRes (a.doWrite c c.bulkData).2) (a.doWrite c c.bulkData).2 0 0 := by
  simp only [State.dataWork, hop]
  rfl

theorem State.dataWork_of_read (hop : c.op = .tensorRead) : a.dataWork c = a.doRead c := by simp only [State.dataWork, hop]

theorem State.dataWork_of_copy (hop : c.op = .tensorCopy) : a.dataWork c = a.doCopy c := by simp only [State.dataWork, hop]

theorem State.dataWork_of_fill (hop : c.op = .tensorFill) : a.dataWork c = a.doFill c := by simp only [State.dataWork, hop]

end
end

/-! ## A read leaves memory as it was -/

section
variable (s : State)

@[simp] theorem State.sendBulk_mem (k : OutPkt) : (s.sendBulk k).mem = s.mem := by simp [State.sendBulk]

@[simp] theorem State.sendData_mem (c : Cmd) (extra : List Byte) (bs : List Byte) : (s.sendData c extra bs).mem = s.mem := by
  unfold State.sendData
  split
  · rfl
  · exact (foldl_keeps State.mem _ State.sendBulk_mem _ _).trans (State.reply_mem _ _ _ _ _ _ _)

@[simp] theorem State.notePoison_mem (a n : Nat) : (s.notePoison a n).mem = s.mem := by simp [State.notePoison, State.poisonSeen]

theorem State.doRead_mem (c : Cmd) : (s.doRead c).mem = s.mem := by
  unfold State.doRead
  extract_lets a0
  split
  · simp
  · split
    · rfl
    · extract_lets a
      split
      · simp
      · split
        · simp
        · split <;> simp

end

/-- Settles O46: PARAM_WRITE in the order of its checks, with what it writes to W and to WC; and the data commands, each with its work
where its class may move its bytes. -/
theorem writeRows : Obligations.WriteRows := by
  unfold Obligations.WriteRows
  intro s n tag c hcmd hmay
  refine ⟨?param, ?data⟩
  case param =>
    intro w f hit hop hw hfree
    refine ⟨paramWriteStart_of_unserved hcmd hmay hop hw hfree, paramWriteStart_of_frozen hcmd hmay hop hw hfree,
      fun hserver hlive => ?_⟩
    intro ms u data code val new hits fl t
    refine ⟨paramWriteStart_of_unsent hcmd hmay hop hw hfree hserver hlive, fun hsent hwait => ?wait, fun hsent hmove hcopy => ?alone,
      fun h v hsent hmove hcopy hv => ?copy⟩
    case wait =>
      exact (paramWriteStart_of_sent hcmd hmay hop hw hfree hserver hlive hsent).trans (congrArg _ (State.moving_of_wait hwait _))
    case alone =>
      exact (paramWriteStart_of_sent hcmd hmay hop hw hfree hserver hlive hsent).trans
        (congrArg _ ((State.moving_of_mayMove hmove _).trans (State.pwWork_of_alone hcopy)))
    case copy =>
      have hcharged : u.tensor h = some v := by simpa [u, State.tensor] using hv
      exact (paramWriteStart_of_sent hcmd hmay hop hw hfree hserver hlive hsent).trans
        (congrArg _ ((State.moving_of_mayMove hmove _).trans (State.pwWork_of_copy hcopy hcharged)))
  case data =>
    intro m a
    have hrow := tensorCommandDone_of_mayStart hcmd hmay
    refine ⟨fun hwait => ?wait, fun hmove => ?work⟩
    case wait => exact hrow.trans (congrArg _ (State.moving_of_wait hwait _))
    case work =>
      have hdone : exec (.tensorCommandDone n tag) s = .next (a.dataWork c) :=
        hrow.trans (congrArg _ (State.moving_of_mayMove hmove _))
      exact ⟨fun hop => hdone.trans (congrArg _ (State.dataWork_of_write hop)),
        fun hop => ⟨hdone.trans (congrArg _ (State.dataWork_of_read hop)), (State.doRead_mem a c).trans (State.charge_mem s _ _)⟩,
        fun hop => hdone.trans (congrArg _ (State.dataWork_of_copy hop)),
        fun hop => hdone.trans (congrArg _ (State.dataWork_of_fill hop))⟩

end Sys2Proof.Machine
end

section
/-!
PROOFS. The links (chapter 9): the rules of a link's record in the state, which every row of a link goes through; the hops of a flit
(R288); LINK_STATUS, ROUTE_LOAD and CREW_LIST_SET (R290, R292, R304).
-/
namespace Sys2Proof.Machine

section
variable (s : State) (i : Nat)

/-! ## A link of the state -/

@[simp] theorem State.setLink_links_length (l : Link) : (s.setLink i l).net9.links.length = s.net9.links.length := List.length_set

@[simp] theorem State.setLink_setLink (l m : Link) : (s.setLink i l).setLink i m = s.setLink i m := by
  simp [State.setLink]

@[simp] theorem State.setLink_devAddr (l : Link) : (s.setLink i l).devAddr = s.devAddr := rfl

@[simp] theorem State.count_link (id n : Nat) : (s.count id n).link i = s.link i := by simp [State.link]

@[simp] theorem State.count_setting (id n k : Nat) : (s.count id n).setting k = s.setting k := by simp [State.setting]

@[simp] theorem State.count_devAddr (id n : Nat) : (s.count id n).devAddr = s.devAddr := by simp [State.devAddr]

/-- A counter and a link's record are apart. -/
theorem State.setLink_count (id n : Nat) (l : Link) : (s.count id n).setLink i l = (s.setLink i l).count id n := by
  unfold State.count
  split <;> rfl

theorem State.pushCtrl_count (id n : Nat) (x : LinkFlit) : (s.count id n).pushCtrl i x = (s.pushCtrl i x).count id n := by
  simp [State.pushCtrl, State.setLink_count]

end

section
variable {s : State} {i : Nat} (h : i < s.net9.links.length)
include h

theorem State.link_setLink (l : Link) : (s.setLink i l).link i = l := by
  simp [State.link, State.setLink, List.getD_eq_getElem?_getD, h]

theorem State.pushCtrl_setLink (l : Link) (x : LinkFlit) :
    (s.setLink i l).pushCtrl i x = s.setLink i { l with ctrl := l.ctrl ++ [x] } := by
  simp [State.pushCtrl, State.link_setLink h]

theorem State.linkHeard_setLink (l : Link) : (s.setLink i l).linkHeard i = s.setLink i { l with lastRx := s.now } := by
  simp [State.linkHeard, State.link_setLink h]

end

/-! ## Hops (R288) -/

/-- Settles O60: the source writes HOPS 1; `forward` adds one below 15, and counts the drop from 15 on. -/
theorem flitHops : Obligations.FlitHops := by
  unfold Obligations.FlitHops
  refine ⟨fun s dest tc crew cid bs poison hother => ⟨_, if_neg hother, rfl, rfl, rfl, rfl⟩,
    fun s f => ⟨fun hlow => ?below, fun hhigh => ?spent⟩⟩
  case below =>
    refine ⟨_, if_neg (by omega), ?_⟩
    split
    · exact .inr rfl
    · exact .inl rfl
  case spent => exact if_pos hhigh

/-! ## The commands of the links and of the crew list -/

section
variable {s : State} {q : Req}

theorem linkStatus_of_mask (hlen : q.params.length = 8) :
    linkStatus q s = .done .ok (((List.range 64).filter (fun i =>
      decide (fld q.params 0 8 = 0) || (fld q.params 0 8).testBit i)).flatMap (linkRecord s)) s .nothing :=
  if_neg (not_not.mpr hlen)

/-- R290: a route table with the `COUNT` entries of a ROUTE_LOAD in it, from `FIRST` on. -/
def routesPut (ps : List Byte) (t : List (Nat × Nat)) : List (Nat × Nat) :=
  (List.range (fld ps 4 2)).foldl (fun b k =>
    let v := fld ps (8 + 8 * k) 8
    if v = 0 then assocDel b (fld ps 2 2 + k) else assocPut b (fld ps 2 2 + k) v) t

theorem routeLoad_of_intra (hlen : q.params.length = 8 + 8 * fld q.params 4 2) (hsome : 1 ≤ fld q.params 4 2)
    (htable : fld q.params 0 1 = 0) (hfit : fld q.params 2 2 + fld q.params 4 2 ≤ 256) :
    routeLoad q s = .done .ok [] { s with net9 := { s.net9 with intra := routesPut q.params s.net9.intra } } .nothing := by
  simp only [routeLoad, htable, if_true]
  exact if_neg (by omega)

theorem routeLoad_of_inter (hlen : q.params.length = 8 + 8 * fld q.params 4 2) (hsome : 1 ≤ fld q.params 4 2)
    (htable : fld q.params 0 1 = 1) (hfit : fld q.params 2 2 + fld q.params 4 2 ≤ 4096) :
    routeLoad q s = .done .ok [] { s with net9 := { s.net9 with inter := routesPut q.params s.net9.inter } } .nothing := by
  simp only [routeLoad, htable, one_ne_zero, if_false]
  exact if_neg (by omega)

theorem crewListSet_of_members (hlen : q.params.length = 16) (hsome : 1 ≤ fld q.params 4 4) (hmax : fld q.params 4 4 ≤ 65536) :
    crewListSet q s = .await (4 * fld q.params 4 4) s := if_neg (by omega)

end

/-- Settles O28: each handler's checks pass in the admitted state, which has the links, routes and crew lists of the state before. -/
theorem linkAndCrewCommands : Obligations.LinkAndCrewCommands := by
  unfold Obligations.LinkAndCrewCommands
  intro s p last x
  refine ⟨?status, ?routes, ?crew⟩
  case status =>
    intro h hlen
    exact exec_of_done rfl h (linkStatus_of_mask hlen) h.admitted_awake
  case routes =>
    intro first count put h hsome hlen
    refine ⟨fun htable hfit => ?intra, fun htable hfit => ?inter⟩
    case intra =>
      have hv := routeLoad_of_intra (q := (x.taken .routeLoad p).req .routeLoad p) (s := s.admitted .routeLoad p) hlen hsome htable hfit
      rw [State.admitted_net9] at hv
      exact exec_of_done rfl h hv h.admitted_awake
    case inter =>
      have hv := routeLoad_of_inter (q := (x.taken .routeLoad p).req .routeLoad p) (s := s.admitted .routeLoad p) hlen hsome htable hfit
      rw [State.admitted_net9] at hv
      exact exec_of_done rfl h hv h.admitted_awake
  case crew =>
    intro h hlen hsome hmax
    simpa using exec_of_awaited rfl h (crewListSet_of_members hlen hsome hmax) h.admitted_awake

end Sys2Proof.Machine
end

section
/-!
PROOFS. The flits of an UP link (R208, R277 to R283): what is taken, what is answered, and what is sent, in its order.
-/
namespace Sys2Proof.Machine

/-! ## Flits that arrive -/

@[simp] theorem State.setPeer_settings (s : State) (p : Peer) : (s.setPeer p).settings = s.settings := rfl

@[simp] theorem State.heard_devAddr (s : State) (a : Nat) (keepalive : Bool) : (s.heard a keepalive).devAddr = s.devAddr := by
  unfold State.heard
  split
  · rfl
  · dsimp only
    split
    · exact State.count_devAddr _ _ _
    · rfl

/-- R278: a link's record after a DATA flit in sequence: the next LSEQ is expected, and the 64th flit since the last ACK is followed by
one. -/
def Link.afterData (l : Link) (now : Nat) : Link :=
  let next := (l.rxSeq + 1) % 4096
  if l.unacked < 63 then { l with rxSeq := next, nakSent := false, lastRx := now, unacked := l.unacked + 1 }
  else { l with rxSeq := next, nakSent := false, lastRx := now, unacked := 0, ctrl := l.ctrl ++ [.ack next] }

/-- R278, R446: a DATA flit in sequence is counted and wakes the link engines, and shared memory where it is for this device and needs
it. -/
def State.receiveData (s : State) (i : Nat) (f : Flit) : State :=
  let v : State := (s.setLink i ((s.link i).afterData s.now)).count 0x0501 1
  { v with power := { v.power with
    linksS2 := false, sharedS2 := v.power.sharedS2 && !(decide (s.devAddr = some f.dest) && Machine.Flit.needsMemory f)
    lastData := s.now } }

/-- A DATA flit received, and its sender heard where it is addressed to this device (R327). -/
def State.dataIn (s : State) (i : Nat) (f : Flit) : State :=
  if s.devAddr = some f.dest then (s.receiveData i f).heard f.src false else s.receiveData i f

@[simp] theorem State.receiveData_devAddr (s : State) (i : Nat) (f : Flit) : (s.receiveData i f).devAddr = s.devAddr :=
  State.count_devAddr _ _ _

@[simp] theorem State.dataIn_devAddr (s : State) (i : Nat) (f : Flit) : (s.dataIn i f).devAddr = s.devAddr := by
  unfold State.dataIn
  split <;> simp

/-- A flit for this device wakes shared memory where it needs it. -/
theorem State.arrives_eq (s : State) (f : Flit) : s.arrives f = { s with power := { s.power with
    linksS2 := false, sharedS2 := s.power.sharedS2 && !Machine.Flit.needsMemory f, lastData := s.now } } := by
  cases hmem : Machine.Flit.needsMemory f <;> simp [State.arrives, State.dataPassed, hmem]

section
variable {s : State} {i : Nat}

theorem exec_dataFlit (lseq : Nat) (f : Flit) : exec (.dataFlit i lseq f) s = execDataFlit i lseq f s := rfl

/-- The ACK of the 64th flit goes into the link's record with the rest. -/
theorem State.ackedData_eq (hlen : i < s.net9.links.length) :
    let l := s.link i
    let n := l.unacked + 1
    let l1 := { l with rxSeq := (l.rxSeq + 1) % 4096, nakSent := false, lastRx := s.now, unacked := if 64 ≤ n then 0 else n }
    let s1 := (s.setLink i l1).count 0x0501 1
    (if 64 ≤ n then s1.pushCtrl i (.ack l1.rxSeq) else s1) = (s.setLink i (l.afterData s.now)).count 0x0501 1 := by
  intro l n l1 s1
  by_cases hlast : l.unacked < 63
  · have hn : ¬64 ≤ n := by omega
    simp only [Link.afterData, hlast, if_true, hn, if_false, s1, l1]
    rfl
  · have hn : 64 ≤ n := by omega
    simp only [Link.afterData, hlast, if_false, hn, if_true, s1, l1, State.pushCtrl_count, State.pushCtrl_setLink hlen]

theorem dataFlit_of_inSequence (hi : i < 64) (hlen : i < s.net9.links.length) (hup : (s.link i).state = .up) (f : Flit) :
    exec (.dataFlit i (s.link i).rxSeq f) s = settled ((s.dataIn i f).takeFlit (some i) f) := by
  have hgo : ¬(64 ≤ i ∨ (s.link i).state ≠ .up) := by simp [hup, hi]
  rw [exec_dataFlit, execDataFlit, if_neg hgo, if_neg (not_not.mpr rfl)]
  dsimp only
  rw [State.ackedData_eq hlen]
  by_cases hmine : s.devAddr = some f.dest
  · simp [State.dataIn, State.receiveData, State.arrives_eq, hmine]
  · simp [State.dataIn, State.receiveData, State.dataPassed, hmine]

theorem dataFlit_of_outOfSequence (hi : i < 64) (hup : (s.link i).state = .up) (f : Flit) {lseq : Nat}
    (hseq : lseq ≠ (s.link i).rxSeq) : exec (.dataFlit i lseq f) s = .next (s.nakOnce i) := by
  have hgo : ¬(64 ≤ i ∨ (s.link i).state ≠ .up) := by simp [hup, hi]
  rw [exec_dataFlit, execDataFlit, if_neg hgo, if_pos hseq]

theorem State.nakOnce_of_sent (hsent : (s.link i).nakSent = true) : s.nakOnce i = s := if_pos hsent

/-- R278: the NAK of a link waits to be sent. -/
def State.nakked (s : State) (i lseq : Nat) : State :=
  s.setLink i { s.link i with nakSent := true, ctrl := (s.link i).ctrl ++ [.nak lseq] }

theorem State.nakOnce_of_first (hlen : i < s.net9.links.length) (hfirst : (s.link i).nakSent = false) :
    s.nakOnce i = s.nakked i (s.link i).rxSeq := by
  simp [State.nakOnce, State.nakked, hfirst, State.pushCtrl_setLink hlen]

/-! ### Flits taken or held (R208, R282, R285) -/

variable {link : Option Nat} {f : Flit}

theorem State.takeFlit_of_gated (h : s.flitGated link f = true) : s.takeFlit link f = s.gateFlit link f := if_pos h

theorem State.takeFlit_of_open (h : s.flitGated link f = false) : s.takeFlit link f = s.admitFlit link f := by
  simp [State.takeFlit, h]

theorem State.admitFlit_of_mine (hmine : s.devAddr = some f.dest) :
    s.admitFlit (some i) f = (s.requestOn (payerOf f.tc) 1 (linkGroup i + 1) 256).deliver (some i) f := if_pos (.inr hmine)

theorem State.admitFlit_of_other (hother : s.devAddr ≠ some f.dest) :
    s.admitFlit (some i) f = ((s.requestOn (payerOf f.tc) 1 (linkGroup i + 1) 256).forward f).freeBuffer (some i) f :=
  if_neg (by simpa using hother)

end

/-! ### Bad flits, ACK, NAK and CREDIT -/

section
variable {s : State} {i : Nat}

/-- R277, R310: a bad flit is counted, and its codeword where that could not be corrected. -/
def State.badCounted (s : State) (i : Nat) (codeword : Bool) : State :=
  let k := if codeword then 1 else 0
  ((s.setLink i { s.link i with fecUncorr := ((s.link i).fecUncorr + k) % 2 ^ 32 }).count 0x0507 1).count 0x0503 k

theorem badFlit_of_quiet (codeword : Bool) {data : Bool} (hquiet : data = false ∨ (s.link i).nakSent = true) :
    exec (.badFlit i codeword data) s = .next (s.badCounted i codeword) := by
  refine if_neg ?_
  rcases hquiet with hdata | hsent
  · simp [hdata]
  · simp [hsent]

theorem badFlit_of_data (hi : i < 64) (hlen : i < s.net9.links.length) (hup : (s.link i).state = .up) (codeword : Bool)
    (hfirst : (s.link i).nakSent = false) :
    exec (.badFlit i codeword true) s = .next ((s.badCounted i codeword).nakked i (s.link i).rxSeq) := by
  refine (if_pos (by simp [hup, hfirst, hi])).trans ?_
  simp [State.badCounted, State.nakked, State.setLink_count, State.pushCtrl_count, State.link_setLink hlen,
    State.pushCtrl_setLink hlen]

theorem exec_ackFlit (lseq : Nat) : exec (.ackFlit i lseq) s = execAckFlit i lseq s := rfl

theorem ackFlit_eq (hlen : i < s.net9.links.length) (lseq : Nat) :
    let q := (s.link i).freeTo lseq
    exec (.ackFlit i lseq) s = .next (s.setLink i { q.2 with naks := if 0 < q.1 then 0 else q.2.naks, lastRx := s.now }) := by
  simp [exec_ackFlit, execAckFlit, State.linkHeard_setLink hlen]

@[simp] theorem Link.freeTo_state (l : Link) (lseq : Nat) : (l.freeTo lseq).2.state = l.state := by
  unfold Link.freeTo
  split
  · rfl
  · dsimp only
    split <;> rfl

/-- R279: the NAKs without progress, with one for this LSEQ. -/
def Link.naksAt (l : Link) (lseq : Nat) : Nat := if 0 < (l.freeTo lseq).1 then 1 else (l.freeTo lseq).2.naks + 1

/-- R278, R279: a NAK frees the flits before its LSEQ, and all that the replay buffer then holds is to be sent again. -/
def State.replayFrom (s : State) (i lseq : Nat) : State :=
  let q := (s.link i).freeTo lseq
  ((s.setLink i { q.2 with naks := (s.link i).naksAt lseq, resend := q.2.replay.length
                           replays := (q.2.replays + 1) % 2 ^ 32 }).count 0x0504 1).linkHeard i

theorem nakFlit_of_few {lseq : Nat} (hfew : (s.link i).naksAt lseq < s.setting 0x4003) :
    exec (.nakFlit i lseq) s = .next (s.replayFrom i lseq) := if_neg fun h => Nat.not_lt.mpr h.1 hfew

theorem nakFlit_of_limit {lseq : Nat} (hup : (s.link i).state = .up) (hlimit : s.setting 0x4003 ≤ (s.link i).naksAt lseq) :
    exec (.nakFlit i lseq) s = .next (((s.replayFrom i lseq).retrain i).count 0x0505 1) :=
  if_pos ⟨hlimit, (Link.freeTo_state _ lseq).trans hup⟩

theorem exec_creditFlit (bs : List Byte) : exec (.creditFlit i bs) s = execCreditFlit i bs s := rfl

theorem creditFlit_eq (hlen : i < s.net9.links.length) (bs : List Byte) :
    let l := s.link i
    exec (.creditFlit i bs) s = .next ((s.setLink i { l with
      credits := (List.range 14).map (fun k => min 32 (l.credits.getD k 0 + fld bs (k + 2) 1)), lastRx := s.now }).routeWaiting) := by
  simp only [exec_creditFlit, execCreditFlit, State.linkHeard_setLink hlen]

end

/-! ## Flits that are sent (R283) -/

theorem Link.owed_any_of_paid {l : Link} (hpaid : ∀ n ∈ l.owed, n = 0) : l.owed.any (fun n => decide (0 < n)) = false := by
  simpa [List.any_eq_false, Nat.pos_iff_ne_zero] using hpaid

section
variable {s : State} {i : Nat} (hi : i < 64) (hrun : s.lanesRun = true) (hup : (s.link i).state = .up)

theorem exec_flitSend : exec (.flitSend i) s = execFlitSend i s := rfl

include hi hrun hup

theorem flitSend_of_ctrl {x : LinkFlit} {xs : List LinkFlit} (hctrl : (s.link i).ctrl = x :: xs) :
    exec (.flitSend i) s = .next ((s.setLink i { s.link i with ctrl := xs }).emit i x) := by
  rw [exec_flitSend, execFlitSend, if_neg (by simp [hi, hrun, hup])]
  simp only [hctrl]

variable (hctrl : (s.link i).ctrl = [])
include hctrl

theorem flitSend_of_owed (howed : ∃ n ∈ (s.link i).owed, 0 < n) :
    exec (.flitSend i) s = .next ((s.setLink i { s.link i with owed := (s.link i).owed.map (fun n => n - 255) }).emit i
      (.credit ([0, 0] ++ (s.link i).owed.map (fun n => min n 255)))) := by
  have hany : (s.link i).owed.any (fun n => decide (0 < n)) = true := by simpa using howed
  have hleft : (fun n => n - min n 255) = fun n => n - 255 := by funext n; omega
  rw [exec_flitSend, execFlitSend, if_neg (by simp [hi, hrun, hup])]
  simp only [hctrl, hup, hany, hleft, if_true, reduceCtorEq, if_false]

variable (hpaid : ∀ n ∈ (s.link i).owed, n = 0)
include hpaid

theorem flitSend_of_replay {x : Nat × Flit} (hresend : 0 < (s.link i).resend)
    (hx : (s.link i).replay[(s.link i).replay.length - (s.link i).resend]? = some x) :
    exec (.flitSend i) s
      = .next ((((s.setLink i { s.link i with resend := (s.link i).resend - 1 }).dataPassed).emit i (.data x.1 x.2)).count 0x0500 1) := by
  obtain ⟨hlt, hx⟩ := List.getElem?_eq_some_iff.mp hx
  rw [exec_flitSend, execFlitSend, if_neg (by simp [hi, hrun, hup])]
  simp only [hctrl, hup, Link.owed_any_of_paid hpaid, List.drop_eq_getElem_cons hlt, hx, hresend, reduceCtorEq, if_false, if_true,
    Bool.false_eq_true]

theorem flitSend_of_new (hresend : (s.link i).resend = 0) : exec (.flitSend i) s = .next (s.sendNew i) := by
  rw [exec_flitSend, execFlitSend, if_neg (by simp [hi, hrun, hup])]
  simp only [hctrl, hup, Link.owed_any_of_paid hpaid, hresend, Nat.sub_zero, List.drop_length, reduceCtorEq, if_false,
    Bool.false_eq_true]

end

section
variable {s : State} {i : Nat}

theorem State.sendNew_of_full (hfull : 1024 ≤ (s.link i).replay.length) : s.sendNew i = s := if_pos hfull

theorem State.sendNew_of_ceilings (hroom : (s.link i).replay.length < 1024)
    (hall : ∀ tc ∈ (s.link i).readyClasses (s.link i).lastClass, s.classMay i tc = false) :
    s.sendNew i = s.classesWait i ((s.link i).readyClasses (s.link i).lastClass) := by
  have hfind : ((s.link i).readyClasses (s.link i).lastClass).find? (s.classMay i) = none := by simpa using hall
  simp only [State.sendNew, Nat.not_le.mpr hroom, if_false, hfind]

theorem State.sendNew_of_class {tc : Nat} {f : Flit} {rest : List Flit} (hroom : (s.link i).replay.length < 1024)
    (hfind : ((s.link i).readyClasses (s.link i).lastClass).find? (s.classMay i) = some tc)
    (htake : takeClass (s.link i) tc (s.link i).queue = some (f, rest)) :
    let l := s.link i
    let ix := creditIx f.tc f.vc
    s.sendNew i = (((((s.classesWait i (l.readyClasses l.lastClass)).requestOn (payerOf tc) 1 (linkGroup i) 256).setLink i { l with
      queue := rest, replay := l.replay ++ [(l.txSeq, f)], txSeq := (l.txSeq + 1) % 4096, lastClass := tc
      credits := l.credits.set ix (l.credits.getD ix 0 - 1) }).dataPassed).emit i (.data l.txSeq f)).count 0x0500 1 := by
  simp only [State.sendNew, Nat.not_le.mpr hroom, if_false, hfind, htake]

@[simp] theorem State.classesWait_now (tcs : List Nat) : (s.classesWait i tcs).now = s.now :=
  foldl_keeps State.now _ (fun a _ => State.atCeiling_now a _ _ _) _ _

theorem ackTimer_of_unacked (hup : (s.link i).state = .up) (hunacked : 0 < (s.link i).unacked) (hrun : s.lanesRun = true) :
    exec (.ackTimer i) s = .next ((s.setLink i { s.link i with unacked := 0 }).emit i (.ack (s.link i).rxSeq)) :=
  if_pos ⟨hup, hunacked, hrun⟩

end

/-- Settles O51, a row at a time. A DATA flit in sequence is received first, with the ACK of the 64th in the link's record, and then taken
or held in that state, whose device address is still that of the state before; FLIT_SEND goes down its order of what waits. -/
theorem linkFlitRows : Obligations.LinkFlitRows := by
  unfold Obligations.LinkFlitRows
  intro s i hi hlen hup hrun l nakked
  refine ⟨?data, ?gap, ?bad, ?ack, ?nak, ?credit, ?ctrl, ?send, ?timer⟩
  case data =>
    rintro f lseq rfl next t v w a u
    have hrow : exec (.dataFlit i l.rxSeq f) s = settled (a.takeFlit (some i) f) := dataFlit_of_inSequence hi hlen hup f
    have haddr : a.devAddr = s.devAddr := State.dataIn_devAddr s i f
    refine ⟨fun hgated => ?wait, fun hopen => ⟨fun hmine => ?mine, fun hother => ?other⟩⟩
    case wait => exact hrow.trans (congrArg settled (State.takeFlit_of_gated hgated))
    case mine =>
      exact hrow.trans (congrArg settled ((State.takeFlit_of_open hopen).trans (State.admitFlit_of_mine (haddr.trans hmine))))
    case other =>
      exact hrow.trans (congrArg settled ((State.takeFlit_of_open hopen).trans (State.admitFlit_of_other (by rwa [haddr]))))
  case gap =>
    intro f lseq hseq
    have hrow := dataFlit_of_outOfSequence hi hup f hseq
    refine ⟨fun hfirst => ?first, fun hsent => ?sent⟩
    case first => exact hrow.trans (congrArg _ (State.nakOnce_of_first hlen hfirst))
    case sent => exact hrow.trans (congrArg _ (State.nakOnce_of_sent hsent))
  case bad =>
    intro codeword data k t
    refine ⟨badFlit_of_quiet codeword, fun hdata hfirst => ?_⟩
    subst hdata
    exact badFlit_of_data hi hlen hup codeword hfirst
  case ack => exact ackFlit_eq hlen
  case nak =>
    intro lseq q naks t
    exact ⟨nakFlit_of_few, nakFlit_of_limit hup⟩
  case credit => exact creditFlit_eq hlen
  case ctrl => exact fun x xs => flitSend_of_ctrl hi hrun hup
  case send =>
    intro hctrl
    refine ⟨flitSend_of_owed hi hrun hup hctrl,
      fun hpaid => ⟨fun x => flitSend_of_replay hi hrun hup hctrl hpaid, fun hresend => ?_⟩⟩
    intro ready
    have hrow := flitSend_of_new hi hrun hup hctrl hpaid hresend
    refine ⟨fun hfull => ?full, fun hroom hall => ?ceilings, fun tc f rest hroom hfind htake => ?sent⟩
    case full => exact hrow.trans (congrArg _ (State.sendNew_of_full hfull))
    case ceilings => exact hrow.trans (congrArg _ (State.sendNew_of_ceilings hroom hall))
    case sent =>
      intro ix u
      rw [hrow, State.sendNew_of_class hroom hfind htake]
      simp [State.dataPassed, u, ix, ready, l, linkGroup]
  case timer => exact fun hunacked => ackTimer_of_unacked hup hunacked hrun

end Sys2Proof.Machine
end

section
/-!
PROOFS. The state of a link (R271 to R276, R280, R281, R310): training, silence, retry, keepalives and lanes.
-/
namespace Sys2Proof.Machine

/-- R276, Table 9.2: an address is unset, or both are the same. -/
abbrev AddressClash (own peer : Option Nat) : Prop := own = none ∨ peer = none ∨ own = peer

theorem addressClash_iff {own peer : Option Nat} : own = none ∨ peer = none ∨ peer = own ↔ AddressClash own peer :=
  or_congr_right (or_congr_right eq_comm)

section
variable {s : State} {i : Nat}

/-! ## Training (R273, R280) -/

theorem exec_linkTrainingDone (ok : Bool) : exec (.linkTrainingDone i ok) s = execLinkTrainingDone i ok s := rfl

theorem linkTrainingDone_of_unclocked (hrun : s.lanesRun = false) (ok : Bool) : exec (.linkTrainingDone i ok) s = .next s :=
  if_pos (by simp [hrun])

section
variable (hi : i < 64) (htrain : (s.link i).state = .training) (hrun : s.lanesRun = true)
include hi htrain hrun

theorem linkTrainingDone_of_failed {ok : Bool} (hfail : ok = false ∨ (s.link i).healthy.length < 2 ∨ (s.link i).peerLink = none) :
    exec (.linkTrainingDone i ok) s = .next (s.linkTo i .down) := by
  rw [exec_linkTrainingDone, execLinkTrainingDone, if_neg (by simp [htrain, hi, hrun])]
  exact if_pos (by simpa using hfail)

variable (hlanes : 2 ≤ (s.link i).healthy.length) (hpeer : (s.link i).peerLink ≠ none)
include hlanes hpeer

theorem linkTrainingDone_of_clash (hclash : AddressClash s.devAddr (s.link i).peerAddr) :
    exec (.linkTrainingDone i true) s = .next ((s.linkTo i .conflict).linkHeard i) := by
  rw [exec_linkTrainingDone, execLinkTrainingDone, if_neg (by simp [htrain, hi, hrun])]
  exact (if_neg (by simp [hpeer]; omega)).trans (if_pos (addressClash_iff.mpr hclash))

theorem linkTrainingDone_of_apart (hapart : ¬AddressClash s.devAddr (s.link i).peerAddr) :
    let t := (s.linkTo i .up).linkHeard i
    exec (.linkTrainingDone i true) s = .next ((t.setLink i { t.link i with credits := List.replicate 14 32 }).routeWaiting) := by
  rw [exec_linkTrainingDone, execLinkTrainingDone, if_neg (by simp [htrain, hi, hrun])]
  exact (if_neg (by simp [hpeer]; omega)).trans (if_neg (addressClash_iff.not.mpr hapart))

end

/-! ## Retry, silence and keepalives (R273, R276, R281) -/

theorem linkRetryTimer_of_enabled (hi : i < 64) (hdown : (s.link i).state = .down) (henabled : s.linkEnabled i = true)
    (hclock : s.power.refclk = true) (hon : s.linksOff = false) :
    exec (.linkRetryTimer i) s = .next (({ s with now := max s.now ((s.link i).downAt + 1000000) }).retrain i) :=
  if_pos ⟨hdown, henabled, hclock, hi, by simp [hon]⟩

theorem linkSilenceTimeout_of_live (hlive : (s.link i).state = .up ∨ (s.link i).state = .conflict) :
    exec (.linkSilenceTimeout i) s
      = .next (({ s with now := max s.now ((s.link i).lastRx + 16 * s.setting 0x4002) }).linkTo i .down) := if_pos hlive

theorem keepaliveSend_of_unclocked (hrun : s.lanesRun = false) : exec (.keepaliveSend i) s = .next s :=
  if_neg (by simp [hrun])

theorem flitSend_of_unclocked (hrun : s.lanesRun = false) : exec (.flitSend i) s = .next s :=
  if_pos (by simp [hrun])

theorem keepaliveSend_of_clocked (hrun : s.lanesRun = true)
    (hon : (s.link i).state = .training ∨ (s.link i).state = .up ∨ (s.link i).state = .conflict) :
    exec (.keepaliveSend i) s = .next (State.emit { s with now := max s.now ((s.link i).lastTx + s.setting 0x4002) } i
      (.keepalive s.devAddr i s.crewVersion s.keepState)) := if_pos ⟨hrun, hon⟩

theorem exec_keepaliveFlit (addr : Option Nat) (pl crew st : Nat) :
    exec (.keepaliveFlit i addr pl crew st) s = execKeepaliveFlit i addr pl crew st s := rfl

/-- R276: what a KEEPALIVE says, in the link's record. -/
def State.peerSays (s : State) (i : Nat) (addr : Option Nat) (pl crew : Nat) : State :=
  s.setLink i { s.link i with peerAddr := addr, peerLink := some pl, peerCrew := crew, lastRx := s.now }

theorem keepaliveFlit_of_off (hoff : (s.link i).state = .disabled ∨ (s.link i).state = .down) (addr : Option Nat) (pl crew st : Nat) :
    exec (.keepaliveFlit i addr pl crew st) s = .next s := if_pos hoff

/-- A KEEPALIVE that is heard is recorded; then a clash and the state decide whether the link moves. -/
theorem keepaliveFlit_of_on (hlen : i < s.net9.links.length) (hon : ¬((s.link i).state = .disabled ∨ (s.link i).state = .down))
    (addr : Option Nat) (pl crew st : Nat) :
    exec (.keepaliveFlit i addr pl crew st) s =
      if AddressClash s.devAddr addr ∧ (s.link i).state = .up then .next ((s.peerSays i addr pl crew).linkTo i .conflict)
      else if ¬AddressClash s.devAddr addr ∧ (s.link i).state = .conflict then .next ((s.peerSays i addr pl crew).linkTo i .training)
      else .next (s.peerSays i addr pl crew) := by
  have hbad : (decide (s.devAddr = none) || decide (addr = none) || decide (addr = s.devAddr)) = decide (AddressClash s.devAddr addr) := by
    simp only [← addressClash_iff, Bool.decide_or, Bool.or_assoc]
  rw [exec_keepaliveFlit, execKeepaliveFlit, if_neg hon]
  simp only [State.linkHeard_setLink hlen, hbad, State.peerSays, ← decide_not, ← Bool.decide_and, decide_eq_true_eq]

theorem idleFlit_eq : exec (.idleFlit i) s = .next (s.setLink i { s.link i with lastRx := s.now }) := rfl

/-! ## Lanes (R274, R275) -/

theorem laneCtrl_of_up (hup : (s.link i).state = .up) (lane : Nat) :
    exec (.laneCtrl i lane) s = .next ((s.laneFail i lane).linkHeard i) := if_pos hup

theorem laneLossOfLock_of_idle {lane : Nat} (hidle : lane ∉ (s.link i).active) : exec (.laneLossOfLock i lane) s = .next s :=
  if_neg (by simp [hidle])

theorem laneLossOfLock_of_active (hup : (s.link i).state = .up) {lane : Nat} (hactive : lane ∈ (s.link i).active) :
    exec (.laneLossOfLock i lane) s = .next ((s.pushCtrl i (.laneCtrl lane)).laneFail i lane) :=
  if_pos ⟨hup, by simpa using hactive⟩

section
variable (hlen : i < s.net9.links.length) {l : Link} {lane : Nat} (hactive : lane ∈ l.active)
include hlen hactive

theorem State.laneFail_spare (hfour : ({ l with failed := l.failed ++ [lane] } : Link).healthy.length = 4) :
    let l1 : Link := { l with failed := l.failed ++ [lane] }
    (s.setLink i l).laneFail i lane
      = (((s.setLink i { l1 with active := l1.healthy, spareUsed := true, resend := l1.replay.length }).linkChanged
        i).spareEvent).count 0x0506 1 := by
  intro l1
  simp only [State.laneFail, State.link_setLink hlen, State.setLink_setLink]
  rw [if_neg (by simpa using hactive), if_pos hfour]

theorem State.laneFail_half (hhalf : ({ l with failed := l.failed ++ [lane] } : Link).healthy.length = 2
    ∨ ({ l with failed := l.failed ++ [lane] } : Link).healthy.length = 3) :
    let l1 : Link := { l with failed := l.failed ++ [lane] }
    (s.setLink i l).laneFail i lane
      = ((s.setLink i { l1 with active := l1.healthy.take 2, half := true, resend := l1.replay.length }).linkChanged
        i).count 0x0506 1 := by
  intro l1
  simp only [State.laneFail, State.link_setLink hlen, State.setLink_setLink]
  rw [if_neg (by simpa using hactive), if_neg (by omega), if_pos (by omega)]

theorem State.laneFail_down (hfew : ({ l with failed := l.failed ++ [lane] } : Link).healthy.length < 2) :
    (s.setLink i l).laneFail i lane
      = (s.setLink i { l with failed := l.failed ++ [lane], active := [] }).linkTo i .down := by
  simp only [State.laneFail, State.link_setLink hlen, State.setLink_setLink]
  rw [if_neg (by simpa using hactive), if_neg (by omega), if_neg (by omega)]

end

theorem serWindow_eq (errors : List Nat) (total : Nat) :
    let all := errors.foldl (· + ·) 0
    let t := (s.freeNat.2.setLink i { s.link i with symErr := all % 2 ^ 32 }).count 0x0502 (s.freeNat.1 % (all + 1))
    exec (.serWindow i errors total) s
      = .next (((s.link i).active.filter (fun k => decide (total < errors.getD k 0 * 2 ^ s.setting 0x4004))).foldl
          (fun u k => if (u.link i).state = .up then (u.pushCtrl i (.laneCtrl k)).laneFail i k else u) t) := rfl

end

/-- Settles O50, a row at a time: whether the two addresses clash decides where a trained link and one that hears a KEEPALIVE go, and the
number of healthy lanes what becomes of a link that loses one. -/
theorem linkStateRows : Obligations.LinkStateRows := by
  unfold Obligations.LinkStateRows
  intro s i hi hlen l clash
  refine ⟨?training, ?retry, ?silence, ?unclocked, ?send, ?keepalive, idleFlit_eq, ?lanes, ?window⟩
  case training =>
    intro htrain hrun
    exact ⟨linkTrainingDone_of_failed hi htrain hrun (.inl rfl), fun hfail => linkTrainingDone_of_failed hi htrain hrun (.inr hfail),
      fun hlanes hpeer => linkTrainingDone_of_clash hi htrain hrun hlanes hpeer,
      fun hlanes hpeer => linkTrainingDone_of_apart hi htrain hrun hlanes hpeer⟩
  case retry => exact linkRetryTimer_of_enabled hi
  case silence => exact linkSilenceTimeout_of_live
  case unclocked =>
    exact fun hrun ok => ⟨linkTrainingDone_of_unclocked hrun ok, keepaliveSend_of_unclocked hrun, flitSend_of_unclocked hrun⟩
  case send => exact keepaliveSend_of_clocked
  case keepalive =>
    intro addr pl crew st t
    refine ⟨fun hoff => keepaliveFlit_of_off hoff addr pl crew st, fun hup hclash => ?up, fun hconf hapart => ?conflict,
      fun hstay => ?stays⟩
    case up =>
      rw [keepaliveFlit_of_on hlen (by simp [show (s.link i).state = _ from hup]), if_pos ⟨hclash, hup⟩]
      rfl
    case conflict =>
      rw [keepaliveFlit_of_on hlen (by simp [show (s.link i).state = _ from hconf]), if_neg (fun h => hapart h.1),
        if_pos ⟨hapart, hconf⟩]
      rfl
    case stays =>
      rcases hstay with htrain | ⟨hup, hapart⟩ | ⟨hconf, hclash⟩
      · have hs : (s.link i).state = .training := htrain
        rw [keepaliveFlit_of_on hlen (by simp [hs]), if_neg (by simp [hs]), if_neg (by simp [hs])]
        rfl
      · have hs : (s.link i).state = .up := hup
        rw [keepaliveFlit_of_on hlen (by simp [hs]), if_neg (fun h => hapart h.1), if_neg (by simp [hs])]
        rfl
      · have hs : (s.link i).state = .conflict := hconf
        rw [keepaliveFlit_of_on hlen (by simp [hs]), if_neg (by simp [hs]), if_neg (fun h => h.1 hclash)]
        rfl
  case lanes =>
    intro lane hup
    refine ⟨laneCtrl_of_up hup lane, laneLossOfLock_of_idle, fun hactive => ?_⟩
    intro l1
    have hrow := laneLossOfLock_of_active hup hactive
    exact ⟨fun hfour => hrow.trans (congrArg _ (State.laneFail_spare hlen hactive hfour)),
      fun hhalf => hrow.trans (congrArg _ (State.laneFail_half hlen hactive hhalf)),
      fun hfew => hrow.trans (congrArg _ (State.laneFail_down hlen hactive hfew))⟩
  case window => exact fun errors total _ => serWindow_eq errors total

end Sys2Proof.Machine
end

section
/-!
PROOFS. Watched peers (R281, R286 to R288, R326 to R328): which they are, their keepalives, and their loss.
-/
namespace Sys2Proof.Machine

section
variable {s : State}

/-! ## Who is watched (R326) -/

/-- The holder, the BOUND ward and the ring neighbours of the collectives, but never this device. -/
theorem State.mem_watched_iff {a : Nat} : a ∈ s.watched ↔ s.devAddr ≠ some a
    ∧ ((s.pair.holder = some a ∧ s.pair.holderState ≠ .none) ∨ (s.pair.ward = some a ∧ s.pair.wardState = .bound)
      ∨ ∃ c ∈ s.cmds, a ∈ c.watches) := by
  simp only [State.watched, List.mem_eraseDups, List.mem_filter, List.mem_append, List.mem_flatMap, decide_eq_true_eq,
    and_comm (b := s.devAddr ≠ some a), or_assoc]
  refine and_congr_right' (or_congr ?holder (or_congr ?ward Iff.rfl))
  case holder =>
    cases s.pair.holder with
    | none => simp
    | some h => by_cases hs : s.pair.holderState = .none <;> simp [hs, eq_comm]
  case ward =>
    cases s.pair.ward with
    | none => simp
    | some w => by_cases hs : s.pair.wardState = .bound <;> simp [hs, eq_comm]

/-! ## Keepalives sent and passed on (R281, R286 to R288) -/

theorem peerKeepaliveSend_eq :
    let t : State := { s with now := max s.now (s.pair.kaAt + s.setting 0x6020) }
    exec .peerKeepaliveSend s = .next (s.watched.foldl (fun t a => t.sendPeerKeepalive a t.keepState)
      { t with pair := { t.pair with kaAt := t.now } }) := rfl

section
variable {f : Flit}

theorem exec_peerKeepalive : exec (.peerKeepalive f) s = execPeerKeepalive f s := rfl

theorem peerKeepalive_of_other {a : Nat} (haddr : s.devAddr = some a) (hother : a ≠ f.dest) :
    exec (.peerKeepalive f) s = .next (s.passPeerKeepalive f) := if_pos (by simpa [haddr] using hother)

theorem State.passPeerKeepalive_of_spent (hspent : 15 ≤ f.hops) : s.passPeerKeepalive f = s.count 0x0508 1 := if_pos hspent

theorem State.passPeerKeepalive_of_noWay (hlow : f.hops < 15) (hnone : s.upLinks f.dest = []) :
    s.passPeerKeepalive f = s.count 0x0509 1 := by
  simp only [State.passPeerKeepalive, Nat.not_le.mpr hlow, if_false, hnone, State.shortest]

section
variable {i : Nat} (hlow : f.hops < 15) (hlink : s.shortest (s.upLinks f.dest) = some i)
include hlow hlink

theorem State.passPeerKeepalive_of_room (hroom : (s.link i).ctrl = [] ∨ s.freeNat.1 % 2 = 0) :
    s.passPeerKeepalive f = s.freeNat.2.pushCtrl i (.peerKeepalive { f with
      hops := f.hops + 1, vc := if f.dest / 256 = s.devAddr.getD 0 / 256 then 1 else f.vc }) := by
  simp only [State.passPeerKeepalive, Nat.not_le.mpr hlow, if_false, hlink]
  refine if_neg ?_
  rcases hroom with hempty | heven
  · simp [hempty]
  · simp [heven]

theorem State.passPeerKeepalive_of_crowded (hqueue : (s.link i).ctrl ≠ []) (hodd : s.freeNat.1 % 2 = 1) :
    s.passPeerKeepalive f = s.freeNat.2.count 0x0507 1 := by
  simp only [State.passPeerKeepalive, Nat.not_le.mpr hlow, if_false, hlink]
  exact if_pos (by simp [hqueue, hodd])

end

/-! ## Keepalives that are heard (R327, R328) -/

section
variable (hmine : s.devAddr = none ∨ s.devAddr = some f.dest)
include hmine

theorem peerKeepalive_of_stranger (hpeer : (s.heard f.src true).peer f.src = none) :
    exec (.peerKeepalive f) s = .next (s.heard f.src true) := by
  rw [exec_peerKeepalive, execPeerKeepalive, if_neg (by rcases hmine with h | h <;> simp [h])]
  simp only [hpeer]

/-- What a keepalive of a known peer does is told by its STATE. -/
theorem peerKeepalive_of_peer {p : Peer} (hpeer : (s.heard f.src true).peer f.src = some p) :
    exec (.peerKeepalive f) s =
      if fld f.payload 4 1 = 1 then .next ((s.heard f.src true).setPeer { p with suspended := true })
      else if fld f.payload 4 1 = 2 ∧ f.src ∈ (s.heard f.src true).watched ∧ p.lost = false then
        .next ((s.heard f.src true).declareLost f.src)
      else .next (s.heard f.src true) := by
  rw [exec_peerKeepalive, execPeerKeepalive, if_neg (by rcases hmine with h | h <;> simp [h])]
  simp [hpeer, and_assoc]

end
end

/-! ## Silence (R327) -/

theorem exec_peerLossTimeout (a : Nat) : exec (.peerLossTimeout a) s = execPeerLossTimeout a s := rfl

theorem peerLossTimeout_of_watched {p : Peer} {a : Nat} (hpeer : s.peer a = some p) (hwatched : a ∈ s.watched)
    (hheard : p.suspended = false) (hkept : p.lost = false) :
    exec (.peerLossTimeout a) s
      = .next (State.declareLost { s with now := max s.now (p.since + s.setting 0x6020 * s.setting 0x6021) } a) := by
  simp only [exec_peerLossTimeout, execPeerLossTimeout, hpeer]
  exact if_pos (by simp [hwatched, hheard, hkept])

end

/-- Settles O49: a keepalive for another device is passed on as `passPeerKeepalive` says, case by case; one that is heard acts by its STATE
where its sender has a record. -/
theorem peerRows : Obligations.PeerRows := by
  unfold Obligations.PeerRows
  intro s
  refine ⟨peerKeepaliveSend_eq, fun a => State.mem_watched_iff, fun p a => peerLossTimeout_of_watched, ?other, ?mine⟩
  case other =>
    rintro f ⟨a, haddr, hother⟩
    have hrow := peerKeepalive_of_other haddr hother
    refine ⟨fun hspent => ?spent, fun hlow hnone => ?noWay, fun i hlow hlink => ⟨fun hroom => ?room, fun hqueue hodd => ?crowded⟩⟩
    case spent => exact hrow.trans (congrArg _ (State.passPeerKeepalive_of_spent hspent))
    case noWay => exact hrow.trans (congrArg _ (State.passPeerKeepalive_of_noWay hlow hnone))
    case room => exact hrow.trans (congrArg _ (State.passPeerKeepalive_of_room hlow hlink hroom))
    case crowded => exact hrow.trans (congrArg _ (State.passPeerKeepalive_of_crowded hlow hlink hqueue hodd))
  case mine =>
    intro f hmine h
    refine ⟨peerKeepalive_of_stranger hmine, fun p hpeer => ?_⟩
    have hrow := peerKeepalive_of_peer hmine hpeer
    refine ⟨fun hawake hkept => ?active, fun hhousing => ?housing, fun hresetting hleft => ?unwatched,
      fun hresetting hwatched hkept => ?lost⟩
    case active => exact hrow.trans ((if_neg hawake).trans (if_neg fun h => hkept h.1))
    case housing => exact hrow.trans (if_pos hhousing)
    case unwatched =>
      refine hrow.trans ((if_neg (by omega)).trans (if_neg ?_))
      rintro ⟨-, hwatched, hkept⟩
      exact hleft.elim (· hwatched) (by simp [hkept])
    case lost => exact hrow.trans ((if_neg (by omega)).trans (if_pos ⟨hresetting, hwatched, hkept⟩))

end Sys2Proof.Machine
end

section
/-!
PROOFS. The partner commands (R313 to R318, R325, R329): the handlers of PAIR_SET, SECURE and RESTORE_SERVE, and what each is answered.
-/
namespace Sys2Proof.Machine

/-- A fold leaves a state as it is where none of its steps moves it. -/
theorem foldl_of_still {α β : Type} {f : β → α → β} {xs : List α} (h : ∀ t, ∀ x ∈ xs, f t x = t) (t : β) : xs.foldl f t = t := by
  induction xs generalizing t with
  | nil => rfl
  | cons x xs ih =>
    rw [List.foldl_cons, h t x List.mem_cons_self]
    exact ih (fun u y hy => h u y (List.mem_cons_of_mem x hy)) t

@[simp] theorem State.refreshFlags_power (s : State) : s.refreshFlags.power = s.power := by
  unfold State.refreshFlags
  dsimp only
  split <;> rfl

/-! ## UNBIND (R316) -/

/-- A command met by an UNBIND of a holder: a SECURE is cancelled there, and ends (log entry 42). -/
def State.cancelSecure (holder : Nat) (t : State) (c : Cmd) : State :=
  match c.body with
  | .secure r => (t.sendFlit holder 6 0 r.id (pairMsg 0x14 0 0 0 []) []).abortSecure c r 0x40
  | _ => t

/-- A holder is told that it is left, and is none. -/
def State.leaveHolder (t : State) (holder : Nat) : State :=
  let b := t.sendFlit holder 6 0 0 (pairMsg 3 0 0 0 []) []
  ({ b with pair := { b.pair with holderState := .none, holder := none } }).refreshFlags

section
variable {holder : Nat} (t : State) {c : Cmd}

theorem State.cancelSecure_of_secure {r : SecureRun} (h : c.body = .secure r) :
    t.cancelSecure holder c = (t.sendFlit holder 6 0 r.id (pairMsg 0x14 0 0 0 []) []).abortSecure c r 0x40 := by
  simp only [State.cancelSecure, h]

theorem State.cancelSecure_of_other (h : ∀ r, c.body ≠ .secure r) : t.cancelSecure holder c = t := by
  unfold State.cancelSecure
  split
  · exact absurd ‹_› (h _)
  · rfl

end

/-- Of all the commands the one SECURE alone is cancelled. -/
theorem State.cancelSecures_of_one {holder : Nat} {c : Cmd} {r : SecureRun} {cs ds : List Cmd} (hbody : c.body = .secure r)
    (hothers : ∀ d ∈ cs ++ ds, ∀ z, d.body ≠ .secure z) (t : State) :
    (cs ++ c :: ds).foldl (State.cancelSecure holder) t
      = (t.sendFlit holder 6 0 r.id (pairMsg 0x14 0 0 0 []) []).abortSecure c r 0x40 := by
  have hbefore := foldl_of_still (f := State.cancelSecure holder) (xs := cs)
    (fun u d hd => u.cancelSecure_of_other (hothers d (List.mem_append_left ds hd))) t
  have hafter := foldl_of_still (f := State.cancelSecure holder) (xs := ds)
    (fun u d hd => u.cancelSecure_of_other (hothers d (List.mem_append_right cs hd)))
  rw [List.foldl_append, hbefore, List.foldl_cons, hafter, State.cancelSecure_of_secure t hbody]

/-! ## The handler of PAIR_SET -/

section
variable {s : State} {q : Req} (hlen : q.params.length = 8)
include hlen

theorem pairSet_of_bind (haction : fld q.params 0 1 = 0) (hfeedA : s.setting 0x6000 ≠ 0) (hfeedB : s.setting 0x6001 ≠ 0)
    (hother : s.devAddr ≠ some (fld q.params 4 4 % 2 ^ 20)) (hbinding : s.pair.holderState ≠ .binding)
    (hbound : s.pair.holderState ≠ .bound) (hbinds : ∀ c ∈ s.cmds, ∀ z y w, c.body ≠ .bind z y w) (hfree : s.securing = false)
    (hwatch : s.watchFull [fld q.params 4 4 % 2 ^ 20] = false) :
    pairSet q s = .accept [] (.bind (fld q.params 4 4 % 2 ^ 20) s.now (s.setting 0x6020)) none s := by
  have hnone : s.cmds.any (fun c => match c.body with | .bind _ _ _ => true | _ => false) = false := by
    refine List.any_eq_false.mpr fun c hc => ?_
    split
    · exact absurd ‹_› (hbinds c hc _ _ _)
    · decide
  unfold pairSet
  dsimp only
  rw [if_neg (not_not.mpr hlen)]
  simp only [haction]
  refine if_neg ?_
  simp only [Bool.or_eq_true, decide_eq_true_eq, hfeedA, hfeedB, hother, hbinding, hbound, hfree, hwatch, false_or, or_false,
    Bool.false_eq_true]
  exact Bool.eq_false_iff.mp hnone

theorem pairSet_of_unbind {holder : Nat} (haction : fld q.params 0 1 = 1) (hholder : s.pair.holder = some holder)
    (hbinding : s.pair.holderState ≠ .binding) :
    pairSet q s = .done .ok [] ((s.cmds.foldl (State.cancelSecure holder) s).leaveHolder holder) .nothing := by
  unfold pairSet
  dsimp only
  rw [if_neg (not_not.mpr hlen)]
  simp only [haction, hholder]
  exact if_neg hbinding

theorem pairSet_of_release (haction : fld q.params 0 1 = 2) (hgone : s.pair.wardState = .lost ∨ s.pair.wardState = .retained) :
    pairSet q s = .done .ok []
      ({ s with pair := { s.pair with wardState := .none, ward := none, slots := [.empty, .empty] } }).refreshFlags .nothing := by
  unfold pairSet
  dsimp only
  rw [if_neg (not_not.mpr hlen)]
  simp only [haction]
  exact if_pos hgone

theorem pairSet_of_query (haction : fld q.params 0 1 = 3) : pairSet q s = .done .ok (pairRecord s) s .nothing := by
  unfold pairSet
  dsimp only
  rw [if_neg (not_not.mpr hlen)]
  simp only [haction]
  rfl

end

/-! ## The handlers of SECURE and RESTORE_SERVE -/

section
variable {s : State} {q : Req}

/-- The handles that a SECURE names (R318). -/
def secureHandles (ps : List Byte) : List Nat := (List.range (fld ps 8 1)).map (fun i => fld ps (16 + 4 * i) 4)

theorem secure_of_blocked :
    let n := fld q.params 8 1
    let hs := secureHandles q.params
    let ts := hs.filterMap s.tensor
    1 ≤ n → n ≤ 64 → q.params.length = 16 + 4 * n → ts.length = n → (∀ t ∈ ts, t.layout = .blocked) → hs.eraseDups.length = n →
    s.securing = false → s.pair.holderState = .bound → (s.pair.sameHolder = false ∨ s.setting 0x6002 ≠ 0) →
    copyBytes ts ≤ s.pair.holderSlot →
    secure q s = .accept (leBytes 4 s.pair.nextSecure) (.secure ⟨s.pair.nextSecure, fld q.params 0 8, hs, false, 0, [], [], 0, 0, false⟩)
      none { s with pair := { s.pair with nextSecure := (s.pair.nextSecure + 1) % 2 ^ 32 } } := by
  intro n hs ts hpos hmax hlen hall hblocked hdistinct hfree hbound hfeeds hfit
  have hfields : ¬(n = 0 ∨ 64 < n ∨ q.params.length ≠ 16 + 4 * n) := by omega
  have htensors : ¬(ts.length ≠ n ∨ ts.any (fun t => decide (t.layout ≠ .blocked)) = true ∨ hs.eraseDups.length ≠ n
      ∨ s.securing = true) := by
    simpa [hall, hdistinct, hfree] using hblocked
  have hallowed : ¬(s.pair.sameHolder && decide (s.setting 0x6002 = 0)) = true := by
    rcases hfeeds with h | h <;> simp [h]
  exact (if_neg hfields).trans ((if_neg htensors).trans ((if_neg (not_not.mpr hbound)).trans ((if_neg hallowed).trans
    (if_neg (Nat.not_lt.mpr hfit)))))

/-- The serve that a RESTORE_SERVE of a tensor of a slot describes (Table 10.8). -/
def serveOfParams (ps : List Byte) (k : Nat) (f : Fmt) (now : Nat) : ServeRun :=
  { slot := k, tidx := fld ps 12 1, target := fld ps 28 4 % 2 ^ 20, handle := fld ps 32 4, from_ := fld ps 16 8 / 32 * rowBytes f,
    to_ := fld ps 36 8 / 32 * rowBytes f, bytes := fld ps 24 4 / 32 * rowBytes f, sent := 0, ended := false, since := now, src := none }

theorem restoreServe_of_rows {k : Nat} {t : Tensor} (hlen : q.params.length = 44) (hward : s.pair.wardState ≠ .none)
    (hwho : s.pair.ward = some (fld q.params 0 4 % 2 ^ 20)) (hslot : s.completeSlot = some k)
    (ht : (s.slotTensors k)[fld q.params 12 1]? = some t) (hstep : s.slotStep k = fld q.params 4 8)
    (hfirst : fld q.params 16 8 % 32 = 0) (hcount : fld q.params 24 4 % 32 = 0) (hto : fld q.params 36 8 % 32 = 0)
    (hmin : 32 ≤ fld q.params 24 4) (hmax : fld q.params 24 4 ≤ 2 ^ 30)
    (hfit : fld q.params 16 8 + fld q.params 24 4 ≤ t.positions) :
    restoreServe q s = .accept [] (.serve (serveOfParams q.params k t.f s.now)) none s := by
  have hfields : ¬(q.params.length ≠ 44 ∨ s.pair.wardState = .none ∨ s.pair.ward ≠ some (fld q.params 0 4 % 2 ^ 20)) := by
    simp [hlen, hward, hwho]
  have hlined : (!(decide (fld q.params 16 8 % 32 = 0) && decide (fld q.params 24 4 % 32 = 0) && decide (fld q.params 36 8 % 32 = 0)))
      = false := by simp [hfirst, hcount, hto]
  have hrange : ¬(s.slotStep k ≠ fld q.params 4 8 ∨ false = true ∨ fld q.params 24 4 < 32 ∨ 2 ^ 30 < fld q.params 24 4
      ∨ t.positions < fld q.params 16 8 + fld q.params 24 4) := by
    simp only [hstep, ne_eq, not_true_eq_false, Bool.false_eq_true, false_or]
    omega
  unfold restoreServe
  dsimp only
  rw [if_neg hfields]
  simp only [hslot, ht, hlined]
  exact if_neg hrange

end

/-! ## The admitted state -/

section
variable {s : State} {op : Op} {p : Packet}

@[simp] theorem State.admitted_devAddr : (s.admitted op p).devAddr = s.devAddr := by simp [State.devAddr]

@[simp] theorem State.admitted_securing : (s.admitted op p).securing = s.securing := by simp [State.securing]

@[simp] theorem State.admitted_watchFull (more : List Nat) : (s.admitted op p).watchFull more = s.watchFull more :=
  State.admitted_keeps (State.watchFull · more) s op p fun _ _ _ => rfl

@[simp] theorem State.admitted_completeSlot : (s.admitted op p).completeSlot = s.completeSlot :=
  State.admitted_keeps State.completeSlot s op p fun _ _ _ => rfl

@[simp] theorem State.admitted_slotStep (k : Nat) : (s.admitted op p).slotStep k = s.slotStep k :=
  State.admitted_keeps (State.slotStep · k) s op p fun _ _ _ => rfl

@[simp] theorem State.admitted_slotTensors (k : Nat) : (s.admitted op p).slotTensors k = s.slotTensors k :=
  State.admitted_keeps (State.slotTensors · k) s op p fun _ _ _ => rfl

theorem State.admitted_tensor_fun : (s.admitted op p).tensor = s.tensor := funext fun _ => State.admitted_tensor _

end

/-- Settles O27: each handler's checks pass in the admitted state, which has the pair, the settings, the tensors and the commands of the
state before; UNBIND folds over those commands, of which a SECURE alone is touched. -/
theorem partnerCommands : Obligations.PartnerCommands := by
  unfold Obligations.PartnerCommands
  refine ⟨?pair, ?copies⟩
  case pair =>
    intro s p last x h hlen holder a
    refine ⟨?bind, ?unbind, ?unbindCopying, ?release, ?query⟩
    case bind =>
      intro haction hfeedA hfeedB hother hbinding hbound hbinds hfree hwatch
      have hv := pairSet_of_bind (q := (x.taken .pairSet p).req .pairSet p) (s := a) hlen haction (by simpa [a] using hfeedA)
        (by simpa [a] using hfeedB) (by rw [State.admitted_devAddr]; exact hother) (by simpa [a] using hbinding) (by simpa [a] using hbound)
        (by simpa [a] using hbinds) (by simpa [a] using hfree) (by rw [State.admitted_watchFull]; exact hwatch)
      rw [State.admitted_now, State.admitted_setting] at hv
      exact exec_of_accepted rfl h hv h.admitted_awake
    case unbind =>
      intro y haction hholder hbinding _ hcopies b
      have hv := pairSet_of_unbind (q := (x.taken .pairSet p).req .pairSet p) (s := a) hlen haction (by simpa [a] using hholder)
        (by simpa [a] using hbinding)
      rw [foldl_of_still (fun t c hc => t.cancelSecure_of_other (hcopies c (by simpa [a] using hc)))] at hv
      exact exec_of_done rfl h hv (by simpa [b, a] using h.awake)
    case unbindCopying =>
      intro y c r cs ds haction hholder hbinding hcmds hbody hothers b
      have hv := pairSet_of_unbind (q := (x.taken .pairSet p).req .pairSet p) (s := a) hlen haction (by simpa [a] using hholder)
        (by simpa [a] using hbinding)
      rw [State.admitted_cmds, hcmds, State.cancelSecures_of_one hbody hothers] at hv
      exact exec_of_done rfl h hv (by simpa [b, a, State.abortSecure] using h.awake)
    case release =>
      intro haction hgone
      have hv := pairSet_of_release (q := (x.taken .pairSet p).req .pairSet p) (s := a) hlen haction (by simpa [a] using hgone)
      rw [State.admitted_pair] at hv
      exact exec_of_done rfl h hv (by simpa [a] using h.awake)
    case query =>
      intro haction
      exact exec_of_done rfl h (pairSet_of_query (s := a) hlen haction) h.admitted_awake
  case copies =>
    intro s p last x
    refine ⟨?secure, ?serve⟩
    case secure =>
      intro n hs ts h hpos hmax hlen hall hblocked hdistinct hfree hbound hfeeds hfit
      have hv := secure_of_blocked (q := (x.taken .secure p).req .secure p) (s := s.admitted .secure p) hpos hmax hlen
        (by rw [State.admitted_tensor_fun]; exact hall) (by rw [State.admitted_tensor_fun]; exact hblocked) hdistinct
        (by simpa using hfree) (by simpa using hbound) (by simpa using hfeeds)
        (by rw [State.admitted_tensor_fun, State.admitted_pair]; exact hfit)
      rw [State.admitted_pair] at hv
      exact exec_of_accepted rfl h hv h.admitted_awake
    case serve =>
      intro k t ps h hlen hward hwho hslot ht hstep hfirst hcount hto hmin hmax hfit
      have hv := restoreServe_of_rows (q := (x.taken .restoreServe p).req .restoreServe p) (s := s.admitted .restoreServe p) hlen
        (by simpa using hward) (by simpa using hwho) (by simpa using hslot) (by simpa using ht) (by simpa using hstep) hfirst hcount hto
        hmin hmax hfit
      rw [State.admitted_now] at hv
      exact exec_of_accepted rfl h hv h.admitted_awake

end Sys2Proof.Machine
end

section
/-!
PROOFS. Copies and serves under way (R319, R320, R329, R330): the cut of a SECURE, its pieces, the copy before a Tinker's write, the ranges
of a serve, and the silence that ends a BIND or a serve.
-/
namespace Sys2Proof.Machine

section
variable {s : State} {n tag : Nat} {c : Cmd}

theorem exec_secureCut : exec (.secureCut n tag) s = execSecureCut n tag s := rfl
theorem exec_securePieceSend : exec (.securePieceSend n tag) s = execSecurePieceSend n tag s := rfl
theorem exec_restoreDataSend : exec (.restoreDataSend n tag) s = execRestoreDataSend n tag s := rfl
theorem exec_restoreTargetSilent : exec (.restoreTargetSilent n tag) s = execRestoreTargetSilent n tag s := rfl
theorem exec_bindTimeout : exec (.bindTimeout n tag) s = execBindTimeout n tag s := rfl

/-! ## The cut (R319) -/

/-- The pieces of tensors: the index of each tensor with the number of each of its parts of 65,536 bytes. -/
def piecesOf (ts : List Tensor) : List (Nat × Nat) :=
  ((List.range ts.length).zip ts).flatMap (fun x => (List.range ((x.2.footprint + 65535) / 65536)).map (fun j => (x.1, j)))

/-- The cut of a SECURE: its pieces are listed, nothing has been written since, and the header goes to the holder. -/
def State.cutFor (s : State) (c : Cmd) (r : SecureRun) (holder : Nat) : State :=
  let ts := r.tensors.filterMap s.tensor
  let hd := headerBytes r.step ts
  ({ s.setCmd { c with
      body := .secure { r with cut := true, cutAt := s.now, unsent := piecesOf ts }
      running := true, startedAt := s.now } with written := [] }).sendBytes s.devAddr holder 6 r.id 0x10 0 0 (hd.length / 220 + 1) 0 hd []

/-- A SECURE whose turn has come is cut where its holder is bound, and ends otherwise. -/
theorem secureCut_of_due {r : SecureRun} {holder : Nat} (hcmd : s.cmd n tag = some c) (hbody : c.body = .secure r)
    (hholder : s.pair.holder = some holder) (hfresh : r.cut = false)
    (hearlier : ∀ d ∈ s.earlier c, d.op ≠ .updateRun ∧ d.op ≠ .paramWrite) (hmay : s.mayStart c = true)
    (haddr : s.heldAddress = false) :
    exec (.secureCut n tag) s
      = if s.pair.holderState ≠ .bound then .next (s.abortSecure c r 0x40) else .next (s.cutFor c r holder) := by
  have htinker : (s.earlier c).any (fun d => decide (d.op = .updateRun) || decide (d.op = .paramWrite)) = false := by
    simpa using hearlier
  have hgo : ¬(r.cut = true ∨ (s.earlier c).any (fun d => decide (d.op = .updateRun) || decide (d.op = .paramWrite)) = true
      ∨ (!s.mayStart c) = true ∨ s.heldAddress = true) := by
    simp only [hfresh, htinker, hmay, haddr]
    decide
  simp only [exec_secureCut, execSecureCut, hcmd, hbody, hholder]
  exact if_neg hgo

/-! ## What is read of a piece (R320) -/

theorem memTake_length (m : List Host.Cell) (a k : Nat) : (memTake m a k).length = k := by
  induction k generalizing m a with
  | zero => cases m <;> rfl
  | succ k ih =>
    cases m with
    | nil => exact List.length_replicate
    | cons x xs =>
      unfold memTake
      split <;> simp [ih]

theorem State.read_length (a k : Nat) : (s.read a k).length = k := memTake_length _ a k

@[simp] theorem State.noteRead_mem (a k : Nat) : (s.noteRead a k).mem = s.mem := by
  unfold State.noteRead
  split <;> simp

@[simp] theorem State.noteRead_written (a k : Nat) : (s.noteRead a k).written = s.written := by
  unfold State.noteRead
  split
  · simp [State.notePoison, State.poisonSeen]
  · rfl

@[simp] theorem State.noteRead_settings (a k : Nat) : (s.noteRead a k).settings = s.settings := by
  unfold State.noteRead
  split
  · simp [State.notePoison, State.poisonSeen]
  · rfl

@[simp] theorem State.openBytes_settings (a : Nat) (bs : List Byte) : (s.openBytes a bs).2.settings = s.settings := by
  unfold State.openBytes
  split <;> rfl

theorem State.devAddr_of_settings {t : State} (h : t.settings = s.settings) : t.devAddr = s.devAddr := by
  unfold State.devAddr State.setting
  rw [h]

theorem State.openBytes_devAddr (a : Nat) (bs : List Byte) : (s.openBytes a bs).2.devAddr = s.devAddr :=
  State.devAddr_of_settings (State.openBytes_settings a bs)

theorem State.readPiece_devAddr (t : Tensor) (x : Nat × Nat) : (s.readPiece t x).2.devAddr = s.devAddr :=
  State.devAddr_of_settings (by simp [State.readPiece])

theorem State.openBytes_length (a : Nat) (bs : List Byte) : (s.openBytes a bs).1.length = bs.length := by
  unfold State.openBytes
  split <;> simp

/-- A byte that no other requester has written since the cut is sent as it was read. -/
theorem State.openBytes_of_unwritten {a k : Nat} {bs : List Byte} {b : Byte} (hbyte : bs[k]? = some b)
    (hclear : ∀ w ∈ s.written, overlaps (a + k) 1 w.1 w.2 = false) : (s.openBytes a bs).1[k]? = some b := by
  have hlt : k < bs.length := (List.getElem?_eq_some_iff.mp hbyte).1
  have hnone : s.written.any (fun g => overlaps (a + k) 1 g.1 g.2) = false := by simpa using hclear
  unfold State.openBytes
  split
  · have hat : ((List.range bs.length).zip bs)[k]? = some (k, b) := by
      simp [List.getElem?_zip_eq_some, List.getElem?_range hlt, hbyte]
    simp only [List.getElem?_map, hat, Option.map_some, hnone, Bool.false_eq_true, if_false]
  · exact hbyte

theorem State.readPiece_bytes_length (t : Tensor) (x : Nat × Nat) :
    (s.readPiece t x).1.bytes.length = (pieceRange t.footprint x.2).2 :=
  (State.openBytes_length _ _).trans (State.read_length _ _)

theorem State.readPiece_byte_of_unwritten {t : Tensor} {x : Nat × Nat} {k : Nat} {b : Byte}
    (hbyte : (s.read (t.base + (pieceRange t.footprint x.2).1) (pieceRange t.footprint x.2).2)[k]? = some b)
    (hclear : ∀ w ∈ s.written, overlaps (t.base + (pieceRange t.footprint x.2).1 + k) 1 w.1 w.2 = false) :
    (s.readPiece t x).1.bytes[k]? = some b :=
  State.openBytes_of_unwritten hbyte (by simpa using hclear)

/-! ## Pieces that leave (R319, R320) -/

/-- A piece of a SECURE sent under an address and counted, the run then being `r`; SLOT_END after the last. -/
def State.pieceGone (s : State) (src : Option Nat) (c : Cmd) (holder : Nat) (r : SecureRun) (p : CowPiece) : State :=
  let t := (s.sendBytes src holder 6 r.id 0x11 p.tidx 0 299 (65536 * p.piece) p.bytes p.poison).count 0x0382 p.bytes.length
  if r.unsent.isEmpty && r.buffer.isEmpty
    then (t.sendFlit holder 6 0 r.id (pairMsg 0x12 0 0 r.sent []) []).setCmd { c with body := .secure { r with ended := true } }
    else t.setCmd { c with body := .secure r }

theorem State.sendPiece_of_devAddr {src : Option Nat} (h : s.devAddr = src) (r : SecureRun) (holder : Nat) (p : CowPiece) :
    s.sendPiece c r holder p = s.pieceGone src c holder { r with sent := r.sent + 1 } p := h ▸ rfl

section
variable {r : SecureRun} {holder : Nat} (hcmd : s.cmd n tag = some c) (hbody : c.body = .secure r)
  (hholder : s.pair.holder = some holder) (hcut : r.cut = true) (hopen : r.ended = false)
include hcmd hbody hholder hcut hopen

theorem securePieceSend_of_buffer {p : CowPiece} {ps : List CowPiece} (hbuffer : r.buffer = p :: ps) :
    let b := s.openBytes ((s.pieceAt r (p.tidx, p.piece)).getD (0, 0)).1 p.bytes
    exec (.securePieceSend n tag) s
      = .next (b.2.pieceGone s.devAddr c holder { r with buffer := ps, sent := r.sent + 1 } { p with bytes := b.1 }) := by
  have hgo : ¬((!r.cut) = true ∨ r.ended = true) := by simp [hcut, hopen]
  simp only [exec_securePieceSend, execSecurePieceSend, hcmd, hbody, hholder]
  rw [if_neg hgo]
  simp only [hbuffer, State.sendPiece_of_devAddr (State.openBytes_devAddr _ _)]
  cases s.pieceAt r (p.tidx, p.piece) <;> rfl

theorem securePieceSend_of_unsent {x : Nat × Nat} {xs : List (Nat × Nat)} {t : Tensor} (hbuffer : r.buffer = [])
    (hunsent : r.unsent = x :: xs) (ht : s.tensor (r.tensors.getD x.1 0) = some t) :
    exec (.securePieceSend n tag) s = .next (s.moving .secure (s.pieceMoves x)
      (fun u => (u.readPiece t x).2.sendPiece c { r with unsent := xs } holder (u.readPiece t x).1)) := by
  have hgo : ¬((!r.cut) = true ∨ r.ended = true) := by simp [hcut, hopen]
  simp only [exec_securePieceSend, execSecurePieceSend, hcmd, hbody, hholder]
  rw [if_neg hgo]
  simp only [hbuffer, hunsent, ht]

end

theorem State.pieceMoves_of_run {d : Cmd} {r : SecureRun} {x : Nat × Nat} {t : Tensor} (hrun : s.secureRun = some (d, r))
    (ht : s.tensor (r.tensors.getD x.1 0) = some t) :
    s.pieceMoves x = [(false, t.base + (pieceRange t.footprint x.2).1, (pieceRange t.footprint x.2).2)] := by
  simp only [State.pieceMoves, hrun, State.pieceAt, ht, Option.map_some]

/-! ## Copy-before-write (R320) -/

/-- The pieces that a write meets are unsent pieces of the SECURE that runs. -/
theorem State.mem_unsent_of_unsentIn {d : Cmd} {r : SecureRun} {x : Nat × Nat} {rs : List (Nat × Nat)}
    (hrun : s.secureRun = some (d, r)) (hx : x ∈ s.unsentIn rs) : x ∈ r.unsent := by
  rw [State.unsentIn, hrun] at hx
  exact List.mem_of_mem_filter hx

theorem State.bufferPiece_of_run {d : Cmd} {r : SecureRun} {x : Nat × Nat} {t : Tensor} (hrun : s.secureRun = some (d, r))
    (ht : s.tensor (r.tensors.getD x.1 0) = some t) (hx : x ∈ r.unsent) (hroom : r.buffer.length < 256) :
    let p := s.readPiece t x
    let w := (p.2.setCmd { d with body := .secure { r with
      unsent := r.unsent.filter (fun y => y ≠ x), buffer := r.buffer ++ [p.1], cow := r.cow + 1 } }).freeNat
    s.bufferPiece x = (w.2.count 0x0383 1).count 0x0384 w.1 := by
  simp only [State.bufferPiece, hrun, ht]
  exact if_pos ⟨by simpa using hx, hroom⟩

theorem copyBeforeWrite_of_met {ix piece : Nat} (hx : (ix, piece) ∈ s.unsentIn s.aboutToWrite) :
    exec (.copyBeforeWrite ix piece) s
      = .next (s.moving .secure (s.pieceMoves (ix, piece)) (fun u => u.bufferPiece (ix, piece))) := if_pos (by simpa using hx)

theorem copyBeforeWrite_of_apart {ix piece : Nat} (hx : (ix, piece) ∉ s.unsentIn s.aboutToWrite) :
    exec (.copyBeforeWrite ix piece) s = .next s := if_neg (by simpa using hx)

/-! ## Serves and BINDs (R314, R329, R330) -/

theorem restoreDataSend_of_open {r : ServeRun} (hcmd : s.cmd n tag = some c) (hbody : c.body = .serve r) (hopen : r.ended = false)
    (hmay : s.mayStart c = true) :
    exec (.restoreDataSend n tag) s = .next ((s.moving .secure (s.serveMoves r) (fun u => u.serveNext c r)).settle 64) := by
  have hgo : ¬(r.ended = true ∨ (!s.mayStart c) = true) := by simp [hopen, hmay]
  simp only [exec_restoreDataSend, execRestoreDataSend, hcmd, hbody]
  exact if_neg hgo

theorem restoreTargetSilent_of_ended {r : ServeRun} (hcmd : s.cmd n tag = some c) (hbody : c.body = .serve r) (hended : r.ended = true) :
    exec (.restoreTargetSilent n tag) s = .next ((s.reach (r.since + s.setting 0x4005 * 1000)).endServe c r 0x40) := by
  simp only [exec_restoreTargetSilent, execRestoreTargetSilent, hcmd, hbody]
  exact if_pos hended

theorem bindTimeout_of_running {holder since ka : Nat} (hcmd : s.cmd n tag = some c) (hbody : c.body = .bind holder since ka)
    (hrun : c.running = true) :
    exec (.bindTimeout n tag) s = .next (({ s with
      now := max s.now (since + 16 * ka), pair := { s.pair with holderState := .none, holder := none } }).completeGeneric
        c .peerLost 0 0x40 0) := by
  simp only [exec_bindTimeout, execBindTimeout, hcmd, hbody]
  exact if_pos hrun

end

/-- Settles O47: the rows of a copy and of a serve are transfers of SECURE, which wait at its ceiling and are charged below it; what is
charged leaves memory, the commands and the tensors as they were, so a piece is read as it stood. -/
theorem copyRows : Obligations.CopyRows := by
  unfold Obligations.CopyRows
  intro s n tag c hcmd
  refine ⟨?secure, ?before, ?serve, ?silent, ?bind⟩
  case secure =>
    intro r h hbody hholder
    refine ⟨?cut, ?send⟩
    case cut =>
      intro hfresh hearlier hmay haddr ts pieces hd
      have hrow := secureCut_of_due hcmd hbody hholder hfresh hearlier hmay haddr
      exact ⟨fun hbound => hrow.trans (if_neg (not_not.mpr hbound)), fun hunbound => hrow.trans (if_pos hunbound)⟩
    case send =>
      intro hcut hopen gone
      refine ⟨fun p ps hbuffer => securePieceSend_of_buffer hcmd hbody hholder hcut hopen hbuffer, ?unsent⟩
      case unsent =>
        rintro ix piece xs t hbuffer hunsent ht ⟨d, hrun⟩ g m
        have hrow := securePieceSend_of_unsent hcmd hbody hholder hcut hopen hbuffer hunsent ht
        rw [State.pieceMoves_of_run hrun ht] at hrow
        have haddr : ((s.charge .secure m).readPiece t (ix, piece)).2.devAddr = s.devAddr :=
          (State.readPiece_devAddr t (ix, piece)).trans (State.devAddr_of_settings (State.charge_settings s _ _))
        exact ⟨fun hmove => hrow.trans (congrArg _ ((State.moving_of_mayMove hmove _).trans
            (State.sendPiece_of_devAddr haddr _ _ _))),
          fun hwait => hrow.trans (congrArg _ (State.moving_of_wait hwait _))⟩
  case before =>
    intro r d ix piece t hrun ht g m p
    refine ⟨⟨State.readPiece_bytes_length t (ix, piece), fun k b hbyte hclear => ?byte⟩, fun hmet hroom hmove => ?buffered,
      copyBeforeWrite_of_apart⟩
    case byte =>
      exact State.readPiece_byte_of_unwritten (x := (ix, piece)) (by simpa [State.read] using hbyte) (by simpa using hclear)
    case buffered =>
      have hrow := copyBeforeWrite_of_met hmet
      rw [State.pieceMoves_of_run hrun ht, State.moving_of_mayMove hmove] at hrow
      have hcharged : (s.charge .secure m).secureRun = some (d, r) := by simpa [State.secureRun] using hrun
      exact hrow.trans (congrArg _ (State.bufferPiece_of_run hcharged (by simpa [State.tensor] using ht)
        (State.mem_unsent_of_unsentIn hrun hmet) hroom))
  case serve =>
    intro r hbody hopen hmay m
    have hrow := restoreDataSend_of_open hcmd hbody hopen hmay
    exact ⟨fun hmove => hrow.trans (congrArg settled (State.moving_of_mayMove hmove _)),
      fun hwait => hrow.trans (congrArg settled (State.moving_of_wait hwait _))⟩
  case silent => exact fun r hbody hended => restoreTargetSilent_of_ended hcmd hbody hended
  case bind => exact fun h since ka hbody hrun => bindTimeout_of_running hcmd hbody hrun

end Sys2Proof.Machine
end

section
/-!
PROOFS. The messages of the partner copy as a member takes them (R314 to R316, R321 to R323, R330): each waits at a ceiling or is taken, and
what taking it does, case by case.
-/
namespace Sys2Proof.Machine

/-! ## A message waits or is taken (R208) -/

section
variable {s : State} {f : Flit}

theorem exec_pairReq : exec (.pairReq f) s = took f (fun t => t.onPairReq f) s := rfl
theorem exec_pairAck : exec (.pairAck f) s = took f (fun t => t.onPairAck f) s := rfl
theorem exec_unbind : exec (.unbind f) s = took f (fun t => t.onUnbind f) s := rfl
theorem exec_feedUpdate : exec (.feedUpdate f) s = took f (fun t => t.onFeedUpdate f) s := rfl
theorem exec_slotBegin : exec (.slotBegin f) s = took f (fun t => t.onSlotBegin f) s := rfl
theorem exec_piece : exec (.piece f) s = took f (fun t => t.onPiece f) s := rfl
theorem exec_slotEnd : exec (.slotEnd f) s = took f (fun t => t.onSlotEnd f) s := rfl
theorem exec_secured : exec (.secured f) s = took f (fun t => t.onSecured f) s := rfl
theorem exec_secureCancel : exec (.secureCancel f) s = took f (fun t => t.onSecureCancel f) s := rfl
theorem exec_restoreData : exec (.restoreData f) s = took f (fun t => t.onRestoreData f) s := rfl
theorem exec_restoreEnd : exec (.restoreEnd f) s = took f (fun t => t.onRestoreEnd f) s := rfl
theorem exec_restoreAck : exec (.restoreAck f) s = took f (fun t => t.onRestoreAck f) s := rfl

variable {g : State → State}

theorem took_of_gated (h : ((s.arrives f).heard f.src false).flitGated none f = true) :
    took f g s = .next ((((s.arrives f).heard f.src false).gateFlit none f).settle 64) := congrArg settled (if_pos h)

theorem took_of_open (h : ((s.arrives f).heard f.src false).flitGated none f = false) :
    took f g s = .next ((g ((s.arrives f).heard f.src false)).settle 64) := congrArg settled (if_neg (by simp [h]))

end

section
variable {a : State} {f : Flit}

/-! ## PAIR_REQ (R314, R316) -/

@[simp] theorem State.dropFilling_settings : a.dropFilling.settings = a.settings := rfl

@[simp] theorem State.refreshFlags_settings : a.refreshFlags.settings = a.settings := (State.refreshFlags_appliedOnly a).settings

@[simp] theorem State.watchPeer_settings (peer : Nat) : (a.watchPeer peer).settings = a.settings := by
  unfold State.watchPeer
  split
  · split <;> rfl
  · rfl

/-- The PAIR_ACK that a holder with the settings of `a` answers a PAIR_REQ with, sent in the state `t` (Table 10.4). -/
def State.ackPair (a : State) (f : Flit) (t : State) (r : Res) : State :=
  t.answer f 6 2 0 (leBytes 1 r.code ++ leBytes 4 (a.setting 0x6000) ++ leBytes 4 (a.setting 0x6001) ++ leBytes 8 a.slotBytes)

/-- The PAIR_ACK says the settings alone. -/
theorem State.ackPair_of_settings {t : State} (h : t.settings = a.settings) (r : Res) : t.ackPair f t r = a.ackPair f t r := by
  unfold State.ackPair State.slotBytes State.setting
  rw [h]

/-- A PAIR_REQ that no holder takes: a setting is unset, another device is the ward, or too many peers are watched. -/
def State.UnfitWard (a : State) (f : Flit) : Prop :=
  a.setting 0x6011 = 0 ∨ a.setting 0x6000 = 0 ∨ a.setting 0x6001 = 0 ∨ (a.pair.wardState ≠ .none ∧ a.pair.ward ≠ some f.src)
    ∨ a.watchFull [f.src] = true

/-- The sender shares a feed and does not let that pass (R314 step 2). -/
def State.SameFeeds (a : State) (f : Flit) : Prop :=
  feedsMeet a.feeds (fld f.data 0 4, fld f.data 4 4) = true ∧ fld f.data 8 2 = 0

/-- The sender of a PAIR_REQ becomes the ward. -/
def State.bindWard (a : State) (f : Flit) : State :=
  let b := a.dropFilling
  (({ b with pair := { b.pair with
    wardState := .bound, ward := some f.src, wardFeeds := (fld f.data 0 4, fld f.data 4 4), wardReturned := false
    doneCopy := none } }).refreshFlags).watchPeer f.src

@[simp] theorem State.bindWard_settings : (a.bindWard f).settings = a.settings := by simp [State.bindWard]

theorem State.unfitWard_iff : a.UnfitWard f ↔ a.setting 0x6011 = 0 ∨ a.setting 0x6000 = 0 ∨ a.setting 0x6001 = 0
    ∨ (decide (a.pair.wardState ≠ .none) && decide (a.pair.ward ≠ some f.src)) = true ∨ a.watchFull [f.src] = true := by
  simp [State.UnfitWard]

theorem State.sameFeeds_iff : a.SameFeeds f ↔
    (feedsMeet a.feeds (fld f.data 0 4, fld f.data 4 4) && decide (fld f.data 8 2 = 0)) = true := by
  simp [State.SameFeeds]

theorem State.onPairReq_of_unfit (h : a.UnfitWard f) : a.onPairReq f = a.ackPair f a .badParam := if_pos (State.unfitWard_iff.mp h)

theorem State.onPairReq_of_sameFeeds (hfit : ¬a.UnfitWard f) (h : a.SameFeeds f) : a.onPairReq f = a.ackPair f a .sameFeed :=
  (if_neg (mt State.unfitWard_iff.mpr hfit)).trans (if_pos (State.sameFeeds_iff.mp h))

theorem State.onPairReq_of_fit (hfit : ¬a.UnfitWard f) (h : ¬a.SameFeeds f) : a.onPairReq f = a.ackPair f (a.bindWard f) .ok :=
  (if_neg (mt State.unfitWard_iff.mpr hfit)).trans ((if_neg (mt State.sameFeeds_iff.mpr h)).trans
    (State.ackPair_of_settings State.bindWard_settings .ok))

/-! ## PAIR_ACK, UNBIND and FEED_UPDATE (R314 to R316) -/

/-- A command is a BIND that waits for the PAIR_ACK of a device. -/
def Cmd.awaitsAck (src : Nat) (c : Cmd) : Bool :=
  match c.body with
  | .bind h _ _ => c.running && decide (h = src)
  | _ => false

theorem State.onPairAck_of_none (h : a.cmds.find? (Cmd.awaitsAck f.src) = none) : a.onPairAck f = a := by
  unfold State.onPairAck
  split
  · rfl
  · next hfound => exact absurd (h.symm.trans hfound) (by simp)

section
variable {c : Cmd} (hbind : a.cmds.find? (Cmd.awaitsAck f.src) = some c)
include hbind

theorem State.onPairAck_of_ok (hcode : fld f.data 0 1 = 0) :
    a.onPairAck f = (({ a with pair := { a.pair with
      holderState := .bound, returned := false, holderFeeds := (fld f.data 1 4, fld f.data 5 4)
      holderSlot := fld f.data 9 8 } }).refreshFlags).completeGeneric c .ok 0 0 0 := by
  unfold State.onPairAck
  split
  · next hnone => exact absurd (hbind.symm.trans hnone) (by simp)
  · next d hfound =>
    obtain rfl : c = d := Option.some.inj (hbind.symm.trans hfound)
    exact if_pos hcode

theorem State.onPairAck_of_refused (hcode : fld f.data 0 1 ≠ 0) :
    a.onPairAck f = ({ a with pair := { a.pair with holderState := .none, holder := none } }).completeGeneric c
      (if fld f.data 0 1 = 0x25 then .sameFeed else .badParam) 0 0x11 0 := by
  unfold State.onPairAck
  split
  · next hnone => exact absurd (hbind.symm.trans hnone) (by simp)
  · next d hfound =>
    obtain rfl : c = d := Option.some.inj (hbind.symm.trans hfound)
    exact if_neg hcode

end

theorem State.onUnbind_of_ward (h : a.pair.ward = some f.src ∧ a.pair.wardState = .bound) :
    a.onUnbind f = ({ a with pair := { a.pair with wardState := .retained } }).refreshFlags := if_pos h

theorem State.onUnbind_of_other (h : ¬(a.pair.ward = some f.src ∧ a.pair.wardState = .bound)) : a.onUnbind f = a := if_neg h

/-- The feeds of each member whose sender it is are taken over. -/
theorem State.onFeedUpdate_eq : a.onFeedUpdate f = ({ a with pair := { a.pair with
    holderFeeds := if a.pair.holder = some f.src ∧ a.pair.holderState = HolderState.bound then (fld f.data 0 4, fld f.data 4 4)
      else a.pair.holderFeeds
    wardFeeds := if a.pair.ward = some f.src ∧ a.pair.wardState = WardState.bound then (fld f.data 0 4, fld f.data 4 4)
      else a.pair.wardFeeds } }).refreshFlags := by
  unfold State.onFeedUpdate
  by_cases hholder : a.pair.holder = some f.src ∧ a.pair.holderState = .bound <;>
    by_cases hward : a.pair.ward = some f.src ∧ a.pair.wardState = .bound <;>
    simp only [hholder, hward, and_self, if_true, if_false]

/-! ## SLOT_BEGIN, PIECE and SLOT_END (R321) -/

theorem State.fromWard_iff :
    a.fromWard f = true ↔ a.pair.ward = some f.src ∧ a.pair.wardState = .bound ∧ a.lateCopy f.cid = false := by
  simp [State.fromWard, and_assoc]

theorem State.putPiece_of_fit {k : Nat} {t : Tensor} (ht : (a.slotTensors k)[f.tidx]? = some t)
    (hfit : f.offset + f.data.length ≤ t.footprint) :
    a.putPiece k f = (a.land (a.slotTensorBase k f.tidx + f.offset) f).gotRange k f.tidx f.offset f.data.length := by
  simp only [State.putPiece, ht]
  exact if_pos hfit

theorem State.putPiece_of_over {k : Nat}
    (hover : ∀ t, (a.slotTensors k)[f.tidx]? = some t → t.footprint < f.offset + f.data.length) : a.putPiece k f = a := by
  unfold State.putPiece
  split
  · rfl
  · next t ht => exact if_neg (Nat.not_le.mpr (hover t ht))

/-- A slot with its pieces all written becomes COMPLETE, the other FREE, and SECURED goes out. -/
theorem State.slotDone_settle (k src : Nat) : (a.slotDone k src).settle 64 =
    if (a.pslot k).endArg.isSome = true ∧ a.headerDone k = true
        ∧ ∀ y ∈ (List.range (a.slotTensors k).length).zip (a.slotTensors k), (a.pslot k).bytesOf y.1 = y.2.footprint
    then ((((a.setPslot k { PartnerSlot.empty with state := .complete, xfer := (a.pslot k).xfer }).setPslot (1 - k) .empty).endCopy
      (a.pslot k).xfer).sendFlit src 6 0 (a.pslot k).xfer (pairMsg 0x13 0 0 k []) []).settle 64
    else a.settle 64 := by
  unfold State.slotDone
  simp only [Bool.and_eq_true, List.all_eq_true, decide_eq_true_eq, and_assoc]
  exact apply_ite (State.settle 64) _ _ _

/-- A message of a copy from any other device, or of a copy that has ended here, does nothing. -/
theorem State.copyFlit_of_stranger (h : ¬(a.pair.ward = some f.src ∧ a.pair.wardState = .bound ∧ a.lateCopy f.cid = false)) :
    a.onSlotBegin f = a ∧ a.onPiece f = a ∧ a.onSlotEnd f = a := by
  have hnot : (!a.fromWard f) = true := by simpa [← State.fromWard_iff] using h
  exact ⟨if_pos hnot, if_pos hnot, if_pos hnot⟩

/-- The header's bytes in the slot that a copy fills. -/
def State.headerIn (a : State) (f : Flit) : State :=
  let o := a.openSlot f.cid
  (o.2.land (o.2.slotBase o.1 + f.offset) f).gotRange o.1 64 f.offset f.data.length

section
variable (hward : a.fromWard f = true)
include hward

theorem State.onSlotBegin_of_whole (hdone : (a.headerIn f).headerDone (a.openSlot f.cid).1 = true) :
    let k := (a.openSlot f.cid).1
    let t := a.headerIn f
    a.onSlotBegin f = ((t.pslot k).early.foldl (fun u g => u.putPiece k g)
      (t.setPslot k { t.pslot k with early := [] })).slotDone k f.src :=
  (if_neg (by simp [hward])).trans (if_pos hdone)

theorem State.onSlotBegin_of_part (hpart : (a.headerIn f).headerDone (a.openSlot f.cid).1 = false) :
    a.onSlotBegin f = a.headerIn f := (if_neg (by simp [hward])).trans (if_neg (Bool.eq_false_iff.mp hpart))

theorem State.onPiece_of_early (hpart : (a.openSlot f.cid).2.headerDone (a.openSlot f.cid).1 = false) :
    let k := (a.openSlot f.cid).1
    let o := (a.openSlot f.cid).2
    a.onPiece f = o.setPslot k { o.pslot k with early := (o.pslot k).early ++ [f] } :=
  (if_neg (by simp [hward])).trans (if_neg (Bool.eq_false_iff.mp hpart))

theorem State.onPiece_of_header (hdone : (a.openSlot f.cid).2.headerDone (a.openSlot f.cid).1 = true) :
    a.onPiece f = ((a.openSlot f.cid).2.putPiece (a.openSlot f.cid).1 f).slotDone (a.openSlot f.cid).1 f.src :=
  (if_neg (by simp [hward])).trans (if_pos hdone)

theorem State.onSlotEnd_of_ward :
    let k := (a.openSlot f.cid).1
    let o := (a.openSlot f.cid).2
    a.onSlotEnd f = (o.setPslot k { o.pslot k with endArg := some f.arg }).slotDone k f.src := if_neg (by simp [hward])

end

/-! ## SECURED and SECURE_CANCEL (R321 to R323) -/

/-- A command with its run, where it is the SECURE of a transfer that has sent all. -/
def Cmd.endedCopy (cid : Nat) (c : Cmd) : Option (Cmd × SecureRun) :=
  match c.body with
  | .secure r => if r.id = cid ∧ r.ended then some (c, r) else none
  | _ => none

/-- A command with its run, where it is the SECURE of a transfer. -/
def Cmd.copyOf (cid : Nat) (c : Cmd) : Option (Cmd × SecureRun) :=
  match c.body with
  | .secure r => if r.id = cid then some (c, r) else none
  | _ => none

theorem State.onSecured_of_none (h : a.cmds.findSome? (Cmd.endedCopy f.cid) = none) : a.onSecured f = a := by
  unfold State.onSecured
  split
  · rfl
  · next hfound => exact absurd (h.symm.trans hfound) (by simp)

theorem State.onSecured_of_ended {c : Cmd} {r : SecureRun} (h : a.cmds.findSome? (Cmd.endedCopy f.cid) = some (c, r)) :
    let d := (a.localStep - r.step) % 2 ^ 32
    let t : State := { a with pair := { a.pair with lastStep := some r.step, lastD := d } }
    a.onSecured f = (t.complete c .complete (secureBlock t r 0 d)).count 0x0380 1 := by
  unfold State.onSecured
  split
  · next hnone => exact absurd (h.symm.trans hnone) (by simp)
  · next hfound =>
    obtain ⟨rfl, rfl⟩ := Prod.mk.inj (Option.some.inj (h.symm.trans hfound))
    rfl

/-- The holder's side of a SECURE_CANCEL: a slot that the transfer fills is FREE, and the copy has ended. -/
def State.cancelAsHolder (a : State) (f : Flit) : State :=
  if a.pair.ward = some f.src then
    ({ a with pair := { a.pair with slots := a.pair.slots.map (fun x =>
      if x.state = .filling ∧ x.xfer = f.cid then .empty else x) } } : State).endCopy f.cid
  else a

theorem State.onSecureCancel_of_none
    (h : a.pair.holder ≠ some f.src ∨ (a.cancelAsHolder f).cmds.findSome? (Cmd.copyOf f.cid) = none) :
    a.onSecureCancel f = a.cancelAsHolder f := by
  by_cases hholder : a.pair.holder = some f.src
  · refine (if_pos hholder).trans ?_
    split
    · next hfound => exact absurd ((h.resolve_left (not_not.mpr hholder)).symm.trans hfound) (by simp)
    · rfl
  · exact if_neg hholder

theorem State.onSecureCancel_of_run {c : Cmd} {r : SecureRun} (hholder : a.pair.holder = some f.src)
    (h : (a.cancelAsHolder f).cmds.findSome? (Cmd.copyOf f.cid) = some (c, r)) :
    a.onSecureCancel f = (a.cancelAsHolder f).abortSecure c r 0x40 := by
  refine (if_pos hholder).trans ?_
  split
  · next hfound =>
    obtain ⟨rfl, rfl⟩ := Prod.mk.inj (Option.some.inj (h.symm.trans hfound))
    rfl
  · next hnone => exact absurd (h.symm.trans hnone) (by simp)

/-! ## RESTORE_DATA, RESTORE_END and RESTORE_ACK (R330) -/

/-- The bytes of a serve that have come. -/
def TargetServe.bytes (x : TargetServe) : Nat := (x.got.map (fun g => g.2)).foldl (· + ·) 0

section
variable {x : TargetServe}

theorem State.serveDone_of_last (hopen : x.refusal = none) (hend : x.endArg = some x.bytes) :
    a.serveDone f x = ((a.dropServe x.holder x.id).retag x.handle).answer f 7 0x22 0 (leBytes 1 0) := by
  simp only [State.serveDone, hend]
  exact if_pos ⟨hopen, rfl⟩

theorem State.serveDone_of_more (hopen : x.refusal = none) (hend : x.endArg ≠ some x.bytes) : a.serveDone f x = a.setServe x := by
  unfold State.serveDone
  split
  · next k hk =>
    rw [if_neg fun h => hend (hk.trans (congrArg some h.2.symm)), if_neg (not_not.mpr hopen)]
  · rfl

theorem State.serveDone_of_refused {k : Nat} (hrefused : x.refusal ≠ none) (hend : x.endArg = some k) :
    a.serveDone f x = a.dropServe x.holder x.id := by
  simp only [State.serveDone, hend]
  rw [if_neg fun h => hrefused h.1, if_pos hrefused]

end

/-- A serve's record with the range of a RESTORE_DATA. -/
def TargetServe.withRange (x : TargetServe) (f : Flit) : TargetServe :=
  { x with handle := f.arg, got := (f.offset, f.data.length) :: x.got }

theorem State.onRestoreData_of_refused (h : (a.serveOfFlit f).1.refusal ≠ none) :
    a.onRestoreData f = (a.serveOfFlit f).2.setServe ((a.serveOfFlit f).1.withRange f) := if_pos h

section
variable (hopen : (a.serveOfFlit f).1.refusal = none)
include hopen

theorem State.onRestoreData_of_bad {r : Res}
    (h : (a.serveOfFlit f).2.restoreRefusal f (a.serveOfFlit f).1.got.isEmpty = some r) :
    a.onRestoreData f = ((a.serveOfFlit f).2.setServe { (a.serveOfFlit f).1.withRange f with
      refusal := some r, answered := true }).answer f 7 0x22 0 (leBytes 1 r.code) := by
  refine (if_neg (not_not.mpr hopen)).trans ?_
  simp only [h]
  rfl

theorem State.onRestoreData_of_good {t : Tensor}
    (h : (a.serveOfFlit f).2.restoreRefusal f (a.serveOfFlit f).1.got.isEmpty = none) (ht : (a.serveOfFlit f).2.tensor f.arg = some t) :
    a.onRestoreData f = ((((a.serveOfFlit f).2.land (t.base + f.offset) f).untag t.handle).count 0x0386 f.data.length).serveDone f
      ((a.serveOfFlit f).1.withRange f) := by
  refine (if_neg (not_not.mpr hopen)).trans ?_
  simp only [h, ht]
  rfl

end

theorem State.onRestoreAck_of_serve {c : Cmd} {r : ServeRun} (hcmd : a.cmd (f.cid / 2 ^ 16) (f.cid % 2 ^ 16) = some c)
    (hbody : c.body = .serve r) (htarget : r.target = f.src) : a.onRestoreAck f = a.endServe c r (fld f.data 0 1) := by
  simp only [State.onRestoreAck, hcmd, hbody]
  exact if_pos htarget

theorem State.onRestoreAck_of_other
    (h : ∀ c r, a.cmd (f.cid / 2 ^ 16) (f.cid % 2 ^ 16) = some c → c.body = .serve r → r.target ≠ f.src) : a.onRestoreAck f = a := by
  unfold State.onRestoreAck
  split
  · rfl
  · next c hcmd =>
    split
    · next r hbody => exact if_neg (h c r hcmd hbody)
    · rfl

end

/-- Settles O48, a message at a time: one that no ceiling holds back is taken in the state that has heard its sender, and what it does
there is settled with the flits that this device sends to itself. -/
theorem partnerMessages : Obligations.PartnerMessages := by
  unfold Obligations.PartnerMessages
  intro s f a
  refine ⟨fun hgated => ?waits, fun hfree => ?_⟩
  case waits =>
    intro i hi
    simp only [List.mem_cons, List.not_mem_nil, or_false] at hi
    rcases hi with rfl | rfl | rfl | rfl | rfl | rfl | rfl | rfl | rfl | rfl | rfl | rfl
    exacts [exec_pairReq.trans (took_of_gated hgated), exec_pairAck.trans (took_of_gated hgated),
      exec_unbind.trans (took_of_gated hgated), exec_feedUpdate.trans (took_of_gated hgated),
      exec_slotBegin.trans (took_of_gated hgated), exec_piece.trans (took_of_gated hgated), exec_slotEnd.trans (took_of_gated hgated),
      exec_secured.trans (took_of_gated hgated), exec_secureCancel.trans (took_of_gated hgated),
      exec_restoreData.trans (took_of_gated hgated), exec_restoreEnd.trans (took_of_gated hgated),
      exec_restoreAck.trans (took_of_gated hgated)]
  have row {i : Instr} {g : State → State} {t : State} (hi : exec i s = took f g s) (hg : g a = t) : exec i s = .next (t.settle 64) :=
    hg ▸ hi.trans (took_of_open hfree)
  intro theirs ack unfit same
  refine ⟨⟨?unfit, ?sameFeed, ?fit⟩, ?pairAck, ?unbind, ?feeds, ?slots, ?secured, ?cancel, ?data, ?finish, ?served⟩
  case unfit => exact fun hunfit => row exec_pairReq (State.onPairReq_of_unfit hunfit)
  case sameFeed => exact fun hfit hsame => row exec_pairReq (State.onPairReq_of_sameFeeds hfit hsame)
  case fit => exact fun hfit hsame => row exec_pairReq (State.onPairReq_of_fit hfit hsame)
  case pairAck =>
    exact ⟨fun hnone => row exec_pairAck (State.onPairAck_of_none hnone),
      fun c hbind hcode => row exec_pairAck (State.onPairAck_of_ok hbind hcode),
      fun c hbind hcode => row exec_pairAck (State.onPairAck_of_refused hbind hcode)⟩
  case unbind =>
    exact ⟨fun hward => row exec_unbind (State.onUnbind_of_ward hward), fun hother => row exec_unbind (State.onUnbind_of_other hother)⟩
  case feeds => exact row exec_feedUpdate State.onFeedUpdate_eq
  case slots =>
    intro mine k o whole
    refine ⟨fun hother => ?stranger, fun hmine => ?ward⟩
    case stranger =>
      obtain ⟨hbegin, hpiece, hend⟩ := State.copyFlit_of_stranger hother
      exact ⟨row exec_slotBegin hbegin, row exec_piece hpiece, row exec_slotEnd hend⟩
    case ward =>
      have hward : a.fromWard f = true := State.fromWard_iff.mpr hmine
      have done (t : State) : Host.Outcome.next ((t.slotDone k f.src).settle 64) = (.next (whole t) : Host.Outcome State Fault Refusal) :=
        congrArg _ (State.slotDone_settle k f.src)
      refine ⟨⟨fun hdone => ?header, fun hpart => ?headerPart⟩, fun hpart => ?early, fun t hdone ht hfit => ?piece,
        fun hdone hover => ?beyond, ?slotEnd⟩
      case header => exact (row exec_slotBegin (State.onSlotBegin_of_whole hward hdone)).trans (done _)
      case headerPart => exact row exec_slotBegin (State.onSlotBegin_of_part hward hpart)
      case early => exact row exec_piece (State.onPiece_of_early hward hpart)
      case piece =>
        have hrow := row exec_piece (State.onPiece_of_header hward hdone)
        rw [State.putPiece_of_fit ht hfit] at hrow
        exact hrow.trans (done _)
      case beyond =>
        have hrow := row exec_piece (State.onPiece_of_header hward hdone)
        rw [State.putPiece_of_over hover] at hrow
        exact hrow.trans (done _)
      case slotEnd => exact (row exec_slotEnd (State.onSlotEnd_of_ward hward)).trans (done _)
  case secured =>
    exact ⟨fun hnone => row exec_secured (State.onSecured_of_none hnone),
      fun c r hended => row exec_secured (State.onSecured_of_ended hended)⟩
  case cancel =>
    exact ⟨fun hnone => row exec_secureCancel (State.onSecureCancel_of_none hnone),
      fun c r hholder hrun => row exec_secureCancel (State.onSecureCancel_of_run hholder hrun)⟩
  case data =>
    intro x b y
    refine ⟨fun hrefused => row exec_restoreData (State.onRestoreData_of_refused hrefused),
      fun r hopen hbad => row exec_restoreData (State.onRestoreData_of_bad hopen hbad), fun t hopen hgood ht => ?_⟩
    have hdata := State.onRestoreData_of_good hopen hgood ht
    exact ⟨fun hlast => row exec_restoreData (hdata.trans (State.serveDone_of_last (x := y) hopen hlast)),
      fun hmore => row exec_restoreData (hdata.trans (State.serveDone_of_more (x := y) hopen hmore))⟩
  case finish =>
    intro x
    let y : TargetServe := { x with endArg := some f.arg, last := a.now }
    exact ⟨fun hopen hall => row exec_restoreEnd (State.serveDone_of_last (x := y) hopen (congrArg some hall.symm)),
      fun hopen hmore => row exec_restoreEnd (State.serveDone_of_more (x := y) hopen fun h => hmore (Option.some.inj h).symm),
      fun hrefused => row exec_restoreEnd (State.serveDone_of_refused (x := y) hrefused rfl)⟩
  case served =>
    exact ⟨fun c r hcmd hbody htarget => row exec_restoreAck (State.onRestoreAck_of_serve hcmd hbody htarget),
      fun hother => row exec_restoreAck (State.onRestoreAck_of_other hother)⟩

end Sys2Proof.Machine
end

section
/-!
PROOFS. Power states (R328, R438 to R441, R446, R451): the idle timers and the entries of a group, the wakes of groups, of the shared units
and of the module, and the entry to S3.
-/
namespace Sys2Proof.Machine

section
variable {s : State} {g n tag : Nat} {c : Cmd}

theorem exec_autoLightTimeout : exec (.autoLightTimeout g) s = execAutoLightTimeout g s := rfl
theorem exec_autoDeepTimeout : exec (.autoDeepTimeout g) s = execAutoDeepTimeout g s := rfl
theorem exec_groupStateEntry : exec (.groupStateEntry g) s = execGroupStateEntry g s := rfl
theorem exec_wakeComplete : exec (.wakeComplete g) s = execWakeComplete g s := rfl
theorem exec_wakeOnDemand : exec (.wakeOnDemand n tag) s = execWakeOnDemand n tag s := rfl
theorem exec_s3Entry : exec .s3Entry s = execS3Entry s := rfl

/-! ## Idle timers (R439) -/

/-- A group whose idle timer may fire: it is not in use, does not wake and has not been asked for S2, and the module is up. -/
structure State.IdleGroup (s : State) (g : Nat) : Prop where
  stays : (s.groupPower g).waking = none
  unasked : (s.groupPower g).request ≠ some .s2
  unused : s.groupInUse g = false
  awake : s.power.sleep = .awake
  ready : s.power.phase = .ready
  running : s.power.failed = false

/-- An idle group is asked for a deeper state. -/
theorem State.autoDeeper_of_idle (hg : g < 16) (hidle : s.IdleGroup g) {t : GState} (hdeeper : (s.groupPower g).state.depth < t.depth)
    (at_ : Nat) :
    let u := (s.reach at_).setGroup g { s.groupPower g with request := some t }
    s.autoDeeper g at_ t = if t = .s2 then u.stopForPower [g] else u := by
  obtain ⟨hstays, hunasked, hunused, hawake, hready, hrunning⟩ := hidle
  refine if_neg ?_
  simp only [hstays, hunasked, hunused, hawake, hready, hrunning, ne_eq, not_true_eq_false, Bool.false_eq_true, or_false]
  omega

theorem autoLightTimeout_of_idle (hg : g < 16) (hidle : s.IdleGroup g) (hstate : (s.groupPower g).state = .s0)
    (hset : (s.groupPower g).light ≠ 0) :
    exec (.autoLightTimeout g) s = .next ((s.reach ((s.groupPower g).idleSince + (s.groupPower g).light)).setGroup g
      { s.groupPower g with request := some .s1 }) := by
  rw [exec_autoLightTimeout, execAutoLightTimeout, if_neg hset, State.autoDeeper_of_idle hg hidle (by rw [hstate]; decide)]
  rfl

theorem autoDeepTimeout_of_idle (hg : g < 16) (hidle : s.IdleGroup g) (hstate : (s.groupPower g).state ≠ .s2)
    (hset : (s.groupPower g).deep ≠ 0) :
    exec (.autoDeepTimeout g) s = .next (((s.reach ((s.groupPower g).idleSince + 1000 * (s.groupPower g).deep)).setGroup g
      { s.groupPower g with request := some .s2 }).stopForPower [g]) := by
  have hdeeper : (s.groupPower g).state.depth < GState.s2.depth := by
    cases hcase : (s.groupPower g).state with
    | s0 => decide
    | s1 => decide
    | s2 => exact absurd hcase hstate
  rw [exec_autoDeepTimeout, execAutoDeepTimeout, if_neg hset, State.autoDeeper_of_idle hg hidle hdeeper]
  rfl

/-! ## Entries (R439) -/

section
variable (hg : g < 16) (hstays : (s.groupPower g).waking = none) (hboundary : s.atBoundary g = true)
  (hsleep : s.power.sleep = .awake ∨ s.power.sleep = .entering)
include hg hstays hboundary hsleep

/-- A group at its boundary enters the state it is asked into; into S2 only once no output stream sends. -/
theorem groupStateEntry_of_boundary {x : GState} (hask : (s.groupPower g).request = some x) :
    let u := if x = .s2 then s.stopForPower [g] else s
    let v := u.setGroup g { s.groupPower g with state := x, request := none }
    exec (.groupStateEntry g) s = if x = .s2 ∧ u.outputRuns then .next u
      else .next ((if x = .s2 then v.mapGroup g Core.loseWork else v).sharedFollow).powerMove := by
  have hgo : ¬(16 ≤ g ∨ (s.groupPower g).waking ≠ none ∨ (!s.atBoundary g) = true
      ∨ (!decide (s.power.sleep = .awake ∨ s.power.sleep = .entering)) = true) := by
    simp [hg, hstays, hboundary, hsleep]
  simp only [exec_groupStateEntry, execGroupStateEntry, hask]
  exact if_neg hgo

theorem groupStateEntry_of_shallow {x : GState} (hx : x ≠ .s2) (hask : (s.groupPower g).request = some x) :
    exec (.groupStateEntry g) s
      = .next ((s.setGroup g { s.groupPower g with state := x, request := none }).sharedFollow).powerMove := by
  rw [groupStateEntry_of_boundary hg hstays hboundary hsleep hask]
  simp only [hx, false_and, if_false]

theorem groupStateEntry_of_sending (hask : (s.groupPower g).request = some .s2) (hsend : (s.stopForPower [g]).outputRuns = true) :
    exec (.groupStateEntry g) s = .next (s.stopForPower [g]) := by
  rw [groupStateEntry_of_boundary hg hstays hboundary hsleep hask]
  exact if_pos ⟨rfl, hsend⟩

theorem groupStateEntry_of_deep (hask : (s.groupPower g).request = some .s2) (hquiet : (s.stopForPower [g]).outputRuns = false) :
    exec (.groupStateEntry g) s = .next ((((s.stopForPower [g]).setGroup g
      { s.groupPower g with state := .s2, request := none }).mapGroup g Core.loseWork).sharedFollow).powerMove := by
  rw [groupStateEntry_of_boundary hg hstays hboundary hsleep hask]
  exact if_neg (by simp [hquiet])

end

/-! ## Wakes (R438, R440, R451) -/

theorem wakeComplete_of_module (hwaking : s.power.sleep = .waking) :
    exec (.wakeComplete g) s = .next ((({ s with power := { s.power with sleep := .awake } }).count 0x0707 1).powerMove) :=
  if_pos hwaking

/-- A group in the state it wakes to, counted by the state it leaves. -/
def State.groupAwake (s : State) (g : Nat) (x : GState) : State :=
  (s.setGroup g { s.groupPower g with state := x, waking := none }).count (if (s.groupPower g).state = .s1 then 0x0705 else 0x0706) 1

theorem wakeComplete_of_group {x : GState} (hg : g < 16) (hup : s.power.sleep ≠ .waking) (hwaking : (s.groupPower g).waking = some x) :
    exec (.wakeComplete g) s = .next ((((s.groupAwake g x).reinitGroup g).sharedFollow.touchGroups [g]).powerMove) := by
  rw [exec_wakeComplete, execWakeComplete, if_neg hup]
  simp only [hwaking]
  exact if_neg (Nat.not_le.mpr hg)

@[simp] theorem State.groupAwake_reinit (x : GState) : (s.groupAwake g x).power.reinit = s.power.reinit := by
  simp [State.groupAwake, State.setGroup]

theorem State.reinitGroup_of_none (h : s.power.reinit.contains g = false) : s.reinitGroup g = s := if_neg (by rw [h]; decide)

theorem State.reinitGroup_of_met (h : s.power.reinit.contains g = true) :
    s.reinitGroup g = ({ s with power := { s.power with
      reinit := s.power.reinit.filter (fun y => y ≠ g) } } : State).mapGroup g Core.reinit := if_pos h

section
variable (hcmd : s.cmd n tag = some c)
include hcmd

section
variable (hshared : s.wakesShared c = true)
include hshared

theorem wakeOnDemand_of_shared (hcap : padm2 s.linksUp s.groupStates ≤ 2 * s.setting 0x1000) :
    exec (.wakeOnDemand n tag) s
      = .next { s with power := { s.power with sharedS2 := false, linksS2 := false, lastData := s.now } } := by
  simp only [exec_wakeOnDemand, execWakeOnDemand, hcmd, if_pos hshared, if_pos hcap]

theorem wakeOnDemand_of_sharedOverCap (hcap : 2 * s.setting 0x1000 < padm2 s.linksUp s.groupStates) :
    exec (.wakeOnDemand n tag) s = .next (s.noteWait c) := by
  simp only [exec_wakeOnDemand, execWakeOnDemand, hcmd, if_pos hshared, if_neg (Nat.not_le.mpr hcap)]

end

section
variable (hshared : s.wakesShared c = false)
include hshared

theorem wakeOnDemand_of_groups :
    let gs := s.wakeGroups c
    exec (.wakeOnDemand n tag) s = if gs = [] then .next s
      else if s.admits (gs.foldl (fun a h => a.set h .s0) s.groupStates) then
        .next (gs.foldl (fun (a : State) h => a.setGroup h { a.groupPower h with waking := some .s0 }) s)
      else .next (s.noteWait c) := by
  simp only [exec_wakeOnDemand, execWakeOnDemand, hcmd]
  exact if_neg (by simp [hshared])

end
end

theorem linkS2IdleTimeout_of_deep (hdeep : s.allDeep = true) (hup : s.power.sharedS2 = false ∨ s.power.linksS2 = false)
    (hidle : s.sharedBusy = false) :
    exec .linkS2IdleTimeout s = .next { s with
      now := max s.now (s.power.lastData + 10000), power := { s.power with sharedS2 := true, linksS2 := true } } := by
  refine if_pos ?_
  rcases hup with h | h <;> simp [hdeep, hidle, h]

/-! ## S3 (R328, R439, R441) -/

/-- A command is a SET_POWER_STATE for S3 that has begun. -/
def Cmd.entersS3 (c : Cmd) : Bool := c.running && (match c.body with | .power t _ => decide (t = 3) | _ => false)

/-- The module with its streams stopped and its SECURE_CANCELs sent, on the way to S3. -/
def State.readyForS3 (s : State) : State := (s.powerMove.stopForPower (List.range 16)).cancelFilling

/-- Links and SRAM stopped: the module in S3. -/
def State.intoS3 (s : State) : State := (s.lastKeepalives 1).stopLinks.loseAsleep.housed

/-- With a SET_POWER_STATE for S3 begun, the module enters it once nothing is left to be sent. -/
theorem s3Entry_of_asked (hask : s.powerMove.cmds.find? Cmd.entersS3 = some c) :
    exec .s3Entry s = if s.readyForS3.outputRuns = true ∨ s.readyForS3.cancelQueued = true then .next s.readyForS3
      else .next ((s.readyForS3.intoS3.completeGeneric c .complete 0 0 0).powerMove) := by
  unfold State.readyForS3 State.intoS3
  rw [exec_s3Entry, execS3Entry]
  dsimp only
  split
  · next hnone => exact absurd (hask.symm.trans hnone) (by simp)
  · next d hfound =>
    obtain rfl : c = d := Option.some.inj (hask.symm.trans hfound)
    rfl

@[simp] theorem State.housed_mem : s.housed.mem = s.mem := rfl
@[simp] theorem State.housed_tensors : s.housed.tensors = s.tensors := rfl

@[simp] theorem State.loseAsleep_tensors : s.loseAsleep.tensors = s.tensors := State.count_tensors _ _ _

@[simp] theorem State.loseAsleep_mem : s.loseAsleep.mem = s.mem.filter (fun x => decide (sramEnd ≤ x.1)) := State.count_mem _ _ _

theorem State.intoS3_sleep : s.intoS3.power.sleep = .housed := rfl

theorem State.housed_deep : ∀ x ∈ s.housed.power.groups, x.state = .s2 := by simp [State.housed]

theorem State.intoS3_deep : ∀ x ∈ s.intoS3.power.groups, x.state = .s2 := State.housed_deep

theorem State.intoS3_tensors : s.intoS3.tensors = (s.lastKeepalives 1).stopLinks.tensors := by
  rw [State.intoS3, State.housed_tensors, State.loseAsleep_tensors]

/-- What is below the cells that are left reads as 0. -/
theorem memGet_filter_below (m : List Host.Cell) {lo a : Nat} (h : a < lo) : memGet (m.filter (fun x => decide (lo ≤ x.1))) a = 0 := by
  induction m with
  | nil => rfl
  | cons x xs ih =>
    by_cases hx : lo ≤ x.1
    · rw [List.filter_cons_of_pos (by simpa using hx), memGet, if_neg (by omega), ih]
    · rw [List.filter_cons_of_neg (by simpa using hx), ih]

/-- S3 costs the SRAM its bytes. -/
theorem State.intoS3_sram {a : Nat} (h : a < sramEnd) : memGet s.intoS3.mem a = 0 := by
  rw [State.intoS3, State.housed_mem, State.loseAsleep_mem, memGet_filter_below _ h]

theorem moduleWake_of_unserved (h : ∃ c ∈ s.cmds, c.acked = true ∧ s.asleepOk c = false) : exec .moduleWake s = .next s.wakeModule :=
  congrArg _ (if_pos (by simpa using h))

theorem moduleWake_of_served (h : ∀ c ∈ s.cmds, c.acked = true → s.asleepOk c = true) : exec .moduleWake s = .next s :=
  congrArg _ (if_neg (by simpa using h))

end

/-- Settles O54, a row at a time: what a group is asked into decides its entry, what a command needs decides its wake, and what is still to
be sent decides the entry to S3, whose losses leave memory no byte below the end of SRAM. -/
theorem groupRows : Obligations.GroupRows := by
  unfold Obligations.GroupRows
  intro s g hg p
  refine ⟨?idle, ?entry, wakeComplete_of_module, ?group, ?demand, linkS2IdleTimeout_of_deep, ?housed, moduleWake_of_unserved,
    moduleWake_of_served⟩
  case idle =>
    intro hstays hunasked hunused hawake hready hrunning
    have hidle : s.IdleGroup g := ⟨hstays, hunasked, hunused, hawake, hready, hrunning⟩
    exact ⟨autoLightTimeout_of_idle hg hidle, autoDeepTimeout_of_idle hg hidle⟩
  case entry =>
    intro hstays hboundary hsleep enter
    exact ⟨fun x hx hask => groupStateEntry_of_shallow hg hstays hboundary hsleep hx hask, fun hask =>
      ⟨groupStateEntry_of_sending hg hstays hboundary hsleep hask, groupStateEntry_of_deep hg hstays hboundary hsleep hask⟩⟩
  case group =>
    intro x hwaking hup t
    have hreinit : t.power.reinit = s.power.reinit := State.groupAwake_reinit x
    refine ⟨wakeComplete_of_group hg hup hwaking, fun hnone => ?none, fun hmet => ?met⟩
    case none => exact State.reinitGroup_of_none (hreinit ▸ hnone)
    case met =>
      rw [State.reinitGroup_of_met (hreinit ▸ hmet), hreinit]
  case demand =>
    intro n tag c hcmd wait
    refine ⟨fun hshared => ⟨wakeOnDemand_of_shared hcmd hshared, wakeOnDemand_of_sharedOverCap hcmd hshared⟩, fun hshared => ?groups⟩
    case groups =>
      intro gs
      have hrow := wakeOnDemand_of_groups hcmd hshared
      exact ⟨fun hnone => hrow.trans (if_pos hnone), fun hsome hfit => hrow.trans ((if_neg hsome).trans (if_pos hfit)),
        fun hsome hover => hrow.trans ((if_neg hsome).trans (if_neg (Bool.eq_false_iff.mp hover)))⟩
  case housed =>
    intro c q hask t
    have hrow := s3Entry_of_asked (s := s) hask
    refine ⟨fun hsend => hrow.trans (if_pos hsend), fun hquiet hsent => ?_⟩
    intro u
    exact ⟨hrow.trans (if_neg (not_or.mpr ⟨Bool.eq_false_iff.mp hquiet, Bool.eq_false_iff.mp hsent⟩)), State.intoS3_sleep,
      State.intoS3_deep, State.intoS3_tensors, fun a h => State.intoS3_sram h⟩

end Sys2Proof.Machine
end

section
/-!
PROOFS. Where a reply carries what it says: the header of Table 11.4b and the status word of Table 11.4c.
-/
namespace Sys2Proof.Machine

/-- A field behind a number that is written first. -/
theorem fld_behind (m x i n : Nat) (b : List Byte) (h : m ≤ i) : fld (leBytes m x ++ b) i n = fld b (i - m) n := by
  rw [fld_skip _ _ _ _ (by simpa using h), leBytes_length]

/-- The header of a reply field by field, each behind those before it. -/
theorem replyBytes_eq (opcode source tag status : Nat) (k : Kind) (params : List Byte) :
    replyBytes opcode k source tag status params
      = leBytes 2 opcode ++ (leBytes 1 k.code ++ (leBytes 1 1 ++ (leBytes 2 source ++ (leBytes 2 tag
        ++ (leBytes 4 status ++ (leBytes 4 params.length ++ params)))))) := by
  simp [replyBytes]

theorem Kind.code_lt (k : Kind) : k.code < 256 := by cases k <;> decide

theorem Role.code_lt (r : Role) : r.code < 8 := by cases r <;> decide

section
variable (s : State) (n : Nat)

theorem State.credits_lt : s.credits n < 256 := Nat.lt_succ_of_le (min_le_left 255 _)

theorem State.stateCode_lt : s.stateCode < 16 := by
  unfold State.stateCode
  repeat' split
  all_goals decide

end

/-- Settles O9: the fields of the header lie one behind the other, and each field of the status word fits the bits it is given. -/
theorem replyLayout : Obligations.ReplyLayout := by
  unfold Obligations.ReplyLayout
  refine ⟨?header, ?word⟩
  case header =>
    intro opcode source tag status k ps hopcode hsource htag hstatus hlength
    rw [replyBytes_eq]
    refine ⟨by simp +arith, ?_, ?_, ?_, ?_, ?_, ?_, ?_, ?_⟩
    · exact fld_first _ _ _ _ _ rfl rfl hopcode
    · simpa [fld_behind] using fld_first _ _ _ _ _ rfl rfl k.code_lt
    · simpa [fld_behind] using fld_first _ _ _ _ _ rfl rfl (by decide)
    · simpa [fld_behind] using fld_first _ _ _ _ _ rfl rfl hsource
    · simpa [fld_behind] using fld_first _ _ _ _ _ rfl rfl htag
    · simpa [fld_behind] using fld_first _ _ _ _ _ rfl rfl hstatus
    · simpa [fld_behind] using fld_first _ _ _ _ _ rfl rfl hlength
    · rw [← replyBytes_eq]
      exact List.drop_left' (by simp)
  case word =>
    intro s source res hres w
    have hattn := s.attention.attn.isLt
    have hcredits := s.credits_lt source
    have hstate := s.stateCode_lt
    have hrole := (s.roleOf source).code_lt
    simp only [w, State.status]
    refine ⟨?_, ?_, ?_, ?_, ?_, ?_, ?_⟩
    all_goals split <;> omega

end Sys2Proof.Machine
end

section
/-!
PROOFS. A packet of the host on its way to a command (R339 to R350): the packets turned away, the sequence of a source, the blocks that
continue, and the order of the checks before a command's own.
-/
namespace Sys2Proof.Machine

/-! ## The state a packet finds -/

section
variable (s : State) (k port : Nat)

@[simp] theorem State.corrected_answers : (s.corrected k).answers port = s.answers port := by
  simp [State.answers, State.portSetting, State.acting]

@[simp] theorem State.corrected_portFull (n : Nat) : (s.corrected k).portFull port n = s.portFull port n := by
  obtain ⟨_, _, h⟩ := s.corrected_changes k
  rw [h]
  rfl

@[simp] theorem State.answerTo_source (opcode source tag n : Nat) (r : Res) (params : List Byte) :
    (s.answerTo port opcode source tag r params).source n = s.source n := by
  simp [State.source]

end

/-- R170, R347: a code is that of a form-X command. -/
def exemptCode (c : Nat) : Bool := (Op.ofCode c).any Op.exempt

@[simp] theorem exemptCode_code (op : Op) : exemptCode op.code = op.exempt := by simp [exemptCode, Op.ofCode_code]

section
variable {s : State} {c : Nat} {p : Packet} {x : Source}

/-! ## Packets turned away (R334, R339, R346, R349) -/

theorem recvPacket_of_power (hon : s.power.phase ≠ .off) : recvPacket c p s = .next ((s.corrected p.port).takePacket c p) := if_neg hon

/-- A row of the host brings its packet to its port. -/
theorem exec_of_packet {i : Instr} {op : Op} (hi : carried i = some (op, p)) (hon : s.power.phase ≠ .off) :
    exec i s = .next ((s.corrected p.port).takePacket op.code p) := by
  rw [exec_of_carried hi, recvCommand, recvPacket_of_power hon]

theorem State.takePacket_of_deaf (h : s.answers p.port = false) : s.takePacket c p = s := if_pos (by simp [h])

section
variable (hport : s.answers p.port = true)
include hport

theorem State.takePacket_of_long (h : 4080 < p.params.length) : s.takePacket c p = s.count 0x0603 1 := by
  simp [State.takePacket, hport, h]

variable (hshort : p.params.length ≤ 4080)
include hshort

theorem State.takePacket_of_full (h : s.portFull p.port (16 + p.params.length) = true) :
    s.takePacket c p = (s.count 0x0605 1).overrun 1 := by
  simp [State.takePacket, hport, Nat.not_lt.mpr hshort, h]

variable (hroom : s.portFull p.port (16 + p.params.length) = false)
include hroom

theorem State.takePacket_of_foreign (hx : s.source p.source = some x) (h : x.port ≠ p.port) :
    s.takePacket c p = (s.count 0x0600 1).count 0x0607 1 := by
  simp [State.takePacket, hport, Nat.not_lt.mpr hshort, hroom, hx, h]

/-- A packet of a bound source first ends an open block of another command, and then comes to its sequence check. -/
theorem State.takePacket_of_bound (hx : s.source p.source = some x) (h : x.port = p.port) :
    s.takePacket c p = ((s.count 0x0600 1).endContin c p).inSequence c p := by
  simp [State.takePacket, hport, Nat.not_lt.mpr hshort, hroom, hx, h]

theorem State.takePacket_of_surplus (hx : s.source p.source = none) (hmany : 256 ≤ s.sources.length) :
    s.takePacket c p =
      if exemptCode c then (if continued p.flags then s.count 0x0600 1 else (s.count 0x0600 1).dispatch c p p.params)
      else (s.count 0x0600 1).answerTo p.port c p.source p.tag .noCredit [] := by
  unfold exemptCode
  cases hop : Op.ofCode c <;>
    simp [State.takePacket, hport, Nat.not_lt.mpr hshort, hroom, hx, Nat.not_lt.mpr hmany, hop]

end

end

/-- Settles O10: each check of R339, R346 and R349 on a packet's way, made on the state whose header bit R337 may have corrected. -/
theorem packetsTurnedAway : Obligations.PacketsTurnedAway := by
  unfold Obligations.PacketsTurnedAway
  intro i op p s hi hon full
  rw [exec_of_packet hi hon]
  refine ⟨fun hdeaf => ?deaf, fun hport hlong => ?long, fun hport hshort hfull => ?full, fun hport hshort hroom => ?foreign,
    fun hport hshort hroom hnew hmany => ?surplus⟩
  case deaf => rw [State.takePacket_of_deaf (by simpa using hdeaf)]
  case long => rw [State.takePacket_of_long (by simpa using hport) hlong]
  case full => rw [State.takePacket_of_full (by simpa using hport) hshort (by simpa using hfull)]
  case foreign =>
    rintro ⟨x, hx, hother⟩
    rw [State.takePacket_of_foreign (by simpa using hport) hshort (by simpa using hroom) (by simpa using hx) hother]
    rfl
  case surplus =>
    rw [State.takePacket_of_surplus (by simpa using hport) hshort (by simpa using hroom) (by simpa using hnew) (by simpa using hmany),
      exemptCode_code]
    exact ⟨fun hplain => by rw [hplain]; rfl, fun hexempt hlast => by rw [hexempt, hlast]; rfl⟩

/-! ## The sequence of a source (R343, R347) -/

/-- A source from which a packet of opcode `c` has been taken in sequence: its next SEQ is known, and no block is open. -/
def Source.advanced (x : Source) (c : Nat) (p : Packet) : Source :=
  { x with seq := if exemptCode c then x.seq else some ((p.seq + 1) % 2 ^ 32), cont := none }

/-- R343: what the last or a further packet of a parameter block does, `y` being its source without the block. -/
def State.takeBlock (s : State) (c : Nat) (p : Packet) (y : Source) (block : List Byte) : State :=
  if 65536 < block.length then (s.setSource y).answerTo p.port c p.source p.tag .badParam []
  else if continued p.flags then s.setSource { y with cont := some ⟨c, p.tag, p.flags, block⟩ }
  else (s.setSource y).dispatch c p block

/-- R347: a command of form X has no place in the sequence. -/
theorem State.inSequence_of_exempt {s : State} {c : Nat} {p : Packet} (hcode : exemptCode c = true) : s.inSequence c p = s.gather c p := by
  cases hop : Op.ofCode c with
  | none => simp [exemptCode, hop] at hcode
  | some o =>
    have hexempt : o.exempt = true := by simpa [exemptCode, hop] using hcode
    simp only [State.inSequence, hop, hexempt, if_true]

section
variable {s : State} {c : Nat} {p : Packet} {x : Source} (hx : s.source p.source = some x)
include hx

theorem State.gather_eq_takeBlock : s.gather c p = s.takeBlock c p { x with cont := none } (x.gathered ++ p.params) := by
  have hclosed : (s.setSource { x with cont := none }).source p.source = some { x with cont := none } :=
    State.source_setSource (x := x) hx (State.source_num (x := x) hx)
  simp only [State.gather, State.takeBlock, State.gathered_source hx, State.onSource_some hx, State.onSource_some hclosed,
    State.setSource_setSource (s := s) (y := { x with cont := none }) (z := { x with cont := some _ }) rfl]

theorem State.inSequence_of_counted (hcode : exemptCode c = false) (hnext : x.seq = none ∨ x.seq = some p.seq) :
    s.inSequence c p = (s.setSource { x with seq := some ((p.seq + 1) % 2 ^ 32) }).gather c p := by
  have hwant : p.seq = (match (s.source p.source).bind Source.seq with | some e => e | none => p.seq) := by
    rcases hnext with hnew | hexpected
    · simp [hx, hnew]
    · simp [hx, hexpected]
  cases hop : Op.ofCode c with
  | none =>
    simp only [State.inSequence, hop, State.onSource_some hx, Bool.false_eq_true, if_false]
    exact if_pos hwant
  | some o =>
    have hcounted : o.exempt = false := by simpa [exemptCode, hop] using hcode
    simp only [State.inSequence, hop, hcounted, State.onSource_some hx, Bool.false_eq_true, if_false]
    exact if_pos hwant

/-- R347: a packet that is in sequence, or of a command outside it, goes on with its block. -/
theorem State.inSequence_of_next (hseq : exemptCode c = true ∨ x.seq = none ∨ x.seq = some p.seq) :
    s.inSequence c p = s.takeBlock c p (x.advanced c p) (x.gathered ++ p.params) := by
  cases hcode : exemptCode c with
  | true =>
    rw [State.inSequence_of_exempt hcode, State.gather_eq_takeBlock hx]
    simp [Source.advanced, hcode]
  | false =>
    have hnext := hseq.resolve_left (by simp [hcode])
    have hmoved : (s.setSource { x with seq := some ((p.seq + 1) % 2 ^ 32) }).source p.source
        = some { x with seq := some ((p.seq + 1) % 2 ^ 32) } := State.source_setSource (x := x) hx (State.source_num (x := x) hx)
    rw [State.inSequence_of_counted hx hcode hnext, State.gather_eq_takeBlock hmoved]
    simp [State.takeBlock, Source.advanced, hcode, State.setSource_setSource, Source.gathered]

theorem State.endContin_of_same (hcont : ∀ k, x.cont = some k → k.tag = p.tag ∧ k.opcode = c) : s.endContin c p = s := by
  simp only [State.endContin, hx, Option.bind_some]
  cases hk : x.cont with
  | none => rfl
  | some k => exact if_pos (hcont k hk)

theorem State.endContin_of_other {k : Contin} (hk : x.cont = some k) (hother : ¬(k.tag = p.tag ∧ k.opcode = c)) :
    s.endContin c p = (s.setSource { x with cont := none }).answerTo p.port k.opcode p.source k.tag .badParam [] := by
  simp only [State.endContin, hx, Option.bind_some, hk, State.onSource_some hx]
  exact if_neg hother

end

/-! ### A block that goes on, ends, or is too long (R343) -/

section
variable {s : State} {c : Nat} {p : Packet} {x : Source} {block : List Byte} (hx : s.source p.source = some x)
  (hseq : exemptCode c = true ∨ x.seq = none ∨ x.seq = some p.seq) (hblock : x.gathered = block)
include hx hseq hblock

theorem State.inSequence_of_tooLong (hlong : 65536 < (block ++ p.params).length) :
    s.inSequence c p = (s.setSource (x.advanced c p)).answerTo p.port c p.source p.tag .badParam [] := by
  rw [State.inSequence_of_next hx hseq, hblock]
  exact if_pos hlong

theorem State.inSequence_of_continued (hfit : (block ++ p.params).length ≤ 65536) (hmore : continued p.flags = true) :
    s.inSequence c p = s.setSource { x.advanced c p with cont := some ⟨c, p.tag, p.flags, block ++ p.params⟩ } := by
  rw [State.inSequence_of_next hx hseq, hblock]
  exact (if_neg (Nat.not_lt.mpr hfit)).trans (if_pos hmore)

end

theorem Source.gathered_of_none {x : Source} (h : x.cont = none) : x.gathered = [] := by simp [Source.gathered, h]

theorem Source.gathered_of_some {x : Source} {k : Contin} (h : x.cont = some k) : x.gathered = k.params := by simp [Source.gathered, h]

/-- The packet of a COMMAND_CONTINUATION, with its bit set. -/
def continuing (p : Packet) : Packet := { p with flags := p.flags ||| 4 }

theorem continued_continuing (p : Packet) : continued (continuing p).flags = true := by
  simp only [continued, continuing, Nat.testBit_or]
  exact Bool.or_eq_true_iff.mpr (.inr rfl)

theorem exec_commandContinuation (c : Nat) (p : Packet) (s : State) :
    exec (.commandContinuation c p) s = recvPacket c (continuing p) s := rfl

/-- Settles O13: the packet comes to its sequence check, behind the refusal of an open block that is another command's, and is in
sequence; what is left is the length of the block. -/
theorem continuedBlock : Obligations.ContinuedBlock := by
  unfold Obligations.ContinuedBlock
  intro opcode p s x hon hport hshort hroom hx hsame exempt hseq next
  have hfound : (s.received p.port).source (continuing p).source = some x := by rw [State.received_source]; exact hx
  have hrow : exec (.commandContinuation opcode p) s
      = .next (((s.received p.port).endContin opcode (continuing p)).inSequence opcode (continuing p)) := by
    rw [exec_commandContinuation, recvPacket_of_power hon]
    exact congrArg _ (State.takePacket_of_bound (by rw [State.corrected_answers]; exact hport) hshort
      (by rw [State.corrected_portFull]; exact hroom) (by rw [State.corrected_source]; exact hx) hsame)
  have hopen (k : Contin) (hk : x.cont = some k) (htag : k.tag = p.tag) (hop : k.opcode = opcode) :
      (s.received p.port).endContin opcode (continuing p) = s.received p.port :=
    State.endContin_of_same hfound (by rw [hk]; rintro _ ⟨⟩; exact ⟨htag, hop⟩)
  have hshort' : ([] ++ p.params).length ≤ 65536 := by rw [List.nil_append]; omega
  rw [hrow]
  refine ⟨fun k hk htag hop hfit => ?more, fun hk => ?first, fun k hk htag hop hlong => ?tooLong, fun k hk hother => ?other⟩
  case more =>
    rw [hopen k hk htag hop]
    exact congrArg _ (State.inSequence_of_continued hfound hseq (Source.gathered_of_some hk) hfit (continued_continuing p))
  case first =>
    rw [State.endContin_of_same hfound (by simp [hk])]
    exact congrArg _ (State.inSequence_of_continued hfound hseq (Source.gathered_of_none hk) hshort' (continued_continuing p))
  case tooLong =>
    rw [hopen k hk htag hop]
    exact congrArg _ (State.inSequence_of_tooLong hfound hseq (Source.gathered_of_some hk) hlong)
  case other =>
    rw [State.endContin_of_other hfound hk hother]
    have hclosed := State.source_setSource (y := { x with cont := none }) hfound (State.source_num (x := x) hfound)
    exact congrArg _ (State.inSequence_of_continued ((State.answerTo_source ..).trans hclosed) hseq (Source.gathered_of_none rfl) hshort'
      (continued_continuing p))

/-! ### The packets of a source in and out of sequence (R347) -/

/-- A new source is found under its number. -/
theorem State.bindSource_source {s : State} {p : Packet} (hnew : s.source p.source = none) :
    (s.bindSource p).source p.source = some ⟨p.source, p.port, none, .none, 0xFF, none, none, [], false, s.now⟩ := by
  simp only [State.source] at hnew
  simp [State.source, State.bindSource, List.find?_append, hnew]

/-- Settles O11: a packet that its port takes comes to the sequence check of its source, known or new. -/
theorem sequenceOfASource : Obligations.SequenceOfASource := by
  unfold Obligations.SequenceOfASource
  intro i op p s hi hon hport hshort hroom
  have hport' : (s.corrected p.port).answers p.port = true := by simpa using hport
  have hroom' : (s.corrected p.port).portFull p.port (16 + p.params.length) = false := by simpa using hroom
  rw [exec_of_packet hi hon]
  refine ⟨fun x hx hsame hcont => ⟨?gap, ?last⟩, fun x k hx hsame hk hother => ?other, fun hnew hfew hlast => ?new⟩
  case gap =>
    intro e he hcounted hgap
    rw [State.takePacket_bound hport' hshort hroom' (by simpa using hx) hsame hcont]
    exact congrArg _ (State.inSequence_gap (s := s.received p.port) (by simpa using hx) hcounted he hgap)
  case last =>
    intro hlast hseq hfit
    refine ⟨?_, State.admitted_source hx⟩
    rw [State.takePacket_bound hport' hshort hroom' (by simpa using hx) hsame hcont, State.admitted_eq hx]
    exact congrArg _ (State.inSequence_ok (s := s.received p.port) (by simpa using hx) hfit hlast hseq)
  case other =>
    rw [State.takePacket_of_bound hport' hshort hroom' (by simpa using hx) hsame, State.endContin_of_other (by simpa using hx) hk hother]
    rfl
  case new =>
    have hbound := State.bindSource_source (s := s.received p.port) (by simpa using hnew)
    rw [State.takePacket_new hport' hshort hroom' (by simpa using hnew) (by simpa using hfew), State.onSource_some hbound]
    exact congrArg _ (State.inSequence_ok hbound (show p.params.length ≤ 65536 by omega) hlast (.inr (.inl rfl)))

/-! ## The checks before a command's own (R350, R374) -/

section
variable {s : State} {c : Nat} {p : Packet} {ps : List Byte}

theorem State.dispatch_of_lockedOut (h : s.lockedOut (Op.ofCode c) = true) :
    s.dispatch c p ps = s.answerTo p.port c p.source p.tag .locked [] := if_pos h

theorem State.loginRefused_eq_false {n : Nat} {o : Option Op} (h : s.roleOf n ≠ .none ∨ s.loginFree o = true) :
    (decide (s.roleOf n = .none) && !s.loginFree o) = false := by
  rcases h with h | h <;> simp [h]

section
variable (hopen : s.lockedOut (Op.ofCode c) = false)
include hopen

theorem State.dispatch_of_noLogin (hrole : s.roleOf p.source = .none) (hfree : s.loginFree (Op.ofCode c) = false) :
    s.dispatch c p ps = s.answerTo p.port c p.source p.tag .noRight [] := by
  simp [State.dispatch, hopen, hrole, hfree]

variable (hlogin : s.roleOf p.source ≠ .none ∨ s.loginFree (Op.ofCode c) = true)
include hlogin

theorem State.dispatch_of_noCredit (hcode : exemptCode c = false) (hcredits : s.credits p.source = 0) :
    s.dispatch c p ps = ((s.count 0x0605 1).overrun 1).answerTo p.port c p.source p.tag .noCredit [] := by
  have hright := State.loginRefused_eq_false hlogin
  cases hop : Op.ofCode c with
  | none =>
    rw [hop] at hopen hright
    simp [State.dispatch, hop, hopen, hright, hcredits]
  | some o =>
    have hcounted : o.exempt = false := by simpa [exemptCode, hop] using hcode
    rw [hop] at hopen hright
    simp [State.dispatch, hop, hopen, hright, hcounted, hcredits]

theorem State.dispatch_of_unlisted (hop : Op.ofCode c = none) (hcredits : s.credits p.source ≠ 0) :
    s.dispatch c p ps = s.answerTo p.port c p.source p.tag .badOpcode [] := by
  have hright := State.loginRefused_eq_false hlogin
  rw [hop] at hopen hright
  simp [State.dispatch, hop, hopen, hright, hcredits]

end

/-- A command that Table 12.2 lists, past the checks of the state, the login and the credit. -/
theorem State.dispatch_of_listed {op : Op} (hopen : s.lockedOut (some op) = false)
    (hlogin : s.roleOf p.source ≠ .none ∨ s.loginFree (some op) = true) (hcredit : op.exempt = true ∨ s.credits p.source ≠ 0) :
    s.dispatch op.code p ps =
      if op.exempt && fenceBefore p.flags then s.answerTo p.port op.code p.source p.tag .badParam []
      else if (s.cmd p.source p.tag).isSome then s.answerTo p.port op.code p.source p.tag .badParam []
      else if !s.mayRole op (s.request op p ps).role then s.answerTo p.port op.code p.source p.tag .noRight []
      else if s.mustHold (s.request op p ps) then s.hold (s.request op p ps)
      else s.serve (s.request op p ps) := by
  have hright := State.loginRefused_eq_false hlogin
  have hpaid : (!op.exempt && decide (s.credits p.source = 0)) = false := by rcases hcredit with h | h <;> simp [h]
  simp only [State.dispatch, Op.ofCode_code, hopen, hright, hpaid, Bool.false_eq_true, if_false]

end

/-! ### A command that is held back (R168, R169, R344) -/

/-- R344: the bulk data that a held command takes in meanwhile; none for one whose own check will refuse it. -/
def heldBulk (op : Op) (ps : List Byte) : Option Nat :=
  if op = .networkLoad ∧ ps.length = 4 ∧ 1 ≤ fld ps 0 4 ∧ fld ps 0 4 ≤ 2 ^ 20 then some (fld ps 0 4)
  else if op = .crewListSet ∧ ps.length = 16 ∧ 1 ≤ fld ps 4 4 ∧ fld ps 4 4 ≤ 65536 then some (4 * fld ps 4 4)
  else none

section
variable {s : State} {q : Req}

theorem networkLoad_of_unfit (h : ¬(q.params.length = 4 ∧ 1 ≤ fld q.params 0 4 ∧ fld q.params 0 4 ≤ 2 ^ 20)) :
    networkLoad q s = .done .badParam (leBytes 2 0xFFFF ++ leBytes 2 0xFFFF) s .nothing := if_pos (by omega)

theorem crewListSet_of_unfit (h : ¬(q.params.length = 16 ∧ 1 ≤ fld q.params 4 4 ∧ fld q.params 4 4 ≤ 65536)) :
    crewListSet q s = refuse .badParam s := if_pos (by omega)

theorem handle_networkLoad (hop : q.op = .networkLoad) : handle q s = networkLoad q s := by rw [handle, hop]

theorem handle_crewListSet (hop : q.op = .crewListSet) : handle q s = crewListSet q s := by rw [handle, hop]

theorem State.mustHold_iff : s.mustHold q = true ↔ q.op.immediate q.params = true
    ∧ (fenceBefore q.flags = true ∧ (∃ c ∈ s.cmds, c.acked = true)
      ∨ q.op.usesCores = false ∧ (∃ c ∈ s.cmds, c.acked = true ∧ c.body = .fence [])) := by
  simp [State.mustHold]

/-- A held command takes a slot, with its bulk data to come where it has some. -/
theorem State.hold_eq :
    s.hold q = s.addCmd (q.cmd s.nextNo s.now false (heldBulk q.op q.params) (.held q.port q.role q.keyIndex)) := by
  by_cases hload : q.op = .networkLoad
  · have hhandle := handle_networkLoad (s := s) hload
    by_cases hfit : q.params.length = 4 ∧ 1 ≤ fld q.params 0 4 ∧ fld q.params 0 4 ≤ 2 ^ 20
    · obtain ⟨hlen, hsome, hmax⟩ := hfit
      rw [networkLoad_of_total hlen hsome hmax] at hhandle
      simp only [State.hold, hhandle, hload, heldBulk, hlen, hsome, hmax, and_self, if_true]
    · rw [networkLoad_of_unfit hfit] at hhandle
      simp only [State.hold, hhandle, hload, heldBulk, hfit, true_and, false_and, reduceCtorEq, if_false]
  · by_cases hcrew : q.op = .crewListSet
    · have hhandle := handle_crewListSet (s := s) hcrew
      by_cases hfit : q.params.length = 16 ∧ 1 ≤ fld q.params 4 4 ∧ fld q.params 4 4 ≤ 65536
      · obtain ⟨hlen, hsome, hmax⟩ := hfit
        rw [crewListSet_of_members hlen hsome hmax] at hhandle
        simp only [State.hold, hhandle, hcrew, heldBulk, hlen, hsome, hmax, reduceCtorEq, false_and, and_self, if_true, if_false]
      · rw [crewListSet_of_unfit hfit] at hhandle
        simp only [State.hold, refuse, hhandle, hcrew, heldBulk, hfit, true_and, false_and, reduceCtorEq, if_false]
    · unfold State.hold
      split
      next hop _ => exact absurd hop hload
      next hop _ => exact absurd hop hcrew
      next => simp only [heldBulk, hload, hcrew, false_and, if_false]

end

/-- Settles O12, a check at a time, each behind those before it; a command that is held back is not served. -/
theorem checksInOrder : Obligations.ChecksInOrder := by
  unfold Obligations.ChecksInOrder
  intro op p ps s x hx say t
  have hcode : Op.ofCode op.code = some op := Op.ofCode_code op
  have hrole : s.roleOf p.source = x.role := by simp [State.roleOf, hx]
  have hrequest : s.request op p ps = x.req op { p with params := ps } := by simp [State.request, hx, Source.req]
  have hlisted (hopen : s.lockedOut (some op) = false) (hlogin : x.role ≠ .none ∨ s.loginFree (some op) = true) :=
    State.dispatch_of_listed (ps := ps) hopen (hrole ▸ hlogin)
  refine ⟨?locked, ?login, ?credit, ?fence, ?tag, ?role, ?held, ?unlisted⟩
  case locked => exact fun hlocked => State.dispatch_of_lockedOut (hcode.symm ▸ hlocked)
  case login =>
    intro hopen hnone hfree
    exact State.dispatch_of_noLogin (by rwa [hcode]) (hrole.trans hnone) (by rwa [hcode])
  case credit =>
    intro hopen hlogin hplain hcredits
    exact State.dispatch_of_noCredit (by rwa [hcode]) (by rwa [hcode, hrole]) (by rwa [exemptCode_code]) hcredits
  case fence =>
    intro hopen hlogin hexempt hbefore
    exact (hlisted hopen hlogin (.inl hexempt)).trans (if_pos (by simp [hexempt, hbefore]))
  case tag =>
    intro hopen hlogin hcredit hused
    rw [show t = _ from hlisted hopen hlogin hcredit]
    exact (ite_eq_left_iff.mpr fun _ => if_pos hused)
  case role =>
    intro hopen hlogin hadmitted hfree hrefused
    have hunfenced : (op.exempt && fenceBefore p.flags) = false := by
      rcases hadmitted with ⟨-, hplain⟩ | ⟨hqueued, -⟩
      · simp [hplain]
      · simp [hqueued]
    rw [show t = _ from hlisted hopen hlogin (hadmitted.imp And.left And.right), hrequest, hunfenced, hfree, Source.req_role, hrefused]
    rfl
  case held =>
    intro hopen hlogin hplain hcredits hfree hright himmediate hwaits bulk
    rw [show t = _ from hlisted hopen hlogin (.inr hcredits), hrequest, hplain, hfree, Source.req_role, hright,
      State.mustHold_iff.mpr ⟨himmediate, hwaits⟩]
    exact State.hold_eq
  case unlisted =>
    intro opcode hop hopen other
    refine ⟨fun hnone => ?_, fun hlogin hcredits => ?_⟩
    · exact State.dispatch_of_noLogin (by rwa [hop]) (hrole.trans hnone) (by rw [hop]; rfl)
    · exact State.dispatch_of_unlisted (by rwa [hop]) (.inl (hrole ▸ hlogin)) hop hcredits

end Sys2Proof.Machine
end

section
/-!
PROOFS. Bulk data (R337, R339, R344, R345, R349, R369): packets dropped and ignored, what waits in the buffer of a port, what a command
takes in, and what ends it.
-/
namespace Sys2Proof.Machine

/-! ## What the correction of a header bit leaves -/

section
variable {s : State} {k : Nat}

theorem State.corrected_keeps {α : Type} (f : State → α) (h : ∀ y w, f { s with ctrs := y, free := w } = f s) :
    f (s.corrected k) = f s := by
  obtain ⟨y, w, e⟩ := s.corrected_changes k
  rw [e, h]

@[simp] theorem State.corrected_cmd (n tag : Nat) : (s.corrected k).cmd n tag = s.cmd n tag := by simp [State.cmd]

@[simp] theorem State.corrected_bulkMoves (n tag : Nat) : (s.corrected k).bulkMoves n tag = s.bulkMoves n tag :=
  State.corrected_keeps (State.bulkMoves · n tag) fun _ _ => rfl

@[simp] theorem State.corrected_mayMove (cls : Activity) (ms : Moves) : (s.corrected k).mayMove cls ms = s.mayMove cls ms :=
  State.corrected_keeps (State.mayMove · cls ms) fun _ _ => rfl

@[simp] theorem State.corrected_fifthBulk (c : Cmd) : (s.corrected k).fifthBulk c = s.fifthBulk c :=
  State.corrected_keeps (State.fifthBulk · c) fun _ _ => rfl

end

/-- What waits at a ceiling leaves the port buffers as they were. -/
@[simp] theorem State.waitAt_buffered (s : State) (cls : Activity) (ms : Moves) : (s.waitAt cls ms).power.buffered = s.power.buffered := by
  refine foldl_keeps (fun t => t.power.buffered) _ (fun t y => ?_) _ s
  unfold State.atCeiling
  dsimp only
  split <;> rfl

/-! ## From the port to the command (R344, R349, R369) -/

section
variable {s : State} {port n tag offset : Nat} {data : List Byte} (hon : s.power.phase ≠ .off)
include hon

theorem packetDropped_of_listens (h : s.listens port = true) : exec (.packetDropped port) s = .next ((s.corrected port).count 0x0603 1) :=
  (if_neg hon).trans (congrArg _ (if_pos h))

theorem packetIgnored_of_listens (h : s.listens port = true) : exec (.packetIgnored port) s = .next ((s.corrected port).count 0x0607 1) :=
  (if_neg hon).trans (congrArg _ (if_pos h))

theorem bulkPacket_of_power : exec (.bulkPacket port n tag offset data) s = .next ((s.corrected port).recvBulk port n tag offset data) :=
  if_neg hon

end

section
variable {s : State} {port n tag offset : Nat} {data : List Byte}

theorem State.recvBulk_of_full (hport : s.answers port = true) (h : s.portFull port (16 + data.length) = true) :
    s.recvBulk port n tag offset data = (s.count 0x0605 1).overrun 1 := by
  simp [State.recvBulk, hport, h]

theorem State.recvBulk_of_room (hport : s.answers port = true) (h : s.portFull port (16 + data.length) = false) :
    s.recvBulk port n tag offset data = s.offerBulk ⟨port, n, tag, offset, data⟩ := by
  simp [State.recvBulk, hport, h]

theorem State.offerBulk_of_wait {b : PortBulk}
    (h : (s.power.buffered.any (fun y => decide (y.port = b.port)) || !s.mayMove .ingest (s.bulkMoves b.source b.tag)) = true) :
    s.offerBulk b = { s.waitAt .ingest (s.bulkMoves b.source b.tag) with
      power := { (s.waitAt .ingest (s.bulkMoves b.source b.tag)).power with buffered := s.power.buffered ++ [b] } } := by
  simp only [State.offerBulk, Bool.or_eq_true_iff.mp h, if_true, State.waitAt_buffered]

theorem State.offerBulk_of_free {b : PortBulk}
    (h : (s.power.buffered.any (fun y => decide (y.port = b.port)) || !s.mayMove .ingest (s.bulkMoves b.source b.tag)) = false) :
    s.offerBulk b = s.bulkIn b := by
  have hgoes := Bool.or_eq_false_iff.mp h
  exact if_neg (by simp [hgoes])

theorem State.bulkIn_of_fit {b : PortBulk} {x : Source} (hx : s.source b.source = some x) (hport : x.port = b.port)
    (hsome : b.data ≠ []) (hsize : b.data.length ≤ 16384) : s.bulkIn b = s.takeBulk b.source b.tag b.offset b.data := by
  simp [State.bulkIn, hx, hport, hsome, Nat.not_lt.mpr hsize]

end

/-! ## From the command on (R344, R345) -/

section
variable {s : State} {n tag offset : Nat} {c : Cmd} {b : BulkIn} {data : List Byte}

/-- A command with the data of a bulk packet behind what it has taken in. -/
def Cmd.withData (c : Cmd) (b : BulkIn) (data : List Byte) (now : Nat) : Cmd :=
  { c with bulk := some { b with data := b.data ++ data, lastAt := now } }

theorem Cmd.wantsBulk_of_some (hbulk : c.bulk = some b) : c.wantsBulk = decide (b.data.length < b.total) := by
  simp [Cmd.wantsBulk, hbulk]

theorem Cmd.withData_wantsBulk (now : Nat) : (c.withData b data now).wantsBulk = decide (b.data.length + data.length < b.total) := by
  simp [Cmd.wantsBulk, Cmd.withData]

section
variable (hcmd : s.cmd n tag = some c) (hbulk : c.bulk = some b) (hwants : b.data.length < b.total) (hfifth : s.fifthBulk c = false)
include hcmd hbulk hwants hfifth

theorem State.takeBulk_of_gap (hgap : offset ≠ b.data.length) : s.takeBulk n tag offset data = s.bulkFails c := by
  simp [State.takeBulk, hcmd, hbulk, Cmd.wantsBulk_of_some hbulk, hwants, hfifth, hgap]

theorem State.takeBulk_of_next (hnext : offset = b.data.length) (hfit : b.data.length + data.length ≤ b.total) :
    s.takeBulk n tag offset data = s.bulkGoes c b data := by
  simp [State.takeBulk, hcmd, hbulk, Cmd.wantsBulk_of_some hbulk, hwants, hfifth, hnext, Nat.not_lt.mpr hfit]

end

theorem State.bulkGoes_of_part (h : b.data.length + data.length < b.total) :
    s.bulkGoes c b data = (s.setCmd (c.withData b data s.now)).count 0x0601 data.length :=
  if_pos (by rw [← Cmd.withData, Cmd.withData_wantsBulk]; simpa using h)

theorem State.bulkGoes_of_whole (h : b.data.length + data.length = b.total) (hacked : c.acked = true) :
    s.bulkGoes c b data
      = ((s.setCmd (c.withData b data s.now)).count 0x0601 data.length).begin (c.withData b data s.now) :=
  (if_neg (by rw [← Cmd.withData, Cmd.withData_wantsBulk]; simp [h])).trans (if_pos hacked)

theorem State.bulkFails_of_acked (h : c.acked = true) :
    s.bulkFails c = (s.spoilData c).completeGeneric c .aborted 0 0x14 0 := if_pos h

theorem State.bulkFails_of_unacked {x : Source} (h : c.acked = false) (hx : s.source c.source = some x) (hbulk : c.bulk = some b) :
    s.bulkFails c = (((s.dropCmd c).countGap).answerTo x.port c.op.code c.source c.tag .seqGap
      (leBytes 4 (x.seq.getD 0) ++ leBytes 4 c.seq ++ leBytes 8 b.data.length)).afterCmd c.source := by
  simp [State.bulkFails, h, hx, hbulk]

/-- R345: a command that has waited too long for its data. -/
theorem bulkGapTimeout_of_wanting (hcmd : s.cmd n tag = some c) (hbulk : c.bulk = some b) (hwants : b.data.length < b.total)
    (hquiet : ∀ y ∈ s.power.buffered, ¬(y.source = n ∧ y.tag = tag)) :
    exec (.bulkGapTimeout n tag) s = .next ((s.reach (b.lastAt + 1000 * s.acting 0x5101)).bulkFails c) := by
  have hnone : s.power.buffered.any (fun y => decide (y.source = n) && decide (y.tag = tag)) = false := by
    simpa using hquiet
  show execBulkGapTimeout n tag s = _
  simp [execBulkGapTimeout, hcmd, hbulk, Cmd.wantsBulk_of_some hbulk, hwants, hnone]

end

/-- Settles O33: a bulk packet on its way from the port, whose header bit R337 may have corrected, to its command, and what the command
makes of it; the gap timeout fails the command like a gap does. -/
theorem bulkData : Obligations.BulkData := by
  unfold Obligations.BulkData
  intro s port n tag offset data hon
  refine ⟨fun hlistens => ⟨packetDropped_of_listens hon hlistens, packetIgnored_of_listens hon hlistens⟩, fun hport => ?packet,
    ?timeout⟩
  case packet =>
    intro a wait full
    have hport : a.answers port = true := by simpa [a] using hport
    rw [bulkPacket_of_power hon]
    refine ⟨fun hfull => ?full, fun hroom hwait => ?wait, ?taken⟩
    case full => rw [State.recvBulk_of_full hport (by simpa [a] using hfull)]
    case wait =>
      rw [State.recvBulk_of_room hport (by simpa [a] using hroom), State.offerBulk_of_wait (by simpa [a, wait] using hwait)]
      simp [a]
    case taken =>
      intro x c b hroom hgoes hx hsame hsome hsize hcmd hbulk hwants hfifth
      have hcmd' : a.cmd n tag = some c := by simpa [a] using hcmd
      have hfifth' : a.fifthBulk c = false := by simpa [a] using hfifth
      have hnow : a.now = s.now := State.corrected_now s port
      rw [State.recvBulk_of_room hport (by simpa [a] using hroom), State.offerBulk_of_free (by simpa [a, wait] using hgoes),
        State.bulkIn_of_fit (x := x) (by simpa [a] using hx) hsame hsome hsize]
      refine ⟨fun hnext hpart => ?part, fun hnext hwhole hacked => ?whole, fun hgap hacked => ?acked, fun hgap hacked => ?unacked⟩
      case part =>
        rw [State.takeBulk_of_next hcmd' hbulk hwants hfifth' hnext hpart.le, State.bulkGoes_of_part hpart, hnow]
        rfl
      case whole =>
        rw [State.takeBulk_of_next hcmd' hbulk hwants hfifth' hnext hwhole.le, State.bulkGoes_of_whole hwhole hacked, hnow]
        rfl
      case acked => rw [State.takeBulk_of_gap hcmd' hbulk hwants hfifth' hgap, State.bulkFails_of_acked hacked]
      case unacked =>
        obtain ⟨rfl, rfl⟩ := State.cmd_names hcmd
        rw [State.takeBulk_of_gap hcmd' hbulk hwants hfifth' hgap,
          State.bulkFails_of_unacked hacked (x := x) (by simpa [a] using hx) hbulk, hsame]
  case timeout =>
    intro c b hcmd hbulk hwants hacked hquiet t
    rw [bulkGapTimeout_of_wanting hcmd hbulk hwants hquiet, State.bulkFails_of_acked hacked]
    rfl

end Sys2Proof.Machine
end

section
/-!
PROOFS. The commands of the streams (R356, R361, R362): what the handler of each answers where its checks pass, in the state its packet is
admitted to.
-/
namespace Sys2Proof.Machine

/-! ## The frames of a stream are written by an awake module -/

section
variable (s : State) (t : Tensor)

theorem State.putBlock_sleep (p bi bj : Nat) (new : Nat → Option Nat) : (s.putBlock t p bi bj new).power.sleep = s.power.sleep := by
  unfold State.putBlock
  dsimp only
  split <;> rfl

@[simp] theorem State.putRegion_sleep (p r0 nr c0 nc : Nat) (code : Nat → Nat → Option Nat) :
    (s.putRegion t p r0 nr c0 nc code).power.sleep = s.power.sleep :=
  foldl_keeps (fun a => a.power.sleep) _ (fun a _ => State.putBlock_sleep a t p _ _ _) _ s

/-- Power is as it was but for the bytes that wait for grants. -/
@[simp] theorem State.charge_sleep (cls : Activity) (ms : Moves) : (s.charge cls ms).power.sleep = s.power.sleep := by
  refine foldl_keeps (fun t => t.power.sleep) _ (fun t y => ?_) _ s
  unfold State.requestOn
  split <;> rfl

@[simp] theorem State.storeFrame_sleep (x : Stream) (o : OpenFrame) :
    (s.storeFrame x t o).power.sleep = s.power.sleep := by
  simp [State.storeFrame]

@[simp] theorem State.dropFrame_sleep : (s.dropFrame t).power.sleep = s.power.sleep := by simp [State.dropFrame]

@[simp] theorem State.flushFrames_sleep (x : Stream) : (s.flushFrames x).power.sleep = s.power.sleep := by
  unfold State.flushFrames
  split
  · rfl
  · refine foldl_keeps (fun a => a.power.sleep) _ (fun a i => ?_) _ s
    repeat' split
    all_goals simp

@[simp] theorem State.startInput_sleep (x : Stream) : (s.startInput x).power.sleep = s.power.sleep := by
  unfold State.startInput
  repeat' split
  all_goals simp

end

/-! ## The handlers -/

section
variable {s : State} {q : Req}

/-- The stream that a STREAM_MAP of the parameters `ps` adds. -/
def mappedStream (ps : List Byte) (source tag : Nat) : Stream :=
  { Stream.new (fld ps 1 1) false (fld ps 2 1) (fld ps 3 1) (fld ps 4 1) (fld ps 12 4) 0 source tag with
    channels := fld ps 5 1, shift := fld ps 6 1, black := fld ps 8 2, scale := fld ps 10 2 }

section
variable (hlen : q.params.length = 16)
include hlen

theorem streamMap_of_map (haction : fld q.params 0 1 = 0) (hmap : s.mapRefusal q.params = none) :
    streamMap q s = .done .ok [] { s with streams := s.streams ++ [mappedStream q.params q.source q.tag] } .nothing := by
  simp [streamMap, hlen, haction, hmap, okReply, mappedStream]

theorem streamMap_of_unmap {y : Stream} (haction : fld q.params 0 1 = 1) (hy : s.stream (fld q.params 1 1) = some y)
    (hidle : y.state ≠ .running) (hin : y.output = false) :
    streamMap q s = .done .ok [] ((s.flushFrames y).dropStream (fld q.params 1 1)) .nothing := by
  simp [streamMap, hlen, haction, hy, hidle, hin, okReply]

/-- The status record of an ID; zeros for one that is not mapped (Table 11.8). -/
def State.statusRecord (s : State) (id : Nat) : List Byte :=
  match s.stream id with
  | some y => y.record
  | none => List.replicate 32 0

theorem streamMap_of_query (haction : fld q.params 0 1 = 2) (hid : fld q.params 1 1 ≤ 63) :
    streamMap q s = .done .ok (s.statusRecord (fld q.params 1 1)) s .nothing := by
  simp only [streamMap, hlen, haction, okReply]
  exact if_neg (Nat.not_lt.mpr hid)

end

/-- Each stream of a mask in ascending order. -/
def State.eachStream (s : State) (mask : Nat) (act : State → Stream → State) : State :=
  (maskIds mask).foldl (fun t i => match t.stream i with | some y => act t y | none => t) s

theorem State.eachStream_sleep {act : State → Stream → State} (hact : ∀ t y, (act t y).power.sleep = t.power.sleep) (mask : Nat) :
    (s.eachStream mask act).power.sleep = s.power.sleep := by
  refine foldl_keeps (fun t => t.power.sleep) _ (fun t i => ?_) _ s
  split
  · exact hact _ _
  · rfl

section
variable (hlen : q.params.length = 8) (hmask : s.badMask (fld q.params 0 8) = false)
include hlen hmask

theorem streamStart_of_mapped :
    streamStart q s = .done .ok [] (s.eachStream (fld q.params 0 8) State.startInput) .nothing := if_neg (by simp [hlen, hmask])

theorem streamStop_of_mapped :
    streamStop q s = .done .ok [] (s.eachStream (fld q.params 0 8) State.stopStream) .nothing := if_neg (by simp [hlen, hmask])

end

/-- R362: the port, virtual channel and mode of the parameters `ps` are free for an output stream of an ID that is not mapped. -/
structure State.OutputFree (s : State) (ps : List Byte) : Prop where
  length : ps.length = 8
  id : fld ps 0 1 ≤ 63
  unmapped : s.stream (fld ps 0 1) = none
  first : 8 ≤ fld ps 1 1
  last : fld ps 1 1 ≤ 11
  role : s.portSetting (fld ps 1 1) 0 = 2 ∨ s.portSetting (fld ps 1 1) 0 = 3 ∧ fld ps 2 1 ≠ 0
  channel : fld ps 2 1 ≤ 15
  unused : ∀ y ∈ s.streams, ¬(y.output = true ∧ y.port = fld ps 1 1 ∧ y.vc = fld ps 2 1)

theorem streamOut_of_tensor {t : Tensor} {o : Nat} (hfree : s.OutputFree q.params) (ht : s.tensor (fld q.params 4 4) = some t)
    (hmode : fld q.params 3 1 = 0 ∧ t.layout = .blocked ∨ fld q.params 3 1 = 1 ∧ t.layout = .ring) (hout : outType t.f = some o)
    (hfmt : t.fmt ≠ none) (hline : t.cols * (t.f.bits / 8) ≤ 16384) :
    streamOut q s = .accept [] (.streamOut (fld q.params 0 1)) none { s with streams := s.streams ++
      [Stream.new (fld q.params 0 1) true (fld q.params 1 1) (fld q.params 2 1) 0 t.handle (fld q.params 3 1) q.source q.tag] } := by
  obtain ⟨hlen, hid, hunmapped, hfirst, hlast, hrole, hchannel, hunused⟩ := hfree
  have hlone : s.streams.any (fun x => x.output && decide (x.port = fld q.params 1 1) && decide (x.vc = fld q.params 2 1)) = false := by
    simpa using hunused
  have hlayout : (if fld q.params 3 1 = 0 then decide (t.layout = .blocked) else decide (t.layout = .ring)) = true := by
    rcases hmode with ⟨hmode, hlay⟩ | ⟨hmode, hlay⟩ <;> simp [hmode, hlay]
  simp only [streamOut, ht, hout]
  rw [if_neg (by simp only [hunmapped, Option.isSome_none, Bool.false_eq_true, false_or]; omega),
    if_neg (by simp only [hlone, Bool.false_eq_true, or_false]; omega)]
  exact if_neg (by simp [hlayout, hfmt, Nat.not_lt.mpr hline])

end

/-! ## The admitted state -/

section
variable {s : State} {op : Op} {p : Packet}

@[simp] theorem State.admitted_stream (id : Nat) : (s.admitted op p).stream id = s.stream id := by simp [State.stream]

@[simp] theorem State.admitted_portSetting (k i : Nat) : (s.admitted op p).portSetting k i = s.portSetting k i := by
  simp [State.portSetting, State.acting]

@[simp] theorem State.admitted_mapRefusal (ps : List Byte) : (s.admitted op p).mapRefusal ps = s.mapRefusal ps :=
  State.admitted_keeps (State.mapRefusal · ps) s op p fun _ _ _ => rfl

@[simp] theorem State.admitted_badMask (mask : Nat) : (s.admitted op p).badMask mask = s.badMask mask :=
  State.admitted_keeps (State.badMask · mask) s op p fun _ _ _ => rfl

theorem State.admitted_outputFree {ps : List Byte} (h : s.OutputFree ps) : (s.admitted op p).OutputFree ps := by
  obtain ⟨hlen, hid, hunmapped, hfirst, hlast, hrole, hchannel, hunused⟩ := h
  exact ⟨hlen, hid, by simpa using hunmapped, hfirst, hlast, by simpa using hrole, hchannel, by rwa [State.admitted_streams]⟩

end

/-- Settles O29, a command at a time: the handlers' checks pass in the admitted state, which has the streams, the ports and the tensors of
the state before. -/
theorem streamCommands : Obligations.StreamCommands := by
  unfold Obligations.StreamCommands
  intro s p last x
  refine ⟨fun h hlen => ?map, ?start, ?stop, ?out⟩
  case map =>
    intro ps id a
    refine ⟨fun haction hmap => ?add, fun y haction hy hidle hin => ?unmap, fun haction hid => ?query⟩
    case add =>
      have hv := streamMap_of_map (q := (x.taken .streamMap p).req .streamMap p) (s := a) hlen haction (by simpa [a] using hmap)
      rw [show a.streams = s.streams from State.admitted_streams] at hv
      exact exec_of_done rfl h hv h.admitted_awake
    case unmap =>
      have hv := streamMap_of_unmap (q := (x.taken .streamMap p).req .streamMap p) (s := a) hlen haction (by simpa [a] using hy) hidle hin
      exact exec_of_done rfl h hv (by simpa [a] using h.admitted_awake)
    case query =>
      have hv := streamMap_of_query (q := (x.taken .streamMap p).req .streamMap p) (s := a) hlen haction hid
      rw [State.statusRecord, show a.stream _ = s.stream _ from State.admitted_stream _] at hv
      exact exec_of_done rfl h hv h.admitted_awake
  case start =>
    intro h hlen hmask
    have hv := streamStart_of_mapped (q := (x.taken .streamStart p).req .streamStart p) (s := s.admitted .streamStart p) hlen
      (by simpa using hmask)
    exact exec_of_done rfl h hv ((State.eachStream_sleep State.startInput_sleep _).trans h.admitted_awake)
  case stop =>
    intro h hlen hmask
    have hv := streamStop_of_mapped (q := (x.taken .streamStop p).req .streamStop p) (s := s.admitted .streamStop p) hlen
      (by simpa using hmask)
    exact exec_of_done rfl h hv
      ((State.eachStream_sleep (fun t y => congrArg Power.sleep (State.stopStream_power t y)) _).trans h.admitted_awake)
  case out =>
    intro t o ps h hlen hid hunmapped hfirst hlast hrole hchannel hunused ht hmode hout hfmt hline
    have hfree : s.OutputFree p.params := ⟨hlen, hid, hunmapped, hfirst, hlast, hrole, hchannel, hunused⟩
    have hv := streamOut_of_tensor (q := (x.taken .streamOut p).req .streamOut p) (s := s.admitted .streamOut p)
      (State.admitted_outputFree hfree) (by simpa using ht) hmode hout hfmt hline
    rw [State.admitted_streams] at hv
    exact exec_of_accepted rfl h hv h.admitted_awake

end Sys2Proof.Machine
end

section
/-!
PROOFS. What time ends at the host interface: sources without a login (R346), challenges (R377), lockouts (R408) and an idle Ledger
(R412, R419).
-/
namespace Sys2Proof.Machine

section
variable {s : State} {n : Nat} {x : Source}

theorem exec_sourceExpiry : exec (.sourceExpiry n) s = execSourceExpiry n s := rfl
theorem exec_challengeExpiry : exec (.challengeExpiry n) s = execChallengeExpiry n s := rfl
theorem exec_lockoutExpiry (code i : Nat) : exec (.lockoutExpiry code i) s = execLockoutExpiry code i s := rfl
theorem exec_ledgerIdleTimeout : exec .ledgerIdleTimeout s = execLedgerIdleTimeout s := rfl

theorem sourceExpiry_of_idle (hx : s.source n = some x) (hrole : x.role = .none) (hslots : s.slotsHeld n = 0) :
    exec (.sourceExpiry n) s = .next ((s.reach (x.idleSince + 10000000)).unbind n) := by
  simp [exec_sourceExpiry, execSourceExpiry, hx, hrole, hslots]

theorem State.closeChallenge_of_source (hx : s.source n = some x) : s.closeChallenge n = s.setSource { x with challenge := none } := by
  simp [State.closeChallenge, hx]

theorem challengeExpiry_of_open {c : Challenge} (hx : s.source n = some x) (hc : x.challenge = some c) :
    exec (.challengeExpiry n) s = .next ((s.reach c.closes).setSource { x with challenge := none }) := by
  have hreached : (s.reach c.closes).source n = some x := hx
  simp only [exec_challengeExpiry, execChallengeExpiry, hx, hc, State.closeChallenge_of_source hreached]

theorem lockoutExpiry_of_locked {code i t : Nat} {r : Role} (hr : Role.ofCode code = some r)
    (hlocked : (s.failsOf r i).lockedUntil = some t) :
    exec (.lockoutExpiry code i) s = .next ((s.reach t).setFails ⟨r, i, 0, none⟩) := by
  simp only [exec_lockoutExpiry, execLockoutExpiry, hr, hlocked]

end

/-! ## A rollback of the open Ledger (R412, R419) -/

section
variable {s : State} {l : Ledger} (hledger : s.ledger = some l) (hopen : l.committing = false)
include hledger hopen

theorem State.rollback_of_recorded (hflash : s.trust.flashFault = false) (cause : RollCause) (e : AuditEvent) :
    s.rollback cause e = ({ s with ledger := none }).audit (rollRecord e l.id cause 0) := by
  simp [State.rollback, hledger, hopen, hflash]

theorem State.rollback_of_flashFault (hflash : s.trust.flashFault = true) (cause : RollCause) (e : AuditEvent) :
    s.rollback cause e = s.raiseFault (6 * 4096) := by
  simp [State.rollback, hledger, hopen, hflash]

theorem ledgerIdleTimeout_of_open :
    exec .ledgerIdleTimeout s = .next ((s.reach (l.lastAt + 10000000)).rollback .idle (AuditEvent.device 0x02)) := by
  simp [exec_ledgerIdleTimeout, execLedgerIdleTimeout, hledger, hopen]

end

/-- Settles O35, a timer at a time: the moment is reached, and what it ends is ended in the state of that moment. -/
theorem expiries : Obligations.Expiries := by
  unfold Obligations.Expiries
  intro s
  refine ⟨fun n x hx hrole hslots => sourceExpiry_of_idle hx hrole hslots, fun n x c hx hc => challengeExpiry_of_open hx hc,
    fun code i r t hr hlocked => lockoutExpiry_of_locked hr hlocked, fun l hledger hopen => ?ledger⟩
  case ledger =>
    have hreached : (s.reach (l.lastAt + 10000000)).ledger = some l := hledger
    rw [ledgerIdleTimeout_of_open hledger hopen]
    exact ⟨fun hflash => congrArg _ (State.rollback_of_recorded hreached hopen hflash _ _),
      fun hflash => congrArg _ (State.rollback_of_flashFault hreached hopen hflash _ _)⟩

end Sys2Proof.Machine
end

section
/-!
PROOFS. The I3C target (R364 to R367): its common command codes, the mailbox, and the register window.
-/
namespace Sys2Proof.Machine

/-! ## Common command codes (R364, R365) -/

section
variable {s : State}

theorem State.i3cUp_powered (hup : s.i3cUp = true) : s.power.phase ≠ .off := by
  intro hoff
  simp [State.i3cUp, hoff] at hup

/-- The target's answer to a common command code; none where it sends a NACK. -/
def State.answered (s : State) (a : Option (List Byte)) : State := { s with i3c := { s.i3c with answer := a } }

/-- A row that carries a common command code, to a target out of reset. -/
theorem exec_of_ccc {i : Instr} {f : State → State} {a : Option (List Byte)} (hrow : exec i s = ccc s f a) (hup : s.i3cUp = true) :
    exec i s = .next ((f s).answered a) :=
  hrow.trans ((if_neg (State.i3cUp_powered hup)).trans (if_pos hup))

theorem State.assign_of_none (h : s.i3c.addr = none) (a : Nat) : s.assign a = { s with i3c := { s.i3c with addr := some (a % 128) } } := by
  simp [State.assign, h]

theorem lengthOk_of_mem {n : Nat} (hmin : 16 ≤ n) (hmax : n ≤ 4096) : lengthOk n = true := by simp [lengthOk, hmin, hmax]

end

/-- Settles O38: most codes leave the target as it is and only answer; the two that assign an address find it free, and the two that set a
maximum length find it in range. -/
theorem commonCommandCodes : Obligations.CommonCommandCodes := by
  unfold Obligations.CommonCommandCodes
  intro s hup said
  have hid {i : Instr} (bs : List Byte) (hrow : exec i s = ccc s id (some bs)) : exec i s = .next (said bs s) := exec_of_ccc hrow hup
  refine ⟨fun a hfree => ?address, exec_of_ccc (f := fun t => { t with i3c := { t.i3c with addr := none } }) rfl hup, hid _ rfl,
    hid _ rfl, hid _ rfl, hid _ rfl, hid _ rfl, hid _ rfl, fun n hmin hmax => ?length, fun e => ⟨hid _ rfl, hid _ rfl⟩, hid _ rfl,
    exec_of_ccc (f := State.i3cReset) rfl hup, rfl, exec_of_ccc (f := State.coldStart) rfl hup, fun k => exec_of_ccc (f := id) rfl hup⟩
  case address =>
    have hassign {i : Instr} (hrow : exec i s = ccc s (fun t => t.assign a) (some [])) :
        exec i s = .next (said [] { s with i3c := { s.i3c with addr := some (a % 128) } }) := by
      rw [exec_of_ccc hrow hup, State.assign_of_none hfree]
      rfl
    exact ⟨hassign rfl, hassign rfl⟩
  case length =>
    have hlength {i : Instr} {f : State → State} (hrow : exec i s = ccc s (fun t => if lengthOk n then f t else t) (some [])) :
        exec i s = .next (said [] (f s)) := by
      rw [exec_of_ccc hrow hup, lengthOk_of_mem hmin hmax]
      rfl
    exact ⟨hlength (f := fun t => { t with i3c := { t.i3c with mwl := n } }) rfl,
      hlength (f := fun t => { t with i3c := { t.i3c with mrl := n } }) rfl⟩

/-! ## The mailbox (R367) -/

theorem padTo_length (n : Nat) (bs : List Byte) : (padTo n bs).length = n := by
  simp only [padTo, List.length_append, List.length_take, List.length_replicate]
  omega

section
variable {s : State} (hon : s.power.phase ≠ .off)
include hon

theorem mbxSubmit_of_power (bulk : Bool) (len : Nat) : exec (.mbxSubmit bulk len) s = .next (s.submit bulk len) := if_neg hon

theorem mbxRelease_of_power : exec .mbxRelease s = .next s.release := if_neg hon

theorem mbxOutDropClear_of_power : exec .mbxOutDropClear s = .next s.clearDrop := if_neg hon

theorem i3cPrivateWrite_of_power (a : Nat) (bs : List Byte) (hup : s.i3cUp = true) :
    exec (.i3cPrivateWrite a bs) s = .next (s.windowWrite a (bs.take (s.i3c.mwl - 2))) :=
  (if_neg hon).trans (congrArg _ (if_pos hup))

end

section
variable {s : State} (hport : s.answers 12 = true)
include hport

theorem State.submit_of_busy (hbusy : s.inBusy = true) (bulk : Bool) (len : Nat) : s.submit bulk len = (s.count 0x0605 1).overrun 1 := by
  simp [State.submit, hport, hbusy]

theorem State.submit_of_free (hfree : s.inBusy = false) {len : Nat} (hmin : 16 ≤ len) (hmax : len ≤ 4096) (bulk : Bool) :
    s.submit bulk len = if bulk then s.mailBulk (padTo len s.i3c.mbxIn) else s.mailCommand (padTo len s.i3c.mbxIn) := by
  simp [State.submit, hport, hfree, Nat.not_lt.mpr hmin, Nat.not_lt.mpr hmax]

end

section
variable {s : State} {bs : List Byte}

theorem State.mailCommand_of_whole (hversion : fld bs 3 1 = 1) (hlen : fld bs 12 4 + 16 = bs.length) :
    s.mailCommand bs = ({ s with i3c := { s.i3c with lastSource := fld bs 4 2 } } : State).takePacket (fld bs 0 2)
      ⟨12, fld bs 2 1, fld bs 4 2, fld bs 6 2, fld bs 8 4, bs.drop 16⟩ := if_neg (by simp [hversion, hlen])

theorem State.mailCommand_of_bad (h : fld bs 3 1 ≠ 1 ∨ fld bs 12 4 + 16 ≠ bs.length) :
    s.mailCommand bs = ({ s with i3c := { s.i3c with lastSource := fld bs 4 2 } } : State).count 0x0603 1 := if_pos h

end

/-! ## The register window (R366) -/

/-- A write that begins behind a register does not cover it. -/
theorem covered_of_behind {a w : Nat} (h : w < a) (bs : List Byte) (n : Nat) : covered a bs w n = none := if_neg (by omega)

/-- A write from MBX_IN on acts on no register. -/
theorem State.windowWrite_of_mbxIn {s : State} {a : Nat} {bs : List Byte} (hmax : a < 2 ^ 16) (hmin : 0x1000 ≤ a) :
    s.windowWrite a bs = { s with i3c := { s.i3c with window := a, mbxIn := writeIn a bs s.i3c.mbxIn } } := by
  have haddr : a % 65536 = a := Nat.mod_eq_of_lt hmax
  simp only [State.windowWrite, haddr, covered_of_behind (show 0x0010 < a by omega), covered_of_behind (show 0x0014 < a by omega)]

/-- Settles O37: a submit is a packet on port 12, which the bytes of MBX_IN spell; a private write into MBX_IN puts its bytes there and acts
on no register. -/
theorem mailbox : Obligations.Mailbox := by
  unfold Obligations.Mailbox
  intro s hon
  refine ⟨fun bulk len hport hbusy => ?busy, fun len hport hfree hmin hmax => ?free, mbxRelease_of_power hon,
    mbxOutDropClear_of_power hon, fun a bs hup hmax hmin hend hlen => ?window⟩
  case busy => rw [mbxSubmit_of_power hon, State.submit_of_busy hport hbusy]
  case free =>
    intro b
    have hb : b.length = len := padTo_length _ _
    have hcommand : exec (.mbxSubmit false len) s = .next (s.mailCommand b) := by
      rw [mbxSubmit_of_power hon, State.submit_of_free hport hfree hmin hmax]
      rfl
    have hbulk : exec (.mbxSubmit true len) s = .next (s.mailBulk b) := by
      rw [mbxSubmit_of_power hon, State.submit_of_free hport hfree hmin hmax]
      rfl
    refine ⟨⟨fun hversion hsize => ?_, fun hbad => ?_⟩, hbulk⟩
    · rw [hcommand, State.mailCommand_of_whole hversion (hb ▸ hsize)]
    · rw [hcommand, State.mailCommand_of_bad (hb ▸ hbad)]
  case window =>
    refine ⟨?_, fun k hk => writeIn_get bs a _ k hmin hend hk⟩
    rw [i3cPrivateWrite_of_power hon a bs hup, List.take_of_length_le (by omega), State.windowWrite_of_mbxIn hmax hmin]

end Sys2Proof.Machine
end

section
/-!
PROOFS. The session of a source: NOP, GET_STATUS, READ_ATTENTION and LOGOUT (R346, R353, R376, R379), LOGIN_CHALLENGE and LOGIN_RESPONSE
(R377, R378, R406 to R408), and KEY_ENROL (R399, R404).
-/
namespace Sys2Proof.Machine

/-! ## A source after an update -/

section
variable {s : State} {n : Nat} {x : Source}

theorem State.onSource_source (hx : s.source n = some x) {f : Source → Source} (hf : (f x).num = x.num) :
    (s.onSource n f).source n = some (f x) := by
  rw [State.onSource_some hx]
  exact State.source_setSource hx (hf.trans (State.source_num hx))

theorem State.recordTag_source (hx : s.source n = some x) (e : TagEntry) :
    (s.recordTag n e).source n = some { x with tags := tagPut x.tags e } := by
  simp only [State.recordTag, hx]
  exact State.source_setSource hx (State.source_num (x := x) hx)

theorem State.unbind_source (s : State) (n : Nat) : (s.unbind n).source n = none := by
  simp [State.source, State.unbind]

/-! ## A role ends (R407, R412) -/

/-- A rollback of the Ledger leaves the sources alone. -/
@[simp] theorem State.rollback_source (s : State) (c : RollCause) (e : AuditEvent) : (s.rollback c e).source n = s.source n := by
  unfold State.rollback
  repeat' split
  all_goals simp [State.source]

@[simp] theorem State.rollback_cmds (s : State) (c : RollCause) (e : AuditEvent) : (s.rollback c e).cmds = s.cmds := by
  unfold State.rollback
  repeat' split
  all_goals simp

@[simp] theorem State.rollback_power (s : State) (c : RollCause) (e : AuditEvent) : (s.rollback c e).power = s.power := by
  unfold State.rollback
  repeat' split
  all_goals simp

/-- A source whose role ends at the moment `now`: its 10 s without a login begin (R346). -/
def Source.roleless (x : Source) (now : Nat) : Source := { x with role := .none, keyIndex := 0xFF, idleSince := now }

theorem State.endRole_source (hx : s.source n = some x) : (s.endRole n).source n = some (x.roleless s.now) := by
  have hnum : x.num = n := State.source_num hx
  simp only [State.endRole, hx]
  refine State.source_setSource (x := x) ?_ hnum
  repeat' split
  all_goals simpa using hx

@[simp] theorem State.endRole_cmds (s : State) (n : Nat) : (s.endRole n).cmds = s.cmds := by
  unfold State.endRole
  dsimp only
  repeat' split
  all_goals simp

@[simp] theorem State.endRole_power (s : State) (n : Nat) : (s.endRole n).power = s.power := by
  unfold State.endRole
  dsimp only
  repeat' split
  all_goals simp

/-! ## A reply that LOGOUT follows (R346) -/

theorem State.afterCmd_source_of_leaving (hx : s.source n = some x) (hleaving : x.leaving = true) (hslots : s.slotsHeld n = 0) :
    (s.afterCmd n).source n = none := by
  simp [State.afterCmd, hx, hleaving, hslots, State.unbind_source]

theorem State.afterCmd_source_of_held (hslots : s.slotsHeld n ≠ 0) : (s.afterCmd n).source n = s.source n := by
  unfold State.afterCmd
  split
  · rfl
  · rw [if_neg hslots]

/-- The single reply OK of a LOGOUT, whose source leaves with its last command. -/
theorem State.single_logout {q : Req} (hop : q.op = .logout) (hx : s.source q.source = some x) (hleaving : x.leaving = true) :
    (s.slotsHeld q.source = 0 → (s.single q .ok [] .logout).source q.source = none)
    ∧ (s.slotsHeld q.source ≠ 0 →
        ∃ y, (s.single q .ok [] .logout).source q.source = some y ∧ y.role = x.role ∧ y.leaving = true) := by
  have hreply : s.single q .ok [] .logout = ((s.recordTag q.source ⟨q.tag, q.op, .ok⟩).answerTo q.port q.op.code q.source q.tag .ok
      []).afterCmd q.source := by simp [State.single, State.afterReply, hop, Op.exempt]
  have hsource := (State.answerTo_source _ q.port q.op.code q.source q.tag q.source .ok []).trans
    (State.recordTag_source hx ⟨q.tag, q.op, .ok⟩)
  have hheld (e : TagEntry) (ps : List Byte) :
      ((s.recordTag q.source e).answerTo q.port q.op.code q.source q.tag .ok ps).slotsHeld q.source = s.slotsHeld q.source := by
    simp [State.slotsHeld]
  rw [hreply]
  refine ⟨fun hslots => State.afterCmd_source_of_leaving hsource hleaving ((hheld _ _).trans hslots), fun hslots => ?_⟩
  rw [State.afterCmd_source_of_held (by rwa [hheld]), hsource]
  exact ⟨_, rfl, rfl, hleaving⟩

end

/-! ## The handlers of a session and of a login -/

section
variable {s : State} {q : Req}

theorem logout_eq : logout q s
    = .done .ok [] ((s.endRole q.source).onSource q.source (fun y => { y with leaving := true })) .logout := by
  simp only [logout, State.onSource]
  cases (s.endRole q.source).source q.source <;> rfl

/-- The challenge that a LOGIN_CHALLENGE for key `i` of role `r` opens (R377). -/
def State.newChallenge (s : State) (r : Role) (i : Nat) : Challenge :=
  ⟨s.trust.nextChallenge % 2 ^ 32, (List.range 32).map (Config.nonceByte s.trust.nextNonce), r, i, s.now + 10000000⟩

theorem loginChallenge_of_challengeable {x : Source} {r : Role} (hlen : q.params.length = 4) (hx : s.source q.source = some x)
    (hrole : Role.ofCode (fld q.params 0 1) = some r) (hkey : s.challengeable r (fld q.params 1 1) = true) :
    let c := s.newChallenge r (fld q.params 1 1)
    loginChallenge q s = .done .ok (c.nonce ++ leBytes 4 c.id ++ leBytes 4 10000)
      { s.setSource { x with challenge := some c } with
        trust := { s.trust with nextChallenge := s.trust.nextChallenge + 1, nextNonce := s.trust.nextNonce + 1 } } .nothing := by
  simp [loginChallenge, hlen, hx, hrole, hkey, okReply, State.newChallenge]

/-- R378: the response carries a public key, which a maker's and a claim do. -/
def carriesKey (ps : List Byte) : Bool := (fld ps 6 1).testBit 0 || decide (fld ps 4 1 = 3)

/-- The public key that a response is verified with (R378): the one it carries, or the one enrolled. -/
def State.responseKey (s : State) (c : Challenge) (ps : List Byte) : List Byte :=
  if carriesKey ps then (ps.drop (8 + sigBytes)).take keyBytes else match s.key c.role c.index with | some k => k.pub | none => []

/-- R406: the key of a response is known, a maker's is fused, and the signature verifies. -/
def State.verifies (s : State) (c : Challenge) (q : Req) : Bool :=
  (carriesKey q.params || (s.key c.role c.index).isSome)
    && (decide (c.role ≠ .maker) || decide (sha3_512 ((q.params.drop (8 + sigBytes)).take keyBytes) = fusedDigest c.index))
    && Config.verify (s.responseKey c q.params) loginContext (loginMessage c q.source) ((q.params.drop 8).take sigBytes)

/-- The key that a claim brings with it (R405). -/
def claimedKey (ps : List Byte) : Option (List Byte) :=
  if (fld ps 6 1).testBit 0 then some ((ps.drop (8 + sigBytes)).take keyBytes) else none

/-- A LOGIN_RESPONSE of the right length to the challenge `c` that its source `x` holds, which a claim may answer (R378, R405). -/
structure State.Responds (s : State) (q : Req) (x : Source) (c : Challenge) : Prop where
  length : q.params.length = 8 + sigBytes + (if carriesKey q.params then keyBytes else 0)
  source : s.source q.source = some x
  challenge : x.challenge = some c
  id : c.id = fld q.params 0 4
  role : c.role.code = fld q.params 4 1
  index : c.index = fld q.params 5 1
  claim : (fld q.params 6 1).testBit 0 = true → c.role = .installer ∧ s.claimOpen = true

section
variable {x : Source} {c : Challenge} (h : s.Responds q x c)
include h

/-- Past its checks a response meets the lockout of its key, then its signature, then the flash (R378, R408, R419). -/
theorem loginResponse_of_responds : loginResponse q s =
    if s.keyLocked c.role c.index then refuse .locked ((s.closeChallenge q.source).loginFailed q.source c true)
    else if s.verifies c q then
      if s.trust.flashFault then refuse .fault ((s.closeChallenge q.source).raiseFault (6 * 4096))
      else okReply [] ((s.closeChallenge q.source).loginOk q.source c (claimedKey q.params))
    else refuse .sigInvalid (((s.closeChallenge q.source).loginFailed q.source c false).countFail q.source c) := by
  obtain ⟨hlen, hx, hc, hid, hrole, hindex, hclaim⟩ := h
  have hopen : ((fld q.params 6 1).testBit 0 && !(decide (c.role = .installer) && s.claimOpen)) = false := by
    cases hbit : (fld q.params 6 1).testBit 0 with
    | false => rfl
    | true => simp [hclaim hbit]
  unfold loginResponse
  dsimp only
  rw [if_neg (by simpa [carriesKey] using hlen)]
  simp only [hx, hc]
  rw [if_neg (by simp [hid, hrole, hindex]), hopen]
  rfl

end

/-! ## KEY_ENROL (R399, R404) -/

/-- R404: the key of a role `r` at an index that a request may enrol or revoke: an installer's for an operator, a maker's for an
installer. -/
structure Req.MayKey (q : Req) (r : Role) : Prop where
  length : 8 ≤ q.params.length
  code : Role.ofCode (fld q.params 1 1) = some r
  right : q.role = .installer ∧ r = .operator ∨ q.role = .maker ∧ r = .installer
  index : fld q.params 2 1 < keyLimit r

/-- The audit record of a key, enrolled or revoked, by a source (Table 13.7). -/
def State.keyRecord (s : State) (kind source : Nat) (r : Role) (i : Nat) (pub : List Byte) : AuditEvent :=
  { s.actor kind source with subject := r.code * 256 + i, detail := keyDetail pub false }

/-- The state once the key at index `i` of `r` has been revoked, and recorded. -/
def State.revoked (s : State) (source : Nat) (r : Role) (i : Nat) (pub : List Byte) : State :=
  ({ s with trust := { s.trust with keys := s.trust.keys.filter (fun z => !(z.role = r && z.index = i)) } }).audit
    (s.keyRecord 0x07 source r i pub)

section
variable {r : Role} (h : q.MayKey r)
include h

/-- Past its first checks a KEY_ENROL meets the slot of its key, then its ACTION and length, then the flash (R404, R419). -/
theorem keyEnrol_of_mayKey (haction : fld q.params 0 1 ≤ 1) : keyEnrol q s =
    match s.key r (fld q.params 2 1) with
    | none =>
      if fld q.params 0 1 = 0 ∧ q.params.length = 8 + keyBytes then
        if s.trust.flashFault then refuse .fault (s.raiseFault (6 * 4096))
        else okReply [] ((s.enrol r (fld q.params 2 1) (q.params.drop 8)).audit
          (s.keyRecord 0x06 q.source r (fld q.params 2 1) (q.params.drop 8)))
      else refuse .badParam s
    | some k =>
      if fld q.params 0 1 = 1 then
        if s.trust.flashFault then refuse .fault (s.raiseFault (6 * 4096))
        else .done .ok [] (s.revoked q.source r (fld q.params 2 1) k.pub) (.revoke r (fld q.params 2 1))
      else refuse .badParam s := by
  obtain ⟨hlen, hcode, hright, hindex⟩ := h
  unfold keyEnrol
  dsimp only
  rw [if_neg (by omega)]
  rcases hright with ⟨hrole, rfl⟩ | ⟨hrole, rfl⟩ <;> simp only [hcode, hrole] <;>
    exact (if_neg (by decide)).trans (if_neg (by omega))

theorem keyEnrol_of_unfit (haction : fld q.params 0 1 = 0)
    (hunfit : q.params.length ≠ 8 + keyBytes ∨ (s.key r (fld q.params 2 1)).isSome = true) :
    keyEnrol q s = refuse .badParam s := by
  rw [keyEnrol_of_mayKey h (by omega)]
  cases hkey : s.key r (fld q.params 2 1) with
  | none => exact if_neg fun hfit => hunfit.elim (· hfit.2) (by simp [hkey])
  | some k => exact if_neg (by omega)

theorem keyEnrol_of_empty (haction : fld q.params 0 1 = 0) (hlen : q.params.length = 8 + keyBytes)
    (hkey : s.key r (fld q.params 2 1) = none) : keyEnrol q s =
    if s.trust.flashFault then refuse .fault (s.raiseFault (6 * 4096))
    else okReply [] ((s.enrol r (fld q.params 2 1) (q.params.drop 8)).audit
      (s.keyRecord 0x06 q.source r (fld q.params 2 1) (q.params.drop 8))) := by
  simp only [keyEnrol_of_mayKey h (by omega), hkey]
  exact if_pos ⟨haction, hlen⟩

theorem keyEnrol_of_enrolled {k : KeySlot} (haction : fld q.params 0 1 = 1) (hkey : s.key r (fld q.params 2 1) = some k) :
    keyEnrol q s =
    if s.trust.flashFault then refuse .fault (s.raiseFault (6 * 4096))
    else .done .ok [] (s.revoked q.source r (fld q.params 2 1) k.pub) (.revoke r (fld q.params 2 1)) := by
  simp only [keyEnrol_of_mayKey h (by omega), hkey]
  exact if_pos haction

end
end

/-! ## The admitted state -/

section
variable {s : State} {op : Op} {p : Packet}

@[simp] theorem State.admitted_key (r : Role) (i : Nat) : (s.admitted op p).key r i = s.key r i := by simp [State.key]

@[simp] theorem State.admitted_claimOpen : (s.admitted op p).claimOpen = s.claimOpen := by simp [State.claimOpen]

@[simp] theorem State.admitted_challengeable (r : Role) (i : Nat) : (s.admitted op p).challengeable r i = s.challengeable r i := by
  simp [State.challengeable]

@[simp] theorem State.admitted_newChallenge (r : Role) (i : Nat) : (s.admitted op p).newChallenge r i = s.newChallenge r i := by
  simp [State.newChallenge]

@[simp] theorem State.admitted_keyLocked (r : Role) (i : Nat) : (s.admitted op p).keyLocked r i = s.keyLocked r i :=
  State.admitted_keeps (State.keyLocked · r i) s op p fun _ _ _ => rfl

@[simp] theorem State.admitted_verifies (c : Challenge) (q : Req) : (s.admitted op p).verifies c q = s.verifies c q := by
  simp [State.verifies, State.responseKey]

end

/-- A login leaves the power as it was. -/
@[simp] theorem State.closeChallenge_power (s : State) (n : Nat) : (s.closeChallenge n).power = s.power := by
  unfold State.closeChallenge
  split <;> rfl

@[simp] theorem State.takeRole_power (s : State) (n : Nat) (r : Role) (i : Nat) : (s.takeRole n r i).power = s.power := by
  unfold State.takeRole
  split <;> rfl

@[simp] theorem State.loginOk_power (s : State) (n : Nat) (c : Challenge) (claimed : Option (List Byte)) :
    (s.loginOk n c claimed).power = s.power := by
  cases claimed <;> simp [State.loginOk, State.enrol, State.setFails]

/-! ## The obligations -/

/-- Settles O14, a command at a time: each handler answers in the admitted state; LOGOUT ends the role of the source, and its reply unbinds
the source where it holds no command. -/
theorem sessionCommands : Obligations.SessionCommands := by
  unfold Obligations.SessionCommands
  intro s p last x
  refine ⟨fun h => exec_of_done rfl h rfl h.admitted_awake, fun h => exec_of_done rfl h rfl h.admitted_awake, fun h => ?attention,
    fun h => ?logout⟩
  case attention =>
    intro a
    have hv : readAttention ((x.taken .readAttention p).req .readAttention p) a = .done .ok (attentionBlock a)
        { a with attention := .clear (s.attention.recordNo + 1) (s.health.coreTemps.foldl max (-128)),
                 power := { s.power with throttled := false } } .nothing := by
      simp [a, readAttention, okReply]
    exact exec_of_done rfl h hv h.awake
  case logout =>
    intro b
    have hexec : exec (.logout last) s = .next (okTo .logout p x (b.onSource p.source (fun y => { y with leaving := true })) []
        .logout) := exec_of_done rfl h logout_eq (by simpa [b] using h.awake)
    have hsource : (b.onSource p.source (fun y => { y with leaving := true })).source p.source
        = some { (x.taken .logout p).roleless (s.admitted .logout p).now with leaving := true } :=
      State.onSource_source (State.endRole_source (State.admitted_source h.bound)) rfl
    have hslots : (b.onSource p.source (fun y => { y with leaving := true })).slotsHeld p.source = s.slotsHeld p.source := by
      simp [State.slotsHeld, b]
    obtain ⟨hfree, hheld⟩ := State.single_logout (q := (x.taken .logout p).req .logout p) rfl hsource rfl
    exact ⟨hexec, _, hexec, fun hnone => hfree (hslots.trans hnone), fun hsome => hheld (by rwa [Source.req_source, hslots])⟩

/-- Settles O15: a challenge opens in the admitted state; a response that answers it meets the lockout, the signature and the flash in that
order. -/
theorem loginCommands : Obligations.LoginCommands := by
  unfold Obligations.LoginCommands
  intro s p last x
  refine ⟨?challenge, ?response⟩
  case challenge =>
    intro r h hlen hrole hkey a nonce c
    have hv := loginChallenge_of_challengeable (q := (x.taken .loginChallenge p).req .loginChallenge p)
      (s := s.admitted .loginChallenge p) hlen (State.admitted_source h.bound) hrole (by simpa using hkey)
    rw [State.admitted_newChallenge, State.admitted_trust] at hv
    exact exec_of_done rfl h hv h.admitted_awake
  case response =>
    intro c h claim long a b carried pub hlen hc hid hrole hindex hclaim
    have hv := loginResponse_of_responds (q := (x.taken .loginResponse p).req .loginResponse p) (s := a) (c := c)
      ⟨hlen, State.admitted_source h.bound, hc, hid, hrole, hindex, fun hbit => by simpa [a] using hclaim hbit⟩
    simp only [a, State.admitted_keyLocked, State.admitted_verifies, State.admitted_trust] at hv
    refine ⟨fun hlocked => ?locked, fun hfree => ?free⟩
    case locked =>
      rw [if_pos hlocked] at hv
      exact exec_of_refused rfl h hv (by decide)
    case free =>
      rw [if_neg (by simp [hfree])] at hv
      split
      case isTrue hok =>
        rw [if_pos (by exact hok)] at hv
        split
        case isTrue hflash =>
          rw [if_pos hflash] at hv
          exact exec_of_refused rfl h hv (by decide)
        case isFalse hflash =>
          rw [if_neg hflash] at hv
          exact exec_of_done rfl h hv (by simpa [b, a] using h.awake)
      case isFalse hbad =>
        rw [if_neg (by exact hbad)] at hv
        exact exec_of_refused rfl h hv (by decide)

/-- Settles O16: the slot of the key is looked up in the admitted state, whose keys are those of the state before; where it fits the ACTION
the flash decides. -/
theorem keyCommands : Obligations.KeyCommands := by
  unfold Obligations.KeyCommands
  intro s p last x r h hlen hcode hright hindex i a record faulted
  have hmay : ((x.taken .keyEnrol p).req .keyEnrol p).MayKey r := ⟨hlen, hcode, hright, hindex⟩
  have hkeys : a.key r i = s.key r i := State.admitted_key r i
  have htrust : a.trust = s.trust := State.admitted_trust
  have hawake : a.power.sleep = .awake := h.admitted_awake
  have henrol (haction : fld p.params 0 1 = 0) (hwhole : p.params.length = 8 + keyBytes) (hnone : s.key r i = none) :=
    keyEnrol_of_empty hmay haction hwhole (hkeys.trans hnone)
  have hrevoke {k : KeySlot} (haction : fld p.params 0 1 = 1) (hk : s.key r i = some k) :=
    keyEnrol_of_enrolled hmay haction (hkeys.trans hk)
  simp only [State.enrol, State.revoked, htrust] at henrol hrevoke
  refine ⟨fun haction hunfit => ?unfit, fun hflash haction hwhole hnone => ?enrolFault, fun hflash haction hsome => ?revokeFault,
    fun hflash haction hwhole hnone => ?enrol, fun k hflash haction hk => ?revoke⟩
  case unfit =>
    exact exec_of_refused rfl h (keyEnrol_of_unfit hmay haction (by rwa [← hkeys] at hunfit)) (by decide)
  case enrolFault =>
    exact exec_of_refused rfl h ((henrol haction hwhole hnone).trans (if_pos hflash)) (by decide)
  case revokeFault =>
    obtain ⟨k, hk⟩ := Option.isSome_iff_exists.mp hsome
    exact exec_of_refused rfl h ((hrevoke haction hk).trans (if_pos hflash)) (by decide)
  case enrol =>
    exact exec_of_done rfl h ((henrol haction hwhole hnone).trans (if_neg (by simp [hflash]))) (by simpa using hawake)
  case revoke =>
    exact exec_of_done rfl h ((hrevoke haction hk).trans (if_neg (by simp [hflash]))) (by simpa using hawake)

end Sys2Proof.Machine
end

section
/-!
PROOFS. The settings of the Ledger that a source reads and sets by itself (R384, R417): SETTING_GET and SETTING_SET.
-/
namespace Sys2Proof.Machine

/-! ## The handlers -/

section
variable {s : State} {q : Req}

/-- The keys that a SETTING_GET names. -/
def settingKeys (ps : List Byte) : List Nat := (List.range (fld ps 0 2)).map (fun i => fld ps (4 + 2 * i) 2)

theorem settingGet_of_readable (hpos : 1 ≤ fld q.params 0 2) (hmax : fld q.params 0 2 ≤ 255)
    (hlen : q.params.length = 4 + 2 * fld q.params 0 2) (hassigned : ∀ k ∈ settingKeys q.params, keyInfo k ≠ none)
    (hread : ∀ k ∈ settingKeys q.params, keyReadable q.role k = true) :
    settingGet q s = .done .ok ((settingKeys q.params).flatMap (fun k => leBytes 8 (s.keyValue k))) s .nothing := by
  have hall : (settingKeys q.params).any (fun k => decide (keyInfo k = none)) = false := by simpa using hassigned
  have hnone : (settingKeys q.params).any (fun k => !keyReadable q.role k) = false := by simpa using hread
  rw [settingKeys] at hall hnone
  simp only [settingGet, hall, hnone]
  exact if_neg (by omega)

/-- R417: the commit of one key that a SETTING_SET asks for. -/
def State.keyCommit (s : State) (q : Req) : Commit :=
  ⟨q.source, q.tag, 0, q.role, q.keyIndex, [(fld q.params 0 2, fld q.params 8 8)], [], s.now + 50000, none⟩

theorem settingSet_of_free (hlen : q.params.length = 16) (hkey : keyRefusal q.role (fld q.params 0 2) (fld q.params 8 8) = none)
    (hunstaged : ∀ l, s.ledger = some l → l.keys.any (fun z => z.1 = fld q.params 0 2) = false)
    (hcheck : s.checkKeys [(fld q.params 0 2, fld q.params 8 8)] = none) :
    settingSet q s = .accept [] .plain none { s with commits := s.commits ++ [s.keyCommit q] } := by
  cases hledger : s.ledger with
  | none => simp [settingSet, hlen, hkey, hcheck, hledger, State.keyCommit]
  | some l => simp [settingSet, hlen, hkey, hcheck, hledger, hunstaged l hledger, State.keyCommit]

end

/-! ## The admitted state -/

section
variable {s : State} {op : Op} {p : Packet}

@[simp] theorem State.admitted_keyValue (k : Nat) : (s.admitted op p).keyValue k = s.keyValue k := by
  simp [State.keyValue, State.fwActive]

@[simp] theorem State.admitted_checkKeys (ks : List (Nat × Nat)) : (s.admitted op p).checkKeys ks = s.checkKeys ks :=
  State.admitted_keeps (State.checkKeys · ks) s op p fun _ _ _ => rfl

@[simp] theorem State.admitted_keyCommit (q : Req) : (s.admitted op p).keyCommit q = s.keyCommit q := by simp [State.keyCommit]

end

/-- Settles O18: the handlers' checks pass in the admitted state, whose settings, Ledger and commits are those of the state before. -/
theorem settingCommands : Obligations.SettingCommands := by
  unfold Obligations.SettingCommands
  intro s p last x
  refine ⟨?get, ?set⟩
  case get =>
    intro n ks h hpos hmax hlen hassigned hread
    have hv := settingGet_of_readable (q := (x.taken .settingGet p).req .settingGet p) (s := s.admitted .settingGet p) hpos hmax hlen
      hassigned hread
    simp only [State.admitted_keyValue] at hv
    exact exec_of_done rfl h hv h.admitted_awake
  case set =>
    intro k v h hlen hkey hunstaged hcheck
    have hv := settingSet_of_free (q := (x.taken .settingSet p).req .settingSet p) (s := s.admitted .settingSet p) hlen hkey
      (fun l hl => hunstaged l (by simpa using hl)) (by simpa using hcheck)
    rw [State.admitted_commits, State.admitted_keyCommit] at hv
    exact exec_of_accepted rfl h hv h.admitted_awake

end Sys2Proof.Machine
end

section
/-!
PROOFS. The commands that move the bytes of a tensor (R199, R385 to R388): TENSOR_WRITE, TENSOR_READ, TENSOR_COPY and TENSOR_FILL, as
their checks let them through.
-/
namespace Sys2Proof.Machine

/-! ## The handlers -/

section
variable {s : State} {q : Req} {t : Tensor}

theorem tensorWrite_of_bulkLen {n : Nat} (hlen : q.params.length = 40) (ht : s.tensor (accessOf q.params).handle = some t)
    (hring : s.receiveRing (accessOf q.params).handle = false) (hbulk : (accessOf q.params).bulkLen t false = some n) :
    tensorWrite q s = .accept [] .plain (some n) s := by
  simp [tensorWrite, hlen, ht, hring, hbulk]

/-- R199: a read of the ring `h` pins its complete slot where it starts at once. -/
def State.readBody (s : State) (q : Req) (h : Nat) (t : Tensor) : Body :=
  if s.receiveRing h ∧ s.ringLast t < t.planes ∧ s.startsNow q then .read h (s.ringLast t) else .plain

theorem tensorRead_of_bulkLen {n : Nat} (hlen : q.params.length = 40) (ht : s.tensor (accessOf q.params).handle = some t)
    (hbulk : (accessOf q.params).bulkLen t (s.receiveRing (accessOf q.params).handle) = some n) :
    tensorRead q s = .accept [] (s.readBody q (accessOf q.params).handle t) none s := by
  simp [tensorRead, hlen, ht, hbulk, State.readBody]

/-- R387: the planes that a TENSOR_COPY of the parameters `ps` names are planes of both tensors, in the tensors' layout. -/
def CopyPlanes (ps : List Byte) (t u : Tensor) : Prop :=
  t.layout = .blocked ∧ (if fld ps 10 2 = 0 then fld ps 8 2 < min t.planes u.planes
      else fld ps 8 2 + fld ps 10 2 ≤ min t.planes u.planes)
    ∨ t.layout = .ring ∧ fld ps 10 2 ≤ 1 ∧ fld ps 8 2 < u.planes
    ∨ t.layout = .raw ∧ t.pitch = u.pitch ∧ fld ps 8 2 = 0 ∧ fld ps 10 2 ≤ 1

/-- R387: two tensors of one shape that share no byte; the second is no receive ring. -/
structure State.Copyable (s : State) (t u : Tensor) : Prop where
  fmt : t.fmt = u.fmt
  layout : t.layout = u.layout
  rows : t.rows = u.rows
  cols : t.cols = u.cols
  apart : overlaps t.base t.footprint u.base u.footprint = false
  plain : s.receiveRing u.handle = false

theorem tensorCopy_of_copyable {u : Tensor} (hlen : q.params.length = 12) (ht : s.tensor (fld q.params 0 4) = some t)
    (hu : s.tensor (fld q.params 4 4) = some u) (hcopy : s.Copyable t u) (hplanes : CopyPlanes q.params t u) :
    tensorCopy q s = .accept [] .plain none s := by
  obtain ⟨hfmt, hlayout, hrows, hcols, hapart, hplain⟩ := hcopy
  simp only [tensorCopy, hlen, ht, hu, ← hlayout, hfmt, hrows, hcols, hapart, hplain]
  rcases hplanes with ⟨hlay, hin⟩ | ⟨hlay, hmost, hin⟩ | ⟨hlay, hpitch, hfirst, hmost⟩
  · by_cases hall : fld q.params 10 2 = 0 <;> simp only [hall, if_true, if_false] at hin <;> simp [hlay, hall, hin]
  · simp [hlay, hmost, hin]
  · simp [hlay, hpitch, hfirst, hmost]

theorem tensorFill_of_planes {r : Nat × Nat} (hlen : q.params.length = 12) (ht : s.tensor (fld q.params 0 4) = some t)
    (hplanes : fillPlanes t (fld q.params 8 2) (fld q.params 10 2) = some r) (hvalue : fillValueOk t (fld q.params 4 4) = true)
    (hring : s.receiveRing t.handle = false) : tensorFill q s = .accept [] .plain none s := by
  simp [tensorFill, hlen, ht, hplanes, hvalue, hring]

end

/-! ## The admitted state -/

section
variable {s : State} {op : Op} {p : Packet}

@[simp] theorem State.admitted_receiveRing (h : Nat) : (s.admitted op p).receiveRing h = s.receiveRing h := by
  simp [State.receiveRing]

@[simp] theorem State.admitted_ringLast (t : Tensor) : (s.admitted op p).ringLast t = s.ringLast t := by simp [State.ringLast]

theorem State.Copyable.admitted {t u : Tensor} (h : s.Copyable t u) : (s.admitted op p).Copyable t u :=
  { h with plain := by simpa using h.plain }

end

/-- Settles O20, a command at a time: the handlers' checks pass in the admitted state, which has the tensors and the rings of the state
before. -/
theorem dataCommandsAccepted : Obligations.DataCommandsAccepted := by
  unfold Obligations.DataCommandsAccepted
  intro s p last x t
  refine ⟨?write, ?read, ?copy, ?fill⟩
  case write =>
    intro n h hlen ht hring hbulk
    exact exec_of_accepted rfl h (tensorWrite_of_bulkLen hlen (by simpa using ht) (by simpa using hring) hbulk) h.admitted_awake
  case read =>
    intro n h hlen ht hbulk q a
    have hring : a.receiveRing (accessOf p.params).handle = s.receiveRing (accessOf p.params).handle := State.admitted_receiveRing _
    have hlast : a.ringLast t = s.ringLast t := State.admitted_ringLast t
    have hv := tensorRead_of_bulkLen (q := q) (s := a) hlen ((State.admitted_tensor _).trans ht) (by rw [← hring] at hbulk; exact hbulk)
    have hexec := exec_of_accepted (i := .tensorRead last) rfl h hv h.admitted_awake
    refine ⟨fun hunpinned => ?unpinned, fun hreceive hcomplete hstarts => ?pinned⟩
    case unpinned =>
      have hbody : a.readBody q (accessOf p.params).handle t = .plain := if_neg (by
        rw [hring, hlast]
        rintro ⟨hreceive, hcomplete, hstarts⟩
        rcases hunpinned with hno | hno | hno
        · simp [hno] at hreceive
        · exact Nat.not_lt.mpr hno hcomplete
        · simp [hno] at hstarts)
      rwa [show q.params = p.params from rfl, hbody] at hexec
    case pinned =>
      have hbody : a.readBody q (accessOf p.params).handle t = .read (accessOf p.params).handle (s.ringLast t) := by
        rw [State.readBody, hring, hlast, if_pos ⟨hreceive, hcomplete, hstarts⟩]
      rwa [show q.params = p.params from rfl, hbody] at hexec
  case copy =>
    intro u h hlen ht hu hfmt hlayout hrows hcols hapart hplain hplanes
    have hcopy : s.Copyable t u := ⟨hfmt, hlayout, hrows, hcols, hapart, hplain⟩
    exact exec_of_accepted rfl h (tensorCopy_of_copyable hlen (by simpa using ht) (by simpa using hu) hcopy.admitted hplanes)
      h.admitted_awake
  case fill =>
    intro r h hlen ht hplanes hvalue hring
    exact exec_of_accepted rfl h (tensorFill_of_planes hlen (by simpa using ht) hplanes hvalue (by simpa using hring)) h.admitted_awake

end Sys2Proof.Machine
end

section
/-!
PROOFS. The commands of power and reset (R380, R381, R434, R439): SET_POWER_STATE and RESET.
-/
namespace Sys2Proof.Machine

/-! ## The handlers -/

section
variable {s : State} {q : Req} (hlen : q.params.length = 4)
include hlen

theorem setPowerState_of_s3 (hstate : fld q.params 0 1 = 3) :
    setPowerState q s = .accept [] (.power 3 []) none (s.stopForPower (List.range 16)) := by
  simp [setPowerState, hlen, hstate]

theorem setPowerState_of_s2 (hstate : fld q.params 0 1 = 2) (hcap : s.overCap q.params = false) :
    setPowerState q s = .accept [] (.power 2 (powerGroups q.params)) none (s.stopForPower (powerGroups q.params)) := by
  simp [setPowerState, hlen, hstate, hcap]

theorem setPowerState_of_shallow (hstate : fld q.params 0 1 ≤ 1) (hcap : s.overCap q.params = false) :
    setPowerState q s = .accept [] (.power (fld q.params 0 1) (powerGroups q.params)) none s := by
  unfold setPowerState
  dsimp only
  rw [if_neg (by omega), if_neg (by omega), hcap, if_neg (show fld q.params 0 1 ≠ 2 by omega)]
  rfl

theorem setPowerState_of_overCap (hstate : fld q.params 0 1 ≤ 2) (hcap : s.overCap q.params = true) :
    setPowerState q s = refuse .powerLimit s := by
  unfold setPowerState
  dsimp only
  rw [if_neg (by omega), if_neg (by omega)]
  exact if_pos hcap

theorem reset_of_cores (hkind : fld q.params 0 1 = 1) : reset q s = .done .ok [] s .coresReset := by
  simp [reset, hlen, hkind]

theorem reset_of_module (hkind : fld q.params 0 1 = 2) : reset q s =
    if q.role = .installer ∨ q.role = .maker then .done .ok [] s .coldStart else refuse .noRight s := by
  simp [reset, hlen, hkind]

end

/-- The reply OK of a command of form I that a reset may follow: its outcome is recorded (R175). -/
theorem State.single_ok {s : State} {q : Req} (hop : q.op.exempt = false) (ps : List Byte) (after : After) :
    s.single q .ok ps after = ((s.recordTag q.source ⟨q.tag, q.op, .ok⟩).answerTo q.port q.op.code q.source q.tag .ok ps).afterReply
      q.source after := by
  simp [State.single, hop]

@[simp] theorem State.admitted_overCap {s : State} {op : Op} {p : Packet} (ps : List Byte) :
    (s.admitted op p).overCap ps = s.overCap ps :=
  State.admitted_keeps (State.overCap · ps) s op p fun _ _ _ => rfl

/-- Settles O30: the states that SET_POWER_STATE would leave are weighed in the admitted state, whose power is that of the state before;
a RESET follows the reply OK. -/
theorem powerAndResetCommands : Obligations.PowerAndResetCommands := by
  unfold Obligations.PowerAndResetCommands
  intro s p last x
  refine ⟨fun h hlen => ?power, fun h hlen => ?reset⟩
  case power =>
    intro t a gs
    have hcap (b : Bool) (hb : s.overCap p.params = b) : a.overCap p.params = b := (State.admitted_overCap _).trans hb
    refine ⟨fun ht => ?s3, fun ht hfits => ?s2, fun ht hfits => ?shallow, fun ht hmuch => ?excess⟩
    case s3 => exact exec_of_accepted rfl h (setPowerState_of_s3 hlen ht) (by simpa [a] using h.awake)
    case s2 => exact exec_of_accepted rfl h (setPowerState_of_s2 hlen ht (hcap _ hfits)) (by simpa [a] using h.awake)
    case shallow => exact exec_of_accepted rfl h (setPowerState_of_shallow hlen ht (hcap _ hfits)) h.admitted_awake
    case excess => exact exec_of_refused rfl h (setPowerState_of_overCap hlen ht (hcap _ hmuch)) (by decide)
  case reset =>
    intro a
    have hreply (after : After) := State.single_ok (s := a) (q := (x.taken .reset p).req .reset p) rfl [] after
    refine ⟨fun hkind => ?cores, fun hkind hright => ?module, fun hkind hrole => ?operator⟩
    case cores =>
      exact (exec_of_done rfl h (reset_of_cores hlen hkind) h.admitted_awake).trans (congrArg _ (hreply .coresReset))
    case module =>
      have hv := (reset_of_module (q := (x.taken .reset p).req .reset p) (s := a) hlen hkind).trans (if_pos hright)
      exact (exec_of_done rfl h hv h.admitted_awake).trans (congrArg _ (hreply .coldStart))
    case operator =>
      have hv := (reset_of_module (q := (x.taken .reset p).req .reset p) (s := a) hlen hkind).trans
        (if_neg (by simp [hrole]))
      exact exec_of_refused rfl h hv (by decide)

end Sys2Proof.Machine
end

section
/-!
PROOFS. The commands of health (R391 to R394): COUNTERS_READ, SPARE_STATUS, REPAIR and SELF_TEST.
-/
namespace Sys2Proof.Machine

/-! ## The handlers -/

section
variable {s : State} {q : Req}

/-- The counters that a COUNTERS_READ names. -/
def counterIds (ps : List Byte) : List Nat := (List.range (fld ps 2 2)).map (fun i => fld ps (4 + 2 * i) 2)

theorem countersRead_of_assigned (hlen : q.params.length = 4 + 2 * fld q.params 2 2) (hpos : 1 ≤ fld q.params 2 2)
    (hmax : fld q.params 2 2 ≤ 255) (hcore : fld q.params 0 2 ≤ 143 ∨ fld q.params 0 2 = 0xFFFF)
    (hassigned : ∀ i ∈ counterIds q.params, counterAssigned i = true) (hkept : s.keptCores ≠ []) :
    countersRead q s
      = .done .ok ((counterIds q.params).flatMap (fun i => leBytes 8 (s.counterValue (fld q.params 0 2) i))) s .nothing := by
  have hall : (counterIds q.params).any (fun i => !counterAssigned i) = false := by simpa using hassigned
  rw [counterIds] at hall
  simp only [countersRead, hall, if_neg hkept]
  exact if_neg (by simp only [Bool.false_eq_true, or_false]; omega)

/-- The rank of a proposal is that of its wear. -/
theorem rankInsert_of_health {t : State} (hhealth : s.health = t.health) (u : Nat) (xs : List Nat) :
    rankInsert s u xs = rankInsert t u xs := by
  induction xs with
  | nil => rfl
  | cons x xs ih => simp only [rankInsert, hhealth, ih]

/-- The block of SPARE_STATUS (Table 12.7). -/
def State.spareBlock (s : State) : List Byte :=
  let ps := s.listedProposals
  let spares := ((List.range 64).zip s.net9.links).foldl (fun a x => if x.2.spareUsed then a ||| 2 ^ x.1 else a) 0
  s.mapBytes ++ (List.range 16).flatMap (fun g => leBytes 1 (s.spareOf g))
    ++ (List.range 4).flatMap (fun t => leBytes 1 (s.tinkerOf t)) ++ leBytes 8 spares ++ leBytes 1 ps.length ++ leBytes 3 0
    ++ ps.flatMap (fun u => leBytes 4 u ++ leBytes 1 (assocGet 0 s.health.wear u) ++ leBytes 3 0)

theorem spareStatus_eq : spareStatus q s = .done .ok s.spareBlock s .nothing := rfl

section
variable {u : Nat} (hlen : q.params.length = 8) (hunit : fld q.params 0 4 % 65536 = u)
include hlen hunit

theorem repair_of_core (hcore : u < 144) (hlost : s.lost u = false) (hspare : s.health.spareFree.getD (u / 9) false = true) :
    repair q s = .accept [] (.repair u) none s := by
  have hkind : u / 4096 = 0 := by omega
  have hindex : u % 4096 = u := by omega
  unfold repair
  simp only [hunit, hkind, hindex, hlost, hspare]
  simp [hlen, hcore]

theorem repair_of_tinker (hfirst : 0x2000 ≤ u) (hlast : u < 0x2004) (hserves : s.health.tinkerRetired.getD (u - 0x2000) true = false)
    (hneighbour : s.health.tinkerRetired.getD (neighbour (u - 0x2000)) true = false) :
    repair q s = .accept [] (.repair u) none s := by
  have hkind : u / 4096 = 2 := by omega
  have hindex : u % 4096 = u - 0x2000 := by omega
  have htinker : u - 0x2000 < 4 := by omega
  unfold repair
  simp only [hunit, hkind, hindex, hserves, hneighbour]
  simp [hlen, htinker]

end

/-- The Tinkers that a SELF_TEST names. -/
def testedTinkers (ps : List Byte) : List Nat := (List.range 4).filter (fun t => (fld ps 18 1).testBit t)

theorem selfTest_of_working (hlen : q.params.length = 20) (hsome : coreSet q.params 0 ≠ [] ∨ testedTinkers q.params ≠ [])
    (hcores : ∀ c ∈ coreSet q.params 0, s.lost c = false)
    (htinkers : ∀ t ∈ testedTinkers q.params, s.health.tinkerRetired.getD t true = false) :
    selfTest q s = .accept [] (.selfTest (coreSet q.params 0) [] (testedTinkers q.params) []) none s := by
  have hlost : (coreSet q.params 0).any s.lost = false := List.any_eq_false.mpr (by simpa using hcores)
  have hretired : (testedTinkers q.params).any (fun t => s.health.tinkerRetired.getD t true) = false :=
    List.any_eq_false.mpr fun t ht => Bool.eq_false_iff.mp (htinkers t ht)
  refine if_neg ?_
  rintro (hbad | ⟨hnocore, hnotinker⟩ | hbad | hbad)
  · exact hbad hlen
  · exact hsome.elim (· hnocore) (· hnotinker)
  · simp [hlost] at hbad
  · exact absurd (hbad.symm.trans hretired) (by decide)

end

/-! ## The admitted state -/

section
variable {s : State} {op : Op} {p : Packet}

@[simp] theorem State.admitted_keptCores : (s.admitted op p).keptCores = s.keptCores := by simp [State.keptCores]

@[simp] theorem State.admitted_listedProposals : (s.admitted op p).listedProposals = s.listedProposals := by
  have hrank : rankInsert (s.admitted op p) = rankInsert s := funext₂ fun u xs => rankInsert_of_health State.admitted_health u xs
  simp [State.listedProposals, hrank]

@[simp] theorem State.admitted_spareBlock : (s.admitted op p).spareBlock = s.spareBlock := by
  simp [State.spareBlock, State.mapBytes, State.spareOf, State.tinkerOf]

end

/-- Settles O31, a command at a time: the handlers' checks pass in the admitted state, whose map, spares and Tinkers are those of the state
before. -/
theorem healthCommands : Obligations.HealthCommands := by
  unfold Obligations.HealthCommands
  intro s p last x
  refine ⟨?counters, ?spares, ?repair, ?test⟩
  case counters =>
    intro n ids core a h hlen hpos hmax hcore hassigned hkept
    exact exec_of_done rfl h (countersRead_of_assigned hlen hpos hmax hcore hassigned (by simpa using hkept)) h.admitted_awake
  case spares =>
    intro ps spares h
    have hv := spareStatus_eq (q := (x.taken .spareStatus p).req .spareStatus p) (s := s.admitted .spareStatus p)
    rw [State.admitted_spareBlock] at hv
    exact exec_of_done rfl h hv h.admitted_awake
  case repair =>
    intro u h hlen hunit
    have hv : repair ((x.taken .repair p).req .repair p) (s.admitted .repair p)
        = .accept [] (.repair u) none (s.admitted .repair p) := by
      rcases hunit with ⟨hcore, hlost, hspare⟩ | ⟨hfirst, hlast, hserves, hneighbour⟩
      · exact repair_of_core hlen rfl hcore (by simpa using hlost) (by simpa using hspare)
      · exact repair_of_tinker hlen rfl hfirst hlast (by simpa using hserves) (by simpa using hneighbour)
    exact exec_of_accepted rfl h hv h.admitted_awake
  case test =>
    intro cs ts h hlen hsome hcores htinkers
    have hv := selfTest_of_working (q := (x.taken .selfTest p).req .selfTest p) (s := s.admitted .selfTest p) hlen hsome
      (by simpa [cs] using hcores) (fun t ht => by rw [State.admitted_health]; exact htinkers t ht)
    exact exec_of_accepted rfl h hv h.admitted_awake

end Sys2Proof.Machine
end

section
/-!
PROOFS. The commands of trust (R395 to R398, R419, R424): IDENTITY_GET, ATTEST, AUDIT_READ, FW_STAGE and FW_ACTIVATE.
-/
namespace Sys2Proof.Machine

/-! ## The handlers -/

section
variable {s : State} {q : Req}

/-- The block of IDENTITY_GET for the firmware `f` (R395). -/
def Firmware.identity (f : Firmware) : List Byte :=
  leBytes 4 partNumber ++ serialBytes ++ leBytes 8 (slotVersion f.slotA) ++ leBytes 8 (slotVersion f.slotB)
    ++ leBytes 1 (if f.runningB then 1 else 0) ++ leBytes 1 0 ++ leBytes 2 f.rollback ++ (List.range keyBytes).map Config.akPub

theorem identityGet_eq : identityGet q s = .done .ok s.trust.firmware.identity s .nothing := rfl

theorem attest_of_nonce (hlen : q.params.length = 32) : attest q s = .accept [] .plain none s := if_neg (not_not.mpr hlen)

theorem auditRead_of_record (hlen : q.params.length = 12) (hpos : 1 ≤ fld q.params 8 4) (hmax : fld q.params 8 4 ≤ 65536)
    (hrecord : fld q.params 0 8 < s.trust.audit.next) : auditRead q s = .accept [] .plain none s :=
  if_neg (by omega)

theorem fwStage_of_image (hlen : q.params.length = 8) (hfirst : 1 ≤ fld q.params 0 1) (hlast : fld q.params 0 1 ≤ 4)
    (hpos : 1 ≤ fld q.params 4 4) (hmax : fld q.params 4 4 ≤ 2 ^ 26) :
    fwStage q s = .accept [] .plain (some (fld q.params 4 4)) s :=
  if_neg (by omega)

/-- The stages of a slot: B is slot 1. -/
def Firmware.slot (f : Firmware) (i : Nat) : List (Option FwStage) := if i = 1 then f.slotB else f.slotA

/-- The firmware once a slot is preferred on trial (R424). -/
def Firmware.prefer (f : Firmware) (slot : Nat) : Firmware :=
  { f with preferB := decide (slot = 1), trial := true, tries := 0, staged := f.staged && decide (f.runningB = decide (slot = 1)) }

theorem fwActivate_of_usable (hlen : q.params.length = 4) (hslot : fld q.params 0 1 ≤ 1)
    (husable : slotResult s.trust.firmware.rollback (s.trust.firmware.slot (fld q.params 0 1)) = .ok) :
    fwActivate q s =
    if s.trust.flashFault then refuse .fault (s.raiseFault (6 * 4096))
    else .done .ok [] (({ s with trust := { s.trust with firmware := s.trust.firmware.prefer (fld q.params 0 1) } }).audit
      { s.actor 0x0A q.source with detail := leBytes 1 0 ++ leBytes 1 (fld q.params 0 1) }) .coldStart := by
  rw [Firmware.slot] at husable
  unfold fwActivate
  dsimp only
  rw [if_neg (by omega), husable]
  rfl

end

/-- Settles O32, a command at a time: the handlers' checks pass in the admitted state, which has the firmware and the audit log of the
state before. -/
theorem trustCommands : Obligations.TrustCommands := by
  unfold Obligations.TrustCommands
  intro s p last x
  refine ⟨?identity, ?attest, ?audit, ?stage, ?activate⟩
  case identity =>
    intro f h
    have hv := identityGet_eq (q := (x.taken .identityGet p).req .identityGet p) (s := s.admitted .identityGet p)
    rw [State.admitted_trust] at hv
    exact exec_of_done rfl h hv h.admitted_awake
  case attest =>
    intro h hlen
    exact exec_of_accepted rfl h (attest_of_nonce hlen) h.admitted_awake
  case audit =>
    intro h hlen hpos hmax hrecord
    exact exec_of_accepted rfl h (auditRead_of_record hlen hpos hmax (by simpa using hrecord)) h.admitted_awake
  case stage =>
    intro h hlen hfirst hlast hpos hmax
    exact exec_of_accepted rfl h (fwStage_of_image hlen hfirst hlast hpos hmax) h.admitted_awake
  case activate =>
    intro f slot a h hlen hslot husable
    have htrust : a.trust = s.trust := State.admitted_trust
    have hv := fwActivate_of_usable (q := (x.taken .fwActivate p).req .fwActivate p) (s := a) hlen hslot
      (by rw [htrust]; exact husable)
    rw [htrust] at hv
    refine ⟨fun hflash => ?fault, fun hflash => ?preferred⟩
    case fault => exact exec_of_refused rfl h (hv.trans (if_pos hflash)) (by decide)
    case preferred =>
      exact exec_of_done rfl h (hv.trans (if_neg (by simp [hflash]))) (by simpa [a] using h.awake)

end Sys2Proof.Machine
end

section
/-!
PROOFS. The machine after reset is sound (R186, R187, R346, R348, R384).
-/
namespace Sys2Proof.Machine

/-- Settles O1: the reset state is sound for every number of slots, and so for the 1,024 of R348. -/
theorem resetIsSound : Obligations.ResetIsSound := State.reset_sound 1024

end Sys2Proof.Machine
end

section
/-!
PROOFS. A step (R431, R437, R447, R472): what no step takes back, what an empty queue does, and which commands answer a next state.
-/
namespace Sys2Proof.Machine

variable {s t : State}

/-! ## The step and its queue -/

theorem step_cons (s : State) (c : Instr) (rest : List Instr) :
    step { s with pending := c :: rest } = exec c { s with pending := rest } := rfl

theorem step_of_pending {c : Instr} {rest : List Instr} (h : s.pending = c :: rest) : step s = exec c { s with pending := rest } := by
  unfold step
  rw [h]

theorem step_of_idle (h : s.pending = []) : step s = .next (idle s) := by
  unfold step
  rw [h]

/-- A step keeps the block sound and takes nothing back, seen from the state with the queue that the step leaves. -/
theorem step_kept (h : Inv s) (hstep : step s = .next t) : Kept 1024 { s with pending := s.pending.tail } t := by
  cases hqueue : s.pending with
  | nil =>
    rw [step_of_idle hqueue] at hstep
    cases hstep
    exact idle_kept (org := { s with pending := [] }) (hqueue ▸ .refl h)
  | cons c rest =>
    rw [step_of_pending hqueue] at hstep
    exact exec_kept (.refl (h.setPending rest)) c t hstep

/-- Settles O3: what `Onward` says of the step, seen from the state with the rest of the queue. -/
theorem stepNeverGoesBack : Obligations.StepNeverGoesBack := by
  intro s t h hstep
  obtain ⟨hpending, hfree, hnext, hexported, hrollback, hboots⟩ := (step_kept h hstep).toOnward
  exact ⟨hpending, hfree, hnext, hexported, hrollback, hboots⟩

/-- Settles O4: the step takes its command from a queue that is not empty. -/
theorem stepRunsTheFrontCommand : Obligations.StepRunsTheFrontCommand := step_cons

/-! ## An empty queue (R437, R447) -/

theorem State.bootTick_of_stage (hphase : s.power.phase = .boot) (hstage : s.power.stage < 2) :
    s.bootTick = { s with power := { s.power with stage := s.power.stage + 1 } } := if_pos ⟨hphase, hstage⟩

theorem State.bootTick_of_no_stage (h : s.power.phase ≠ .boot ∨ 2 ≤ s.power.stage) : s.bootTick = s :=
  if_neg fun ⟨hphase, hstage⟩ => h.elim (· hphase) (Nat.not_le.mpr hstage)

/-- Settles O5: the timer counts on, and the boot of that moment goes on where it is in its stages 0 and 1. -/
theorem idleStepCountsTheTimer : Obligations.IdleStepCountsTheTimer := by
  intro s hidle t
  have hstep : step s = .next t.bootTick := step_of_idle hidle
  refine ⟨fun hrests => ?rests, fun hphase hstage => ?boots⟩
  case rests => exact hstep.trans (congrArg _ (State.bootTick_of_no_stage (s := t) hrests))
  case boots => exact hstep.trans (congrArg _ (State.bootTick_of_stage (s := t) hphase hstage))

/-! ## Which commands answer a next state (R431, R472) -/

section
variable {i : Instr} (s)

/-- An outcome that is a next state. -/
def Answers (o : Host.Outcome State Fault Refusal) : Prop := ∃ t, o = .next t

theorem Answers.next (t : State) : Answers (.next t) := ⟨t, rfl⟩

/-- A row that is the fault of a module without power, and a next state of every other. -/
def PoweredRow (o : Host.Outcome State Fault Refusal) : Prop := ∃ t, o = if s.power.phase = .off then .fault .noPower else .next t

theorem recvPacket_powered (c : Nat) (p : Packet) : PoweredRow s (recvPacket c p s) := ⟨_, rfl⟩

theorem ccc_powered (f : State → State) (a : Option (List Byte)) : PoweredRow s (ccc s f a) := by
  unfold ccc
  cases s.i3cUp
  · exact ⟨_, rfl⟩
  · exact ⟨_, rfl⟩

theorem execTempSample_powered (temps : List Int) : PoweredRow s (execTempSample temps s) := by
  by_cases hoff : s.power.phase = .off
  case pos => exact ⟨s, (if_pos hoff).trans (if_pos hoff).symm⟩
  case neg =>
    have hanswers : Answers (execTempSample temps s) := by
      unfold execTempSample
      dsimp only
      rw [if_neg hoff]
      split
      · exact .next _
      · split <;> exact .next _
    obtain ⟨t, ht⟩ := hanswers
    exact ⟨t, ht.trans (if_neg hoff).symm⟩

/-- The rows that need power: the packets, the transfers of I3C and the samples. -/
theorem exec_powered (h : needsPower i = true) : PoweredRow s (exec i s) := by
  cases hrow : carried i with
  | some x =>
    rw [exec_of_carried hrow]
    exact recvPacket_powered s x.1.code x.2
  | none =>
    cases i with
    | commandContinuation c p => exact recvPacket_powered s c _
    | packetDropped | packetIgnored | bulkPacket | mbxSubmit | mbxRelease | mbxOutDropClear | i3cPrivateWrite | powerSample =>
      exact ⟨_, rfl⟩
    | entdaa a | setdasa a => exact ccc_powered s (fun t => t.assign a) _
    | rstdaa => exact ccc_powered s (fun t => { t with i3c := { t.i3c with addr := none } }) _
    | getpid | getbcr | getdcr | getstatus | getmwl | getmrl | setmwl | setmrl | enec | disec | rstactNone
    | rstactI3cReset | rstactModuleReset | unsupportedCcc => exact ccc_powered s _ _
    | tempSample temps => exact execTempSample_powered s temps
    | _ => simp [carried, needsPower] at hrow h

/-- Every other row: those that answer one next state, and those that choose between next states. -/
theorem exec_unpowered (h : needsPower i = false) : Answers (exec i s) := by
  cases i
  -- `h` rules out the rows that need power.
  all_goals cases h
  case frameStart | frameEnd | pairReq | pairAck | unbind | feedUpdate | slotBegin | piece | slotEnd | secured | secureCancel | restoreData
      | restoreEnd | restoreAck | peerKeepaliveSend | ackFlit | creditFlit | idleFlit | serWindow | collectiveFlit | cancel | staleNotice
      | linkEngineFault | refclkLoss | refclkReturn | stintBoundary | coreHardFault | bothFeedsLost | thermalPlacement | inletExcursion
      | autoLightTimeout | autoDeepTimeout | moduleWake => exact .next _
  case' bulkGapTimeout | sourceExpiry | challengeExpiry | lockoutExpiry | ledgerIdleTimeout | ledgerApply | ledgerCommitTimeout
      | portSettingsApply | sensorLine | outputFrameSend | outputFrameDone | commandStart | tensorCommandDone =>
    delta exec execBulkGapTimeout execSourceExpiry execChallengeExpiry execLockoutExpiry execLedgerIdleTimeout execLedgerApply
      execLedgerCommitTimeout execPortSettingsApply execSensorLine execOutputFrameSend execOutputFrameDone execCommandStart
      execTensorCommandDone
  case' networkSwitch | fenceComplete | chunkStart | chunkComplete | tileClose | finishEnqueue | passStart | passEnd | operatorStop =>
    delta exec execNetworkSwitch execFenceComplete execChunkStart execChunkComplete execTileClose execFinishEnqueue execPassStart
      execPassEnd execOperatorStop
  case' stackPush | spillStart | spillComplete | fillStart | fillComplete | stackPop | updatePass1Start | updatePass1End | updateNorms
      | updateEntry | updateRunCommit | paramWriteStart | copyBeforeWrite | tinkerHardFault =>
    delta exec execStackPush execSpillStart execSpillComplete execFillStart execFillComplete execStackPop execUpdatePass1Start
      execUpdatePass1End execUpdateNorms execUpdateEntry execUpdateRunCommit execParamWriteStart execCopyBeforeWrite execTinkerHardFault
  case' secureCut | securePieceSend | bindTimeout | peerKeepalive | peerLossTimeout | dataFlit | collectiveStart | collectiveCommit
      | collectiveStallTimeout | restoreDataSend | restoreTargetSilent =>
    delta exec execSecureCut execSecurePieceSend execBindTimeout execPeerKeepalive execPeerLossTimeout execDataFlit execCollectiveStart
      execCollectiveCommit execCollectiveStallTimeout execRestoreDataSend execRestoreTargetSilent settled
  case' linkTrainingDone | linkRetryTimer | badFlit | nakFlit | keepaliveFlit | laneCtrl | flitSend | ackTimer | keepaliveSend
      | linkSilenceTimeout | laneLossOfLock =>
    delta exec execLinkTrainingDone execLinkRetryTimer execBadFlit execNakFlit execKeepaliveFlit execLaneCtrl execFlitSend execAckTimer
      execKeepaliveSend execLinkSilenceTimeout execLaneLossOfLock
  case' operatorStart | operatorCommit | scrubPass | patrolScrub | lpddrRetrain | lpddrControllerFault | spareTakeover | repairSwitch
      | spareSelfTest | wearEvaluation =>
    delta exec execOperatorStart execOperatorCommit execScrubPass execPatrolScrub execLpddrRetrain execLpddrControllerFault
      execSpareTakeover execRepairSwitch execSpareSelfTest execWearEvaluation
  case' feedRestore | vfLoopStep | groupStateEntry | s3Entry | wakeOnDemand | wakeComplete | linkS2IdleTimeout =>
    delta exec execFeedRestore execVfLoopStep execGroupStateEntry execS3Entry execWakeOnDemand execWakeComplete execLinkS2IdleTimeout
  case' feedLoss | powerUp | railsInRegulation | resetNAssert | resetNRelease | ready | coresResetDone | thermalTripRecovery
      | resetHoldRelease =>
    delta exec execFeedLoss execPowerUp execRailsInRegulation execResetNAssert execResetNRelease execReady execCoresResetDone
      execThermalTripRecovery execResetHoldRelease
  all_goals
    dsimp only
    repeat' (first | with_reducible exact .next _ | split)

end

/-- Settles O6: where power is on, the check for power of a row that needs it passes. -/
theorem poweredModuleNeverStops : Obligations.PoweredModuleNeverStops := by
  intro i s hon
  cases hneeds : needsPower i with
  | true =>
    obtain ⟨t, ht⟩ := exec_powered s hneeds
    exact ⟨t, ht.trans (if_neg hon)⟩
  | false => exact exec_unpowered s hneeds

/-- Settles O7: where power is off, the check for power of the rows that need it fails, and no other row makes one. -/
theorem unpoweredModuleDefinesNothing : Obligations.UnpoweredModuleDefinesNothing := by
  intro i s hoff
  refine ⟨fun hneeds => ?faults, fun hneeds => exec_unpowered s hneeds⟩
  case faults =>
    obtain ⟨t, ht⟩ := exec_powered s hneeds
    exact ht.trans (if_pos hoff)

end Sys2Proof.Machine
end

section
/-!
PROOFS. The commands of the Ledger (R383, R411 to R413, R419): LEDGER_BEGIN, LEDGER_SET, LEDGER_ROLLBACK and LEDGER_COMMIT.
-/
namespace Sys2Proof.Machine

section
variable {s : State} {q : Req} {l : Ledger}

/-! ## The handlers -/

/-- R411: a new Ledger of the source `n`. -/
def State.newLedger (s : State) (n : Nat) : Ledger := ⟨s.nextLedger, n, s.now, false, [], []⟩

theorem ledgerBegin_of_closed (hclosed : s.ledger = none) :
    ledgerBegin q s = .done .ok (leBytes 4 s.nextLedger)
      { s with ledger := some (s.newLedger q.source), nextLedger := (s.nextLedger + 1) % 2 ^ 32 } .nothing := by
  simp only [ledgerBegin, hclosed]
  rfl

/-- R412: a Ledger whose idle time starts now. -/
def State.touched (s : State) (l : Ledger) : Ledger := { l with lastAt := s.now }

/-- R383: the open Ledger is one that the source of the command `q` owns and names, and that is not committing. -/
structure State.Owns (s : State) (q : Req) (l : Ledger) : Prop where
  ledger : s.ledger = some l
  uncommitted : l.committing = false
  owner : l.owner = q.source
  id : l.id = fld q.params 0 4

variable (h : s.Owns q l)
include h

theorem State.Owns.ledgerRefusal : s.ledgerRefusal q.source (fld q.params 0 4) = none := by
  obtain ⟨hledger, huncommitted, howner, hid⟩ := h
  simp [State.ledgerRefusal, hledger, huncommitted, howner, hid]

theorem ledgerSet_of_writable (hlen : q.params.length = 16) (hkey : keyRefusal q.role (fld q.params 4 2) (fld q.params 8 8) = none)
    (hroom : l.keys.length < 256 ∨ l.keys.any (fun z => z.1 = fld q.params 4 2) = true) :
    ledgerSet q s = .done .ok []
      { s with ledger := some (s.touched { l with keys := assocPut l.keys (fld q.params 4 2) (fld q.params 8 8) }) } .nothing := by
  have hfits : ¬(256 ≤ l.keys.length ∧ (!l.keys.any (fun z => z.1 = fld q.params 4 2)) = true) := by
    rintro ⟨hfull, hnew⟩
    rcases hroom with hroom | hstaged
    · omega
    · simp [hstaged] at hnew
  simp only [ledgerSet, h.ledgerRefusal, hkey, h.ledger, State.touchLedger, if_neg hfits]
  exact if_neg (not_not.mpr hlen)

theorem ledgerRollback_of_recorded (hflash : s.trust.flashFault = false) :
    ledgerRollback q s = .done .ok [] (({ s with ledger := none } : State).audit (rollRecord (s.actor 0x02 q.source) l.id .request 0))
      .nothing := by
  simp only [ledgerRollback, h.ledgerRefusal, State.rollback_of_recorded h.ledger h.uncommitted hflash, hflash]
  rfl

theorem ledgerRollback_of_flashFault (hflash : s.trust.flashFault = true) :
    ledgerRollback q s = .done .fault [] (s.raiseFault (6 * 4096)) .nothing := by
  simp only [ledgerRollback, h.ledgerRefusal, hflash]
  rfl

/-- R413: the commit of what the Ledger `l` stages, with the first key whose check fails. -/
def State.ledgerCommit (s : State) (q : Req) (l : Ledger) : Commit :=
  ⟨q.source, q.tag, l.id, q.role, q.keyIndex, l.keys, l.masks, s.now + 50000, (s.checkKeys l.keys).map (fun z => z.1)⟩

theorem ledgerCommit_of_owner :
    ledgerCommit q s = .accept [] .plain none { s with
      ledger := some (s.touched { l with committing := true }), commits := s.commits ++ [s.ledgerCommit q l] } := by
  simp only [Machine.ledgerCommit, h.ledgerRefusal, h.ledger]
  rfl

end

/-! ## The admitted state -/

section
variable {s : State} {op : Op} {p : Packet}

@[simp] theorem State.admitted_newLedger (n : Nat) : (s.admitted op p).newLedger n = s.newLedger n := by simp [State.newLedger]

@[simp] theorem State.admitted_touched (l : Ledger) : (s.admitted op p).touched l = s.touched l := by simp [State.touched]

@[simp] theorem State.admitted_ledgerCommit (q : Req) (l : Ledger) : (s.admitted op p).ledgerCommit q l = s.ledgerCommit q l := by
  simp [State.ledgerCommit]

theorem State.Owns.admitted {q : Req} {l : Ledger} (h : s.Owns q l) : (s.admitted op p).Owns q l :=
  { h with ledger := State.admitted_ledger.trans h.ledger }

end

/-- Settles O17: the handlers' checks pass in the admitted state, whose Ledger, settings and commits are those of the state before. -/
theorem ledgerCommands : Obligations.LedgerCommands := by
  unfold Obligations.LedgerCommands
  intro s p last x
  refine ⟨fun h hclosed => ?begins, fun l hledger huncommitted howner hid => ⟨fun h hlen hkey hroom => ?sets, fun h => ?discards,
    fun h => ?commits⟩⟩
  case begins =>
    have hv := ledgerBegin_of_closed (q := (x.taken .ledgerBegin p).req .ledgerBegin p) (s := s.admitted .ledgerBegin p)
      (State.admitted_ledger.trans hclosed)
    rw [State.admitted_newLedger, State.admitted_nextLedger] at hv
    exact exec_of_done rfl h hv h.admitted_awake
  all_goals
    have howns (op : Op) : (s.admitted op p).Owns ((x.taken op p).req op p) l :=
      State.Owns.admitted ⟨hledger, huncommitted, howner, hid⟩
  case sets =>
    have hv := ledgerSet_of_writable (howns .ledgerSet) hlen hkey hroom
    rw [State.admitted_touched] at hv
    exact exec_of_done rfl h hv h.admitted_awake
  case discards =>
    intro a
    refine ⟨fun hflash => ?recorded, fun hflash => ?faulted⟩
    case recorded =>
      exact exec_of_done rfl h (ledgerRollback_of_recorded (howns .ledgerRollback) (by simpa using hflash)) (by simpa [a] using h.awake)
    case faulted =>
      exact exec_of_refused rfl h (ledgerRollback_of_flashFault (howns .ledgerRollback) (by simpa using hflash)) (by decide)
  case commits =>
    have hv := ledgerCommit_of_owner (howns .ledgerCommit)
    rw [State.admitted_touched, State.admitted_commits, State.admitted_ledgerCommit] at hv
    exact exec_of_accepted rfl h hv h.admitted_awake

end Sys2Proof.Machine
end

section
/-!
PROOFS. The feeds, the pins, READY and REFCLK (R424, R425, R431, R434, R447, R462, R470 to R478).
-/
namespace Sys2Proof.Machine

variable {s : State}

theorem exec_feedLoss (f : Nat) : exec (.feedLoss f) s = execFeedLoss f s := rfl
theorem exec_bothFeedsLost : exec .bothFeedsLost s = .next s.powerGone := rfl

/-! ## The feeds (R431, R472, R476) -/

/-- The loss of a feed that is in range: without the other it is the loss of both. -/
theorem feedLoss_of_in {f : Nat} (hf : f ≤ 1) (hin : s.feedIn f = true) :
    exec (.feedLoss f) s = if s.feedIn (1 - f) then
        .next (((s.setFeed f false).count (if f = 0 then 0x0700 else 0x0701) 1).raiseAttn attnPower)
      else exec .bothFeedsLost s := by
  rw [exec_feedLoss, execFeedLoss, if_neg (by simp [hin, hf]), exec_bothFeedsLost]
  cases s.feedIn (1 - f) <;> rfl

/-- The return of a feed that is out of range. -/
theorem feedRestore_of_out {f : Nat} (hon : s.power.phase ≠ .off) (hout : s.feedIn f = false) :
    exec (.feedRestore f) s
      = .next (if s.power.phase = .rising then s.setFeed f true else (s.setFeed f true).raiseAttn attnPower) := by
  refine (if_neg (by simp [hon, hout])).trans ?_
  split <;> rfl

/-! ## Reset and boot (R424, R447, R470, R478) -/

theorem State.readKeys_firmware : s.readKeys.trust.firmware = s.trust.firmware := by
  unfold State.readKeys
  dsimp only
  split <;> rfl

/-- Where the ROM finds no slot that verifies, it runs the recovery path (R368, R424). -/
theorem State.boot_of_no_slot (h : s.trust.firmware.choose = none) :
    s.boot.power.recovery = true ∧ s.boot.power.phase = .ready ∧ s.boot.now = 0 ∧ s.boot.attention.service.getLsbD 2 = true := by
  rw [← State.readKeys_firmware] at h
  unfold State.boot
  dsimp only
  split
  next =>
    refine ⟨rfl, rfl, rfl, ?_⟩
    simp [State.raiseService]
  next f hsome => exact absurd (h.symm.trans hsome) (by simp)

/-- A slot that verifies runs: its stages are verified in the boot (R424). -/
theorem State.boot_of_slot {f : Firmware} (h : s.trust.firmware.choose = some f) :
    s.boot.power.phase = .boot ∧ s.boot.power.stage = 0 ∧ s.boot.now = 0 ∧ s.boot.trust.firmware = f.measured := by
  rw [← State.readKeys_firmware] at h
  unfold State.boot
  dsimp only
  split
  next hnone => exact absurd (h.symm.trans hnone) (by simp)
  next g hsome =>
    cases h.symm.trans hsome
    split <;> exact ⟨rfl, rfl, rfl, rfl⟩

theorem resetHoldRelease_of_held (hheld : s.power.phase = .held) (hself : s.power.selfHold = true) (hhigh : s.power.resetLow = false) :
    exec .resetHoldRelease s = .next s.sampleStraps.boot := if_pos ⟨hheld, hself, by simp [hhigh]⟩

theorem thermalTripRecovery_of_cool (hheld : s.power.phase = .held) (hhot : s.power.hotHold = true) (hhigh : s.power.resetLow = false)
    (hcool : ∀ t ∈ s.sensors, t < 100) : exec .thermalTripRecovery s = .next s.boot :=
  if_pos ⟨hheld, hhot, by simp [hhigh], by simpa using hcool⟩

/-- RESET_N goes high: a module that is held in reset samples the straps, and boots unless it must cool. -/
theorem resetNRelease_of_low (hlow : s.power.resetLow = true) :
    let t : State := { s with power := { s.power with resetLow := false } }
    exec .resetNRelease s = if s.power.phase ≠ .held then .next t
      else if s.power.hotHold then .next t.sampleStraps else .next t.sampleStraps.boot := if_neg (by simp [hlow])

/-! ## The repairs of a cold start (R462) -/

/-- `t` has come from `s` by the repair of rows, among them `rows`: each of those is marked no more, or counted among those that no row
repairs. -/
structure RowsRepaired (rows : List Nat) (s t : State) : Prop where
  marks : ∀ r ∈ t.health.lpddrMarks, r ∈ s.health.lpddrMarks
  unrepairable : ∀ r ∈ s.health.unrepairable, r ∈ t.health.unrepairable
  repaired : ∀ r ∈ rows, r ∉ t.health.lpddrMarks ∨ r ∈ t.health.unrepairable

theorem RowsRepaired.trans {t u : State} {rows rows' : List Nat} (h : RowsRepaired rows s t) (h' : RowsRepaired rows' t u) :
    RowsRepaired (rows ++ rows') s u where
  marks r hr := h.marks r (h'.marks r hr)
  unrepairable r hr := h'.unrepairable r (h.unrepairable r hr)
  repaired r hr := by
    rcases List.mem_append.mp hr with hr | hr
    · exact (h.repaired r hr).imp (fun hgone hmark => hgone (h'.marks r hmark)) (h'.unrepairable r)
    · exact h'.repaired r hr

theorem State.repairRow_repaired (row : Nat) : RowsRepaired [row] s (s.repairRow row) := by
  unfold State.repairRow
  dsimp only
  split
  · constructor <;> simp +contextual [State.spareEvent, State.freeNat]
  · constructor <;> simp +contextual [State.freeNat]

theorem foldl_repairRow_repaired (rows : List Nat) (s : State) : RowsRepaired rows s (rows.foldl State.repairRow s) := by
  induction rows generalizing s with
  | nil => exact ⟨fun _ h => h, fun _ h => h, by simp⟩
  | cons row rows ih => exact (State.repairRow_repaired row).trans (ih _)

theorem State.repairRows_repaired : RowsRepaired s.health.lpddrMarks s s.repairRows := by
  have h := foldl_repairRow_repaired (s.health.lpddrMarks.filter (fun r => !s.health.unrepairable.contains r)) s
  refine ⟨h.marks, h.unrepairable, fun r hr => ?_⟩
  by_cases hknown : r ∈ s.health.unrepairable
  · exact .inr (h.unrepairable r hknown)
  · exact h.repaired r (List.mem_filter.mpr ⟨hr, by simpa using hknown⟩)

/-- `t` has the settings, the trust and the power of `s`. -/
structure RepairKept (s t : State) : Prop where
  settings : t.settings = s.settings
  trust : t.trust = s.trust
  power : t.power = s.power

theorem State.repairRow_repairKept (row : Nat) : RepairKept s (s.repairRow row) := by
  unfold State.repairRow
  dsimp only
  split
  · constructor <;> simp [State.spareEvent, State.freeNat]
  · exact ⟨rfl, rfl, rfl⟩

theorem State.repairRows_repairKept : RepairKept s s.repairRows := by
  unfold State.repairRows
  generalize s.health.lpddrMarks.filter _ = rows
  induction rows generalizing s with
  | nil => exact ⟨rfl, rfl, rfl⟩
  | cons row rows ih =>
    obtain ⟨hsettings, htrust, hpower⟩ := ih (s := s.repairRow row)
    obtain ⟨hsettings', htrust', hpower'⟩ := State.repairRow_repairKept (s := s) row
    exact ⟨hsettings.trans hsettings', htrust.trans htrust', hpower.trans hpower'⟩

/-! ## The record of READY and the anti-rollback counter (R425) -/

theorem State.audit_firmware (e : AuditEvent) : (s.audit e).trust.firmware = s.trust.firmware := by
  unfold State.audit
  repeat' (first | rfl | dsimp only | split)

theorem State.audit_flashFault (e : AuditEvent) : (s.audit e).trust.flashFault = s.trust.flashFault := by
  unfold State.audit
  repeat' (first | rfl | dsimp only | split)

/-- The SVNs of the stages of the slot that runs. -/
def Firmware.svns (f : Firmware) : List Nat := (if f.runningB then f.slotB else f.slotA).filterMap (fun x => x.map FwStage.svn)

theorem State.raiseRollback_firmware :
    let f := s.trust.firmware
    s.raiseRollback.trust.firmware
      = if f.svns ≠ [] ∧ s.trust.flashFault = false then { f with rollback := max f.rollback (f.svns.foldl min 256) } else f := by
  intro f
  unfold State.raiseRollback
  dsimp only
  rw [← Firmware.svns]
  by_cases hraises : f.svns ≠ [] ∧ s.trust.flashFault = false
  · rw [if_pos hraises]
    obtain ⟨hsome, hflash⟩ := hraises
    split
    next hlow => rw [State.audit_firmware, Nat.max_eq_right hlow.1.le]
    next hhigh => rw [Nat.max_eq_left (by simpa [f, hsome, hflash] using hhigh)]
  · rw [if_neg hraises, if_neg]
    rintro ⟨-, hsome, hflash⟩
    exact hraises ⟨hsome, by simpa using hflash⟩

theorem State.raiseRollback_changes : ∃ x y, s.raiseRollback = { s with trust := x, attention := y } := by
  unfold State.raiseRollback
  dsimp only
  rw [← Firmware.svns]
  split
  · obtain ⟨x, y, h⟩ := State.audit_changes { s with trust := { s.trust with
      firmware := { s.trust.firmware with rollback := s.trust.firmware.svns.foldl min 256 } } } _
    exact ⟨x, y, h⟩
  · exact ⟨_, _, rfl⟩

/-! ## The groups take READY_STATE (R434, R447) -/

/-- The states of a list of groups into which the group `g` is put, where R434 admits it. -/
def State.statesWith (s : State) (x : GState) (gs : List GState) (g : Nat) : List GState :=
  if s.admits (gs.set g x) then gs.set g x else gs

/-- No group wakes. -/
def State.Steady (s : State) : Prop := ∀ p ∈ s.power.groups, p.waking = none

theorem State.Steady.groupPower (h : s.Steady) (g : Nat) : (s.groupPower g).waking = none := by
  rw [State.groupPower, List.getD_eq_getElem?_getD]
  cases hg : s.power.groups[g]? with
  | none => rfl
  | some p => exact h p (List.mem_of_getElem? hg)

theorem State.Steady.setGroup (h : s.Steady) (g : Nat) (x : GState) : (s.setGroup g { s.groupPower g with state := x }).Steady := by
  intro p hp
  rcases List.mem_or_eq_of_mem_set hp with hp | rfl
  · exact h p hp
  · exact h.groupPower g

theorem State.Steady.setGroup_groupStates (h : s.Steady) (g : Nat) (x : GState) :
    (s.setGroup g { s.groupPower g with state := x }).groupStates = s.groupStates.set g x := by
  simp [State.setGroup, State.groupStates, List.map_set, h.groupPower g]

/-- A group takes the state `x`, where R434 admits it. -/
def State.placeGroup (x : GState) (s : State) (g : Nat) : State :=
  if s.admits (s.groupStates.set g x) then s.setGroup g { s.groupPower g with state := x } else s

theorem State.Steady.foldl_placeGroup (h : s.Steady) (x : GState) (gs : List Nat) :
    (gs.foldl (State.placeGroup x) s).groupStates = gs.foldl (s.statesWith x) s.groupStates := by
  induction gs generalizing s with
  | nil => rfl
  | cons g gs ih =>
    rw [List.foldl_cons, List.foldl_cons]
    by_cases hadmits : s.admits (s.groupStates.set g x) = true
    case neg => rw [State.placeGroup, State.statesWith, if_neg hadmits, if_neg hadmits, ih h]
    case pos =>
      rw [State.placeGroup, State.statesWith, if_pos hadmits, if_pos hadmits, ih (h.setGroup g x), h.setGroup_groupStates]
      rfl

theorem State.touchGroups_groupStates (gs : List Nat) : (s.touchGroups gs).groupStates = s.groupStates := by
  have hmap : ((List.range s.power.groups.length).zip s.power.groups).map (fun y => y.2.waking.getD y.2.state)
      = s.power.groups.map (fun p => p.waking.getD p.state) := by
    rw [← Function.comp_def (fun p : GroupPower => p.waking.getD p.state) Prod.snd, ← List.map_map, List.map_snd_zip (by simp)]
  refine Eq.trans ?_ hmap
  simp only [State.touchGroups, State.groupStates, List.map_map]
  refine List.map_congr_left fun y _ => ?_
  dsimp only [Function.comp]
  split <;> rfl

theorem State.Steady.placeGroups_groupStates (h : s.Steady) :
    s.placeGroups.groupStates = (List.range 16).foldl (s.statesWith (.ofCode (s.setting 0x1003))) s.groupStates :=
  (State.touchGroups_groupStates _).trans (h.foldl_placeGroup _ _)

/-! ## READY (R447) -/

/-- What READY records (Table 13.7). -/
def State.readyRecord (s : State) : AuditEvent :=
  let f := s.trust.firmware
  { AuditEvent.device 0x0B with
    detail := leBytes 1 0 ++ leBytes 1 (if f.runningB then 1 else 0) ++ leBytes 1 (if f.fellBack then 1 else 0) }

/-- The rows repaired, READY recorded, and the anti-rollback counter raised. -/
def State.readied (s : State) : State := (s.repairRows.audit s.readyRecord).raiseRollback

theorem State.readied_settings : s.readied.settings = s.settings := by
  obtain ⟨_, _, h⟩ := State.raiseRollback_changes (s := s.repairRows.audit s.readyRecord)
  rw [State.readied, h]
  exact (State.audit_settings _ _).trans State.repairRows_repairKept.settings

theorem State.readied_power : s.readied.power = s.power := by
  obtain ⟨_, _, h⟩ := State.raiseRollback_changes (s := s.repairRows.audit s.readyRecord)
  rw [State.readied, h]
  exact (State.audit_power _ _).trans State.repairRows_repairKept.power

theorem State.readied_firmware :
    let f := s.trust.firmware
    s.readied.trust.firmware
      = if f.svns ≠ [] ∧ s.trust.flashFault = false then { f with rollback := max f.rollback (f.svns.foldl min 256) } else f := by
  have htrust := (State.repairRows_repairKept (s := s)).trust
  have h := State.raiseRollback_firmware (s := s.repairRows.audit s.readyRecord)
  rwa [State.audit_firmware, State.audit_flashFault, htrust] at h

theorem State.readied_bootCount : s.readied.trust.firmware.bootCount = s.trust.firmware.bootCount := by
  rw [State.readied_firmware]
  split <;> rfl

/-- READY adds 1 to BOOT_COUNT. -/
theorem ready_of_boot (hboot : s.power.phase = .boot) :
    let c := s.readied
    let t : State := { c with
      trust := { c.trust with firmware :=
        { c.trust.firmware with bootCount := s.trust.firmware.bootCount + 1, trial := false, tries := 0 } }
      power := { c.power with phase := .ready, stage := 3, capSeen := (0, 0) } }
    exec .ready s = .next (t.placeGroups.sharedFollow.lookAtCap).powerMove := by
  intro c
  rw [← State.readied_bootCount]
  exact if_neg (not_not.mpr hboot)

/-! ## REFCLK (R475) -/

section
variable {t u : State}

/-- No link of `t` is UP that is not UP in `s`. -/
def NoNewUp (s t : State) : Prop := ∀ j, (t.link j).state = .up → (s.link j).state = .up

theorem NoNewUp.refl (s : State) : NoNewUp s s := fun _ h => h

theorem NoNewUp.trans (h : NoNewUp s t) (h' : NoNewUp t u) : NoNewUp s u := fun j hj => h j (h' j hj)

theorem NoNewUp.foldl {α : Type} (xs : List α) (f : State → α → State) (hf : ∀ a x, NoNewUp a (f a x)) (s : State) :
    NoNewUp s (xs.foldl f s) := by
  induction xs generalizing s with
  | nil => exact .refl s
  | cons x xs ih => exact (hf s x).trans (ih _)

/-- A link read after a link is replaced: the new one, or what it was. -/
theorem State.link_setLink_or (i j : Nat) (l : Link) : j = i ∧ (s.setLink i l).link j = l ∨ (s.setLink i l).link j = s.link j := by
  by_cases hi : j = i ∧ i < s.net9.links.length
  · exact .inl ⟨hi.1, hi.1 ▸ State.link_setLink hi.2 l⟩
  · refine .inr ?_
    simp only [State.link, State.setLink, List.getD_eq_getElem?_getD, List.getElem?_set]
    split
    next heq =>
      rw [if_neg fun hlt => hi ⟨heq.symm, hlt⟩, List.getElem?_eq_none (by have := fun hlt => hi ⟨heq.symm, hlt⟩; omega)]
    next => rfl

theorem State.setLink_noNewUp {i : Nat} {l : Link} (h : l.state = .up → (s.link i).state = .up) : NoNewUp s (s.setLink i l) := by
  intro j hj
  rcases State.link_setLink_or (s := s) i j l with ⟨rfl, hnew⟩ | hold
  · exact h (by rwa [hnew] at hj)
  · rwa [hold] at hj

theorem State.route_noNewUp (f : Flit) : NoNewUp s (s.route f) := by
  unfold State.route
  dsimp only
  split
  · intro j hj
    rwa [State.count_link] at hj
  · split
    · exact .refl s
    · exact State.setLink_noNewUp id

theorem State.giveBack_noNewUp (i : Nat) : NoNewUp s (s.giveBack i) := by
  unfold State.giveBack
  refine NoNewUp.trans ?_ (.foldl _ _ (fun _ f => State.route_noNewUp f) _)
  exact State.setLink_noNewUp id

/-- Only a link that there is can be UP. -/
theorem State.lt_of_up {i : Nat} (h : (s.link i).state = .up) : i < s.net9.links.length := by
  by_contra hout
  rw [State.link, List.getD_eq_getElem?_getD, List.getElem?_eq_none (by omega)] at h
  cases h

theorem State.linkTo_down_noNewUp (i : Nat) : NoNewUp s (s.linkTo i .down) := by
  unfold State.linkTo
  dsimp only
  split
  · exact .refl s
  · have hdown : NoNewUp s ((s.setLink i { s.link i with state := .down, downAt := s.now }).linkChanged i) :=
      State.setLink_noNewUp (by simp)
    split
    · exact hdown.trans (State.giveBack_noNewUp i)
    · exact hdown

/-- A link that goes DOWN is not UP, whatever flits it gives back. -/
theorem State.linkTo_down_link {i : Nat} : ((s.linkTo i .down).link i).state ≠ .up := by
  by_cases hup : (s.link i).state = .up
  case neg => exact fun h => hup (State.linkTo_down_noNewUp i i h)
  case pos =>
    have hlink := State.link_setLink (State.lt_of_up hup) { s.link i with state := .down, downAt := s.now }
    unfold State.linkTo
    dsimp only
    rw [if_neg (by simp [hup]), if_pos hup]
    intro h
    have hstill := State.giveBack_noNewUp i i h
    exact absurd ((congrArg Link.state hlink).symm.trans hstill) (by simp)

/-- R475: without REFCLK a link that is UP goes DOWN. -/
def State.upDown (s : State) (i : Nat) : State := if (s.link i).state = .up then s.linkTo i .down else s

theorem State.upDown_noNewUp (i : Nat) : NoNewUp s (s.upDown i) := by
  unfold State.upDown
  split
  · exact State.linkTo_down_noNewUp i
  · exact .refl s

theorem State.upDown_link {i : Nat} : ((s.upDown i).link i).state ≠ .up := by
  unfold State.upDown
  split
  next => exact State.linkTo_down_link
  next hup => exact hup

theorem foldl_upDown_link (xs : List Nat) {i : Nat} (hi : i ∈ xs) (s : State) : ((xs.foldl State.upDown s).link i).state ≠ .up := by
  induction xs generalizing s with
  | nil => cases hi
  | cons x xs ih =>
    rcases List.mem_cons.mp hi with rfl | hi
    · exact fun h => State.upDown_link ((NoNewUp.foldl xs State.upDown (fun _ j => State.upDown_noNewUp j) _) i h)
    · exact ih hi _

theorem foldl_upDown_power (xs : List Nat) (s : State) : (xs.foldl State.upDown s).power = s.power := by
  refine (PowerKept.foldl xs State.upDown (fun a i => ?_) s).power
  unfold State.upDown
  split
  · exact State.linkTo_powerKept a i .down
  · exact .refl a

end

theorem State.raiseAttn_and_ne_zero {bits : BitVec 8} (h : bits ≠ 0) : (s.raiseAttn bits).attention.attn &&& bits ≠ 0 := by
  have : (s.raiseAttn bits).attention.attn &&& bits = bits := by
    ext i hi
    simp +contextual [State.raiseAttn]
  rwa [this]

/-! ## The pins together -/

/-- Settles O53, a pin at a time: what a feed or RESET_N does follows the phase; a slot that verifies decides the boot; READY is the
state of `State.readied`, in which the groups are placed; and at the loss of REFCLK every link is asked whether it is UP. -/
theorem pinRows : Obligations.PinRows := by
  unfold Obligations.PinRows
  intro s
  refine ⟨?losses, ?returns, ?dark, ?powerUp, ?rails, ?holds, ?straps, ⟨fun f => State.boot_of_slot, State.boot_of_no_slot⟩, ?low,
    ?high, ?ready, ?cores, ?clockLoss, rfl⟩
  case losses =>
    refine ⟨fun ha hb => ⟨?_, ?_⟩, fun ha hb => ?_, fun ha hb => ?_⟩
    · simpa [State.feedIn, hb, State.setFeed] using feedLoss_of_in (f := 0) (by decide) (show s.feedIn 0 = true from ha)
    · simpa [State.feedIn, ha, State.setFeed] using feedLoss_of_in (f := 1) (by decide) (show s.feedIn 1 = true from hb)
    · simpa [State.feedIn, hb] using feedLoss_of_in (f := 0) (by decide) (show s.feedIn 0 = true from ha)
    · simpa [State.feedIn, ha] using feedLoss_of_in (f := 1) (by decide) (show s.feedIn 1 = true from hb)
  case returns =>
    intro hon back
    exact ⟨fun ha => feedRestore_of_out hon (f := 0) ha, fun hb => feedRestore_of_out hon (f := 1) hb⟩
  case dark => exact ⟨_, rfl, rfl, rfl, rfl, rfl, rfl, rfl, rfl, rfl, rfl, rfl, rfl⟩
  case powerUp => exact fun f hoff => if_neg (not_not.mpr hoff)
  case rails => exact fun hrising => if_neg (not_not.mpr hrising)
  case holds =>
    exact fun hheld hhigh => ⟨fun hself => resetHoldRelease_of_held hheld hself hhigh,
      fun hhot hcool => thermalTripRecovery_of_cool hheld hhot hhigh hcool⟩
  case straps => exact ⟨_, Nat.mod_lt _ (by decide), rfl⟩
  case low =>
    intro r
    refine ⟨fun hoff => if_pos hoff, fun hon hup => ?_⟩
    exact ⟨if_neg (by simp [hon, hup]), rfl, rfl, rfl, rfl⟩
  case high =>
    intro hlow t
    have hrow := resetNRelease_of_low hlow
    exact ⟨fun hheld hcool => hrow.trans ((if_neg (not_not.mpr hheld)).trans (if_neg (by simp [hcool]))),
      fun hheld hhot => hrow.trans ((if_neg (not_not.mpr hheld)).trans (if_pos hhot)), fun hother => hrow.trans (if_pos hother)⟩
  case ready =>
    intro hboot f a b c t x svns
    refine ⟨ready_of_boot hboot, fun hsteady _ => ?groups, fun hsome hflash => ?rollback, ?repaired, ?marked⟩
    case groups =>
      have hpower : c.power = s.power := State.readied_power
      have hsettings : t.settings = s.settings := State.readied_settings
      have hsteady' : t.Steady := fun p hp => hsteady p (hpower ▸ show p ∈ c.power.groups from hp)
      have hstate : t.setting 0x1003 = s.setting 0x1003 := by simp only [State.setting, hsettings]
      have h := hsteady'.placeGroups_groupStates
      rw [hstate] at h
      exact h
    case rollback =>
      have h := (State.readied_firmware (s := s)).trans (if_pos ⟨hsome, hflash⟩)
      exact congrArg Firmware.rollback h
    case repaired => exact State.repairRows_repaired.repaired
    case marked => exact State.repairRows_repaired.marks
  case cores => exact fun hreset => if_pos hreset
  case clockLoss =>
    intro t
    have hpower : t.power = { s.power with refclk := false } := foldl_upDown_power (List.range 64) _
    exact ⟨rfl, State.raiseAttn_and_ne_zero (by decide), congrArg Power.refclk hpower,
      fun i hi => foldl_upDown_link _ (List.mem_range.mpr hi) _⟩

end Sys2Proof.Machine
end
